-- ==== Sys2Proof/Word.lean ====
section
/-!
DEFINITION. The word and byte types of the block (R5: registers are 64 bits wide; R149: memory is bytes).
-/
namespace Sys2Proof

/-- A 64-bit register or memory word (R5). -/
abbrev Word := BitVec 64

/-- A byte of memory. -/
abbrev Byte := BitVec 8

end Sys2Proof
end

