-- ==== Sys2Proof/Syntax.lean ====
section
/-!
DEFINITION. The commands: one constructor per row of spec/opcode_table.json, in the table's order.
Conventions: `q` a software queue; `w` the words of a command's packets, eight a packet (Table 2.9, R366); `t` the
timebase at which the event falls, in ns (R9); `c` a logical core 8n + k (Table 4.11); `g` a GE region; `d a b` scalar
registers of the control core (R223); `imm` the 32-bit IMM field.
-/
namespace Sys2Proof

/-- The core counter that a CC_SIGNAL names, with the TAG of its answer (Table 12.1, R138). -/
structure CcReq where
  tag : Nat
  k : Nat
deriving DecidableEq, Repr

/-- A stage found worn or failing verification, and the unit that holds it (R339, R340, R284). -/
structure Wear where
  stage : Nat          -- stage id (R302)
  kind : Nat           -- spare kind of its unit (Table 15.5)
  inst : Nat           -- instance of the unit within the kind
  margin : Nat         -- measured margin, in 1/256
  margin63 : Nat       -- margin at code 63
deriving DecidableEq, Repr, Inhabited

inductive Instr where
  -- Opcodes of Table 2.11
  | nop (q : Nat) (w : List Word)
  | graphLoad (q : Nat) (w : List Word)
  | graphLaunch (q : Nat) (w : List Word)
  | signal (q : Nat) (w : List Word)
  | wait (q : Nat) (w : List Word)
  | signalRemote (q : Nat) (w : List Word)
  | peerWrite (q : Nat) (w : List Word)
  | cancel (q : Nat) (w : List Word)
  | ctxCreate (q : Nat) (w : List Word)
  | ctxDestroy (q : Nat) (w : List Word)
  | ctxSuspend (q : Nat) (w : List Word)
  | ctxResume (q : Nat) (w : List Word)
  | counterMap (q : Nat) (w : List Word)
  | tilePool (q : Nat) (w : List Word)
  | geProgramLoad (q : Nat) (w : List Word)
  | flowConfig (q : Nat) (w : List Word)
  | carJoin (q : Nat) (w : List Word)
  | carLeave (q : Nat) (w : List Word)
  | carStep (q : Nat) (w : List Word)
  | delayPost (q : Nat) (w : List Word)
  | query (q : Nat) (w : List Word)
  | statSnapshot (q : Nat) (w : List Word)
  | queueReset (q : Nat) (w : List Word)
  | debugSetCounter (q : Nat) (w : List Word)
  | fwUpdate (q : Nat) (w : List Word)
  | studbookRead (q : Nat) (w : List Word)
  | healthAck (q : Nat) (w : List Word)
  | blockReset (q : Nat) (w : List Word)
  -- Queues, slots and firmware take-up
  | cfePacketCheck (q : Nat) (t : Nat)
  | fwTakeUp (role : Nat) (t : Nat)
  | fwBusyExpiry (q seq : Nat) (t : Nat)
  | dbTailWrite (q : Nat) (v : Word)
  | dbCplHeadWrite (q : Nat) (v : Word)
  | queueEnable (q : Nat)
  | queueDisable (q : Nat)
  | queue0Reset
  | qattrWrite (off : Nat) (v : Word)
  | cfeSlotQueueWrite (n : Nat) (v : Word)
  | displace (n : Nat)
  | slotEnableWrite (n : Nat) (enable : Bool)
  | slotGrant (n : Nat) (t : Nat)
  | slotDisplace (t : Nat)
  | slotIdleRelease (n : Nat) (t : Nat)
  | slotBlockedRelease (n : Nat) (t : Nat)
  | waitTimeout (q : Nat) (t : Nat)
  | graphWatchdog (q seq : Nat) (t : Nat)
  -- Dispatch
  | gdPop (t : Nat)
  | specOffer (n : Nat) (t : Nat)
  | spur (c : Nat) (t : Nat)
  | descFill (lane : Nat)
  | coreDone (c : Nat) (occ : Word) (t : Nat)
  | coreYield (c : Nat) (t : Nat)
  | coreSig (c vid inc : Nat)
  | coreWait (c tag vid : Nat) (expected : Word)
  | coreProbe (c tag vid : Nat)
  | ccSignal (c : Nat) (k : CcReq) (inc : Nat)
  | ccWait (c tag k : Nat)
  | ccTake (c tag k op : Nat)
  | ccRead (c tag k : Nat)
  | stageBeatRefused (c : Nat)
  | specAccessAttempt (c : Nat)
  | budgetExpiry (c : Nat) (t : Nat)
  | tileStallTimeout (c : Nat) (t : Nat)
  | portFault (c channel : Nat) (t : Nat)
  | delayTick (k : Nat)
  | delayTaskWake (t : Nat)
  | postedSignalWake (t : Nat)
  | postedLaunchWake (t : Nat)
  | quantumWindowEnd (ctx : Nat) (t : Nat)
  | suspendComplete (ctx : Nat) (t : Nat)
  | makeResident (t : Nat)
  -- Gating Engine tasks and the control core (Table 9.6)
  | geTaskStart (g : Nat) (t : Nat)
  | gePassEnd (g : Nat) (t : Nat)
  | gateBudgetExpiry (g : Nat) (t : Nat)
  | geNop (g : Nat)
  | li (g d : Nat) (imm : BitVec 32)
  | lih (g d : Nat) (imm : BitVec 32)
  | add (g d a b : Nat)
  | addi (g d a : Nat) (imm : BitVec 32)
  | sub (g d a b : Nat)
  | and (g d a b : Nat)
  | or (g d a b : Nat)
  | xor (g d a b : Nat)
  | shl (g d a b : Nat)
  | shr (g d a b : Nat)
  | mul (g d a b : Nat)
  | ctz (g d a : Nat)
  | fadd (g d a b : Nat)
  | fsub (g d a b : Nat)
  | fmul (g d a b : Nat)
  | fdiv (g d a b : Nat)
  | fsqrt (g d a : Nat)
  | flt (g d a b : Nat)
  | fle (g d a b : Nat)
  | fcvt (g d a : Nat)
  | icvt (g d a : Nat)
  | ld (g d a : Nat) (imm : BitVec 32)
  | st (g a b : Nat) (imm : BitVec 32)
  | bind (g d : Nat) (imm : BitVec 32)
  | beq (g a b : Nat) (imm : BitVec 32)
  | bne (g a b : Nat) (imm : BitVec 32)
  | blt (g a b : Nat) (imm : BitVec 32)
  | bge (g a b : Nat) (imm : BitVec 32)
  | bltu (g a b : Nat) (imm : BitVec 32)
  | jmp (g : Nat) (imm : BitVec 32)
  | run (g a b : Nat)
  | sum (g d : Nat) (imm : BitVec 32)
  | geSig (g a b : Nat)
  | geLaunch (g d a b : Nat) (t : Nat)
  | shape (g d a b : Nat)
  | skip (g d a : Nat)
  | endTask (g : Nat) (imm : BitVec 32) (t : Nat)
  -- Relay
  | relaySend (c tag : Nat) (hdr : Word) (payload : List Word)
  | relayDeliver (c ch : Nat)
  | operandPortRead (c slot port : Nat)
  -- Trailing signals (Table 5.5)
  | trailSend (t : Nat)
  | trailReceive (w0 w1 w2 : Word)
  | trailAckReceive (w0 w1 w2 w3 : Word)
  | trailTimeout (dest seq : Nat) (t : Nat)
  | linkReset (herd : Nat)
  | linkUnreachable (herd : Nat)
  -- Event lines
  | evtEdge (n : Nat) (t : Nat)
  | evtStuck (n : Nat) (t : Nat)
  | stuckRearm (n : Nat)
  | evtActWrite (n : Nat) (v : Word)
  | evtCountWrite (n : Nat) (v : Word)
  -- Gaits, power and starts
  | gaitReq (sel : Nat) (t : Nat)
  | gaitAck (t : Nat)
  | gaitDone (bad : List Wear) (t : Nat)
  | tthGaitReq (target : Nat)
  | powerOn (t : Nat)
  | pwrFail (t : Nat)
  | reserveDrain (t : Nat)
  | warmReset (t : Nat)
  | coldReset (t : Nat)
  | firmwareRestart (t : Nat)
  | recover (t : Nat)
  | startEnd (t : Nat)
  | startWatchdog (t : Nat)
  | enum
  | tetherNoAnswer (p : Nat)
  | groom (temp : Int) (failed : List Wear)
  -- Firmware cores and mailbox
  | fwCoreTrap (k : Nat) (mcause : Word) (t : Nat)
  | fwWatchdog (k : Nat) (t : Nat)
  | fwRestartEnd (k : Nat) (t : Nat)
  | ping (arg : Nat)
  | policyRead (arg : Nat)
  | policyWrite (arg : Nat) (v : Word)
  | setHerdGroup (arg : Nat) (v : Word)
  | restartCore (k : Nat) (t : Nat)
  -- I3C and MCTP
  | entdaa (da : Nat)
  | rstdaa
  | i3cCcc (code : Nat) (data : Nat)
  | healthGet
  | mctpStudbookRead (first : Nat)
  | mctpControl (code : Nat) (data : Nat)
  -- Debug window and register commands
  | ctuDbgRead
  | ctuDbgSet
  | ctuDbgHalt
  | ctuDbgResume
  | flush
  | icacheInv (g : Nat)
  | statClear
  | irqEnableWrite (v : Word)
  | irqStatusClear (v : Word)
  | errRingEnable (v : Word)
  | errHeadWrite (v : Word)
  | registerWrite (off : Nat) (v : Word) (width : Nat)
  -- Faults and service
  | sramError (storage inst row : Nat) (uncorrectable : Bool) (t : Nat)
  | wearDetect (x : Wear) (t : Nat)
  | remount (kind inst cause : Nat) (t : Nat)
  | studbookFlush
  | gaitRequestAnswer (denied : Bool)
  | suspendDrainLimit (ctx : Nat) (t : Nat)
  | ptrMismatch (kind inst ctx : Nat) (t : Nat)
  | evtLineFall (n : Nat) (t : Nat)
  | powerFall
  | pwrFailRelease (t : Nat)
  | ibiAcknowledge (cause : Nat)
deriving DecidableEq, Repr

end Sys2Proof
end

