-- ==== Sys2Proof/Decode.lean ====
section
/-!
DEFINITION. The word form of a command. No row of spec/opcode_table.json gives bits: its `fields` lists are empty. A
command comes from outside with its operands, so no word spells one, and the decoder answers none on every word.
Beside it stands the control core's 64-bit instruction encoding (R223, Table 9.6): `geInstr` reads the row of an instruction word.
-/
namespace Sys2Proof

/-- The command that the word `w` of `nbits` bits spells by the table's bits: none, since no row gives any. -/
def decodeTableWord (_nbits _w : Nat) : Option Instr := none

/-- The row of the control-core instruction that the word `w` encodes on engine `g`, decoded at time `t` (R223, Table 9.6): OP is
[63:56], D [55:51], A [50:46], B [45:41], IMM [31:0]. A word whose OP the table does not list, or whose reserved field [40:32] is
not zero, is illegal: none. -/
def geInstr (g t : Nat) (w : Word) : Option Instr :=
  let d := (w.extractLsb' 51 5).toNat
  let a := (w.extractLsb' 46 5).toNat
  let b := (w.extractLsb' 41 5).toNat
  let imm : BitVec 32 := w.extractLsb' 0 32
  if w.extractLsb' 32 9 ≠ 0 then none
  else match (w.extractLsb' 56 8).toNat with
    | 0x00 => some (.geNop g)
    | 0x01 => some (.li g d imm)
    | 0x02 => some (.lih g d imm)
    | 0x03 => some (.add g d a b)
    | 0x04 => some (.addi g d a imm)
    | 0x05 => some (.sub g d a b)
    | 0x06 => some (.and g d a b)
    | 0x07 => some (.or g d a b)
    | 0x08 => some (.xor g d a b)
    | 0x09 => some (.shl g d a b)
    | 0x0A => some (.shr g d a b)
    | 0x0B => some (.mul g d a b)
    | 0x0C => some (.ctz g d a)
    | 0x10 => some (.fadd g d a b)
    | 0x11 => some (.fsub g d a b)
    | 0x12 => some (.fmul g d a b)
    | 0x13 => some (.fdiv g d a b)
    | 0x14 => some (.fsqrt g d a)
    | 0x15 => some (.flt g d a b)
    | 0x16 => some (.fle g d a b)
    | 0x17 => some (.fcvt g d a)
    | 0x18 => some (.icvt g d a)
    | 0x20 => some (.ld g d a imm)
    | 0x21 => some (.st g a b imm)
    | 0x22 => some (.bind g d imm)
    | 0x28 => some (.beq g a b imm)
    | 0x29 => some (.bne g a b imm)
    | 0x2A => some (.blt g a b imm)
    | 0x2B => some (.bge g a b imm)
    | 0x2C => some (.bltu g a b imm)
    | 0x2D => some (.jmp g imm)
    | 0x30 => some (.run g a b)
    | 0x31 => some (.sum g d imm)
    | 0x38 => some (.geSig g a b)
    | 0x39 => some (.geLaunch g d a b t)
    | 0x3A => some (.shape g d a b)
    | 0x3B => some (.skip g d a)
    | 0x3F => some (.endTask g imm t)
    | _ => none

end Sys2Proof
end

