-- ==== Sys2Proof/Config.lean ====
section
/-!
DEFINITION. What a device fixes (Table 0.1), and the free values: constants without a body, so that nothing can be
proved about them. R3: sizes are parameters; both devices carry the same design.
-/
namespace Sys2Proof

/-- The two dies (00, "The two devices"). -/
inductive Device where
  | xs144
  | xs64
deriving DecidableEq, Repr, Inhabited

namespace Device

/-- Pick the XS-144 value or the XS-64 value. -/
def pick (d : Device) (a b : Nat) : Nat := match d with
  | .xs144 => a
  | .xs64 => b

/-- Clusters (Table 0.1). -/
def clusters (d : Device) : Nat := d.pick 18 8
/-- Rows of the tether (13, "The tether"). -/
def rows (d : Device) : Nat := d.pick 2 1
/-- Active places of one tether row (R300). -/
def rowLen (d : Device) : Nat := d.pick 9 8
/-- Physical sequencer positions (R299). -/
def positions (d : Device) : Nat := d.pick 20 9
/-- Heap banks in service on an unrepaired device. -/
def banks (d : Device) : Nat := d.pick 16 8
/-- Spare heap banks. -/
def bankSpares (d : Device) : Nat := d.pick 2 1
/-- Memory slices. -/
def slices (d : Device) : Nat := d.pick 16 8
/-- Software queues. -/
def queues (d : Device) : Nat := d.pick 1024 512
/-- Hardware slots. -/
def slots (d : Device) : Nat := d.pick 32 16
/-- Resident places (R162). -/
def places (d : Device) : Nat := d.pick 64 32
/-- Physical counters. -/
def counters (d : Device) : Nat := d.pick 262144 131072
/-- Counters kept out of the mapping limit (R134). -/
def counterReserve (d : Device) : Nat := d.pick 16384 8192
/-- Waiter records that the CTU caches (R128). -/
def waiterCache (d : Device) : Nat := d.pick 16384 8192
/-- On-chip entries of the delay list (R108). -/
def delays (d : Device) : Nat := d.pick 8192 4096
/-- Carousel sequence slots (R243). -/
def carSlots (d : Device) : Nat := d.pick 4096 2048
/-- Prediction-table entries (R192). -/
def predictions (d : Device) : Nat := d.pick 4096 2048
/-- Descriptor-cache sets (R90), as a base-2 logarithm. -/
def dcSetLog (d : Device) : Nat := d.pick 10 9
/-- GE regions of clusters; the global engine keeps region 18 (00). -/
def geRegions (d : Device) : Nat := d.pick 18 8
/-- FP32 lanes of a GE (R208). -/
def geLanes (d : Device) : Nat := d.pick 128 64
/-- Spare lanes of a GE (R208). -/
def geSpares (d : Device) : Nat := d.pick 4 2
/-- Physical firmware cores (R314). -/
def fwCores (d : Device) : Nat := d.pick 5 2
/-- Firmware cores active at a first cold start (Table 14.1). -/
def fwActive (d : Device) : Nat := d.pick 4 1
/-- Firmware SRAM in KiB (Table 14.1). -/
def sramKib (d : Device) : Nat := d.pick 2048 1024
/-- Bundled-data stages (R302). -/
def stages (d : Device) : Nat := d.pick 38400 17920
/-- Spares of each kind on an unrepaired device (Table 15.11). -/
def spareMapReset (d : Device) : Word := BitVec.ofNat 64 (d.pick 0x1012014C08020212 0x1008011204010108)

end Device

namespace Config

/-- How many internal actions one command settles at most (assumption 9); what is left stays in `work`. -/
def settleFuel : Nat := 1000000

/-- Free value number `k`, of `n` bits, for a value the manual leaves open (assumption 13). -/
opaque freeValue (n k : Nat) : BitVec n

/-- Which of the values within 2 ulp EXP gives in a lane format of 32 or 64 bits, under a rounding mode: the manual states none
(R214, assumption 12). -/
opaque expLane (bits mode : Nat) (x : Word) : BitVec 2

/-- The same for LOG (R214, assumption 12). -/
opaque logLane (bits mode : Nat) (x : Word) : BitVec 2

/-- The key hash of the ROM mask, which the manual does not give (R308 check 2, assumption 14). -/
opaque romKeyHash : BitVec 384

end Config
end Sys2Proof
end

