-- ==== Sys2Proof/Machine/Crypto.lean ====
section
/-!
DEFINITION. The cryptographic checks that R308 names by their standards: SHA-384 (FIPS 180-4) and ECDSA verification on P-384
(FIPS 186-4, SEC 1). The manual gives neither algorithm; both are taken from the standards (PRESUMED, assumption 14).
-/
namespace Sys2Proof.Machine

/-! ## SHA-384 -/

/-- A big-endian number. -/
def beNat (bs : List Byte) : Nat := bs.foldl (fun n b => 256 * n + b.toNat) 0

/-- The bytes of a number, most significant first. -/
def beBytes (n x : Nat) : List Byte := (List.range n).map fun i => BitVec.ofNat 8 (x / 256 ^ (n - 1 - i))

/-- The round constants, in four parts. -/
def shaK0 : List Word :=
  [0x428A2F98D728AE22, 0x7137449123EF65CD, 0xB5C0FBCFEC4D3B2F, 0xE9B5DBA58189DBBC] ++
  [0x3956C25BF348B538, 0x59F111F1B605D019, 0x923F82A4AF194F9B, 0xAB1C5ED5DA6D8118] ++
  [0xD807AA98A3030242, 0x12835B0145706FBE, 0x243185BE4EE4B28C, 0x550C7DC3D5FFB4E2] ++
  [0x72BE5D74F27B896F, 0x80DEB1FE3B1696B1, 0x9BDC06A725C71235, 0xC19BF174CF692694] ++
  [0xE49B69C19EF14AD2, 0xEFBE4786384F25E3, 0x0FC19DC68B8CD5B5, 0x240CA1CC77AC9C65]
def shaK1 : List Word :=
  [0x2DE92C6F592B0275, 0x4A7484AA6EA6E483, 0x5CB0A9DCBD41FBD4, 0x76F988DA831153B5] ++
  [0x983E5152EE66DFAB, 0xA831C66D2DB43210, 0xB00327C898FB213F, 0xBF597FC7BEEF0EE4] ++
  [0xC6E00BF33DA88FC2, 0xD5A79147930AA725, 0x06CA6351E003826F, 0x142929670A0E6E70] ++
  [0x27B70A8546D22FFC, 0x2E1B21385C26C926, 0x4D2C6DFC5AC42AED, 0x53380D139D95B3DF] ++
  [0x650A73548BAF63DE, 0x766A0ABB3C77B2A8, 0x81C2C92E47EDAEE6, 0x92722C851482353B]
def shaK2 : List Word :=
  [0xA2BFE8A14CF10364, 0xA81A664BBC423001, 0xC24B8B70D0F89791, 0xC76C51A30654BE30] ++
  [0xD192E819D6EF5218, 0xD69906245565A910, 0xF40E35855771202A, 0x106AA07032BBD1B8] ++
  [0x19A4C116B8D2D0C8, 0x1E376C085141AB53, 0x2748774CDF8EEB99, 0x34B0BCB5E19B48A8] ++
  [0x391C0CB3C5C95A63, 0x4ED8AA4AE3418ACB, 0x5B9CCA4F7763E373, 0x682E6FF3D6B2B8A3] ++
  [0x748F82EE5DEFB2FC, 0x78A5636F43172F60, 0x84C87814A1F0AB72, 0x8CC702081A6439EC]
def shaK3 : List Word :=
  [0x90BEFFFA23631E28, 0xA4506CEBDE82BDE9, 0xBEF9A3F7B2C67915, 0xC67178F2E372532B] ++
  [0xCA273ECEEA26619C, 0xD186B8C721C0C207, 0xEADA7DD6CDE0EB1E, 0xF57D4F7FEE6ED178] ++
  [0x06F067AA72176FBA, 0x0A637DC5A2C898A6, 0x113F9804BEF90DAE, 0x1B710B35131C471B] ++
  [0x28DB77F523047D84, 0x32CAAB7B40C72493, 0x3C9EBE0A15C9BEBC, 0x431D67C49C100D4C] ++
  [0x4CC5D4BECB3E42B6, 0x597F299CFC657E2A, 0x5FCB6FAB3AD6FAEC, 0x6C44198C4A475817]
def shaK : List Word := shaK0 ++ shaK1 ++ shaK2 ++ shaK3

/-- The initial hash value. -/
def shaInit : List Word :=
  [0xCBBB9D5DC1059ED8, 0x629A292A367CD507, 0x9159015A3070DD17, 0x152FECD8F70E5939] ++
  [0x67332667FFC00B31, 0x8EB44A8768581511, 0xDB0C2E0D64F98FA7, 0x47B5481DBEFA4FA4]

/-- `n` more words of the message schedule, the newest first. -/
def shaSchedule : Nat → List Word → List Word
  | 0, w => w
  | n + 1, w =>
    let a := w.getD 14 0
    let b := w.getD 1 0
    let s0 := a.rotateRight 1 ^^^ a.rotateRight 8 ^^^ (a >>> 7)
    let s1 := b.rotateRight 19 ^^^ b.rotateRight 61 ^^^ (b >>> 6)
    shaSchedule n ((s1 + w.getD 6 0 + s0 + w.getD 15 0) :: w)

/-- One round on the working variables a to h, with the constant plus the schedule word. -/
def shaRound (v : List Word) (kw : Word) : List Word := match v with
  | [a, b, c, d, e, f, g, h] =>
    let t1 := h + (e.rotateRight 14 ^^^ e.rotateRight 18 ^^^ e.rotateRight 41) + ((e &&& f) ^^^ (~~~e &&& g)) + kw
    let t2 := (a.rotateRight 28 ^^^ a.rotateRight 34 ^^^ a.rotateRight 39) + ((a &&& b) ^^^ (a &&& c) ^^^ (b &&& c))
    [t1 + t2, a, b, c, d + t1, e, f, g]
  | _ => v

/-- One block of 128 bytes. -/
def shaBlock (h : List Word) (block : List Byte) : List Word :=
  let w := (List.range 16).map fun i => BitVec.ofNat 64 (beNat ((block.drop (8 * i)).take 8))
  let ws := (shaSchedule 64 w.reverse).reverse
  List.zipWith (· + ·) h ((List.zipWith (· + ·) shaK ws).foldl shaRound h)

/-- The padded message. -/
def shaPad (bs : List Byte) : List Byte :=
  bs ++ 0x80 :: List.replicate ((239 - bs.length % 128) % 128) 0 ++ beBytes 16 (8 * bs.length)

/-- SHA-384. -/
def sha384 (bs : List Byte) : List Byte :=
  let m := shaPad bs
  let h := (List.range (m.length / 128)).foldl (fun h i => shaBlock h ((m.drop (128 * i)).take 128)) shaInit
  (h.take 6).flatMap fun x => beBytes 8 x.toNat

/-! ## P-384 -/

/-- The field's prime, the curve's b, the order of its base point, and that point. -/
def p384 : Nat := 2 ^ 384 - 2 ^ 128 - 2 ^ 96 + 2 ^ 32 - 1
def p384b : Nat :=
  0xB3312FA7E23EE7E4988E056BE3F82D19181D9C6EFE8141120314088F5013875AC656398D8A2ED19D2A85C8EDD3EC2AEF
def p384n : Nat :=
  0xFFFFFFFFFFFFFFFFFFFFFFFFFFFFFFFFFFFFFFFFFFFFFFFFC7634D81F4372DDF581A0DB248B0A77AECEC196ACCC52973
def p384g : Nat × Nat :=
  (0xAA87CA22BE8B05378EB1C71EF320AD746E1D3B628BA79B9859F741E082542A385502F25DBF55296C3A545E3872760AB7,
   0x3617DE4A96262C6F5D9E98BF9292DC29F8F41DBD289A147CE9DA3113B5F0B8C00A60B1CE1D7E819D7A431D7C90EA0E5F)

/-- The bits of a number of 384 bits, from the top, drive a fold. -/
def foldBits {α : Type} (k : Nat) (f : α → Bool → α) (z : α) : α := (List.range 384).foldl (fun a i => f a (k.testBit (383 - i))) z

/-- x to the power k, modulo m. -/
def powMod (x k m : Nat) : Nat := foldBits k (fun a b => if b then a * a % m * x % m else a * a % m) 1

/-- The inverse modulo a prime. -/
def invMod (x m : Nat) : Nat := powMod x (m - 2) m

/-- A point lies on the curve y^2 = x^3 - 3 x + b. -/
def onCurve (q : Nat × Nat) : Bool :=
  decide (q.1 < p384) && decide (q.2 < p384) &&
    decide (q.2 * q.2 % p384 = (q.1 * q.1 % p384 * q.1 + (p384 - 3) * q.1 + p384b) % p384)

/-- The third point of a line of slope `l` through two points with these coordinates, reflected. -/
def chord (l : Nat) (a : Nat × Nat) (x : Nat) : Nat × Nat :=
  let x3 := (l * l + 2 * p384 - a.1 - x) % p384
  (x3, (l * (a.1 + p384 - x3) + p384 - a.2) % p384)

/-- The sum of two points; none is the point at infinity. -/
def pointAdd : Option (Nat × Nat) → Option (Nat × Nat) → Option (Nat × Nat)
  | none, b => b
  | a, none => a
  | some a, some b =>
    if a.1 ≠ b.1 then some (chord ((b.2 + p384 - a.2) * invMod ((b.1 + p384 - a.1) % p384) p384 % p384) a b.1)
    else if (a.2 + b.2) % p384 = 0 then none
    else some (chord ((3 * a.1 * a.1 + p384 - 3) * invMod (2 * a.2 % p384) p384 % p384) a b.1)

/-- k times a point. -/
def pointMul (k : Nat) (q : Nat × Nat) : Option (Nat × Nat) :=
  foldBits k (fun a b => let d := pointAdd a a; if b then pointAdd d (some q) else d) none

/-- ECDSA verification: r and s over a hash, under an uncompressed public key (0x04, X, Y). -/
def ecdsaOk (hash key sig : List Byte) : Bool :=
  let q := (beNat ((key.drop 1).take 48), beNat ((key.drop 49).take 48))
  let r := beNat (sig.take 48)
  let s := beNat ((sig.drop 48).take 48)
  let w := invMod s p384n
  let ok := decide (key.take 1 = [0x04]) && onCurve q && decide (1 ≤ r) && decide (r < p384n) && decide (1 ≤ s) &&
    decide (s < p384n)
  ok && match pointAdd (pointMul (beNat hash * w % p384n) p384g) (pointMul (r * w % p384n) q) with
    | some x => decide (x.1 % p384n = r)
    | none => false

/-! ## The checks of R308 -/

/-- Check 2: SHA-384 of the public key equals the key hash of the ROM mask. -/
def keyOk (pubkey : List Byte) : Bool := decide (sha384 pubkey = beBytes 48 Config.romKeyHash.toNat)

/-- Check 3: a valid ECDSA P-384 signature over the SHA-384 of the header. -/
def signatureOk (header pubkey sig : List Byte) : Bool := ecdsaOk (sha384 header) pubkey sig

/-- Check 4: SHA-384 of the body equals BODY_HASH. -/
def bodyHashOk (body hash : List Byte) : Bool := decide (sha384 body = hash)

end Sys2Proof.Machine
end

