-- ==== Sys2Proof/Machine/Bits.lean ====
section
/-!
DEFINITION. Bit fields, keyed lists and the checksums the manual names (R44, R191, R305, R347).
-/
namespace Sys2Proof.Machine

/-- Field [hi:lo] of a word, as a number (00, "Numbers, bits and units"). -/
def bits (w : Word) (hi lo : Nat) : Nat := (w.toNat >>> lo) % 2 ^ (hi + 1 - lo)

/-- Bit `i` of a word. -/
def bit (w : Word) (i : Nat) : Bool := w.toNat.testBit i

/-- A word from a number. -/
def wd (n : Nat) : Word := BitVec.ofNat 64 n

/-- `v` placed at bit `lo`, cut to `n` bits. -/
def fld (v n lo : Nat) : Nat := (v % 2 ^ n) <<< lo

/-- 1 for true, 0 for false. -/
def b2n (b : Bool) : Nat := if b then 1 else 0

/-- Word `i` of a list of words; words past its end read 0. -/
def wordAt (ws : List Word) (i : Nat) : Word := ws.getD i 0

/-- A number kept below a saturation value. -/
def sat (bound n : Nat) : Nat := min n bound

/-! ## Keyed lists: at most one entry a key -/

/-- The value stored under a key. -/
def AL.get? {κ α : Type} [DecidableEq κ] (k : κ) : List (κ × α) → Option α
  | [] => none
  | (k', v) :: r => if k' = k then some v else AL.get? k r

/-- The value stored under a key, or the default of its type. -/
def AL.get {κ α : Type} [DecidableEq κ] [Inhabited α] (m : List (κ × α)) (k : κ) : α :=
  (AL.get? k m).getD default

/-- Store a value under a key. -/
def AL.put {κ α : Type} [DecidableEq κ] (k : κ) (v : α) : List (κ × α) → List (κ × α)
  | [] => [(k, v)]
  | (k', v') :: r => if k' = k then (k, v) :: r else (k', v') :: AL.put k v r

/-- Change the value stored under a key. -/
def AL.upd {κ α : Type} [DecidableEq κ] [Inhabited α] (m : List (κ × α)) (k : κ) (f : α → α) : List (κ × α) :=
  AL.put k (f (AL.get m k)) m

/-- Remove a key. -/
def AL.del {κ α : Type} [DecidableEq κ] (m : List (κ × α)) (k : κ) : List (κ × α) :=
  m.filter fun p => decide (p.1 ≠ k)

/-- Whether a key is stored. -/
def AL.has {κ α : Type} [DecidableEq κ] (m : List (κ × α)) (k : κ) : Bool := (AL.get? k m).isSome

/-- The first element of a list of numbers' range `0..n-1` that is not in `used`, if any. -/
def lowestFree (n : Nat) (used : List Nat) : Option Nat := (List.range n).find? fun i => !used.contains i

/-- The element with the least value of `f`, the first of equals. -/
def argMin {α : Type} (f : α → Nat) : List α → Option α
  | [] => none
  | x :: r => match argMin f r with
    | none => some x
    | some y => if f y < f x then some y else some x

/-- Insert before the first element that `before x` does not place earlier: stable sorted insertion. -/
def insertBy {α : Type} (lt : α → α → Bool) (x : α) : List α → List α
  | [] => [x]
  | y :: r => if lt x y then x :: y :: r else y :: insertBy lt x r

/-! ## Runs of entries: first entry, length -/

/-- The free runs between sorted runs of entries, from `pos` up to `limit`. -/
def gaps (pos limit : Nat) : List (Nat × Nat) → List (Nat × Nat)
  | [] => if pos < limit then [(pos, limit - pos)] else []
  | (a, n) :: r => (if pos < a then [(pos, a - pos)] else []) ++ gaps (max pos (a + n)) limit r

/-- The first `n` entries of runs. -/
def takeRuns (n : Nat) : List (Nat × Nat) → List (Nat × Nat)
  | [] => []
  | (a, k) :: r => if n = 0 then [] else (a, min n k) :: takeRuns (n - k) r

/-- Entry `i` of runs. -/
def runAt? : List (Nat × Nat) → Nat → Option Nat
  | [], _ => none
  | (a, k) :: r, i => if i < k then some (a + i) else runAt? r (i - k)

/-- Round up to a multiple. -/
def roundUp (n m : Nat) : Nat := (n + m - 1) / m * m

/-! ## Bytes and checksums -/

/-- The eight bytes of a word, lowest address first (R5). -/
def wordBytes (w : Word) : List Byte := (List.range 8).map fun i => BitVec.ofNat 8 (w.toNat >>> (8 * i))

/-- One byte of CRC-16/CCITT-FALSE (R44). -/
def crc16Byte (crc : Nat) (b : Byte) : Nat :=
  (List.range 8).foldl (fun c _ => if c.testBit 15 then ((c <<< 1) ^^^ 0x1021) % 0x10000 else (c <<< 1) % 0x10000)
    (crc ^^^ (b.toNat <<< 8))

/-- CRC-16/CCITT-FALSE over bytes in address order (R44). -/
def crc16 (bs : List Byte) : Nat := bs.foldl crc16Byte 0xFFFF

/-- One byte of a reflected CRC with polynomial `poly`. -/
def crcRByte (poly crc : Nat) (b : Byte) : Nat :=
  (List.range 8).foldl (fun c _ => if c.testBit 0 then (c >>> 1) ^^^ poly else c >>> 1) (crc ^^^ b.toNat)

/-- CRC-32C (R305, R347). -/
def crc32c (bs : List Byte) : Nat := bs.foldl (crcRByte 0x82F63B78) 0xFFFFFFFF ^^^ 0xFFFFFFFF

/-- CRC-64/XZ (R191). -/
def crc64xz (bs : List Byte) : Nat :=
  bs.foldl (crcRByte 0xC96C5795D7870F42) 0xFFFFFFFFFFFFFFFF ^^^ 0xFFFFFFFFFFFFFFFF

/-- CHECK of an exported handle: XOR of its bytes 7 to 1 (Table 5.4b). -/
def handleCheck (h : Word) : Nat := ((wordBytes h).drop 1).foldl (fun x b => x ^^^ b.toNat) 0

/-- Sign-extend a number of `n` bits to 64 bits (R223). -/
def sext (n : Nat) (v : Nat) : Word :=
  if v.testBit (n - 1) then wd (v % 2 ^ n + 2 ^ 64 - 2 ^ n) else wd (v % 2 ^ n)

end Sys2Proof.Machine
end

