-- ==== Sys2Proof/Machine/State.lean ====
section
/-!
DEFINITION. The block's state as plain data: every register, queue, table and pin the manual gives it, the queue of
waiting commands, the memories it reaches, and its outputs. INVENTORY.md '## State' lists each with its rule.
Maps are lists of (key, value) pairs, one a key, in order of first write; a key not listed has its default value.
-/
namespace Sys2Proof.Machine

/-! ## Queues and commands (02) -/

/-- Queue states (Table 2.6). -/
inductive QState where
  | disabled | idle | pending | slotted | blocked | guilty | resetting
deriving DecidableEq, Repr, Inhabited

/-- Status codes (Table 2.17). -/
inductive Status where
  | ok | partialOk | badOpcode | badParam | noResource | ctxFault | queueGuilty | cancelled | timeout | poisoned
  | denied | fwBusy | remoteUnreachable
deriving DecidableEq, Repr, Inhabited

/-- Where a started command stands (R51, R317). -/
inductive Phase where
  | running     -- hardware path, started
  | fwQueued    -- in its role's command queue
  | takenUp     -- journalled by its role's core
deriving DecidableEq, Repr, Inhabited

/-- A command that has started and has not completed (R51). -/
structure Cmd where
  words : List Word := []          -- its packets
  phase : Phase := .running
  start : Nat := 0                 -- time of its start; for a launch, the launch time (R62 cause 7)
  stop0 : Nat := 0                 -- its context's stopped time at that start (R145, R164)
  watched : Bool := false          -- a root command: the graph watchdog runs (R88)
  launch : Nat := 0                -- q of the launch, or a of the step (R56)
  failed : List Nat := []          -- failed parts (R57)
  parts : List Nat := []           -- parts not yet settled (R57)
  insts : Nat := 0                 -- live instances that belong to it (R88)
  actions : Nat := 0               -- actions posted by its instances and still pending (R88)
  posted : Bool := false           -- a DELAY_POST whose action is still on the delay list (R53)
  result : Word := 0               -- status w2 of a COUNTER_MAP with EXPORT
  targets : List Nat := []         -- a CANCEL's targets not yet completed (R59)
  hits : Nat := 0                  -- a CANCEL's targets completed CANCELLED
  cancelled : Bool := false        -- a CANCEL reached it (R59)
  flag : Bool := false             -- a saturation seen by a SIGNAL
  core : Option Nat := none        -- the firmware core whose journal records it (R314, R319)
deriving DecidableEq, Repr, Inhabited

/-- A software queue (Tables 2.2 to 2.7). -/
structure Queue where
  ring : Word := 0
  cpl : Word := 0
  ctxReg : Word := 0
  waitNs : Nat := 0x6FC23AC00
  graphNs : Nat := 0xDF8475800
  st : QState := .disabled
  cause : Nat := 0
  head : BitVec 32 := 0
  tail : BitVec 32 := 0            -- recorded tail (R36)
  deadline : Nat := 0xFFFFFFFFFFFFFFFF
  pendDl : Nat := 0xFFFFFFFFFFFFFFFF   -- pending deadline (R39)
  consumed : BitVec 32 := 0
  written : Nat := 0               -- status records written (R29)
  reserved : Nat := 0              -- status records reserved (R30)
  slotAt : Nat := 0                -- time its slot was granted (R40)
  idleAt : Option Nat := none      -- since when it has no whole unstarted command (R40)
  blockAt : Option Nat := none     -- since when its next start is blocked (R40)
  fetched : List Word := []        -- packets fetched and checked, not started (R26, R45)
  cmds : List (Nat × Cmd) := []    -- started, uncompleted, by serial number
  heldRec : Option (List Word) := none -- a status record held for room (R30)
  pendingMsix : Bool := false      -- the held record's MSI-X
  resetTo : Option (BitVec 32) := none -- new head of a reset in progress (Table 2.16)
  resetBy : Option Nat := none     -- serial of the QUEUE_RESET on queue 0
  ctxStopped : Bool := false       -- blocked by its context's fault (R65)
  contain : Option (List (Nat × Nat)) := none -- containment under way: counters to be poisoned before its commands complete (R63)
deriving DecidableEq, Repr, Inhabited

/-- Slot states (Table 2.8). -/
inductive SlotState where
  | empty | fetching | idleCheck | idleWait | blocked | releasing
deriving DecidableEq, Repr, Inhabited

/-- A hardware slot (Table 2.8). -/
structure Slot where
  enable : Bool := true
  displace : Bool := false
  valid : Bool := false
  queue : Nat := 0
  st : SlotState := .empty
deriving DecidableEq, Repr, Inhabited

structure Cfe where
  qsel : Nat := 0
  queues : List (Nat × Queue) := []
  slots : List (Nat × Slot) := []
  nextSeq : Nat := 0               -- serial number of the next started command
  rr : List (Nat × Nat) := []      -- last queue granted per class (R39); class 4: no defined context
deriving DecidableEq, Repr, Inhabited

/-! ## Tasks, instances, contexts (03, 07) -/

/-- A ready key (R93). -/
structure Key where
  dl : Nat := 0
  cls : Nat := 0
  arr : Nat := 0
deriving DecidableEq, Repr, Inhabited

/-- A task: context, instance serial, relative index. -/
structure TaskRef where
  ctx : Nat := 0
  inst : Nat := 0
  idx : Nat := 0
deriving DecidableEq, Repr, Inhabited

/-- A ready entry (R93, Table 7.5). -/
structure Entry where
  key : Key := {}
  ref : TaskRef := {}
  slot : Nat := 0                  -- 0, or slot number + 1 of the saved state
  held : Bool := false             -- held back after a decline (R101, R102)
  since : Nat := 0                 -- time it entered the heap (Table 4.12)
  pre : Bool := false              -- its data was prefetched and travels with it (R112)
deriving DecidableEq, Repr, Inhabited

/-- How a task retired, or left without retiring (R76, R83). -/
inductive How where
  | normal | pruned | failed | suppressed | discarded | late
deriving DecidableEq, Repr, Inhabited

/-- Where a task stands. -/
inductive TaskState where
  | waiting                        -- its count is not zero
  | ready                          -- ready: heap, save area, flow table or delay list
  | placed                         -- saddle, local queue, core or Gating Engine
  | ctlWait                        -- a CONTROL WAIT on its counter
  | spec                           -- dispatched speculatively, not yet confirmed
  | gone (how : How)
deriving DecidableEq, Repr, Inhabited

/-- A task of a live instance. -/
structure Task where
  desc : List Word := []
  count : Nat := 0
  st : TaskState := .waiting
  arr : Nat := 0
  specTried : Bool := false        -- R195 item 7
  tested : Bool := false           -- the prune test has found it not prunable since it was last dispatched (R186)
  ran : Bool := false              -- it has run since its outputs were last allocated (R119)
  skip : Bool := false             -- marked by SKIP (R225)
  ccOver : Bool := false           -- it has written its CTR_OVERFLOW for core counters (R136)
  fail : Bool := false             -- a predecessor failed (R58)
  stamped : Bool := false          -- `arr` has been drawn (R94)
  overruns : Nat := 0
  slice : Nat := 0xFF              -- first slice of its last allocation (R121)
  goneAt : Nat := 0                -- time of retirement (STAT_SPEC_LEAD_NS)
  granules : List (Nat × Nat × Nat) := []  -- granules allocated at staging: handle, slice, granule (R119)
deriving DecidableEq, Repr, Inhabited

/-- A live instance of a graph (R83 to R89). -/
structure Inst where
  gid : Nat := 0
  base : Nat := 0                  -- B_j
  num : Nat := 0                   -- n_j
  span : Nat := 0
  frame : List (Nat × Nat) := []   -- runs of instance-frame entries that hold it, by relative index (R68, R166)
  step : Option Nat := none        -- step number (R190)
  owner : Option (Nat × Nat) := none   -- queue and serial of its root command (R88)
  launchAt : Nat := 0
  stepDl : Option Nat := none      -- step deadline, of a step's own instance (R249)
  cancelled : Bool := false        -- R59, R251
  suppressed : Bool := false       -- R63
  tasks : List (Nat × Task) := []
deriving DecidableEq, Repr, Inhabited

/-- A graph in the graph store (R68 to R72). -/
structure Graph where
  template : Bool := false
  descs : List (Nat × List Word) := []
  seq : Nat := 0                   -- instance sequence (R70)
  runs : List (Nat × Nat) := []    -- runs of descriptor places that hold it, by relative index (R166)
deriving DecidableEq, Repr, Inhabited

/-- A task-state slot (Table 7.5, R176). -/
structure SaveSlot where
  ref : TaskRef := {}
  saved : Bool := false            -- holds the state of a task that left its core
  at_ : Nat := 0
  cc : List (Nat × Nat) := []      -- core counters saved
  binds : List Word := []          -- output bindings kept (R110)
deriving DecidableEq, Repr, Inhabited

/-- Context states (Table 7.1). -/
inductive CtxState where
  | free | waiting | resident | suspending | suspended | faulted | destroying
deriving DecidableEq, Repr, Inhabited

/-- A context (R162 to R182). -/
structure Ctx where
  st : CtxState := .free
  cls : Nat := 0
  gen : Nat := 0
  bank : Nat := 0
  place : Option Nat := none       -- resident place held
  halted : Bool := false
  creator : Option Nat := none     -- issuing context of its CTX_CREATE; none on queue 0 (R49)
  idLog : Nat := 0
  mapLog : Nat := 0
  gsBase : Nat := 0
  gsSize : Nat := 0
  slotLog : Nat := 0
  nslots : Nat := 0
  frames : Nat := 0
  saveBase : Nat := 0
  slotBase : Nat := 0              -- start of the task-state slots (Table 7.3)
  ctBase : Nat := 0
  mapBase : Nat := 0
  stallNs : Nat := 0
  quantumUs : Nat := 0
  traceBase : Nat := 0
  traceLog : Nat := 0
  peerBase : Nat := 0
  peerSize : Nat := 0
  lastChange : Nat := 0            -- header w2
  overruns : Nat := 0              -- header w3
  faultCode : Nat := 0             -- header w4
  faultAt : Nat := 0               -- header w5
  windowAt : Nat := 0              -- start of the present quantum window (R172)
  windowLen : Nat := 0             -- length of the present window in ns (R182)
  windowEnded : Bool := false      -- a window has ended since it became resident (R171)
  waitingAt : Nat := 0             -- since when it waits (R170)
  stopAt : Option Nat := none      -- halted or SUSPENDED since (R145, R164)
  stopTotal : Nat := 0
  suspAt : Nat := 0                -- t1 of R178
  suspBound : Nat := 0             -- the pre-emption bound of R178
  saved : List Entry := []         -- ready region (R168)
  slots : List (Nat × SaveSlot) := []
  suspCmd : List (Nat × Nat) := [] -- CTX_SUSPEND commands in progress: queue, serial
  suspHold : Bool := false         -- the suspension ends SUSPENDED
  suspFailed : List Nat := []      -- clusters that did not drain (Table 2.14)
  resumeCmd : List (Nat × Nat) := [] -- CTX_RESUME commands waiting for residence
  destroyCmd : Option (Nat × Nat) := none
  noResume : Bool := false         -- its MAPPED counters do not fit the limit (R179 step 1)
  progs : List (Nat × (Nat × Nat)) := []   -- gate programs: address, instruction count (R226)
  graphs : List (Nat × Graph) := []
  insts : List (Nat × Inst) := []
  posted : Nat := 0                -- instance-frame entries held by posted actions (R108)
  pad : List (Nat × Nat) := []     -- runs of 48-byte paddock cells reserved, one cell an instance-frame entry (R99)
deriving DecidableEq, Repr, Inhabited

/-! ## Dispatch (04), speculation (08) -/

/-- A heap bank (R95 to R97). -/
structure Bank where
  on : List Entry := []            -- on chip, in key order
  spill : List (Nat × List Entry) := []  -- tick buckets in tick order, oldest entry first
  wr : Nat := 0                    -- words its spill has taken (R268)
deriving DecidableEq, Repr, Inhabited

/-- A posted or delayed action (R108). -/
inductive Action where
  | task (r : TaskRef)
  | signal (vid inc : Nat)
  | launch (gid base count : Nat) (slot : Option Nat)
deriving DecidableEq, Repr, Inhabited

/-- A DELAY task, not a posted action. -/
def Action.isTask : Action → Bool
  | .task _ => true
  | _ => false

/-- An entry of the delay list (R108). -/
structure Delay where
  wake : Nat := 0
  arr : Nat := 0
  at_ : Nat := 0                      -- time it entered the list (R82, R109)
  frame : Nat := 0                    -- instance-frame entry that a posted action holds
  ctx : Nat := 0
  act : Action := .signal 0 0
  cmd : Option (Nat × Nat) := none    -- the DELAY_POST that posted it
  owner : Option (Nat × Nat) := none  -- root command of the posting instance
  inst : Nat := 0                     -- posting instance
  cluster : Nat := 0                  -- cluster of the posting CONTROL task (R81)
  eff : Nat := 0                      -- its effective index
deriving DecidableEq, Repr, Inhabited

/-- A flow entry (R105 to R107). -/
structure Flow where
  serving : Option TaskRef := none
  queue : List Entry := []         -- waiting tasks, by arrival
  pinned : Bool := false
  spilled : Bool := false          -- the entry is in the flow spill (R107)
deriving DecidableEq, Repr, Inhabited

structure Gd where
  lqDepth : Nat := 2
  widen : Bool := true
  run : Bool := false
  tick : Nat := 0
  quantum : Nat := 0x0F4240
  budgetMax : Nat := 0x3E8
  spillBase : Nat := 0             -- bits 63:20
  spillLog : Nat := 0
  arrival : Nat := 0               -- next arrival number (R94)
  nextInst : Nat := 1              -- serial number of the next instance
  banks : List (Nat × Bank) := []
  heirs : List (Nat × Nat) := []   -- displaced context, and the one its place goes to (R171)
  delays : List Delay := []        -- the delay list's on-chip part, in order
  delaySpill : List (Nat × List Delay) := []  -- its tick buckets in the paddock, oldest entry first (R108)
  delayWr : Nat := 0               -- words the delay spill has taken (R268)
  flowWr : Nat := 0                -- words the flow spill has taken (R268)
  flows : List ((Nat × Nat) × Flow) := []
deriving DecidableEq, Repr, Inhabited

/-- M, N, K and count of a shape slot (Table 10.4). -/
structure Shape where
  m : Nat := 0
  n : Nat := 0
  k : Nat := 0
  count : Nat := 0
deriving DecidableEq, Repr, Inhabited

/-- What a speculative task carries (R197 to R200). -/
structure Spec where
  digest : Word := 0               -- predicted digest
  shape : Option Shape := none     -- shape it was staged with
  gran : Nat × Nat := (0, 0)       -- the retained granule: slice, number
  shadows : List (Nat × Nat × Nat) := []  -- handle, slice, granule
  sigs : List (Nat × Nat) := []    -- held core-port SIGs
  spurAt : Nat := 0
  gateAt : Nat := 0
  confirmed : Bool := false
deriving DecidableEq, Repr, Inhabited

/-- A task in a saddle or a local queue (R104, R110, R176). -/
structure Placed where
  e : Entry := {}
  rslot : Nat := 0                 -- task-state slot reserved
  stall : Option Nat := none       -- stalled for tiles since (R121)
  staged : Bool := false           -- staging is complete
  desc : List Word := []           -- the saddle's contents (Table 4.1), once staged: the descriptor, w7 with the shape (R87)
  oper : List Word := []           -- operand block
  inB : List Word := []            -- input binding entries
  outB : List Word := []           -- output binding entries
  base : Word := 0                 -- instance base and instance number
  w7 : Word := 0                   -- shape given to the core (R87)
  spec : Option Spec := none
deriving DecidableEq, Repr, Inhabited

/-- A task running on a core. -/
structure Running where
  p : Placed := {}
  spurAt : Nat := 0
  budget : Nat := 0                -- ns (R175)
  resume : Bool := false           -- it was resuming
  suppressed : Bool := false       -- R63
  supQ : Option Nat := none        -- the guilty queue whose containment suppressed it (R63, R66)
  rein : Bool := false
  trap : Bool := false             -- forced off, the core has not answered
  discard : Bool := false          -- the trap carries the discard mark
  lost : Bool := false             -- its port has failed: no answer of the core's comes (R279)
deriving DecidableEq, Repr, Inhabited

/-- A logical core and its port (R104, R136, R276). -/
structure Core where
  saddle : Option Placed := none
  lq : List Placed := []
  running : Option Running := none
  cc : List (Nat × Nat) := []      -- core counters (R136)
  ccWaits : List (Nat × Nat) := [] -- waiting CC_WAITs: counter, TAG
  withdrawn : Bool := false        -- R279
  busyNs : Nat := 0                -- STAT_CORE_LOAD, to the end of the last task
  loadAt : Nat := 0                -- since when the running task counts into it
  xfer : List (Nat × Nat) := []    -- transfers that may still be open: channel in the order of Table 12.1, time (R279)
deriving DecidableEq, Repr, Inhabited

/-- A completed speculative task that waits for confirmation (R200). -/
structure Held where
  run : Running := {}
  occ : Word := 0
  core : Nat := 0                  -- the logical core that ran it
deriving DecidableEq, Repr, Inhabited

/-- A cluster's speculation state (R195, R196). -/
structure Cluster where
  cands : List Entry := []
  hold : List Held := []
deriving DecidableEq, Repr, Inhabited

/-- Mapping registers of a physical sequencer position (Tables 13.18, 4.8). -/
structure Seqr where
  valid : Bool := false
  role : Nat := 3
  cluster : Nat := 0
  spare : Nat := 8
  port : Nat := 0x76543210
deriving DecidableEq, Repr, Inhabited

structure Csq where
  seqrs : List (Nat × Seqr) := []
  cores : List (Nat × Core) := []
  clusters : List (Nat × Cluster) := []
  near : List (Nat × List TaskRef) := []  -- near-ready buffers, by the cluster of the sequencer (R112)
deriving DecidableEq, Repr, Inhabited

/-! ## Counters (05) -/

/-- A physical counter held by a counter (R132, R133). -/
structure Phys where
  idx : Nat := 0
  ctx : Nat := 0
  vid : Nat := 0
  val : Nat := 0
  poison : Bool := false
  sat : Bool := false
  used : Nat := 0                  -- order of its last operation
  armed : Option Nat := none       -- armed level: the lowest expected value among its waiters (R128)
deriving DecidableEq, Repr, Inhabited

/-- Who waits on a counter (R125). -/
inductive Who where
  | cmd (q seq : Nat)
  | control (r : TaskRef) (cluster : Nat)
  | core (c tag : Nat)
deriving DecidableEq, Repr, Inhabited

/-- A waiter record (R128). -/
structure Waiter where
  ctx : Nat := 0
  vid : Nat := 0
  expected : Nat := 0
  who : Who := .cmd 0 0
  pos : Nat := 0                   -- its record in the context's waiter region
  cached : Bool := true            -- its record is in the CTU's cache, not in the region
deriving DecidableEq, Repr, Inhabited

/-- Who sent a trailing signal (R143). -/
inductive Sender where
  | part (q seq i : Nat)           -- target i of a SIGNAL_REMOTE
  | completion (ctx : Nat)
  | task (ctx : Nat)
deriving DecidableEq, Repr, Inhabited

/-- A trailing signal to send, or sent and unacknowledged (Table 5.5). -/
structure Trail where
  dest : Nat := 0
  inc : Nat := 0
  handle : Word := 0
  poison : Bool := false
  sender : Sender := .task 0
  seq : Nat := 0
  sentAt : Nat := 0
deriving DecidableEq, Repr, Inhabited

structure Ctu where
  trailEn : Bool := false
  dbgEn : Bool := false
  run : Bool := false
  dbgCtx : Nat := 0
  dbgId : Nat := 0
  dbgFlags : Nat := 0              -- MAPPED, EXPORTED, RESIDENT, SAT, POISON at the last READ
  dbgWaiters : Nat := 0
  dbgValue : Word := 0
  dbgResult : Nat := 0
  dbgBusy : Bool := false
  refused : Nat := 0
  phys : List Phys := []
  uses : Nat := 0
  waiters : List Waiter := []      -- in order of arrival
  toSend : List Trail := []        -- not yet placed on a channel, oldest first
  sent : List Trail := []          -- placed, no ACK yet
  seqOut : List (Nat × Nat) := []  -- next SEQ per destination
  seen : List (Nat × Nat) := []    -- (source, SEQ) applied or refused since the link came up (R283)
  down : List Nat := []            -- destinations reported unreachable
deriving DecidableEq, Repr, Inhabited

/-! ## Placement and prediction (04, 08) -/

/-- A context's pool on one slice (R119, R120). -/
structure Pool where
  target : Nat := 0                -- reservation in granules; 0: outside the pool mask
  free : List Nat := []            -- free granules of the pool
  used : List Nat := []            -- granules in use
  stalls : Nat := 0
deriving DecidableEq, Repr, Inhabited

/-- A prediction entry (Table 8.2). -/
structure Pred where
  ctx : Nat := 0
  gen : Nat := 0
  site : Nat := 0
  step : Nat := 0
  digest : Word := 0
  conf : Nat := 0
  gran : Option (Nat × Nat) := none
  shape : Option Shape := none
  used : Nat := 0
deriving DecidableEq, Repr, Inhabited

structure Plu where
  ctlSlice : Nat := 0
  ctlCtx : Nat := 0
  specEn : Bool := false
  specClass : Nat := 0xF
  pools : List ((Nat × Nat) × Pool) := []  -- by (context, slice)
  preds : List Pred := []
  predUse : Nat := 0
  due : List (Nat × Nat) := []     -- retained granules that a case of R119 has returned (R194)
deriving DecidableEq, Repr, Inhabited

/-- The descriptor cache (R90, R91). -/
structure Dcache where
  lines : List ((Nat × Nat) × Nat) := []   -- (set, way) to line number L
  plru : List (Nat × Nat) := []            -- tree bits per set
  lanes : List (Nat × List Nat) := []      -- lines being filled and waiting, oldest first, per fetch lane
deriving DecidableEq, Repr, Inhabited

/-! ## Gating Engines (09) and the Carousel (10) -/

/-- A running GATE task (R207, R222). -/
structure GeRun where
  e : Entry := {}
  regs : List (Nat × Word) := []   -- s1..s31
  pc : Nat := 0
  prog : Nat := 0                  -- program address
  count : Nat := 0                 -- program length in instructions
  pid : Nat := 0
  startAt : Nat := 0
  flags : Nat := 0                 -- task flags, GE_FLAGS order
  sums : List (Nat × Word) := []   -- summary items of the last pass
  old : Bool := false              -- its program entry has been replaced (R226)
  waiters : List (Nat × Nat) := [] -- GE_PROGRAM_LOADs that wait for its end: queue, serial
  pass : Option (List Word) := none -- configuration of the pass in progress
  outs : List (Nat × Bool) := []   -- outputs written, and their occupancy bit (R218)
  inB : List Word := []
  outB : List Word := []
deriving DecidableEq, Repr, Inhabited

structure Ge where
  en : Bool := false
  flags : Nat := 0
  trapEn : Nat := 0
  ended : Nat := 0
  queue : List Entry := []
  run : Option GeRun := none
  icache : List (Nat × Nat × Nat) := [] -- lines held: context, program id, address (R226)
  lost : Nat := 0                  -- lanes lost, spares first (R208)
  streamWr : List (Nat × Nat) := [] -- write counts of its output streams, by EMIT port (R268)
deriving DecidableEq, Repr, Inhabited

/-- Sequence-slot states (Table 10.7). -/
inductive SeqState where
  | free | joining | active | leaving
deriving DecidableEq, Repr, Inhabited

/-- A sequence slot (Table 10.6). -/
structure SeqSlot where
  st : SeqState := .free
  ctx : Nat := 0
  id : Word := 0
  epoch : Nat := 0
  steps : Nat := 0
  dlOff : Nat := 0
  kv : Word := 0
  cancelled : Bool := false
  cancels : List (Nat × Nat) := [] -- CANCELs that complete when the slot is FREE (R250)
deriving DecidableEq, Repr, Inhabited

/-- A live step (R248). -/
structure LiveStep where
  q : Nat := 0
  seq : Nat := 0
  list : Nat := 0
  inst : Option Nat := none
  members : List Nat := []         -- member slots, ascending
  limit : Nat := 0
  cancelled : Bool := false
  cancels : List (Nat × Nat) := [] -- CANCELs with scope 3 that complete with the step (R251)
  ended : Bool := false            -- its instance has retired: no CANCEL finds it (R251)
deriving DecidableEq, Repr, Inhabited

/-- The Carousel's record of a context. -/
structure CarCtx where
  step : Nat := 0
  epoch : Nat := 0
  live : Option LiveStep := none
deriving DecidableEq, Repr, Inhabited

structure Car where
  en : Bool := false
  ctlCtx : Nat := 0
  slots : List (Nat × SeqSlot) := []
  ctxs : List (Nat × CarCtx) := []
  discarded : Nat := 0
deriving DecidableEq, Repr, Inhabited

/-! ## The Relay (11) -/

/-- A Relay message (Table 11.1). -/
structure Msg where
  ctx : Nat := 0
  slot : Nat := 0
  port : Nat := 0
  chan : Nat := 0                  -- inbound channel whose credit it holds
  data : List Word := []
deriving DecidableEq, Repr, Inhabited

/-- A spill ring of a chain (R262, R268). -/
structure Ring where
  idx : Nat := 0
  wr : Nat := 0                    -- committed write count, in words
  rd : Nat := 0                    -- read count
  msgs : List Msg := []
deriving DecidableEq, Repr, Inhabited

structure Chan where
  credits : List Msg := []
  chains : List (Nat × List Ring) := []  -- by context
  wr : Nat := 0                    -- words its buffer has taken (R268)
deriving DecidableEq, Repr, Inhabited

/-- The task that issued a request of a dispatch port: a request that has been latched stands, though the task leaves the core
(R255, R279). -/
structure Req where
  ref : TaskRef
  spec : Bool := false
  suppressed : Bool := false
deriving DecidableEq, Repr, Inhabited

/-- A Relay send (R255). -/
structure Send where
  core : Nat
  who : Req
  tag : Nat
  hdr : Word
  payload : List Word
deriving DecidableEq, Repr, Inhabited

structure Rly where
  en : Bool := false
  offset : Nat := 0
  rings : Nat := 0
  level : Nat := 0
  levelHit : Bool := false
  fullRep : Bool := false          -- RELAY_FULL written since the pool last had room (R262)
  sent : Nat := 0
  spilled : Nat := 0
  full : Nat := 0
  stray : Nat := 0
  chans : List (Nat × Chan) := []  -- by 16 c + channel
  ports : List (Nat × Msg) := []   -- full operand ports, by 256 c + 4 slot + port
  usedRings : List Nat := []
  held : List Send := []           -- sends that wait while EN is clear (R261)
deriving DecidableEq, Repr, Inhabited

/-! ## Global control, firmware, tether, faults (12 to 15, 17) -/

/-- An event line (R288 to R290). -/
structure EvtLine where
  act : Word := 0
  count : Nat := 0
  level : Bool := false
  lastEdge : Option Nat := none
  held : Bool := false             -- high since an accepted edge
  pend : List (Word × Nat × Nat) := []  -- pending actions: action word, acceptance time, events merged (R289)
deriving DecidableEq, Repr, Inhabited

structure Gcs where
  recoverBase : Nat := 0
  state : Nat := 0                 -- 0 OFF, 1 BOOTING, 2 READY, 3 DEGRADED, 4 SAFE
  kind : Nat := 0
  step : Nat := 0
  image : Bool := false
  failA : Nat := 0
  failB : Nat := 0
  recoverBusy : Bool := false
  recoverResult : Nat := 0
  gait : Nat := 0
  changing : Bool := false
  changes : Nat := 0
  lastUs : Nat := 0
  gaitSel : Nat := 0
  gaitStart : Nat := 0
  gaitAck : Bool := false          -- gait_ack is raised
  gaitNext : Option Nat := none    -- a second gait_req (R285)
  irqStatus : BitVec 7 := 0
  irqEnable : BitVec 7 := 0x0F
  herdValid : Bool := false
  herdGroup : Nat := 0
  herdDa : Nat := 0
  herdAddr : Nat := 0
  stuckMs : Nat := 10
  evtEn : BitVec 8 := 0
  evtStuck : BitVec 8 := 0
  lines : List (Nat × EvtLine) := []
deriving DecidableEq, Repr, Inhabited

/-- An image slot of the flash, or an image offered: its header, and what the checks of R308 find. -/
structure Image where
  formOk : Bool := false           -- check 1: MAGIC, FORMAT and sizes
  keyOk : Bool := false            -- check 2
  sigOk : Bool := false            -- check 3
  bodyOk : Bool := false           -- check 4
  imageVer : Nat := 0
  secVer : Nat := 0
  loadSize : Nat := 0
  totalSize : Nat := 0
  digest : Nat := 0                -- BODY_HASH
deriving DecidableEq, Repr, Inhabited

/-- A grooming's training values (R302): where and when, and each stage's codes. The measured codes are free values, named by
number (assumption 35). -/
structure Training where
  gait : Nat := 0
  temp : Int := 0
  first : Nat := 0                     -- number of stage 0's lowest passing code at Walk
  failed : List Nat := []              -- stages with no passing code
  redone : List (Nat × Nat) := []      -- stages groomed again since: number of the code at Walk
deriving DecidableEq, Repr, Inhabited

/-- A tack-store copy (Tables 13.8, 13.9). -/
structure Tack where
  seq : Nat := 0
  prefB : Bool := false
  failA : Nat := 0
  failB : Nat := 0
  warm : Nat := 0
  cold : Nat := 0
  group : Nat := 0
  policy : List (Nat × Word) := []     -- policy words 0 to 479
  repair : List (Nat × Nat) := []      -- retired units: kind, instance
  training : Option Training := none
  markBase : Nat := 0                  -- 256 a start: added to every generation mark (R140)
  marks : List (Nat × Nat) := []       -- generation marks less that sum
deriving DecidableEq, Repr, Inhabited

structure Flash where
  copy0 : Option Tack := none
  copy1 : Option Tack := none
  imgA : Image := {}
  imgB : Image := {}
  otp : Nat := 0                   -- rollback floor bits programmed (R309)
  ring : List (List Word) := []    -- stud-book records, ascending
  ringPos : Nat := 0               -- record positions that the ring has used, 64 a sector (R346)
  reserve : List (List Word) := []
deriving DecidableEq, Repr, Inhabited

/-- A mailbox operation in progress (R328). -/
structure MboxOp where
  op : Nat := 0
  arg : Nat := 0
deriving DecidableEq, Repr, Inhabited

/-- A FW_UPDATE between steps 4 and 6 of Table 14.6. -/
structure Handover where
  q : Nat := 0
  seq : Nat := 0
  base : Nat := 0                  -- the image in device memory
  target : Bool := false
  startAt : Nat := 0               -- start of the freeze
  loaded : Bool := false           -- step 5 has accepted the image
deriving DecidableEq, Repr, Inhabited

structure Fwc where
  upd : Option Handover := none
  active : Nat := 0
  spares : Nat := 0
  roleMap : Nat := 0
  cores : List (Nat × Nat) := []   -- 0 OFF, 1 RUNNING, 2 RESTARTING, 3 SPARE, 4 RETIRED
  handover : Bool := false
  frozen : Bool := false
  restarts : List (Nat × Nat) := []
  verSlot : Bool := false
  verFloor : Nat := 0
  verSec : Nat := 0
  verImage : Nat := 0
  freezeUs : Nat := 0
  progressKib : Nat := 0
  prog : Option Handover := none   -- a FW_UPDATE between steps 1 and 3 of Table 14.6
  updResult : Nat := 0
  updTarget : Bool := false
  updPhase : Nat := 0
  mboxBusy : Bool := false
  mboxResult : Nat := 0
  mboxData : Word := 0
  mboxOp : Option MboxOp := none
  roleQ : List (Nat × List (Nat × Nat)) := []  -- per role: queue, serial; oldest first
  crashes : List (Nat × Nat) := [] -- core, time (R323)
  digest : Option Nat := none      -- retained digest (S)
  sramOk : Bool := true            -- firmware SRAM matches the retained digest
  watchdog : Option Nat := none    -- start watchdog armed at
  gens : List (Nat × Nat) := []    -- last generation used per context id since its mark
  pendingRestart : Bool := false   -- a firmware-only restart is under way
  petAt : List (Nat × Nat) := []   -- per core, the last time its watchdog is known to have run anew (R322)
  resetCold : Bool := false        -- policy in force: an UNCONTAINED error resets cold (R320, R331)
  group : Nat := 0                 -- herd group in force since the last cold start (R310)
deriving DecidableEq, Repr, Inhabited

structure Tth where
  safeCodes : Bool := true
  roles : List (Nat × Nat) := []   -- TTH_MAP; unlisted positions read 3
  noAnswer : List Nat := []
  groomValid : Bool := false
  groomGait : Nat := 0
  groomTemp : Int := 0
  groomFailed : Nat := 0
  groomTrained : Nat := 0
  reqTarget : Nat := 0
  reqDenied : Bool := false
  req : Bool := false
  groomReq : Bool := false         -- TTH_CTL.GROOM, until the grooming is done
  train : Option Training := none  -- training values in force (S)
  enumReq : Bool := false          -- TTH_CTL.ENUM, until the enumeration is done
  enumAt : Nat := 0                -- when the token was last sent (R299)
  answers : List (Nat × Bool) := [] -- self-test results that the tether's positions gave (R299)
deriving DecidableEq, Repr, Inhabited

/-- The I3C target and MCTP endpoint (R293, R326). -/
structure I3c where
  mwl : Nat := 0
  mrl : Nat := 0
  ibiEn : Bool := true
  eid : Nat := 0
  unacked : List Nat := []         -- IBI causes raised and not acknowledged
  heldIbi : List Nat := []         -- IBIs held while role 3's core restarts
  ranDaa : Bool := false           -- the bus's controller has run ENTDAA (R310)
  daNoted : Bool := false          -- the present address, out of range, has its record (R310)
deriving DecidableEq, Repr, Inhabited

structure Fsu where
  state : Nat := 0
  replace : Bool := false
  exhausted : BitVec 8 := 0
  newBits : BitVec 5 := 0          -- NEW bits 16 to 20
  errBase : Nat := 0
  errHost : Bool := false
  errEn : Bool := false
  errLevel : Nat := 0
  errLog : Nat := 0
  errArmed : Bool := true          -- the level interrupt is armed (R272)
  dropped : Nat := 0
  errHead : BitVec 32 := 0
  errTail : BitVec 32 := 0
  spares : List (Nat × Nat) := []  -- spares left per kind
  wearLimit : Nat := 16
  worst : Nat := 0xFF
  stage : Nat := 0
  events : Nat := 0
  lost : Nat := 0
  lostPend : Nat := 0              -- records not staged since the previous LOST record
  sectors : Nat := 2032
  sbSpares : Nat := 16
  flushed : Bool := false
  staging : List (List Word) := []
  stageWr : Nat := 0               -- words the staging queue has taken (R268)
  nextSeq : Nat := 0
  limited : List (Nat × (Nat × Nat)) := []  -- code: end of its 60 s, records not staged since the last one staged
  number : Nat := 0                -- error records formed (w7)
  ces : List ((Nat × Nat) × (Nat × Nat)) := [] -- (storage, row): count, time of the last record
  ceTotal : List (Nat × Nat) := []
  ceHour : List ((Nat × Nat) × List Nat) := [] -- correction times within the hour (R336)
  powerFails : Nat := 0
  pfAsserted : Bool := false
  pfHighAt : Option Nat := none
  power : Bool := false
  remounts : List (Nat × Nat × Nat) := []   -- remounts waiting: kind, instance, cause
  chosen : List ((Nat × Nat) × Nat) := []   -- spares chosen for them (Table 15.6 step 2)
  unrecorded : List (Nat × Nat × Nat × Nat) := [] -- remounts switched, step 5 to come: kind, instance, spare, cause
  leaving : List (Nat × Nat) := [] -- units that give up their work to be withdrawn (R342)
  margins : List ((Nat × Nat) × (Nat × Nat)) := [] -- worn units: margin at code 63, stage (R340)
  kept : List (Nat × Nat) := []    -- units kept under R340 step 3
  at63 : List Nat := []            -- stages of kept units, at code 63
  remounted : Bool := false        -- a spare has been remounted (R344)
  lostUnits : List (Nat × Nat) := [] -- units withdrawn
  retired : List (Nat × Nat) := [] -- retired units: kind, physical instance (R342)
  map : List ((Nat × Nat) × Nat) := []  -- remount registers of kinds 3, 4, 5, 7, 8: (kind, unit) to the spare that serves it
  paused : List (Nat × Nat) := []  -- units that failed verification: kind, physical instance (R284)
  heldWear : List (Wear × Bool) := [] -- worn stages that wait for role 2; whether a gait change found them (Table 14.4)
  resetPending : Bool := false     -- a reset is in progress (R331)
deriving DecidableEq, Repr, Inhabited

structure Stat where
  hist : List ((Nat × Nat) × Nat) := []  -- (bank, bin)
  pruned : Nat := 0
  specIssued : Nat := 0
  specCommit : Nat := 0
  specMismatch : Nat := 0
  specGate : Nat := 0
  specAccess : Nat := 0
  specAbandon : Nat := 0
  specPruned : Nat := 0
  specLead : Nat := 0
deriving DecidableEq, Repr, Inhabited

/-! ## Internal actions in flight -/

/-- Source of a signal, for the overflow record (0x03): code of argument B, and argument C. -/
structure SigSrc where
  code : Nat := 0
  arg : Nat := 0
deriving DecidableEq, Repr, Inhabited

/-- An action passed between units and not yet performed. Transfers that a gait change holds at their bridges
(R284 step 2) wait here too; `settle` performs them in order. -/
inductive Work where
  | done (c : Nat) (occ : Word)
  | yield (c : Nat)
  | sig (c : Nat) (who : Req) (vid inc : Nat)
  | wait (c tag vid expected : Nat)
  | probe (c tag vid : Nat)
  | relay (x : Send)
  | trailIn (w0 w1 w2 : Word)
  | ackIn (w0 w1 w2 w3 : Word)
  | evtAct (n : Nat)
  | tick (k : Nat)
  | signal (ctx vid inc : Nat) (src : SigSrc) (cmd : Option (Nat × Nat))
  | poison (ctx vid : Nat)
  | contained (q cause : Nat) (un : List Word) (tag a b c : Nat)
  | trail (x : Trail)
  | trailAct (x : Trail) (source : Nat) (ack : List Word)
  | release (who : Who) (poisoned : Bool)
  | carEnd (q seq : Nat)
  | retire (r : TaskRef) (how : How)
  | confirm (r : TaskRef)
  | commit (c : Nat) (h : Held)
  | refute (r : TaskRef) (cause : Nat)
  | decr (owner : Nat) (ctx inst : Nat) (pred : Nat) (failed : Bool) (after : List Nat) (idxs : List Nat)
  | instEnd (ctx inst : Nat)
  | complete (q seq : Nat) (st : Status) (detail : Nat)
  | faultCtx (ctx code : Nat) (a b c : Nat)
  | faultQuiet (ctx code : Nat)
  | coreFree (ctx : Nat)
  | retryWait (r : TaskRef)
  | waitCmd (q seq : Nat)
  | waitCtl (r : TaskRef) (cluster vid expected : Nat)
  | debugSet (q seq : Nat)
  | windowSet (ctx vid new : Nat)
  | fwRoles
  | regroom (kind inst stage : Nat)
  | startFail
  | reset (kind trigger : Nat)
deriving DecidableEq, Repr, Inhabited

/-- A transfer that the block issues at a core port (Table 12.1). -/
inductive PortOut where
  | stage (beat : Nat) (data : List Word)  -- one 64-byte beat of saddle contents, with its number
  | spur (slot : Option Nat)               -- resume mark with the slot address
  | rein (slot : Nat)                      -- address of the task's slot
  | trap (slot : Nat) (discard : Bool)     -- slot address, discard mark
deriving DecidableEq, Repr, Inhabited

/-- Outputs the block has issued, oldest first. -/
structure Out where
  port : List (Nat × PortOut) := []              -- core ports, by logical core
  msix : List Nat := []                          -- vectors
  peer : List (Nat × Word × Bool) := []          -- posted peer writes: address, data, 64-bit
  link : List (List Word) := []                  -- herd-link records (Table 5.5)
  ibi : List Nat := []                           -- in-band interrupts
  mctp : List (Nat × List Word) := []            -- management responses
  rsp : List (Nat × Nat × Nat × Word) := []      -- core responses: core, TAG, result, value
  gaitAcks : Nat := 0                            -- gait_ack raised
  hotJoins : Nat := 0                            -- hot-join requests on the I3C bus (Table 12.15)
deriving DecidableEq, Repr, Inhabited

/-- What lies outside the block and its commands see (assumptions 2, 4, 11, 17, 26). -/
structure Env where
  dev : Device := .xs144
  now : Nat := 0
  temp : Int := 340
  winBase : Nat := 0
  winSize : Nat := 0
  winPcie : Nat := 0
  refused : List (Nat × Nat) := []
  sliceBase : Nat := 0x010000000000
  sliceSize : Nat := 0x40000000
  sfdpOk : Bool := true            -- the flash meets R294
  flashOk : Bool := true           -- the flash programs and reads back
  defects : List (Nat × Nat) := [] -- units that a self-test finds bad: kind, physical instance (R298, R299)
deriving DecidableEq, Repr, Inhabited

/-- The block. -/
structure State where
  env : Env
  mem : List Host.Cell
  hostMem : List Host.Cell
  freeCount : Nat
  pending : List Instr
  work : List Work
  out : Out
  gcs : Gcs
  cfe : Cfe
  ctxs : List (Nat × Ctx)
  gd : Gd
  csq : Csq
  ctu : Ctu
  plu : Plu
  dcache : Dcache
  ges : List (Nat × Ge)
  car : Car
  rly : Rly
  stat : Stat
  tth : Tth
  fwc : Fwc
  i3c : I3c
  fsu : Fsu
  flash : Flash
deriving DecidableEq, Repr, Inhabited

/-- Why a machine stops. No command of the block stops it: errors are records, guilty queues, faulted contexts and
resets (15). -/
inductive Fault where
  /-- Raised by no meaning of this model; kept so that the type is not empty. Safe. -/
  | halt
deriving DecidableEq, Repr

/-- Why a command has no meaning. -/
inductive Refusal where
  /-- A row of the table that has no meaning yet; raised by its arm of exec. Safe. -/
  | notModelled (mnemonic : String)
deriving DecidableEq, Repr

/-- Spares per kind on an unrepaired device (Table 15.11). -/
def spareReset (d : Device) : List (Nat × Nat) := match d with
  | .xs144 => [(1, 18), (2, 2), (3, 2), (4, 8), (5, 76), (6, 1), (7, 18), (8, 16)]
  | .xs64 => [(1, 8), (2, 1), (3, 1), (4, 4), (5, 18), (6, 1), (7, 8), (8, 16)]

/-- The flash as the module leaves production: two images that pass R308, nothing else (assumption 26). -/
def shippedFlash : Flash where
  imgA := { formOk := true, keyOk := true, sigOk := true, bodyOk := true, imageVer := 1, secVer := 1, loadSize := 0x1000,
            totalSize := 0x1200, digest := 1 }
  imgB := { formOk := true, keyOk := true, sigOk := true, bodyOk := true, imageVer := 1, secVer := 1, loadSize := 0x1000,
            totalSize := 0x1200, digest := 2 }

/-- The block on device `d` with every field at its reset value (assumption 8): power off, nothing started. -/
def State.resetOn (d : Device) : State where
  env := { dev := d }
  mem := []
  hostMem := []
  freeCount := 0
  pending := []
  work := []
  out := {}
  gcs := {}
  cfe := { slots := [(0, { valid := true })] }
  ctxs := []
  gd := {}
  csq := {}
  ctu := {}
  plu := {}
  dcache := {}
  ges := []
  car := {}
  rly := {}
  stat := {}
  tth := {}
  fwc := { active := d.fwActive, spares := 1, roleMap := d.pick 0x3210 0 }
  i3c := {}
  fsu := { spares := spareReset d }
  flash := shippedFlash

/-- The machine right after reset (assumption 2: an XS-144). -/
def State.reset : State := State.resetOn .xs144

end Sys2Proof.Machine
end

