-- ==== Sys2Proof/Machine/Ops.lean ====
section
/-!
DEFINITION. The shared operations: memory, accessors of the state's maps, outputs and interrupts, error records, the
stud book and the block's health.
-/
namespace Sys2Proof.Machine

/-- The outcome of one command. -/
abbrev Out' := Host.Outcome State Fault Refusal

/-! ## Memory (R149, R280, R365) -/

/-- The byte at an address; an address not listed reads 0 (assumption 1). -/
def Memory.read : List Host.Cell → Nat → Byte
  | [], _ => 0
  | (k, b) :: r, a => if k = a then b else Memory.read r a

/-- Store a byte, keeping the canonical form: addresses rising, no zero listed. -/
def Memory.write : List Host.Cell → Nat → Byte → List Host.Cell
  | [], a, b => if b = 0 then [] else [(a, b)]
  | (k, c) :: r, a, b =>
    if a < k then (if b = 0 then (k, c) :: r else (a, b) :: (k, c) :: r)
    else if a = k then (if b = 0 then r else (a, b) :: r)
    else (k, c) :: Memory.write r a b

/-- The canonical form of a memory. -/
def Memory.wf : List Host.Cell → Bool
  | [] => true
  | [(_, b)] => decide (b ≠ 0)
  | (k, b) :: (k', b') :: r => decide (k < k') && decide (b ≠ 0) && Memory.wf ((k', b') :: r)

/-- Whether an address of the chip's memory map lies in host memory (R365). -/
def State.inWindow (s : State) (a : Nat) : Bool :=
  decide (s.env.winBase ≤ a) && decide (a < s.env.winBase + s.env.winSize)

/-- An address is 64 bits wide. -/
def addr (a : Nat) : Nat := a % 2 ^ 64

/-- A byte at a PCIe address (`host`) or at an address of the chip's memory map (R365). -/
def State.rd8 (s : State) (host : Bool) (a : Nat) : Byte :=
  if host then Memory.read s.hostMem (addr a)
  else if s.inWindow (addr a) then Memory.read s.hostMem (addr (s.env.winPcie + (addr a - s.env.winBase)))
  else Memory.read s.mem (addr a)

/-- Store a byte, as `State.rd8` finds it. -/
def State.wr8 (s : State) (host : Bool) (a : Nat) (b : Byte) : State :=
  if host then { s with hostMem := Memory.write s.hostMem (addr a) b }
  else if s.inWindow (addr a) then
    { s with hostMem := Memory.write s.hostMem (addr (s.env.winPcie + (addr a - s.env.winBase))) b }
  else { s with mem := Memory.write s.mem (addr a) b }

/-- `n` bytes from an address up. -/
def State.rdBytes (s : State) (host : Bool) (a n : Nat) : List Byte := (List.range n).map fun i => s.rd8 host (a + i)

/-- Bytes stored from an address up. -/
def State.wrBytes (s : State) (host : Bool) (a : Nat) : List Byte → State
  | [] => s
  | b :: r => (s.wr8 host a b).wrBytes host (a + 1) r

/-- The number that bytes, lowest first, spell. -/
def leNat : List Byte → Nat
  | [] => 0
  | b :: r => b.toNat + 256 * leNat r

/-- A 64-bit little-endian word of the chip's memory map. -/
def State.rd64 (s : State) (a : Nat) : Word := wd (leNat (s.rdBytes false a 8))

/-- Store a 64-bit word. -/
def State.wr64 (s : State) (a : Nat) (w : Word) : State := s.wrBytes false a (wordBytes w)

/-- `n` words from an address up, in either space. -/
def State.rdWords (s : State) (host : Bool) (a n : Nat) : List Word :=
  (List.range n).map fun i => wd (leNat (s.rdBytes host (a + 8 * i) 8))

/-- Words stored from an address up, in either space. -/
def State.wrWords (s : State) (host : Bool) (a : Nat) (ws : List Word) : State :=
  s.wrBytes host a (ws.flatMap wordBytes)

/-! ## Accessors -/

/-- The timebase moves on to `t`; it never runs backwards (R287, assumption 4). -/
def State.at (s : State) (t : Nat) : State := { s with env := { s.env with now := max s.env.now t } }

/-- The next free value (assumption 13). -/
def State.fresh (s : State) (n : Nat) : BitVec n × State :=
  (Config.freeValue n s.freeCount, { s with freeCount := s.freeCount + 1 })

/-- Hand actions to other units. -/
def State.push (s : State) (w : List Work) : State := { s with work := s.work ++ w }

def State.queue (s : State) (q : Nat) : Queue := AL.get s.cfe.queues q
def State.setQueue (s : State) (q : Nat) (x : Queue) : State :=
  { s with cfe := { s.cfe with queues := AL.put q x s.cfe.queues } }
def State.updQueue (s : State) (q : Nat) (f : Queue → Queue) : State := s.setQueue q (f (s.queue q))
def State.slot (s : State) (n : Nat) : Slot := AL.get s.cfe.slots n
def State.setSlot (s : State) (n : Nat) (x : Slot) : State :=
  { s with cfe := { s.cfe with slots := AL.put n x s.cfe.slots } }
def State.ctx (s : State) (c : Nat) : Ctx := AL.get s.ctxs c
def State.setCtx (s : State) (c : Nat) (x : Ctx) : State := { s with ctxs := AL.put c x s.ctxs }
def State.updCtx (s : State) (c : Nat) (f : Ctx → Ctx) : State := s.setCtx c (f (s.ctx c))
def State.core (s : State) (c : Nat) : Core := AL.get s.csq.cores c
def State.setCore (s : State) (c : Nat) (x : Core) : State :=
  { s with csq := { s.csq with cores := AL.put c x s.csq.cores } }
def State.updCore (s : State) (c : Nat) (f : Core → Core) : State := s.setCore c (f (s.core c))
def State.cluster (s : State) (n : Nat) : Cluster := AL.get s.csq.clusters n
def State.setCluster (s : State) (n : Nat) (x : Cluster) : State :=
  { s with csq := { s.csq with clusters := AL.put n x s.csq.clusters } }
def State.ge (s : State) (g : Nat) : Ge := AL.get s.ges g
def State.setGe (s : State) (g : Nat) (x : Ge) : State := { s with ges := AL.put g x s.ges }
def State.bank (s : State) (b : Nat) : Bank := AL.get s.gd.banks b
def State.setBank (s : State) (b : Nat) (x : Bank) : State :=
  { s with gd := { s.gd with banks := AL.put b x s.gd.banks } }
def State.pool (s : State) (c sl : Nat) : Pool := AL.get s.plu.pools (c, sl)
def State.setPool (s : State) (c sl : Nat) (x : Pool) : State :=
  { s with plu := { s.plu with pools := AL.put (c, sl) x s.plu.pools } }
def State.line (s : State) (n : Nat) : EvtLine := AL.get s.gcs.lines n
def State.setLine (s : State) (n : Nat) (x : EvtLine) : State :=
  { s with gcs := { s.gcs with lines := AL.put n x s.gcs.lines } }
def State.seqr (s : State) (p : Nat) : Seqr := AL.get s.csq.seqrs p
def State.setSeqr (s : State) (p : Nat) (x : Seqr) : State :=
  { s with csq := { s.csq with seqrs := AL.put p x s.csq.seqrs } }

/-- A live instance. -/
def State.inst? (s : State) (c i : Nat) : Option Inst := AL.get? i (s.ctx c).insts

/-- Change a live instance; nothing if it is gone. -/
def State.updInst (s : State) (c i : Nat) (f : Inst → Inst) : State :=
  match s.inst? c i with
  | none => s
  | some x => s.updCtx c fun k => { k with insts := AL.put i (f x) k.insts }

/-- A task of a live instance. -/
def State.task? (s : State) (r : TaskRef) : Option Task := (s.inst? r.ctx r.inst).bind fun x => AL.get? r.idx x.tasks

/-- Change a task; nothing if it is gone. -/
def State.updTask (s : State) (r : TaskRef) (f : Task → Task) : State :=
  s.updInst r.ctx r.inst fun x =>
    match AL.get? r.idx x.tasks with
    | none => x
    | some k => { x with tasks := AL.put r.idx (f k) x.tasks }

/-- A started command. -/
def State.cmd? (s : State) (q n : Nat) : Option Cmd := AL.get? n (s.queue q).cmds

/-- Change a started command; nothing if it has completed. -/
def State.updCmd (s : State) (q n : Nat) (f : Cmd → Cmd) : State :=
  match s.cmd? q n with
  | none => s
  | some x => s.updQueue q fun k => { k with cmds := AL.put n (f x) k.cmds }

/-- Whether a context is defined (Table 7.1). -/
def State.defined (s : State) (c : Nat) : Bool := (s.ctx c).st != .free

/-- Effective index of a task (R85). -/
def effIdx (x : Inst) (i : Nat) : Nat := (x.base + i) % 2 ^ 32

/-- Whether a cluster is present: it has an active sequencer (R102, R300). -/
def State.present (s : State) (n : Nat) : Bool :=
  decide (n < s.env.dev.clusters) && !s.fsu.lostUnits.contains (2, n)

/-- Present clusters, ascending. -/
def State.presentList (s : State) : List Nat := (List.range s.env.dev.clusters).filter s.present

/-- The position of the sequencer that serves a cluster in its active place (13, "The tether"). -/
def homePos (n : Nat) : Nat := n / 9 * 10 + n % 9

/-- Position of the sequencer that serves a cluster, its active place until one is enumerated (R299, Table 13.18); the INSTANCE of
CSQ errors (Table 15.2). -/
def State.seqPos (s : State) (n : Nat) : Nat :=
  ((s.csq.seqrs.find? fun p => p.2.valid && p.2.role = 0 && p.2.cluster = n).map Prod.fst).getD (homePos n)

/-- The physical port of a logical core within its cluster (Table 4.8). -/
def State.portOf (s : State) (c : Nat) : Nat := ((s.seqr (s.seqPos (c / 8))).port >>> (4 * (c % 8))) % 16

/-- Global number of a logical core's port: 9n + p (12, "Core dispatch ports"). -/
def State.globalPort (s : State) (c : Nat) : Nat := 9 * (c / 8) + s.portOf c

/-- A unit stays paused after a failed verification until it is remounted (R284). -/
def State.pausedUnit (s : State) (kind phys : Nat) : Bool := s.fsu.paused.contains (kind, phys)

/-- The physical unit that serves unit `l` of a kind: its remount register, or itself (R342, assumption 30). -/
def State.physOf (s : State) (kind l : Nat) : Nat := (AL.get? (kind, l) s.fsu.map).getD l

/-- Whether a logical core is in service (R256, R279). -/
def State.coreOk (s : State) (c : Nat) : Bool := s.present (c / 8) && !(s.core c).withdrawn

/-- Banks in service (R95, Table 15.5). -/
def State.bankList (s : State) : List Nat :=
  (List.range s.env.dev.banks).filter fun b => !s.fsu.lostUnits.contains (3, b)

/-- Units of a kind lost. -/
def State.lostOf (s : State) (k : Nat) : Nat := (s.fsu.lostUnits.filter fun p => p.1 = k).length

/-- Spares left of a kind (Table 15.11). -/
def State.sparesOf (s : State) (k : Nat) : Nat := AL.get s.fsu.spares k

/-- Whether the block schedules: started, and not in safe mode (R311). -/
def State.up (s : State) : Bool := s.gcs.state = 2 || s.gcs.state = 3

/-! ## Interrupts (R362, R363, Table 17.6) -/

/-- Send an MSI-X message. -/
def State.msix (s : State) (v : Nat) : State := { s with out := { s.out with msix := s.out.msix ++ [v] } }

/-- Event `i` of `GCS_IRQ_STATUS`: one vector-0 message when an enabled bit changes from 0 to 1. -/
def State.irq (s : State) (i : Nat) : State :=
  if s.gcs.irqStatus.getLsbD i then s
  else
    let s' := { s with gcs := { s.gcs with irqStatus := s.gcs.irqStatus ||| (1#7 <<< i) } }
    if s.gcs.irqEnable.getLsbD i then s'.msix 0 else s'

/-- Physical core of a firmware role (Table 14.8). -/
def State.roleCore (s : State) (r : Nat) : Nat := (s.fwc.roleMap >>> (4 * r)) % 16

/-- Whether a firmware role's core runs; a paused one does not (R284). -/
def State.roleRuns (s : State) (r : Nat) : Bool := AL.get s.fwc.cores (s.roleCore r) = 1 && !s.pausedUnit 6 (s.roleCore r)

/-- Raise an in-band interrupt (R326): merged while unacknowledged, held while role 3's core restarts. In safe mode
the ROM raises it (R311). -/
def State.ibi (s : State) (cause : Nat) : State :=
  if s.i3c.unacked.contains cause || s.i3c.heldIbi.contains cause then s
  else if s.i3c.ibiEn && (s.roleRuns 3 || s.gcs.state = 4) then
    { s with out := { s.out with ibi := s.out.ibi ++ [cause] }, i3c := { s.i3c with unacked := s.i3c.unacked ++ [cause] } }
  else { s with i3c := { s.i3c with heldIbi := s.i3c.heldIbi ++ [cause] } }

/-- Raise the held in-band interrupts in order (R326). -/
def State.ibiRelease (s : State) : State :=
  s.i3c.heldIbi.foldl State.ibi { s with i3c := { s.i3c with heldIbi := [] } }

/-- Set bit `i` (16 to 20) of `FSU_HEALTH.NEW`, which raises HEALTH (Tables 15.9, 17.6). -/
def State.healthNew (s : State) (i : Nat) : State :=
  if s.fsu.newBits.getLsbD (i - 16) then s
  else ({ s with fsu := { s.fsu with newBits := s.fsu.newBits ||| (1#5 <<< (i - 16)) } }).irq 2

/-! ## Counts in force (R3, R361) -/

/-- `GCS_CAP0` (Table 17.4). -/
def State.cap0 (s : State) : Word :=
  let d := s.env.dev
  let cl := s.presentList.length
  let banks := s.bankList.length
  let cores := ((List.range (8 * d.clusters)).filter s.coreOk).length
  wd (fld 8 4 60 + fld d.slices 5 55 + fld (4 * banks) 7 48 + fld (s.sparesOf 3) 3 45 + fld banks 5 40 +
    fld (s.sparesOf 2) 3 37 + fld cl 5 32 + fld (9 * d.clusters) 8 24 + fld cores 8 16 + fld 1 4 12 + fld 8 4 8 +
    fld cl 8 0)

/-- `GCS_CAP1` (Table 17.5). -/
def State.cap1 (s : State) : Word :=
  let d := s.env.dev
  wd (fld 1 1 62 + fld s.presentList.length 5 57 + fld 16 5 52 + fld (d.pick 12 11) 4 48 + fld 4 4 44 +
    fld (d.pick 1 0) 3 41 + fld 32 6 35 + fld 24 5 30 + fld (d.counters / 1024 - s.lostOf 4) 9 21 + fld 12 4 17 +
    fld d.places 7 10 + fld d.slots 6 4 + fld (d.pick 10 9) 4 0)

/-- `FSU_SPARE_MAP` (Table 15.11). -/
def State.spareMap (s : State) : Word :=
  wd ((List.range 8).foldl (fun n k => n + fld (s.sparesOf (k + 1)) 8 (8 * k)) 0)

/-- `FSU_HEALTH` (Table 15.9). -/
def State.healthReg (s : State) : Word :=
  wd (fld s.fsu.exhausted.toNat 8 32 + fld s.fsu.newBits.toNat 5 16 + fld (b2n s.fsu.replace) 1 3 + fld s.fsu.state 3 0)

/-- `GCS_STATUS` (Table 13.13). -/
def State.statusReg (s : State) : Word :=
  let g := s.gcs
  wd (fld g.failB 4 28 + fld g.failA 4 24 + fld g.recoverResult 2 20 + fld (b2n g.recoverBusy) 1 19 +
    fld (b2n g.image) 1 16 + fld g.step 5 8 + fld g.kind 4 4 + fld g.state 3 0)

/-- `FWC_IMAGE_VER` (Table 14.10). -/
def State.imageVer (s : State) : Word :=
  wd (fld (b2n s.fwc.verSlot) 1 60 + fld s.fwc.verFloor 12 48 + fld s.fwc.verSec 16 32 + fld s.fwc.verImage 32 0)

/-- `FWC_UPDATE_STATUS` (Table 14.11). -/
def State.updateReg (s : State) : Word :=
  let f := s.fwc
  wd (fld f.freezeUs 16 48 + fld f.progressKib 14 20 + fld f.updResult 4 16 + fld (b2n f.updTarget) 1 8 +
    fld f.updPhase 3 0)

/-- `TTH_GROOM_STATUS` (Table 13.17). -/
def State.groomReg (s : State) : Word :=
  let t := s.tth
  wd (fld (b2n t.groomValid) 1 63 + fld (b2n t.groomReq) 1 62 + fld t.groomGait 2 60 + fld (t.groomTemp % 65536).toNat 16 32 +
    fld t.groomFailed 16 16 + fld t.groomTrained 16 0)

/-! ## Flash: the tack store (R305) -/

/-- Which copy is in force: the valid copy with the higher SEQ; none when neither is valid. -/
def State.tack? (s : State) : Option Tack := match s.flash.copy0, s.flash.copy1 with
  | some a, some b => if a.seq < b.seq then some b else some a
  | some a, none => some a
  | none, b => b

/-- The tack store in force, or the ROM's defaults. -/
def State.tack (s : State) : Tack := s.tack?.getD {}

/-- Write the tack store: the other copy, with SEQ one greater. `GCS_STATUS` reports its failure counts. -/
def State.setTack (s : State) (x : Tack) : State :=
  let y := { x with seq := s.tack.seq + 1 }
  let s := { s with gcs := { s.gcs with failA := x.failA, failB := x.failB } }
  let second := match s.flash.copy0, s.flash.copy1 with
    | some a, some b => decide (b.seq ≤ a.seq)
    | some _, none => true
    | none, _ => false
  { s with flash := if second then { s.flash with copy1 := some y } else { s.flash with copy0 := some y } }

/-! ## The stud book (R346 to R348) -/

/-- A stud-book record with its SEQ, time, epoch and CRC-32C (Table 15.7). -/
def sbRecord (seq time epoch w2 : Nat) (pay : List Word) : List Word :=
  let ws := [wd seq, wd time, wd w2, wordAt pay 0, wordAt pay 1, wordAt pay 2, wordAt pay 3]
  let crc := crc32c (ws.flatMap wordBytes ++ (wordBytes (wd (epoch % 2 ^ 32))).take 4)
  ws ++ [wd (fld crc 32 32 + fld epoch 32 0)]

/-- Stage a record; the staging queue holds 16. A record that finds it full is not staged and counts as LOST (R348), where Table 11.3
says that the FSU waits (DEDUCED, assumption 34). `w2` is its word w2. -/
def State.stageRaw (s : State) (w2 : Nat) (pay : List Word) : State :=
  if s.fsu.staging.length < 16 then
    { s with fsu := { s.fsu with
        staging := s.fsu.staging ++ [sbRecord s.fsu.nextSeq s.env.now s.tack.cold w2 pay], nextSeq := s.fsu.nextSeq + 1,
        stageWr := s.fsu.stageWr + 8 } }
  else { s with fsu := { s.fsu with lost := sat 0xFFFFFF (s.fsu.lost + 1), lostPend := s.fsu.lostPend + 1 } }

/-- UNIT of an error record about a unit of a kind (Table 15.2, assumption 30). -/
def kindUnit (kind : Nat) : Nat := match kind with
  | 1 => 0x0C | 2 => 3 | 3 => 2 | 4 => 4 | 5 => 6 | 6 => 9 | 7 => 8 | _ => 0x0A

/-- Lanes of a GE, spares included (R208). -/
def State.lanesPer (s : State) : Nat := s.env.dev.geLanes + s.env.dev.geSpares

/-- INSTANCE of an error record about a unit of a kind (Table 15.2). -/
def State.kindInst (s : State) (kind phys : Nat) : Nat := match kind with
  | 4 | 8 => 0
  | 5 => phys / s.lanesPer
  | _ => phys

/-- INSTANCE and UNIT of a record of types 0x02 to 0x08: the unit that a REMOUNT is about; the FSU for HEALTH and LOST; else the
firmware complex (DESIGN CHOICE, assumption 30). -/
def State.stageUnit (s : State) (type : Nat) (pay : List Word) : Nat × Nat := match type with
  | 4 => (s.kindInst (wordAt pay 0).toNat (wordAt pay 1).toNat, kindUnit (wordAt pay 0).toNat)
  | 5 | 8 => (0, 0x0A)
  | _ => (0, 9)

/-- Stage a record of types 0x02 to 0x08 (Tables 15.7 and 15.8). -/
def State.stage (s : State) (type : Nat) (pay : List Word) : State :=
  let u := s.stageUnit type pay
  s.stageRaw (fld u.1 16 32 + fld u.2 8 24 + type) pay

/-- Stage the LOST record that is due once room returns (R348). -/
def State.stageLost (s : State) : State :=
  if s.fsu.lostPend = 0 ∨ 16 ≤ s.fsu.staging.length then s
  else ({ s with fsu := { s.fsu with lostPend := 0 } }).stage 0x08 [wd s.fsu.lostPend, 0, 0, 0]

/-- Error codes whose stud-book column in Table 15.3 reads Y. -/
def sbAlways (code : Nat) : Bool := [0x08, 0x0B, 0x0C, 0x10, 0x11, 0x13, 0x14, 0x15, 0x16].contains code

/-! ## Error records (R330 to R338) -/

/-- What an error record says (Table 15.2). -/
structure Err where
  unit : Nat
  inst : Nat := 0
  cls : Nat
  code : Nat
  ctx : Option Nat := none
  qt : Option (Nat × Nat) := none  -- queue and tag
  a : Nat := 0
  b : Nat := 0
  c : Nat := 0

/-- The eight words of a record (Table 15.2). -/
def Err.words (e : Err) (time number : Nat) : List Word :=
  [wd (fld e.inst 16 48 + fld e.unit 8 40 + fld e.cls 2 8 + fld e.code 8 0), wd time,
   wd (fld (b2n e.ctx.isSome) 1 63 + fld (b2n e.qt.isSome) 1 62 + fld (e.ctx.getD 0) 12 32 +
     fld (e.qt.getD (0, 0)).2 16 16 + fld (e.qt.getD (0, 0)).1 10 0),
   wd e.a, wd e.b, wd e.c, 0, wd number]

/-- Records the error ring holds (R337). -/
def State.errCap (s : State) : Nat := 2 ^ s.fsu.errLog / 64

/-- Fill of the error ring. -/
def State.errFill (s : State) : Nat := (s.fsu.errTail - s.fsu.errHead).toNat

/-- Write a record to the error ring, or drop it (R337, R338); the level interrupt (R272). -/
def State.errRing (s : State) (ws : List Word) : State :=
  if !s.fsu.errEn then s
  else if s.errCap ≤ s.errFill then
    ({ s with fsu := { s.fsu with dropped := sat 0xFFFFFF (s.fsu.dropped + 1) } }).healthNew 20
  else
    let s1 := s.wrWords s.fsu.errHost (s.fsu.errBase * 4096 + 64 * (s.fsu.errTail.toNat % s.errCap)) ws
    let s2 := { s1 with fsu := { s1.fsu with errTail := s1.fsu.errTail + 1 } }
    if s2.fsu.errLevel ≠ 0 ∧ s1.errFill < s2.fsu.errLevel ∧ s2.fsu.errLevel ≤ s2.errFill ∧ s2.fsu.errArmed then
      (({ s2 with fsu := { s2.fsu with errArmed := false } }).irq 1).ibi 5
    else s2

/-- Stage an error record for the stud book: always, or at most once a code in 60 s (R348). One that finds the queue full is not staged
either: the next record of the code counts it. -/
def State.stageErr (s : State) (e : Err) (ws : List Word) : State :=
  let w2 := fld e.inst 16 32 + fld e.unit 8 24 + fld e.cls 2 16 + fld e.code 8 8 + 1
  let pay := [wordAt ws 2, wordAt ws 3, wordAt ws 4, wordAt ws 5]
  if sbAlways e.code then s.stageRaw w2 pay
  else
    let (till, n) := AL.get s.fsu.limited e.code
    let note (x : Nat × Nat) : State := { s with fsu := { s.fsu with limited := AL.put e.code x s.fsu.limited } }
    if s.env.now < till then note (till, n + 1)
    else (note (if s.fsu.staging.length < 16 then (s.env.now + 60000000000, 0) else (till, n + 1))).stageRaw
      (w2 + fld (sat 0xFFFF n) 16 48) pay

/-- Form an error record: number it, write it to the ring, stage it, raise ERROR for a CONTAINED or UNCONTAINED one;
an UNCONTAINED one then starts the reset of the policy in force (R320, R331, R333, R337, R362). -/
def State.err (s : State) (e : Err) : State :=
  let ws := e.words s.env.now s.fsu.number
  let s1 := ({ s with fsu := { s.fsu with number := s.fsu.number + 1 } }).errRing ws
  let s2 := s1.stageErr e ws
  let s3 := if 2 ≤ e.cls then s2.irq 0 else s2
  if e.cls = 3 ∧ !s3.fsu.resetPending then
    ({ s3 with fsu := { s3.fsu with resetPending := true } }).push
      [.reset (if s3.fwc.resetCold then 2 else 1) (0x300 + e.code)]
  else s3

/-! ## Health (R344) -/

/-- The state that remounted spares and lost units give (R344). -/
def State.healthState (s : State) : Nat :=
  if s.gcs.state = 4 then 3
  else if s.fsu.lostUnits ≠ [] ∨ s.fsu.kept ≠ [] then 2
  else if s.fsu.remounted then 1
  else 0

/-- Bit k − 1 set: no spare of kind k is left (Table 15.9). -/
def State.exhaustedBits (s : State) : BitVec 8 :=
  BitVec.ofNat 8 ((List.range 8).foldl (fun n k => n + if s.sparesOf (k + 1) = 0 then 2 ^ k else 0) 0)

/-- Bring `FSU_HEALTH` up to date; a change of STATE, and a setting of REPLACE, is announced (R344). `force` sets
REPLACE for the third case of R323. -/
def State.health (s : State) (force : Bool := false) : State :=
  let st := s.healthState
  let rep := s.fsu.replace || force || decide (st = 2) || decide (st = 3)
  let newRep := rep && !s.fsu.replace
  let newSt := decide (st ≠ s.fsu.state)
  let before := s.healthReg
  let s1 := { s with
    fsu := { s.fsu with state := st, replace := rep, exhausted := s.exhaustedBits },
    gcs := if s.gcs.state = 2 ∧ st = 2 then { s.gcs with state := 3 } else s.gcs }
  let s2 := if newRep then s1.healthNew 16 else s1
  let s3 := if newSt then s2.healthNew 17 else s2
  if newRep || newSt then
    let s4 := s3.stage 0x05 [before, s3.healthReg, s3.spareMap, s3.cap0]
    let s5 := if newSt && decide (st = 3) then s4.ibi 3 else s4
    let s6 := if newRep then s5.ibi 1 else s5
    if newSt && decide (st = 2) then s6.ibi 2 else s6
  else s1

/-! ## The stud book's ring (R346, R349) -/

/-- A ring of `sectors` sectors retains all but its oldest one once they are full: at least 2,031 × 64 records (R346, DEDUCED,
assumption 34). -/
def sbTrim (sectors : Nat) (r : List (List Word)) : List (List Word) :=
  if sectors * 64 ≤ r.length then r.drop 64 else r

/-- The ring's sector at position `pos`: lost ones are passed over. -/
def State.sbSector (s : State) (pos : Nat) : Nat :=
  let i := pos / 64 % 2032
  if s.fsu.lostUnits.contains (8, i) then
    (((List.range 2032).map fun k => (i + k) % 2032).find? fun j => !s.fsu.lostUnits.contains (8, j)).getD i
  else i

/-- Ring sector `i`, physically `p`, has failed to erase or to read back: it is retired, and the lowest spare takes its place; without
one the ring loses the sector (R346, Table 15.5). The cause of its REMOUNT record is 0: no code of Table 15.6 step 1 names it (assumption
30). -/
def State.sbRetire (s : State) (i p : Nat) : State :=
  let free := ((List.range 16).map fun j => 2032 + j).find? fun j =>
    !s.fsu.retired.contains (8, j) && !(s.fsu.map.any fun m => m.1.1 = 8 && m.2 = j)
  let s1 := { s with fsu := { s.fsu with retired := s.fsu.retired ++ [(8, p)] } }
  let s2 := match free with
    | some j => { s1 with fsu := { s1.fsu with
        map := AL.put (8, i) j s1.fsu.map, spares := AL.upd s1.fsu.spares 8 fun n => n - 1, sbSpares := s1.fsu.sbSpares - 1,
        remounted := true } }
    | none => ({ s1 with fsu := { s1.fsu with lostUnits := s1.fsu.lostUnits ++ [(8, i)], sectors := s1.fsu.sectors - 1 } }).err
        { unit := 0x0A, cls := 1, code := 0x15, a := 8, b := p, c := s1.fsu.sectors - 1 }
  let s3 := s2.setTack { s2.tack with repair := s2.tack.repair ++ [(8, p)] }
  (s3.stage 0x04 [8, wd p, (free.map wd).getD (wd (2 ^ 64 - 1)), 0]).health

/-- Retire sectors, a spare that has just come in among them, until the next position lies in one that takes the write; `n` bounds them
(R346). -/
def State.sbReady (s : State) : Nat → State
  | 0 => s
  | n + 1 =>
    let i := s.sbSector s.flash.ringPos
    let p := s.physOf 8 i
    if s.env.defects.contains (8, p) && !s.fsu.retired.contains (8, p) then (s.sbRetire i p).sbReady n else s

/-- Write a record at the ring's next position; a sector that fails is retired first (R346). -/
def State.sbWrite (s : State) (x : List Word) : State :=
  let s1 := s.sbReady 2048
  let j := s1.sbSector s1.flash.ringPos
  let pos := if j = s1.flash.ringPos / 64 % 2032 then s1.flash.ringPos else 64 * j
  { s1 with flash := { s1.flash with ring := sbTrim s1.fsu.sectors (s1.flash.ring ++ [x]), ringPos := pos + 1 } }

/-- Write the staged records to the ring in SEQ order (R349). -/
def State.flushStudbook (s : State) : State :=
  (s.fsu.staging.foldl State.sbWrite { s with fsu := { s.fsu with staging := [] } }).stageLost

end Sys2Proof.Machine
end

