-- ==== Sys2Proof/Machine/Dcache.lean ====
section
/-!
DEFINITION. The descriptor cache (R90 to R92). A miss costs time only, which the model leaves out; lines, replacement bits and
fetch lanes are kept. The placement of descriptors in the graph store is the model's (assumption 15).
-/
namespace Sys2Proof.Machine

/-- Span of a graph: its highest loaded index plus one (R69). -/
def Graph.span (g : Graph) : Nat := g.descs.foldl (fun n p => max n (p.1 + 1)) 0

/-- Bytes of the frame part, rounded up to 4 KiB (R166). -/
def Ctx.framePart (x : Ctx) : Nat := (8 * x.frames + 4095) / 4096 * 4096

/-- The line number L of a graph's descriptor: its graph-store address over 128 (R90, assumption 15). -/
def Ctx.descLine? (x : Ctx) (g : Graph) (idx : Nat) : Option Nat := (runAt? g.runs idx).map fun n => (x.gsBase + 4096) / 128 + n

/-- Give a graph the descriptor places that its span needs beyond those it has: the lowest free ones (R166, assumption 15). -/
def Ctx.placeGraph (x : Ctx) (gid : Nat) (g : Graph) : Graph :=
  let held := (((x.graphs.filter fun p => p.1 ≠ gid).flatMap fun p => p.2.runs) ++ g.runs).foldl
    (fun l y => insertBy (fun (a b : Nat × Nat) => decide (a.1 < b.1)) y l) []
  { g with runs := g.runs ++ takeRuns (g.span - (g.runs.map Prod.snd).sum) (gaps 0 ((x.gsSize - x.framePart - 4096) / 128) held) }

/-- The set of a line: the fold of R90. -/
def State.dcSet (s : State) (l : Nat) : Nat :=
  let k := s.env.dev.dcSetLog
  (l ^^^ (l >>> k) ^^^ (l >>> (2 * k)) ^^^ (l >>> (3 * k))) % 2 ^ k

/-- The way of a set that holds a line. -/
def State.dcWay? (s : State) (l : Nat) : Option Nat :=
  (s.dcache.lines.find? fun p => p.1.1 = s.dcSet l && p.2 = l).map fun p => p.1.2

/-- Tree bits after way `w` of 16 is used: each node on its path points away from it. -/
def plruUse (bitsv w : Nat) : Nat :=
  let set (b i : Nat) (v : Bool) : Nat := if v then b ||| (1 <<< i) else b &&& (0xFFFF ^^^ (1 <<< i))
  let n1 := 1
  let n2 := 2 * n1 + (w >>> 3) % 2
  let n3 := 2 * n2 + (w >>> 2) % 2
  let n4 := 2 * n3 + (w >>> 1) % 2
  set (set (set (set bitsv n1 (!w.testBit 3)) n2 (!w.testBit 2)) n3 (!w.testBit 1)) n4 (!w.testBit 0)

/-- The way that the tree bits point to. -/
def plruVictim (bitsv : Nat) : Nat :=
  let b (i : Nat) : Nat := (bitsv >>> i) % 2
  let n2 := 2 + b 1
  let n3 := 2 * n2 + b n2
  let n4 := 2 * n3 + b n3
  8 * b 1 + 4 * b n2 + 2 * b n3 + b n4

/-- Mark a way used. -/
def State.dcUse (s : State) (set w : Nat) : State :=
  { s with dcache := { s.dcache with plru := AL.upd s.dcache.plru set fun b => plruUse b w } }

/-- Read a line: a hit updates replacement; a miss joins its lane, unless the lane already fetches the line (R91). -/
def State.dcRead (s : State) (l : Nat) : State := match s.dcWay? l with
  | some w => s.dcUse (s.dcSet l) w
  | none =>
    let lane := s.dcSet l % 8
    if (AL.get s.dcache.lanes lane).contains l then s
    else { s with dcache := { s.dcache with lanes := AL.upd s.dcache.lanes lane fun q => q ++ [l] } }

/-- DESC_FILL: the lane's oldest fill completes; its line takes the lowest free way (DESIGN CHOICE, assumption 31), or the one
replacement points to. -/
def State.dcFill (s : State) (lane : Nat) : State := match AL.get s.dcache.lanes lane with
  | [] => s
  | l :: r =>
    let set := s.dcSet l
    let used := (s.dcache.lines.filter fun p => p.1.1 = set).map fun p => p.1.2
    let w := (lowestFree 16 used).getD (plruVictim (AL.get s.dcache.plru set))
    let s1 := { s with dcache := { s.dcache with
      lanes := AL.put lane r s.dcache.lanes, lines := AL.put (set, w) l s.dcache.lines } }
    s1.dcUse set w

/-- Drop lines of the graph store, cached or being fetched (R92). A fill under way, or waiting at its lane, for a line that a
GRAPH_LOAD replaces ends without effect and is not issued again: no live instance reads that line (R70, assumption 31). -/
def State.dcDrop (s : State) (f : Nat → Bool) : State :=
  { s with dcache := { s.dcache with
    lines := s.dcache.lines.filter fun p => !f p.2
    lanes := s.dcache.lanes.map fun (p : Nat × List Nat) => (p.1, p.2.filter fun l => !f l) } }

/-- Put a graph into the store: the lines of the positions loaded, and those of a graph that it replaces, are invalidated (R92). -/
def State.storeGraph (s : State) (c gid : Nat) (g : Graph) (append : Bool) (first count : Nat) : State :=
  let x := s.ctx c
  let h := x.placeGraph gid g
  let old := AL.get x.graphs gid
  let gone (l : Nat) : Bool := ((List.range count).any fun i => x.descLine? h (first + i) = some l) ||
    (!append && (List.range old.span).any fun i => x.descLine? old i = some l)
  (s.dcDrop gone).setCtx c { x with graphs := AL.put gid h x.graphs }

/-- The block reads a task's descriptor (R91). -/
def State.descRead (s : State) (r : TaskRef) : State := match s.inst? r.ctx r.inst with
  | some x => match (s.ctx r.ctx).descLine? (AL.get (s.ctx r.ctx).graphs x.gid) r.idx with
    | some l => s.dcRead l
    | none => s
  | none => s

end Sys2Proof.Machine
end

