-- ==== Sys2Proof/Machine/Operands.lean ====
section
/-!
DEFINITION. The operand forms: command packets and their checks (R43 to R47, R366), the completion packet (Table 2.12),
the descriptor and its checks (Tables 3.1, 3.2), the control operation (Table 3.5).
-/
namespace Sys2Proof.Machine

/-! ## Word 0 of a command (Table 2.9) -/

namespace Op
def code (w : List Word) : Nat := bits (wordAt w 0) 7 0
def extra (w : List Word) : Nat := bits (wordAt w 0) 9 8
def barrier (w : List Word) : Bool := bit (wordAt w 0) 10
def noStatus (w : List Word) : Bool := bit (wordAt w 0) 11
def allOrPoison (w : List Word) : Bool := bit (wordAt w 0) 12
def onPoison (w : List Word) : Bool := bit (wordAt w 0) 13
def cplExt (w : List Word) : Bool := bit (wordAt w 0) 14
def tag (w : List Word) : Nat := bits (wordAt w 0) 31 16
def ctx (w : List Word) : Nat := bits (wordAt w 0) 43 32
def crc (w : List Word) : Nat := bits (wordAt w 0) 63 48
end Op

/-- Opcodes of Table 2.11 end at 0x1B. -/
def opcodes : Nat := 0x1C

/-- Packets of an opcode without a completion packet (Table 2.11). -/
def opPackets (code : Nat) : Nat := if code = 0x08 then 2 else 1

/-- Firmware-path opcodes (Table 2.11). -/
def opFw (code : Nat) : Bool := (0x08 ≤ code ∧ code ≤ 0x0F) ∨ (0x14 ≤ code ∧ code ≤ 0x1B)

/-- Opcodes marked M (Table 2.11). -/
def opManaged (code : Nat) : Bool := 0x16 ≤ code ∧ code ≤ 0x1B

/-- The role that serves a firmware-path opcode (Table 14.2): 0 Queues, 1 Contexts, 2 Farrier, 3 Management. -/
def opRole (code : Nat) : Nat :=
  if code = 0x14 ∨ code = 0x15 ∨ code = 0x16 ∨ code = 0x1B then 0
  else if code = 0x19 ∨ code = 0x1A then 2
  else if code = 0x18 then 3
  else 1

/-- Opcodes that begin a change of residence (R173): CTX_SUSPEND and CTX_RESUME. -/
def opResidence (code : Nat) : Bool := code = 0x0A ∨ code = 0x0B

/-- Packets that a command's packet 0 calls for (R45). -/
def cmdPackets (w : List Word) : Nat := opPackets (Op.code w) + b2n (Op.cplExt w)

/-- CRC of packet `p` of a command holds (R44). -/
def packetCrcOk (first : Bool) (pkt : List Word) : Bool :=
  let i := if first then 0 else 7
  let bytes := (List.range 8).flatMap fun j =>
    wordBytes (if j = i then wd (bits (wordAt pkt j) 47 0) else wordAt pkt j)
  decide (crc16 bytes = bits (wordAt pkt i) 63 48)

/-! ## Completion packet (Table 2.12) -/

/-- Word `i` of the completion packet. -/
def Op.cpl (w : List Word) (i : Nat) : Word := wordAt w (8 * opPackets (Op.code w) + i)
/-- A local signal is due on completion. -/
def Op.local (w : List Word) : Bool := Op.cplExt w && bit (Op.cpl w 0) 0
/-- A remote signal is due on completion. -/
def Op.remote (w : List Word) : Bool := Op.cplExt w && bit (Op.cpl w 0) 1
/-- A peer write is requested. -/
def Op.peer (w : List Word) : Bool := Op.cplExt w && bit (Op.cpl w 0) 2
/-- An MSI-X message is requested. -/
def Op.msix (w : List Word) : Bool := Op.cplExt w && bit (Op.cpl w 0) 3

/-! ## Ranges and reserved bits (R46, R366) -/

/-- A parameter word: its number, the bits that have a meaning, and its stated range. Bits without a meaning count as
reserved (assumption 23). -/
abbrev Param := Nat × Nat × (Word → Bool)

/-- Any value. -/
def anyValue (_ : Word) : Bool := true
/-- A multiple of `n`. -/
def multOf (n : Nat) (w : Word) : Bool := w.toNat % n = 0
/-- All 64 bits have a meaning. -/
def allBits : Nat := 2 ^ 64 - 1
/-- The low `n` bits have a meaning. -/
def low (n : Nat) : Nat := 2 ^ n - 1
/-- A signal word: [23:0] id, [55:24] increment, 1 or more. -/
def signalWord (w : Word) : Bool := bits w 55 24 ≠ 0

/-- Parameter words of an opcode (Tables 2.11 and 7.2); `f` is word 2 or 3 where another word selects the layout. -/
def opParams (d : Device) (w : List Word) : List Param :=
  let w1 := wordAt w 1
  let w3 := wordAt w 3
  match Op.code w with
  | 0x01 => [(1, allBits, multOf 128),
             (2, allBits, fun x => 1 ≤ bits x 63 32 ∧ bits x 63 32 ≤ 1048576 ∧ bits x 31 0 + bits x 63 32 ≤ 2 ^ 32),
             (3, low 18, anyValue)]
  | 0x02 => [(1, low 18, anyValue), (2, low 32, anyValue), (3, if bit w1 17 then allBits else low 32, anyValue),
             (4, low 32, anyValue)]
  | 0x03 => [(1, low 56, signalWord)]
  | 0x04 => [(1, low 24, anyValue), (2, allBits, anyValue)]
  | 0x05 => [(1, allBits, multOf 16), (2, low 7, fun x => 1 ≤ x.toNat ∧ x.toNat ≤ 64)]
  | 0x06 => [(1, allBits, multOf (if bit w3 0 then 8 else 4)), (2, allBits, anyValue), (3, 1, anyValue)]
  | 0x07 => [(1, 3, anyValue), (2, if bits w1 1 0 = 2 then allBits else low 16, anyValue)]
  | 0x08 => [(1, 0x1F1F3FFF, fun x => 10 ≤ bits x 20 16 ∧ bits x 20 16 ≤ 24 ∧ 12 ≤ bits x 28 24 ∧ bits x 28 24 ≤ 24),
             (2, allBits, multOf 4096),
             (3, allBits, fun x => x.toNat % 4096 = 0 ∧
               (8 * bits (wordAt w 4) 31 0 + 4095) / 4096 * 4096 + 4096 ≤ x.toNat),
             (4, 0x001F1FFFFFFFFFFF, fun x => 16 ≤ bits x 52 48 ∧ bits x 52 48 ≤ 20 ∧ 1 ≤ bits x 44 32 ∧
               bits x 44 32 ≤ 4096 ∧ 64 ≤ bits x 31 0 ∧ bits x 31 0 ≤ 16777216),
             (5, allBits, multOf 65536), (6, allBits, multOf 4096), (7, allBits, multOf 4096),
             (8, allBits, anyValue),
             (9, low 32, fun x => x = 0 ∨ (100 ≤ x.toNat ∧ x.toNat ≤ 100000)),
             (10, allBits, multOf 4096),
             (11, low 5, fun x => wordAt w 10 = 0 ∨ (12 ≤ x.toNat ∧ x.toNat ≤ 26)),
             (12, allBits, multOf 4096), (13, allBits, multOf 4096)]
  | 0x09 | 0x0A | 0x0B => [(1, low 12, anyValue)]
  | 0x0C => [(1, low 26, anyValue), (2, low 17, fun x => 1 ≤ x.toNat ∧ x.toNat ≤ 65536)]
  | 0x0D => [(1, low d.slices, anyValue), (2, allBits, multOf 65536)]
  | 0x0E => [(1, allBits, anyValue), (2, 0xFF1FFF, fun x => 1 ≤ bits x 12 0 ∧ bits x 12 0 ≤ 4096)]
  | 0x0F => [(1, low 25, anyValue)]
  | 0x10 => [(1, allBits, anyValue), (2, allBits, anyValue), (3, allBits, anyValue)]
  | 0x11 => [(1, allBits, anyValue)]
  | 0x12 => [(1, low 16, anyValue), (2, allBits, multOf 64)]
  | 0x13 => [(1, allBits, anyValue), (2, 1, anyValue),
             if bit (wordAt w 2) 0 then (3, low 17, anyValue) else (3, low 56, signalWord),
             (4, low 32, anyValue), (5, low 32, anyValue)]
  | 0x14 => [(1, 0xFFFFFFFFFFFF00FF, anyValue), (2, allBits, multOf 8), (3, allBits, fun x => 16 ≤ x.toNat ∧ x.toNat ≤ 4096)]
  | 0x15 => [(1, allBits, multOf 64), (2, low 7, anyValue)]
  | 0x16 => [(1, 0x103FF, anyValue), (2, low 32, anyValue)]
  | 0x17 => [(1, low 12, anyValue), (2, low 24, anyValue), (3, allBits, anyValue)]
  | 0x18 => [(1, allBits, anyValue), (2, allBits, anyValue), (3, 1, anyValue)]
  | 0x19 => [(1, allBits, anyValue), (2, allBits, fun x => 1 ≤ x.toNat ∧ x.toNat ≤ 65536), (3, allBits, multOf 64)]
  | 0x1A => [(1, allBits, anyValue)]
  | 0x1B => [(1, 1, anyValue)]
  | _ => []

/-- Parameter words of a completion packet that starts at word `b` (Table 2.12). -/
def cplParams (w : List Word) (b : Nat) : List Param :=
  let w0 := wordAt w b
  [(b, low 5, anyValue),
   (b + 1, low 56, fun x => !bit w0 0 || signalWord x),
   (b + 2, 0xFFFFFFFF000003FF, fun x => !bit w0 1 || bits x 63 32 ≠ 0),
   (b + 3, allBits, anyValue), (b + 4, allBits, anyValue), (b + 5, allBits, anyValue)]

/-- Bits of word `i` of a command that have a meaning and pass their range. -/
def wordOk (ps : List Param) (w : List Word) (i : Nat) : Bool :=
  let x := wordAt w i
  if i = 0 then x.toNat &&& 0xF00000008000 = 0
  else
    let crcBits := if 8 ≤ i ∧ i % 8 = 7 then 0xFFFF000000000000 else 0
    match ps.find? fun p => p.1 = i with
    | some (_, m, f) => decide (x.toNat &&& (allBits - (m ||| crcBits)) = 0) && f x
    | none => x.toNat &&& (allBits - crcBits) = 0

/-- The first word that holds a value outside its range or a non-zero reserved bit (R366). -/
def badWord? (d : Device) (w : List Word) : Option Nat :=
  let ps := opParams d w ++ if Op.cplExt w then cplParams w (8 * opPackets (Op.code w)) else []
  (List.range (8 * cmdPackets w)).find? fun i => !wordOk ps w i

/-! ## Objects that a command names (R45, R131) -/

/-- The virtual counter ids that a command's parameters name. -/
def cmdVids (w : List Word) : List Nat :=
  let w1 := wordAt w 1
  (match Op.code w with
    | 0x03 | 0x04 => [bits w1 23 0]
    | 0x0C => [bits w1 23 0 + bits (wordAt w 2) 16 0 - 1]
    | 0x13 => if bit (wordAt w 2) 0 then [] else [bits (wordAt w 3) 23 0]
    | _ => []) ++ if Op.local w then [bits (Op.cpl w 1) 23 0] else []

/-- The counters a command names as a target: signals and completion packets (Table 2.15 step 5). -/
def cmdTargets (w : List Word) : List Nat :=
  (match Op.code w with
    | 0x03 => [bits (wordAt w 1) 23 0]
    | 0x13 => if bit (wordAt w 2) 0 then [] else [bits (wordAt w 3) 23 0]
    | _ => []) ++ if Op.local w then [bits (Op.cpl w 1) 23 0] else []

/-! ## Descriptors (Table 3.1) -/

namespace Desc
def kind (x : List Word) : Nat := bits (wordAt x 0) 7 0
def pruneOk (x : List Word) : Bool := bit (wordAt x 0) 8
def specOk (x : List Word) : Bool := bit (wordAt x 0) 9
def shapeDyn (x : List Word) : Bool := bit (wordAt x 0) 10
def flow (x : List Word) : Bool := bit (wordAt x 0) 11
def trace (x : List Word) : Bool := bit (wordAt x 0) 12
def reqValid (x : List Word) : Bool := bit (wordAt x 0) 13
def depInit (x : List Word) : Nat := bits (wordAt x 0) 31 16
def index (x : List Word) : Nat := bits (wordAt x 0) 63 32
def entry (x : List Word) : Word := wordAt x 1
def operands (x : List Word) : Nat := (wordAt x 2).toNat
def flowId (x : List Word) : Nat := bits (wordAt x 3) 23 0
def home (x : List Word) : Nat := bits (wordAt x 3) 47 32
def sliceHint (x : List Word) : Nat := bits (wordAt x 3) 63 48
def dlOffset (x : List Word) : Nat := bits (wordAt x 4) 47 0
def budget (x : List Word) : Nat := bits (wordAt x 4) 63 48
def succList (x : List Word) : Nat := (wordAt x 5).toNat
def succCount (x : List Word) : Nat := bits (wordAt x 6) 15 0
def sigCount (x : List Word) : Nat := bits (wordAt x 6) 31 16
def shapeSlot (x : List Word) : Nat := bits (wordAt x 6) 63 32
def inList (x : List Word) : Nat := (wordAt x 10).toNat
def inCount (x : List Word) : Nat := bits (wordAt x 11) 15 0
def outCount (x : List Word) : Nat := bits (wordAt x 11) 31 16
def required (x : List Word) : Nat := bits (wordAt x 11) 63 32
def outList (x : List Word) : Nat := (wordAt x 12).toNat
def gatePred (x : List Word) : Nat := bits (wordAt x 13) 31 0
def gateSite (x : List Word) : Nat := bits (wordAt x 13) 47 32
/-- A GATE task of the global engine (Table 3.4). -/
def global (x : List Word) : Bool := bit (wordAt x 1) 8
end Desc

/-- Checks of Table 3.2 that word `i` of a descriptor at position `pos` must pass; a check over two words counts at its
lower one. -/
def descWordOk (x : List Word) (pos i : Nat) : Bool :=
  let k := Desc.kind x
  match i with
  | 0 => decide (1 ≤ k) && decide (k ≤ 4) && decide (bits (wordAt x 0) 15 14 = 0) && decide (Desc.index x = pos) &&
      !((k = 3 || k = 4) && (Desc.pruneOk x || Desc.specOk x || Desc.shapeDyn x || Desc.flow x)) &&
      !(k = 2 && Desc.specOk x) &&
      !((k = 1 || k = 2) && Desc.shapeDyn x && Desc.shapeSlot x = 0xFFFFFFFF)
  | 1 => !(k = 3 && Desc.entry x ≠ 0) && !(k = 2 && bits (Desc.entry x) 63 9 ≠ 0)
  | 2 => k = 4 || Desc.operands x % 64 = 0
  | 3 => bits (wordAt x 3) 31 24 = 0
  | 5 => Desc.succCount x + Desc.sigCount x = 0 || Desc.succList x % 8 = 0
  | 6 => Desc.sigCount x ≤ 256
  | 7 | 13 => bits (wordAt x i) 63 48 = 0
  | 8 | 9 => bits (wordAt x i) 63 56 = 0
  | 10 => Desc.inCount x = 0 || Desc.inList x % 8 = 0
  | 11 => decide (Desc.inCount x ≤ 256) && decide (Desc.outCount x ≤ 64) &&
      (32 ≤ Desc.inCount x || Desc.required x < 2 ^ Desc.inCount x) &&
      !((k = 3 || k = 4) && (Desc.inCount x ≠ 0 || Desc.outCount x ≠ 0))
  | 12 => Desc.outCount x = 0 || Desc.outList x % 8 = 0
  | _ => true

/-- The first failing word of a descriptor (R72, R74). -/
def descBad? (x : List Word) (pos : Nat) : Option Nat := (List.range 16).find? fun i => !descWordOk x pos i

/-- Words of a signal w8 layout: id, increment. -/
def sigWord (w : Word) : Nat × Nat := (bits w 23 0, bits w 55 24)

/-- The effective handle of a list entry (R77). -/
def effHandle (base : Nat) (e : Word) : Nat := if bit e 32 then (bits e 31 0 + base) % 2 ^ 32 else bits e 31 0

/-! ## Command words of the status record (R48, R56) -/

/-- The code of a status (Table 2.17). -/
def Status.code : Status → Nat
  | .ok => 0 | .partialOk => 1 | .badOpcode => 2 | .badParam => 3 | .noResource => 4 | .ctxFault => 5
  | .queueGuilty => 6 | .cancelled => 7 | .timeout => 8 | .poisoned => 9 | .denied => 10 | .fwBusy => 11
  | .remoteUnreachable => 12

end Sys2Proof.Machine
end

