-- ==== Sys2Proof/Machine/Tiles.lean ====
section
/-!
DEFINITION. Slices and clusters (R16), the tile map (R114, R184), granules and pools (R118 to R121, R194), shape slots
(R240 to R242), digests (R191) and home clusters (R17).
-/
namespace Sys2Proof.Machine

/-! ## Slices and clusters (R16, R102) -/

/-- Attached slice of a cluster. -/
def attachedSlice (c : Nat) : Nat := 8 * (c / 9) + min (c % 9) 7

/-- Home cluster of a slice. -/
def sliceHome (s : Nat) : Nat := 9 * (s / 8) + s % 8

/-- Ring distance between clusters of `n`. -/
def ringDist (n a b : Nat) : Nat := min ((a + n - b) % n) ((b + n - a) % n)

/-- The offer order from cluster `h` over `n` clusters: nearest first, higher before lower (R102). -/
def offerAll (n h : Nat) : List Nat :=
  h :: ((List.range (n / 2)).flatMap fun d =>
    let a := (h + d + 1) % n
    let b := (h + n - (d + 1)) % n
    if a = b then [a] else [a, b])

/-- The offer order of present clusters (R102). -/
def State.offerOrder (s : State) (h : Nat) : List Nat := (offerAll s.env.dev.clusters h).filter s.present

/-! ## The tile map (Table 4.2) -/

/-- A tile-map entry. -/
structure Tile where
  pooled : Bool := false
  occ : Bool := false
  valid : Bool := false
  slice : Nat := 0
  addr : Nat := 0
  version : Nat := 0
  size : Nat := 0
deriving DecidableEq, Repr, Inhabited

/-- Address of the entry of a handle (R114). -/
def State.tileAddr (s : State) (c h : Nat) : Nat := (s.ctx c).mapBase + 16 * (h % 2 ^ (s.ctx c).mapLog)

/-- The entry of an effective handle. -/
def State.tile (s : State) (c h : Nat) : Tile :=
  let w0 := s.rd64 (s.tileAddr c h)
  let w1 := s.rd64 (s.tileAddr c h + 8)
  { pooled := bit w0 58, occ := bit w0 57, valid := bit w0 56, slice := bits w0 55 48, addr := bits w0 47 0,
    version := bits w1 63 32, size := bits w1 31 0 }

/-- Write the entry of an effective handle. -/
def State.setTile (s : State) (c h : Nat) (x : Tile) : State :=
  (s.wr64 (s.tileAddr c h) (wd (fld (b2n x.pooled) 1 58 + fld (b2n x.occ) 1 57 + fld (b2n x.valid) 1 56 +
    fld x.slice 8 48 + fld x.addr 48 0))).wr64 (s.tileAddr c h + 8) (wd (fld x.version 32 32 + fld x.size 32 0))

/-- Effective handles of a list of `n` entries at `a` (R77). -/
def State.handles (s : State) (a n base : Nat) : List Nat := (List.range n).map fun i => effHandle base (s.rd64 (a + 8 * i))

/-- Effective input handles of a task. -/
def State.inputs (s : State) (x : List Word) (base : Nat) : List Nat := s.handles (Desc.inList x) (Desc.inCount x) base

/-- Effective output handles of a task. -/
def State.outputs (s : State) (x : List Word) (base : Nat) : List Nat := s.handles (Desc.outList x) (Desc.outCount x) base

/-- The location of a granule (R119, assumption 17). -/
def State.granAddr (s : State) (sl g : Nat) : Nat := s.env.sliceBase + sl * s.env.sliceSize + 32768 * g

/-- The granule that an address of a slice lies in. -/
def State.granOf (s : State) (sl a : Nat) : Nat := (a - s.env.sliceBase - sl * s.env.sliceSize) / 32768

/-- A binding entry (Table 4.1). -/
def binding (t : Tile) (input : Bool) : Word :=
  wd (fld (b2n t.valid) 1 49 + fld (b2n (input && t.occ)) 1 48 + fld t.addr 48 0)

/-- The granule an entry holds, if any (R118, R187). -/
def State.heldGranule (s : State) (t : Tile) : Option (Nat × Nat) :=
  if t.valid && t.pooled && t.slice ≠ 0xFF then some (t.slice, s.granOf t.slice t.addr) else none

/-! ## Pools (R119, R120) -/

/-- Granules of a slice. -/
def State.sliceGranules (s : State) : Nat := s.env.sliceSize / 32768

/-- Granules of a slice that some pool holds. -/
def State.takenGranules (s : State) (sl : Nat) : List Nat :=
  s.plu.pools.flatMap fun p => if p.1.2 = sl then p.2.free ++ p.2.used else []

/-- Insert into an ascending list. -/
def insertNat (n : Nat) (l : List Nat) : List Nat := insertBy (fun a b => decide (a < b)) n l

/-- The order of ready keys: deadline, class, arrival number (R93). -/
def Key.lt (a b : Key) : Bool :=
  decide (a.dl < b.dl) || (decide (a.dl = b.dl) && (decide (a.cls < b.cls) ||
    (decide (a.cls = b.cls) && decide (a.arr < b.arr))))

/-- Commits in flight, with their clusters: a task confirmed before it completes does not enter the hold (R200). -/
def State.commits (s : State) : List (Nat × Held) := s.work.filterMap fun w => match w with
  | .commit n h => some (n, h)
  | _ => none

/-- Every speculative task: context, digest carrier (R194). -/
def State.specTasks (s : State) : List (TaskRef × Spec) :=
  (s.csq.cores.flatMap fun p =>
      (match p.2.saddle with | some x => x.spec.toList.map fun y => (x.e.ref, y) | none => []) ++
      (match p.2.running with | some r => r.p.spec.toList.map fun y => (r.p.e.ref, y) | none => [])) ++
    (s.csq.clusters.flatMap fun p => p.2.hold.flatMap fun h => h.run.p.spec.toList.map fun y => (h.run.p.e.ref, y)) ++
    s.commits.flatMap fun p => p.2.run.p.spec.toList.map fun y => (p.2.run.p.e.ref, y)

/-- Whether a granule is retained (R194). -/
def State.retained (s : State) (g : Nat × Nat) : Bool :=
  s.plu.preds.any (fun p => p.gran = some g) || s.specTasks.any fun p => p.2.gran = g

/-- Tasks of a context that are stalled in a saddle, in key order (R121). -/
def State.stalled (s : State) (c : Nat) : List Entry :=
  (s.csq.cores.filterMap fun p => match p.2.saddle with
      | some x => if x.e.ref.ctx = c ∧ x.stall.isSome then some x.e else none
      | none => none).foldl (fun l e => insertBy (fun a b => Key.lt a.key b.key) e l) []

/-- Offer returned or added granules to the context's stalled tasks, in key order (R121). -/
def State.offerStalled (s : State) (c : Nat) : State := s.push ((s.stalled c).map fun e => .retryWait e.ref)

/-- A granule returns to its pool, or to free memory when the pool has shrunk (R119, R120); a retained one waits (R194). -/
def State.returnGranule (s : State) (c : Nat) (g : Nat × Nat) : State :=
  let p := s.pool c g.1
  if !p.used.contains g.2 then s
  else if s.retained g then
    { s with plu := { s.plu with due := if s.plu.due.contains g then s.plu.due else s.plu.due ++ [g] } }
  else
    let used := p.used.filter (· ≠ g.2)
    let s1 := { s with plu := { s.plu with due := s.plu.due.filter fun x => x ≠ g } }
    if used.length + p.free.length < p.target then
      (s1.setPool c g.1 { p with used := used, free := insertNat g.2 p.free }).offerStalled c
    else s1.setPool c g.1 { p with used := used }

/-- A retention of a granule has ended: it returns when a case of R119 has occurred for it and none is left (R194). -/
def State.endRetention (s : State) (c : Nat) (g : Nat × Nat) : State :=
  if s.plu.due.contains g && !s.retained g then s.returnGranule c g else s

/-- Slices in allocation order from the first slice (R119). -/
def State.sliceOrder (s : State) (c hint cluster : Nat) : List Nat :=
  let n := s.env.dev.slices
  let first := if hint < n ∧ (s.pool c hint).target ≠ 0 then hint else attachedSlice cluster
  let others := ((List.range n).filter (· ≠ first)).foldl (fun l x => insertBy (fun a b =>
    decide (ringDist s.env.dev.clusters (sliceHome a) (sliceHome first) <
      ringDist s.env.dev.clusters (sliceHome b) (sliceHome first))) x l) []
  (first :: others).filter fun x => (s.pool c x).target ≠ 0

/-- The first slice of a task, for the stall statistic (R121). -/
def State.firstSlice (s : State) (c hint cluster : Nat) : Nat :=
  if hint < s.env.dev.slices ∧ (s.pool c hint).target ≠ 0 then hint else attachedSlice cluster

/-- Take the lowest free granule of the first pool slice that has one. -/
def State.allocGranule (s : State) (c : Nat) (order : List Nat) : Option ((Nat × Nat) × State) :=
  match order.find? fun sl => (s.pool c sl).free ≠ [] with
  | none => none
  | some sl =>
    let p := s.pool c sl
    match p.free with
    | [] => none
    | g :: r => some ((sl, g), s.setPool c sl { p with free := r, used := p.used ++ [g] })

/-- Allocate one output handle at staging (R118): none when no granule is free, else the granule taken, if any. An entry that has returned
its granule while its task stalls reads VALID = 0 until the retry (assumption 31). -/
def State.allocOutput (s : State) (c h : Nat) (order : List Nat) : Option (Option (Nat × Nat)) × State :=
  let t := s.tile c h
  if t.valid && !t.pooled then (some none, s)
  else
    let s1 := match s.heldGranule t with
      | some g => (s.setTile c h { t with valid := false }).returnGranule c g
      | none => s
    match s1.allocGranule c order with
    | none => (none, s1)
    | some (g, s2) =>
      let u : Tile := ⟨true, true, true, g.1, s2.granAddr g.1 g.2, (t.version + 1) % 2 ^ 32, 32768⟩
      (some (some g), s2.setTile c h u)

/-- Record the occupancy reported for outputs; a handle listed twice takes the OR of its bits (R113). -/
def State.recordOcc (s : State) (c : Nat) (hs : List Nat) (occ : Nat → Bool) : State :=
  hs.eraseDups.foldl (fun s h =>
    s.setTile c h { s.tile c h with occ := (List.range hs.length).any fun i => hs.getD i 0 = h && occ i }) s

/-- Mark the outputs of a pruned task empty (R187 effect 1). -/
def State.emptyOutputs (s : State) (c : Nat) (hs : List Nat) : State :=
  hs.foldl (fun s h =>
    let t := s.tile c h
    s.setTile c h (if t.valid then { t with occ := false }
      else { pooled := true, occ := false, valid := true, slice := 0xFF, addr := 0, version := t.version, size := 0 })) s

/-- Return the granules that a task allocated at staging and that its entries still bind; the entries become unbound
(R119). -/
def State.freeOutputs (s : State) (c : Nat) (gs : List (Nat × Nat × Nat)) : State :=
  gs.foldl (fun s x =>
    let t := s.tile c x.1
    if s.heldGranule t = some x.2 then (s.setTile c x.1 { t with valid := false }).returnGranule c x.2 else s) s

/-- Take a granule that no pool holds from a slice's free memory, lowest first (R120). -/
def State.growPool (s : State) (c sl : Nat) : Nat → Option State
  | 0 => some s
  | n + 1 =>
    match (List.range s.sliceGranules).find? fun g => !(s.takenGranules sl).contains g with
    | none => none
    | some g =>
      let p := s.pool c sl
      (s.setPool c sl { p with free := insertNat g p.free }).growPool c sl n

/-- Set a reservation on one slice to `n` granules (R120); false when the slice lacks the bytes to grow. -/
def State.reserve (s : State) (c sl n : Nat) : Bool × State :=
  let p := s.pool c sl
  let total := p.free.length + p.used.length
  if total < n then
    if (s.takenGranules sl).length + (n - total) ≤ s.sliceGranules then
      match s.growPool c sl (n - total) with
      | some s1 => (true, (s1.setPool c sl { s1.pool c sl with target := n }).offerStalled c)
      | none => (false, s)
    else (false, s)
  else (true, s.setPool c sl { p with target := n, free := p.free.take (n - p.used.length) })

/-! ## Shape slots (R240 to R242) -/

/-- Whether a slot index meets R240: software-bound, 16 bytes or more, in device memory. -/
def State.slotOk (s : State) (c i : Nat) : Bool :=
  let t := s.tile c i
  i ≠ 0xFFFFFFFF && t.valid && !t.pooled && 16 ≤ t.size && !s.inWindow t.addr

/-- Read a shape slot; none when it is invalid (R242). -/
def State.shape? (s : State) (c i : Nat) : Option Shape :=
  let a := (s.tile c i).addr
  if s.slotOk c i && bit (s.rd64 (a + 8)) 32 then
    let w0 := s.rd64 a
    some { m := bits w0 15 0, n := bits w0 31 16, k := bits w0 47 32, count := bits (s.rd64 (a + 8)) 31 0 }
  else none

/-- A block write of a shape slot: GEN advances, VALID is set (R241). -/
def State.writeShape (s : State) (c i : Nat) (x : Shape) : State :=
  let a := (s.tile c i).addr
  let gen := bits (s.rd64 a) 63 48 + 1
  (s.wr64 a (wd (fld gen 16 48 + fld x.k 16 32 + fld x.n 16 16 + fld x.m 16 0))).wr64 (a + 8)
    (wd (fld 1 1 32 + fld x.count 32 0))

/-- Word w7 with M, N and K of a shape (R87). -/
def Shape.w7 (x : Shape) : Word := wd (fld x.k 16 32 + fld x.n 16 16 + fld x.m 16 0)

/-! ## Digests (R191) -/

/-- The digest of a routed input by its binding. -/
def State.digest (s : State) (t : Tile) : Word :=
  if !t.occ then 0
  else
    let n := min (leNat (s.rdBytes false t.addr 4)) 8190
    wd (crc64xz (s.rdBytes false t.addr (min (8 + 4 * n) t.size)))

/-! ## The home cluster (R17) and pruning (R185, R186) -/

/-- The largest input tile that R117 leaves in the ranking: its slice. -/
def State.largestInput (s : State) (c : Nat) (hs : List Nat) : Option Nat :=
  let ts := (hs.map (s.tile c)).filter fun t => t.valid && t.slice < s.env.dev.slices
  (argMin (fun t => 2 ^ 32 - t.size) ts).map Tile.slice

/-- The home cluster of a task with effective index `eff` (R17, R117). -/
def State.homeCluster (s : State) (c : Nat) (x : List Word) (base eff : Nat) : Nat :=
  let hint := Desc.home x
  if hint ≠ 0xFFFF ∧ s.present hint then hint
  else match s.largestInput c (s.inputs x base) with
    | some sl => (s.offerOrder (sliceHome sl)).headD 0
    | none => s.presentList.getD (eff % max s.presentList.length 1) 0

/-- The required inputs of a task (R185). -/
def requiredInputs (x : List Word) : List Nat :=
  if Desc.reqValid x then (List.range 32).filter fun i => (Desc.required x).testBit i
  else List.range (min (Desc.inCount x) 32)

/-- Whether a task is prunable at this instant (R185, R186). -/
def State.prunable (s : State) (c : Nat) (x : List Word) (base : Nat) : Bool :=
  let hs := s.inputs x base
  let req := requiredInputs x
  Desc.pruneOk x && req ≠ [] && req.all fun i => let t := s.tile c (hs.getD i 0); t.valid && !t.occ

end Sys2Proof.Machine
end

