-- ==== Sys2Proof/Machine/Predict.lean ====
section
/-!
DEFINITION. The prediction table (R192 to R194).
-/
namespace Sys2Proof.Machine

/-- Sets of the table; it is 4-way (R192). -/
def State.predSets (s : State) : Nat := s.env.dev.predictions / 4

/-- The set of a site (assumption 18). -/
def State.predSet (s : State) (site : Nat) : Nat := site % s.predSets

/-- The entry of a site of a context's present generation. -/
def State.pred? (s : State) (c site : Nat) : Option Pred :=
  s.plu.preds.find? fun p => p.ctx = c ∧ p.gen = (s.ctx c).gen ∧ p.site = site

/-- A prediction is used: its entry is the most recently used one (R192, assumption 18). -/
def State.usePred (s : State) (c site : Nat) : State :=
  let mine (p : Pred) : Bool := decide (p.ctx = c) && decide (p.gen = (s.ctx c).gen) && decide (p.site = site)
  { s with plu := { s.plu with
      preds := s.plu.preds.map fun p => if mine p then { p with used := s.plu.predUse } else p
      predUse := s.plu.predUse + 1 } }

/-- Write an entry: in its place, in a free way, or over the least recently used entry of its set (R192). -/
def State.putPred (s : State) (p : Pred) : State :=
  let others := s.plu.preds.filter fun x => !(decide (x.ctx = p.ctx) && decide (x.gen = p.gen) && decide (x.site = p.site))
  let set := others.filter fun x => s.predSet x.site = s.predSet p.site
  let gone := if 4 ≤ set.length then argMin Pred.used set else none
  let keep := match gone with
    | some g => others.filter fun x => x ≠ g
    | none => others
  let s1 := { s with plu := { s.plu with preds := keep ++ [{ p with used := s.plu.predUse }], predUse := s.plu.predUse + 1 } }
  match gone with
  | some g => match g.gran with
    | some x => s1.endRetention g.ctx x
    | none => s1
  | none => s1

/-- Resolution of a site: the routed input's digest updates the entry (R193). -/
def State.resolve (s : State) (c : Nat) (x : List Word) (base step : Nat) : Word × State :=
  let site := Desc.gateSite x
  let t := s.tile c ((s.inputs x base).headD 0)
  let d := s.digest t
  let old := s.pred? c site
  let conf := match old with
    | some p => if p.digest = d then min (p.conf + 1) 3 else 0
    | none => 0
  let s1 := s.putPred
    { ctx := c, gen := (s.ctx c).gen, site := site, step := step, digest := d, conf := conf,
      gran := s.heldGranule t, shape := if Desc.shapeDyn x then s.shape? c (Desc.shapeSlot x) else none }
  (d, match old.bind Pred.gran with
    | some g => s1.endRetention c g
    | none => s1)

/-- Invalidate the entries that `f` picks and end their retentions (R192, R194). -/
def State.flushPreds (s : State) (f : Pred → Bool) : State :=
  let gone := s.plu.preds.filter f
  gone.foldl (fun s p => match p.gran with
    | some g => s.endRetention p.ctx g
    | none => s) { s with plu := { s.plu with preds := s.plu.preds.filter fun p => !f p } }

/-- `PLU_PRED_STATUS` (Table 8.10). -/
def State.predStatus (s : State) : Word :=
  let grans := (s.plu.preds.filterMap Pred.gran ++ s.specTasks.map fun p => p.2.gran).eraseDups
  wd (fld grans.length 16 48 + fld (s.plu.preds.filter fun p => p.conf = 3).length 13 16 + fld s.plu.preds.length 13 0)

end Sys2Proof.Machine
end

