-- ==== Sys2Proof/Machine/Counters.lean ====
section
/-!
DEFINITION. Counters, waiters and trailing signals (05).
-/
namespace Sys2Proof.Machine

/-- A counter as an operation sees it (Table 5.2). -/
structure Ctr where
  val : Nat := 0
  poison : Bool := false
  sat : Bool := false
  mapped : Bool := false
  exported : Bool := false
  resident : Bool := false
  phys : Nat := 0
deriving DecidableEq, Repr, Inhabited

/-- No virtual counter changes: during a gait change, and while `CTU_CTL.RUN` is clear (R15, R284, Table 5.8). -/
def State.counterHold (s : State) : Bool := s.gcs.changing || !s.ctu.run

/-- A counter-store row that is paused (R284). -/
def State.rowPaused (s : State) (idx : Nat) : Bool := s.pausedUnit 4 (s.physOf 4 (idx / 1024))

/-- Largest counter value. -/
def ctrMax : Nat := 2 ^ 64 - 1

/-- A context that holds a resident place for its counters (R132, assumption 16): a SUSPENDING one does. -/
def CtxState.inPlace (x : CtxState) : Bool := x = .resident || x = .suspending

/-- Address of the counter-table entry of a virtual id (R130). -/
def State.ctrAddr (s : State) (c v : Nat) : Nat := (s.ctx c).ctBase + 16 * v

/-- The physical counter that a counter holds. -/
def State.phys? (s : State) (c v : Nat) : Option Phys := s.ctu.phys.find? fun p => p.ctx = c ∧ p.vid = v

/-- A counter, from its physical counter or in place (R130, R132). -/
def State.ctr (s : State) (c v : Nat) : Ctr :=
  let w0 := s.rd64 (s.ctrAddr c v)
  match s.phys? c v with
  | some p => { val := p.val, poison := p.poison, sat := p.sat, mapped := bit w0 63, exported := bit w0 62,
                resident := true, phys := p.idx }
  | none => { val := (s.rd64 (s.ctrAddr c v + 8)).toNat, mapped := bit w0 63, exported := bit w0 62,
              poison := bit w0 61, sat := bit w0 60 }

/-- Word 0 of a counter-table entry. -/
def Ctr.w0 (x : Ctr) : Word :=
  wd (fld (b2n x.mapped) 1 63 + fld (b2n x.exported) 1 62 + fld (b2n x.poison) 1 61 + fld (b2n x.sat) 1 60 +
    fld (b2n x.resident) 1 59 + fld (if x.resident then x.phys else 0) 18 0)

/-- Write a counter back: to its physical counter and the entry's flags, or in place. A context that is not resident may still hold the
physical counter; the operation then acts on that (R132, assumption 31). -/
def State.setCtr (s : State) (c v : Nat) (x : Ctr) : State :=
  let s1 := s.wr64 (s.ctrAddr c v) x.w0
  if x.resident then
    { s1 with ctu := { s1.ctu with
        phys := s1.ctu.phys.map fun (p : Phys) =>
          if p.ctx = c ∧ p.vid = v then { p with val := x.val, poison := x.poison, sat := x.sat, used := s1.ctu.uses } else p,
        uses := s1.ctu.uses + 1 } }
  else s1.wr64 (s.ctrAddr c v + 8) (wd x.val)

/-- Physical counters in service (R361). -/
def State.physTotal (s : State) : Nat := s.env.dev.counters - 1024 * s.lostOf 4

/-- The lowest physical counter that is free and in service (assumption 16); a paused row gives none (R284). -/
def State.physFree? (s : State) : Option Nat :=
  if s.physTotal ≤ s.ctu.phys.length then none
  else
    let skip := s.lostOf 4 + ((s.fsu.paused ++ s.fsu.leaving).filter fun p => p.1 = 4).length
    (List.range (min s.env.dev.counters (s.ctu.phys.length + 1 + 1024 * skip))).find? fun i =>
      !(s.ctu.phys.any fun p => p.idx = i) && !s.fsu.lostUnits.contains (4, i / 1024) && !s.rowPaused i &&
        !s.fsu.leaving.contains (4, s.physOf 4 (i / 1024))

/-- The counter that eviction chooses (R133); those of a paused row stay (R284). -/
def State.evictee? (s : State) : Option Phys :=
  let rows := s.ctu.phys.filter fun p => !s.rowPaused p.idx
  let out := rows.filter fun p => !(s.ctx p.ctx).st.inPlace
  match argMin (fun p => (s.ctx p.ctx).lastChange * 2 ^ 64 + p.used) out with
  | some p => some p
  | none => argMin (fun p => p.used) (rows.filter fun p =>
      (s.ctx p.ctx).st.inPlace && !(s.ctr p.ctx p.vid).mapped && !(s.ctu.waiters.any fun w => w.ctx = p.ctx ∧ w.vid = p.vid))

/-- A counter operation waits: during a gait change, while `RUN` is clear, for the counter's paused row, or where paused rows leave
it no physical counter (R15, R284, Table 5.8). -/
def State.ctrWaits (s : State) (ctx vid : Nat) : Bool :=
  s.counterHold || match s.phys? ctx vid with
    | some p => s.rowPaused p.idx
    | none => (s.ctx ctx).st.inPlace && (s.fsu.paused.any fun p => p.1 = 4) && s.physFree?.isNone && s.evictee?.isNone

/-- A hand-set waits like that, but needs no physical counter: it leaves residence (R146). -/
def State.setWaits (s : State) (ctx vid : Nat) : Bool := s.counterHold || (s.phys? ctx vid).any fun p => s.rowPaused p.idx

/-- Evict a counter: write it back and free its physical counter (R133, R135). -/
def State.evict (s : State) (p : Phys) : State :=
  let x := s.ctr p.ctx p.vid
  let s1 := { s with ctu := { s.ctu with phys := s.ctu.phys.filter fun r => r.idx ≠ p.idx } }
  s1.setCtr p.ctx p.vid { x with resident := false }

/-- The armed level of a physical counter: the lowest expected value among its waiters (R128). -/
def armedOf (ws : List Waiter) (p : Phys) : Option Nat :=
  (argMin Waiter.expected (ws.filter fun w => decide (w.ctx = p.ctx) && decide (w.vid = p.vid))).map Waiter.expected

/-- Give a counter a physical counter, evicting if need be; none when nothing can be evicted (R132, R133). -/
def State.makeCtrResident (s : State) (c v : Nat) : Option State :=
  if (s.phys? c v).isSome then some s
  else
    let room : Option State := match s.physFree? with
      | some _ => some s
      | none => s.evictee?.map s.evict
    match room with
    | none => none
    | some s1 => match s1.physFree? with
      | none => none
      | some i =>
        let x := s1.ctr c v
        let p : Phys := { idx := i, ctx := c, vid := v, val := x.val, poison := x.poison, sat := x.sat }
        let s2 := { s1 with ctu := { s1.ctu with phys := s1.ctu.phys ++ [{ p with armed := armedOf s1.ctu.waiters p }] } }
        some (s2.setCtr c v { x with resident := true, phys := i })

/-- A resident counter is operated on: it is the last in the order of R133. -/
def State.touchCtr (s : State) (c v : Nat) : State :=
  { s with ctu := { s.ctu with
      phys := s.ctu.phys.map fun (p : Phys) => if p.ctx = c ∧ p.vid = v then { p with used := s.ctu.uses } else p
      uses := s.ctu.uses + 1 } }

/-- A counter operation on (c, v): a counter of a resident context becomes resident (R132); when it cannot, the context
faults with NO_COUNTER and the operation has no effect (R133), but for the answer `fail` that its issuer gets. -/
def State.withCtrOr (s : State) (c v : Nat) (src : SigSrc) (fail op : State → State) : State :=
  if !(s.ctx c).st.inPlace then op s
  else match s.makeCtrResident c v with
    | some s1 => op (s1.touchCtr c v)
    | none => fail (s.push [.faultCtx c 0x04 v 2 (if src.code = 2 ∨ src.code = 3 ∨ src.code = 6 then src.arg else ctrMax)])

/-- A counter operation whose issuer gets no answer of its own when the counter cannot become resident. -/
def State.withCtr (s : State) (c v : Nat) (src : SigSrc) (op : State → State) : State := s.withCtrOr c v src (fun s => s) op

/-- The counter's id limit L (R130). -/
def State.idLimit (s : State) (c : Nat) : Nat := 2 ^ (s.ctx c).idLog

/-- Replace the waiters, and the armed levels with them. -/
def State.setWaiters (s : State) (ws : List Waiter) : State :=
  { s with ctu := { s.ctu with waiters := ws, phys := s.ctu.phys.map fun p => { p with armed := armedOf ws p } } }

/-- Offset of the waiter region in a save area (Table 7.3). -/
def waiterOffset (frames : Nat) : Nat := 0x1000 + roundUp (32 * frames) 4096

/-- The place of a waiter's record in its context's region: instance frames, then queues, then the lowest free of eight
places a core (R128, assumption 31). -/
def State.waiterPos (s : State) (c : Nat) : Who → Nat
  | .control r _ => ((s.inst? r.ctx r.inst).bind fun x => runAt? x.frame r.idx).getD 0
  | .cmd q _ => (s.ctx c).frames + q
  | .core .. =>
    let b := (s.ctx c).frames + s.env.dev.queues
    b + ((lowestFree (64 * s.env.dev.clusters) ((s.ctu.waiters.filter fun w => decide (w.ctx = c) && decide (b ≤ w.pos)).map
      fun w => w.pos - b)).getD 0)

/-- Write a waiter's 16-byte record to the region, in a form that the manual does not give (assumption 13). -/
def State.putWaiter (s : State) (w : Waiter) : State :=
  let x := s.ctx w.ctx
  let a := x.saveBase + waiterOffset x.frames + 16 * w.pos
  let p := s.fresh 64
  let r := p.2.fresh 64
  (r.2.wr64 a p.1).wr64 (a + 8) r.1

/-- Write a context's cached waiter records back to its waiter region (Table 7.6 step 7). -/
def State.writeBackWaiters (s : State) (c : Nat) : State :=
  let s1 := (s.ctu.waiters.filter fun w => decide (w.ctx = c) && w.cached).foldl State.putWaiter s
  s1.setWaiters (s1.ctu.waiters.map fun w => if w.ctx = c then { w with cached := false } else w)

/-- Record a waiter: in the CTU's cache, or in the region when the cache is full (R128). -/
def State.addWaiter (s : State) (c v expected : Nat) (who : Who) : State :=
  let cached := decide ((s.ctu.waiters.filter Waiter.cached).length < s.env.dev.waiterCache)
  let w : Waiter := { ctx := c, vid := v, expected := expected, who := who, pos := s.waiterPos c who, cached := cached }
  let s1 := s.setWaiters (s.ctu.waiters ++ [w])
  if cached then s1 else s1.putWaiter w

/-- Release every waiter of a counter that its present value or poison satisfies (R125). -/
def State.releaseWaiters (s : State) (c v : Nat) : State :=
  let x := s.ctr c v
  let sat (w : Waiter) : Bool := decide (w.ctx = c) && decide (w.vid = v) && (decide (w.expected ≤ x.val) || x.poison)
  (s.setWaiters (s.ctu.waiters.filter fun w => !sat w)).push
    ((s.ctu.waiters.filter sat).map fun (w : Waiter) => .release w.who x.poison)

/-- Apply a signal: add the increment, saturating (R124, R126); a poisoned counter is left (R127). -/
def State.applySignal (s : State) (c v inc : Nat) (src : SigSrc) : State :=
  let x := s.ctr c v
  if x.poison ∨ inc = 0 then s
  else if ctrMax < x.val + inc then
    let s1 := s.setCtr c v { x with val := ctrMax, sat := true }
    let s2 := if x.sat then s1 else
      s1.err { unit := 4, cls := 1, code := 0x03, ctx := some c, a := v, b := src.code, c := src.arg }
    s2.releaseWaiters c v
  else (s.setCtr c v { x with val := x.val + inc }).releaseWaiters c v

/-- Poison a counter (R127). -/
def State.applyPoison (s : State) (c v : Nat) : State :=
  let x := s.ctr c v
  if x.poison then s else (s.setCtr c v { x with poison := true }).releaseWaiters c v

/-- A wait that arrives: released at once, or recorded (R125). -/
def State.applyWait (s : State) (c v expected : Nat) (who : Who) : State :=
  let x := s.ctr c v
  if x.poison ∨ expected ≤ x.val then s.push [.release who x.poison]
  else s.addWaiter c v expected who

/-- Withdraw waiters (R129). -/
def State.dropWaiters (s : State) (f : Waiter → Bool) : State := s.setWaiters (s.ctu.waiters.filter fun w => !f w)

/-- A hand-set raises the value, releases what it satisfies and leaves poison and residence (R146). -/
def State.handSet (s : State) (c v new : Nat) : State :=
  (s.setCtr c v { s.ctr c v with val := new }).releaseWaiters c v

/-- MAPPED counters of resident contexts (Table 5.13). -/
def State.mappedResident (s : State) : Nat :=
  (s.ctu.phys.filter fun p => (s.ctx p.ctx).st.inPlace && (s.ctr p.ctx p.vid).mapped).length

/-- Addresses of the chip's memory map at which a byte is listed. -/
def State.listed (s : State) : List Nat :=
  s.mem.map Prod.fst ++ s.hostMem.filterMap fun x =>
    if s.env.winPcie ≤ x.1 ∧ x.1 < s.env.winPcie + s.env.winSize then some (s.env.winBase + (x.1 - s.env.winPcie)) else none

/-- MAPPED ids of a context: only an entry with a byte listed can have its MAPPED bit set. -/
def State.mappedIds (s : State) (c : Nat) : List Nat :=
  let base := (s.ctx c).ctBase
  ((s.listed.filterMap fun a => if base ≤ a ∧ (a - base) % 16 = 7 then some ((a - base) / 16) else none).filter fun v =>
    decide (v < s.idLimit c) && bit (s.rd64 (s.ctrAddr c v)) 63).eraseDups

/-- The mapping limit (R134). -/
def State.mapLimit (s : State) : Nat := s.physTotal - s.env.dev.counterReserve

/-! ## Trailing signals (R139 to R144, R282, R283) -/

/-- An exported handle (Table 5.4b). -/
def mkHandle (c v gen : Nat) : Word :=
  let h := fld 1 4 60 + fld c 12 48 + fld v 24 24 + fld gen 16 8
  wd (h + handleCheck (wd h))

/-- Tests of R142 on a handle: 0 apply, 1 refuse the handle, 2 disabled. -/
def State.trailTest (s : State) (h : Word) : Nat :=
  let c := bits h 59 48
  if !s.ctu.trailEn then 2
  else if bits h 63 60 ≠ 1 ∨ bits h 7 0 ≠ handleCheck h then 1
  else if !s.defined c ∨ (s.ctx c).gen ≠ bits h 23 8 then 1
  else if s.idLimit c ≤ bits h 47 24 then 1
  else if !(s.ctr c (bits h 47 24)).exported then 1
  else 0

/-- The counter that a handle names (Table 5.4b). -/
def handleCtr (h : Word) : Nat × Nat := (bits h 59 48, bits h 47 24)

/-- Settle part `i` of a SIGNAL_REMOTE (R57). One that ends REMOTE_UNREACHABLE carries the number of failed parts (assumption 31). -/
def State.partDone (s : State) (q n i : Nat) (ok : Bool) : State :=
  let s1 := s.updCmd q n fun x =>
    { x with parts := x.parts.filter (· ≠ i), failed := if ok then x.failed else x.failed ++ [i] }
  match s1.cmd? q n with
  | none => s1
  | some x =>
    if x.parts ≠ [] then s1
    else if x.failed = [] then s1.push [.complete q n .ok 0]
    else s1.push [.complete q n (if x.failed.length = bits (wordAt x.words 2) 6 0 then .remoteUnreachable else .partialOk)
      x.failed.length]

/-- A trailing signal is settled: acknowledged APPLIED, or failed with a reason of code 0x0D (R143). -/
def State.trailSettled (s : State) (x : Trail) (reason : Option Nat) : State := match x.sender with
  | .part q n i => s.partDone q n i reason.isNone
  | .completion c | .task c => match reason with
    | none => s
    | some r => s.err { unit := 4, cls := 1, code := 0x0D, ctx := some c, a := fld x.dest 10 0 + fld r 2 16,
                        b := x.handle.toNat, c := x.seq }

/-- Acknowledge a TRAIL record over its link. -/
def State.trailAck (s : State) (ack : List Word) : State := { s with out := { s.out with link := s.out.link ++ [ack] } }

/-- A trailing signal is refused under R142: counted, and told to its source, or settled on this chip (R144). -/
def State.trailRefused (s : State) (x : Trail) (r : Nat) (ack : List Word) : State :=
  let s1 := { s with ctu := { s.ctu with refused := sat 0xFFFF (s.ctu.refused + 1) } }
  if ack = [] then s1.trailSettled x (some r) else s1.trailAck (ack.take 3 ++ [wd r])

/-- Hand a trailing signal to the CTU: applied on this chip (R144), failed for want of an address or a link
(R283, R310), or queued for its channel. -/
def State.trailPost (s : State) (x : Trail) : State :=
  if s.gcs.herdValid ∧ x.dest = s.gcs.herdAddr then
    match s.trailTest x.handle with
    | 0 => s.push [.trailAct x x.dest []]
    | r => s.trailRefused x r []
  else if !s.gcs.herdValid ∨ s.ctu.down.contains x.dest then s.trailSettled x (some 3)
  else { s with ctu := { s.ctu with toSend := s.ctu.toSend ++ [x] } }

/-- Place the oldest queued record on its channel, with the next SEQ, and start its timer (Table 12.5 step 2). -/
def State.trailPlace (s : State) : State := match s.ctu.toSend with
  | [] => s
  | x :: r =>
    let n := AL.get s.ctu.seqOut x.dest
    let rec4 := [wd (fld x.inc 32 32 + fld (b2n x.poison) 1 28 + fld s.gcs.herdAddr 10 18 + fld x.dest 10 8 + 1),
      x.handle, wd (fld n 48 0), 0]
    { s with
      ctu := { s.ctu with toSend := r, seqOut := AL.put x.dest (n + 1) s.ctu.seqOut,
                          sent := s.ctu.sent ++ [{ x with seq := n, sentAt := s.env.now }] },
      out := { s.out with link := s.out.link ++ [rec4] } }

/-- A TRAIL record arrives: tested, then applied and acknowledged, or refused with an ACK at once; each SEQ at most once (R142, R283). -/
def State.trailIn (s : State) (w0 w1 w2 : Word) : State :=
  let src := bits w0 27 18
  let seq := bits w2 47 0
  if bits w0 7 0 ≠ 1 ∨ s.ctu.seen.contains (src, seq) then s
  else
    let r := s.trailTest w1
    let s1 := { s with ctu := { s.ctu with seen := s.ctu.seen ++ [(src, seq)] } }
    let ack := [wd (fld (bits w0 63 32) 32 32 + fld (bits w0 17 8) 10 18 + fld src 10 8 + 2), w1, wd (fld seq 48 0), 0]
    let x : Trail := { inc := bits w0 63 32, handle := w1, poison := bit w0 28 }
    if r = 0 then s1.push [.trailAct x src ack] else s1.trailRefused x r ack

/-- Take an unacknowledged record out of the sender's list and settle it. -/
def State.trailClose (s : State) (f : Trail → Bool) (reason : Option Nat) : State :=
  match s.ctu.sent.find? f with
  | none => s
  | some x => ({ s with ctu := { s.ctu with
      sent := s.ctu.sent.filter fun y => !(decide (y.dest = x.dest) && decide (y.seq = x.seq)) } }).trailSettled x reason

/-- An ACK arrives, matched by SEQ; an unknown SEQ is ignored (Table 12.5 step 6). -/
def State.ackIn (s : State) (w0 w2 w3 : Word) : State :=
  s.trailClose (fun x => decide (x.dest = bits w0 27 18) && decide (x.seq = bits w2 47 0))
    (if bits w3 1 0 = 0 then none else some (bits w3 1 0))

/-- Fail every unacknowledged or queued record of a destination (R283). -/
def State.trailFailAll (s : State) (dest : Nat) (reason : Nat) : State :=
  let mine := s.ctu.sent.filter fun x => x.dest = dest
  mine.foldl (fun s x => s.trailSettled x (some reason))
    { s with ctu := { s.ctu with sent := s.ctu.sent.filter fun x => x.dest ≠ dest } }

end Sys2Proof.Machine
end

