-- ==== Sys2Proof/Machine/Queues.lean ====
section
/-!
DEFINITION. Queues and their rings: packets, status records and completion (R25 to R30, R54 to R57), blocking
conditions and queue states (Table 2.6), slots (R37 to R40).
-/
namespace Sys2Proof.Machine

/-! ## Rings (R25, R29) -/

/-- Packets of a command ring. -/
def Queue.packets (x : Queue) : Nat := 2 ^ bits x.ring 4 0 / 64
/-- Records of a completion ring. -/
def Queue.records (x : Queue) : Nat := 2 ^ bits x.cpl 4 0 / 32
/-- Bound context. -/
def Queue.ctxId (x : Queue) : Nat := bits x.ctxReg 11 0
def Queue.irqEn (x : Queue) : Bool := bit x.ctxReg 22
def Queue.peerEn (x : Queue) : Bool := bit x.ctxReg 23
def Queue.vector (x : Queue) : Nat := bits x.ctxReg 21 16
/-- Packets from the head to the recorded tail (R26). -/
def Queue.have (x : Queue) : Nat := (x.tail - x.head).toNat
/-- Base address of a ring register (Table 2.2). -/
def ringBase (w : Word) : Nat := bits w 63 12 * 4096
/-- Whether a completion-ring start condition holds (R30). -/
def Queue.cplRoom (x : Queue) : Bool :=
  decide ((BitVec.ofNat 32 (x.written + x.reserved) - x.consumed).toNat < x.records)

/-- The packet `i` places after the head, from the ring's memory. -/
def State.packetAt (s : State) (q i : Nat) : List Word :=
  let x := s.queue q
  s.rdWords (bit x.ring 11) (ringBase x.ring + 64 * ((x.head.toNat + i) % max x.packets 1)) 8

/-- Word 0 of the packet at the head: as fetched, or as the ring holds it. -/
def State.headWord (s : State) (q : Nat) : Word := match (s.queue q).fetched with
  | w :: _ => w
  | [] => wordAt (s.packetAt q 0) 0

/-- A whole unstarted command lies before the tail in force (R28). -/
def State.whole (s : State) (q : Nat) : Bool :=
  decide (0 < (s.queue q).have) && decide (bits (s.headWord q) 9 8 + 1 ≤ (s.queue q).have)

/-- Raise the queue's vector (R54, R63). -/
def State.queueMsix (s : State) (q : Nat) : State :=
  if (s.queue q).irqEn then s.msix (s.queue q).vector else s

/-! ## Status records (R29, R56) -/

/-- Words of a status record, PHASE clear. -/
def recordWords (op : Nat) (st : Status) (tag detail now : Nat) (w2 : Word) (launch : Nat) : List Word :=
  [wd (fld detail 32 32 + fld tag 16 16 + fld st.code 8 8 + fld op 8 0), wd now, w2, wd (fld launch 32 32)]

/-- Write a record to the next place of the completion ring, with its PHASE (R29). -/
def State.putRecord (s : State) (q : Nat) (ws : List Word) : State :=
  let x := s.queue q
  let m := max x.records 1
  let phase := if x.written / m % 2 = 0 then 1 else 0
  let w3 := wd ((wordAt ws 3).toNat + phase)
  (s.wrWords (bit x.cpl 11) (ringBase x.cpl + 32 * (x.written % m)) [wordAt ws 0, wordAt ws 1, wordAt ws 2, w3]).setQueue q
    { x with written := x.written + 1 }

/-- Write a held record once the ring has room (R30). -/
def State.flushHeld (s : State) (q : Nat) : State :=
  let x := s.queue q
  match x.heldRec with
  | some ws =>
    if x.cplRoom then
      let s1 := (s.setQueue q { x with heldRec := none, pendingMsix := false }).putRecord q ws
      if x.pendingMsix then s1.queueMsix q else s1
    else s
  | none => s

/-- The record of an offending command that had not started (R30, R56). -/
def State.putUnstarted (s : State) (q : Nat) (ws : List Word) : State :=
  (s.updQueue q fun x => { x with heldRec := some ws, pendingMsix := true }).flushHeld q

/-! ## Blocking conditions and states (Tables 2.6, 2.8, 2.18; R51) -/

/-- Stopped time of a context (R145, R164). -/
def State.stopped (s : State) (c : Nat) : Nat :=
  let x := s.ctx c
  x.stopTotal + match x.stopAt with
    | some t => s.env.now - t
    | none => 0

/-- Whether the context of a queue's commands has FAULTED (R65). -/
def State.queueFaulted (s : State) (q : Nat) : Bool := q ≠ 0 && (s.ctx (s.queue q).ctxId).st = .faulted

/-- The condition that blocks the start of a command with word 0 `w`, as in Table 2.18; 0: none. -/
def State.blocking (s : State) (q : Nat) (w : Word) : Nat :=
  let x := s.queue q
  let code := bits w 7 0
  let c := bits w 43 32
  if s.queueFaulted q then 7
  else if x.cmds.any fun p => Op.code p.2.words = 0x04 then 1
  else if bit w 10 && x.cmds ≠ [] then 2
  else if 64 ≤ x.cmds.length then 3
  else if !x.cplRoom then 4
  else if code = 0x12 && ((AL.get s.car.ctxs c).live.isSome || (s.ctx c).halted) then 5
  else if opFw code && decide (64 ≤ (AL.get s.fwc.roleQ (opRole code)).length) then 6
  else 0

/-- The slot that maps a queue, if any. -/
def State.slotOf? (s : State) (q : Nat) : Option Nat :=
  (s.cfe.slots.find? fun p => p.2.valid && decide (p.2.queue = q)).map Prod.fst

/-- Set the state of the slot that maps a queue. -/
def State.slotState (s : State) (q : Nat) (st : SlotState) : State := match s.slotOf? q with
  | some n => s.setSlot n { s.slot n with st := st }
  | none => s

/-- State of the slot that maps a queue. -/
def State.slotStateOf (s : State) (q : Nat) : SlotState := match s.slotOf? q with
  | some n => (s.slot n).st
  | none => .empty

/-- Bring a queue's state up to date with its ring and its next start (Table 2.6, R40, R41). A slot that has fetched up to the
tail marks itself idle: the first of the two phases of R35. A queue under containment stays as it is to its end (R63). -/
def State.refresh (s : State) (q : Nat) : State :=
  let x := s.queue q
  let w := s.whole q
  let b := if w then s.blocking q (s.headWord q) else 0
  if x.contain.isSome then s else match x.st with
  | .idle => if w then s.setQueue q { x with st := .pending } else s
  | .pending => if w then s else s.setQueue q { x with st := .idle }
  | .blocked => if x.ctxStopped then s
      else if !w then s.setQueue q { x with st := .idle }
      else if b = 0 then s.setQueue q { x with st := .pending } else s
  | .slotted =>
    (s.setQueue q { x with
      idleAt := if w then none else some (x.idleAt.getD s.env.now)
      blockAt := if b ≠ 0 then some (x.blockAt.getD s.env.now) else none }).slotState q
        (if b ≠ 0 then .blocked else if w || x.fetched.length / 8 < x.have then .fetching
          else if s.slotStateOf q = .idleWait then .idleWait else .idleCheck)
  | _ => s

/-- Bring every queue up to date. -/
def State.refreshAll (s : State) : State := (s.cfe.queues.map Prod.fst).foldl State.refresh s

/-! ## Completion (R54 to R57, R59) -/

/-- Whether a peer write to `a` of `n` bytes lies in a window granted to the context, and the queue allows it (R54). -/
def State.peerOk (s : State) (q c a n : Nat) : Bool :=
  (s.queue q).peerEn && decide ((s.ctx c).peerBase ≤ a) && decide (a + n ≤ (s.ctx c).peerBase + (s.ctx c).peerSize)

/-- The part mask of a split command (R57). -/
def partMask (l : List Nat) : Word := wd ((l.eraseDups).foldl (fun n i => n + 2 ^ i) 0)

/-- The status after the peer-window check of R54, and whether the peer write is issued. -/
def State.peerCheck (s : State) (q : Nat) (w : List Word) (st : Status) (detail : Nat) : Status × Nat × Bool :=
  if !Op.peer w then (st, detail, false)
  else if s.peerOk q (Op.ctx w) (Op.cpl w 4).toNat (if bit (Op.cpl w 0) 4 then 8 else 4) then
    (st, detail, st = .ok || st = .partialOk || st = .cancelled)
  else if st = .ok then (.denied, 8 * opPackets (Op.code w) + 4, false)
  else (st, detail, false)

/-- Counters due on completion: signalled, or poisoned (R55). -/
def State.dueCounters (s : State) (q : Nat) (w : List Word) (st : Status) : State :=
  let c := Op.ctx w
  let good := decide (st = .ok) || (decide (st = .partialOk ∨ st = .cancelled) && !Op.allOrPoison w)
  let l := Op.cpl w 1
  let r := Op.cpl w 2
  let s1 := if Op.local w then
    s.push [if good then .signal c (bits l 23 0) (bits l 55 24) { code := 1, arg := q } none else .poison c (bits l 23 0)]
    else s
  if Op.remote w then
    s1.push [.trail { dest := bits r 9 0, inc := bits r 63 32, handle := Op.cpl w 3, poison := !good, sender := .completion c }]
  else s1

/-- Take a completed command out of the CANCELs that target it; a CANCEL with no target left completes (R59). -/
def State.cancelCheck (s : State) (q n : Nat) (hit : Bool) : State :=
  (s.queue q).cmds.foldl (fun s p =>
    if p.2.targets.contains n then
      let s1 := s.updCmd q p.1 fun x =>
        { x with targets := x.targets.filter (· ≠ n), hits := x.hits + b2n hit }
      match s1.cmd? q p.1 with
      | some x => if x.targets = [] then s1.push [.complete q p.1 .ok x.hits] else s1
      | none => s1
    else s) s

/-- A step is live to the completion of its CAR_STEP (R248); the CANCELs that reached it complete with it (R251). -/
def State.stepOver (s : State) (q n : Nat) (w : List Word) : State :=
  let k := AL.get s.car.ctxs (Op.ctx w)
  match k.live with
  | some st => if Op.code w = 0x12 ∧ st.q = q ∧ st.seq = n then
      ({ s with car := { s.car with ctxs := AL.put (Op.ctx w) { k with live := none } s.car.ctxs } }).push
        (st.cancels.map fun (p : Nat × Nat) => .complete p.1 p.2 .ok 1) else s
  | none => s

/-- A FW_UPDATE that completes before its handover is no longer in progress (R325). -/
def State.progOver (s : State) (q n : Nat) : State :=
  if s.fwc.prog.any fun u => decide (u.q = q) && decide (u.seq = n) then { s with fwc := { s.fwc with prog := none } } else s

/-- Bring up to date what a command of queue `q` may block or unblock: a CAR_STEP the other queues of its context too (R40, R41). -/
def State.refreshFor (s : State) (q : Nat) (w : List Word) : State := if Op.code w = 0x12 then s.refreshAll else s.refresh q

/-- The completion of a started command (R54 to R56): counters due, status record, peer write, MSI-X, in that order. Word w2
holds the part mask of a command with failed parts, whatever its status (assumption 31). -/
def State.completeNow (s : State) (q n : Nat) (st : Status) (detail : Nat) : State := match s.cmd? q n with
  | none => s
  | some x =>
    let w := x.words
    let (st', detail', peer) := s.peerCheck q w st detail
    let s1 := s.dueCounters q w st'
    let s2 := ((s1.updQueue q fun y => { y with cmds := AL.del y.cmds n, reserved := y.reserved - 1 }).stepOver q n w).progOver q n
    let w2 := if x.failed ≠ [] then partMask x.failed else x.result
    let s3 := if st' = .ok ∧ Op.noStatus w then s2
      else s2.putRecord q (recordWords (Op.code w) st' (Op.tag w) detail' s.env.now w2 x.launch)
    let s4 := if peer then { s3 with out := { s3.out with
        peer := s3.out.peer ++ [((Op.cpl w 4).toNat, Op.cpl w 5, bit (Op.cpl w 0) 4)] } } else s3
    let s5 := if st' ≠ .ok ∨ Op.msix w then s4.queueMsix q else s4
    ((s5.cancelCheck q n (st' = .cancelled)).flushHeld q).refreshFor q w

/-- The counter that a poisoning in flight names: a local one, or one of this chip through a trailing signal. -/
def poisonTarget? : Work → Option (Nat × Nat)
  | .poison c v => some (c, v)
  | .trail x => if x.poison then some (handleCtr x.handle) else none
  | .trailAct x _ _ => if x.poison then some (handleCtr x.handle) else none
  | _ => none

/-- Counters that a queue's containment is to poison are still unpoisoned (R63: Table 2.15 steps 4 to 6). -/
def State.containWaits (s : State) (q : Nat) : Bool := match (s.queue q).contain with
  | some l => s.work.any fun w => (poisonTarget? w).any l.contains
  | none => false

/-- A command's completion waits: for its local signal, which comes before the status record (R54), and in a queue under
containment for the poisoned counters (Table 2.15). -/
def State.completionWaits (s : State) (q : Nat) (x : Cmd) : Bool :=
  (Op.local x.words && s.ctrWaits (Op.ctx x.words) (bits (Op.cpl x.words 1) 23 0)) || s.containWaits q

/-- Complete a started command, at once or when what it waits for has come. -/
def State.complete (s : State) (q n : Nat) (st : Status) (detail : Nat) : State := match s.cmd? q n with
  | none => s
  | some x => if s.completionWaits q x then (s.push [.complete q n st detail]).refreshFor q x.words else s.completeNow q n st detail

/-- A command's completion that is still to be performed is dropped: another takes its place (R62, R63, R65). -/
def State.recallWork (s : State) (f : Nat → Nat → Bool) : State := { s with work := s.work.filter fun w => match w with
  | .complete q n .. => !f q n
  | _ => true }

/-- Complete a command whose completion lies in another unit's step. -/
def State.completeOpt (s : State) (c : Option (Nat × Nat)) (st : Status) (detail : Nat) : State := match c with
  | some (q, n) => s.complete q n st detail
  | none => s

/-! ## Slots (R37 to R41) -/

/-- Give a slot to a queue. -/
def State.grant (s : State) (n q : Nat) : State :=
  ((s.setSlot n { s.slot n with valid := true, queue := q, st := .fetching }).updQueue q fun x =>
    { x with st := .slotted, slotAt := s.env.now, idleAt := none, blockAt := none }).refresh q

/-- Take a slot from the queue it holds, which takes state `st` if it was SLOTTED. -/
def State.release (s : State) (n : Nat) (st : QState) : State :=
  let q := (s.slot n).queue
  let s1 := s.setSlot n { s.slot n with valid := false, queue := 0, st := .empty, displace := false }
  if (s.slot n).valid && (s.queue q).st = .slotted then s1.updQueue q fun x => { x with st := st, idleAt := none, blockAt := none }
  else s1

/-- Take its slot from a queue, which takes state `st`. -/
def State.unslot (s : State) (q : Nat) (st : QState) : State :=
  let s1 := match s.slotOf? q with
    | some n => if n = 0 then s.slotState q .empty else s.release n st
    | none => s
  s1.updQueue q fun x => { x with st := st, idleAt := none, blockAt := none }

end Sys2Proof.Machine
end

