-- ==== Sys2Proof/Machine/Tasks.lean ====
section
/-!
DEFINITION. Tasks: ready keys and routes (R93, R94, R105 to R108), heap banks (R96, R97), launch (R85 to R89), retirement,
signals and decrements (R76, R83, R84), the context header and save area (R168, R169), trace records (R273).
-/
namespace Sys2Proof.Machine

/-! ## The save area (Tables 7.3 to 7.5) -/

/-- A state of Table 7.1 as its value. -/
def CtxState.code : CtxState → Nat
  | .free => 0 | .waiting => 1 | .resident => 2 | .suspending => 3 | .suspended => 4 | .faulted => 5 | .destroying => 6

/-- Header words w0 to w5 (Table 7.4). -/
def Ctx.header (x : Ctx) : List Word :=
  [wd (fld x.gen 16 16 + fld x.bank 5 8 + fld x.cls 2 4 + fld (b2n x.halted) 1 3 + fld x.st.code 3 0),
   wd x.saved.length, wd x.lastChange, wd (fld x.overruns 8 0), wd (if x.st = .faulted then fld x.faultCode 16 0 else 0),
   wd x.faultAt]

/-- Write the context header (R168). -/
def State.writeHeader (s : State) (c : Nat) : State := s.wrWords false (s.ctx c).saveBase (s.ctx c).header

/-- Move a context to a state, noting the change and the time of entering or leaving RESIDENT, and write its header. -/
def State.setCtxState (s : State) (c : Nat) (st : CtxState) : State :=
  let x := s.ctx c
  let edge := (x.st = .resident) != (st = .resident)
  (s.setCtx c { x with st := st, lastChange := if edge then s.env.now else x.lastChange }).writeHeader c

/-- Instance number and effective index of a task, as a word (Table 7.5). -/
def State.refWord (s : State) (r : TaskRef) : Word := match s.inst? r.ctx r.inst with
  | some x => wd (fld x.num 32 32 + fld (effIdx x r.idx) 32 0)
  | none => 0

/-- Words of a saved ready entry (Table 7.5). -/
def State.entryWords (s : State) (e : Entry) : List Word :=
  [wd e.key.dl, wd e.key.arr, s.refWord e.ref, wd (fld e.ref.ctx 12 48 + fld e.slot 13 0)]

/-- Hold entries in a context's ready region, written in order from its start. -/
def State.setSaved (s : State) (c : Nat) (l : List Entry) : State :=
  (s.updCtx c fun x => { x with saved := l }).wrWords false ((s.ctx c).saveBase + 0x1000) (l.flatMap s.entryWords)

/-- A context may have become idle, or eligible for a place: firmware tests for displacement, if a context waits (R171). -/
def State.testPlace (s : State) (c : Nat) : State :=
  if s.ctxs.any fun p => decide (p.2.st = .waiting) then s.push [.coreFree c] else s

/-- Add an entry to the ready region; a WAITING context's first one makes it eligible for a place (R170, R171). -/
def State.saveEntry (s : State) (e : Entry) : State :=
  let x := s.ctx e.ref.ctx
  let s1 := (s.setCtx e.ref.ctx { x with saved := x.saved ++ [{ e with held := false, pre := false }] }).wrWords false
    (x.saveBase + 0x1000 + 32 * x.saved.length) (s.entryWords e)
  if x.st = .waiting ∧ x.saved = [] then s1.testPlace e.ref.ctx else s1

/-! ## Heap banks (R96, R97) -/

/-- The tick of a time (R94). -/
def tickOf (t : Nat) : Nat := t / 1024

/-- Append an entry to the bucket of tick `k`; buckets stay in tick order (R96, R108). -/
def bucketAdd {α : Type} (k : Nat) (e : α) : List (Nat × List α) → List (Nat × List α)
  | [] => [(k, [e])]
  | (t, l) :: r =>
    if k = t then (t, l ++ [e]) :: r
    else if k < t then (k, [e]) :: (t, l) :: r
    else (t, l) :: bucketAdd k e r

/-- Remove the entries that `f` picks from tick buckets; an empty bucket goes. -/
def bucketDrop {α : Type} (f : α → Bool) (b : List (Nat × List α)) : List (Nat × List α) :=
  (b.map fun p => (p.1, p.2.filter fun e => !f e)).filter fun p => !p.2.isEmpty

/-- Spill a ready entry to the bucket of its deadline's tick (R96). -/
def spillAdd (e : Entry) (b : List (Nat × List Entry)) : List (Nat × List Entry) := bucketAdd (tickOf e.key.dl) e b

/-- Add an on-chip entry in key order. -/
def onAdd (e : Entry) (l : List Entry) : List Entry := insertBy (fun a b => Key.lt a.key b.key) e l

/-- Insert an entry: the later of it and the latest on-chip entry spills when the bank is full (R96). -/
def Bank.insert (b : Bank) (e : Entry) : Bank :=
  if b.on.length < 4096 then { b with on := onAdd e b.on }
  else match b.on.getLast? with
    | none => { b with on := [e] }
    | some l =>
      if Key.lt e.key l.key then { b with on := onAdd e b.on.dropLast, spill := spillAdd l b.spill }
      else { b with spill := spillAdd e b.spill }

/-- Spill the latest on-chip entries until `n` fit. -/
def Bank.makeRoom (b : Bank) (n : Nat) : Bank :=
  let k := b.on.length + n - 4096
  { b with
    on := b.on.take (b.on.length - k)
    spill := (b.on.drop (b.on.length - k)).reverse.foldl (fun sp e => spillAdd e sp) b.spill }

/-- Refill up to 32 of the horizon bucket's oldest entries, once the latest on-chip entries have made room (R97). -/
def Bank.refill (b : Bank) : Bank := match b.spill with
  | [] => b
  | (t, l) :: _ =>
    let n := min 32 l.length
    let b1 := b.makeRoom n
    let l1 := AL.get b1.spill t
    { b1 with
      on := (l1.take n).foldl (fun o e => onAdd e o) b1.on
      spill := if l1.length ≤ n then AL.del b1.spill t else AL.put t (l1.drop n) b1.spill }

/-- Spilled entries of a bank. -/
def Bank.spilled (b : Bank) : Nat := (b.spill.map fun p => p.2.length).sum

/-- Refill until the earliest eligible on-chip entry may be popped (R97); `n` bounds the refills. -/
def Bank.settleTop (ok : Entry → Bool) : Nat → Bank → Bank
  | 0, b => b
  | n + 1, b => match b.spill with
    | [] => b
    | (t, _) :: _ => match b.on.find? ok with
      | some e => if tickOf e.key.dl ≤ t then b else (b.refill).settleTop ok n
      | none => (b.refill).settleTop ok n

/-- The bank ready to pop, and its earliest eligible entry. -/
def Bank.top (ok : Entry → Bool) (b : Bank) : Bank × Option Entry :=
  let b1 := b.settleTop ok (2 * b.spilled + 1)
  (b1, b1.on.find? ok)

/-- Remove the entries that `f` picks, on chip and spilled. -/
def Bank.drop (f : Entry → Bool) (b : Bank) : Bank :=
  { b with on := b.on.filter fun e => !f e, spill := bucketDrop f b.spill }

/-- Every entry of a bank. -/
def Bank.all (b : Bank) : List Entry := b.on ++ b.spill.flatMap Prod.snd

/-! ## Trace records (Table 3.6, R273) -/

/-- Write one trace record to a context's trace ring; `w0` is its word 0. -/
def State.traceWrite (s : State) (c : Nat) (w0 : Nat) (gid num : Nat) : State :=
  let x := s.ctx c
  let a := x.traceBase
  let n := (2 ^ x.traceLog - 64) / 32
  let wr := (s.rd64 a).toNat
  let rd := (s.rd64 (a + 8)).toNat
  let bad := decide (wr < rd) || decide (n < wr - rd)
  let s1 := if bad then
      ((s.wr64 (a + 8) (wd wr)).wr64 (a + 32) (s.rd64 (a + 32) + 1)).err
        { unit := 3, cls := 2, code := 0x08, ctx := some c, a := 7, b := 0, c := wr }
    else s
  let fill := if bad then 0 else wr - rd
  if n ≤ fill then s1.wr64 (a + 24) (s1.rd64 (a + 24) + 1)
  else
    let s2 := (s1.wrWords false (a + 64 + 32 * (wr % n)) [wd w0, wd s.env.now, wd (fld gid 16 0), wd (fld num 32 0)]).wr64 a (wd (wr + 1))
    let cfg := s1.rd64 (a + 16)
    let lvl := bits cfg 31 0
    let q := bits cfg 41 32
    if bit cfg 63 && lvl ≠ 0 && decide (fill < lvl) && decide (lvl ≤ fill + 1) && (s.queue q).ctxId = c && q ≠ 0 then
      s2.queueMsix q
    else s2

/-- A trace event of a task with TRACE set. A place that the event does not have is a free value (assumption 13). -/
def State.trace (s : State) (r : TaskRef) (event : Nat) (cluster core : Option Nat) (cause : Nat := 0) : State :=
  match s.inst? r.ctx r.inst, s.task? r with
  | some x, some t =>
    if Desc.trace t.desc && (s.ctx r.ctx).traceBase ≠ 0 then
      let (cl, s1) := match cluster with
        | some n => (n, s)
        | none => let p := s.fresh 8; (p.1.toNat, p.2)
      let (co, s2) := match core with
        | some n => (n, s1)
        | none => let p := s1.fresh 8; (p.1.toNat, p.2)
      s2.traceWrite r.ctx (fld cause 8 56 + fld co 8 48 + fld cl 8 40 + fld event 8 32 + fld (effIdx x r.idx) 32 0) x.gid x.num
    else s
  | _, _ => s

/-- Effective index of a task (R85). -/
def State.effOf (s : State) (r : TaskRef) : Nat := match s.inst? r.ctx r.inst with
  | some x => effIdx x r.idx
  | none => 0

/-! ## The delay list (R108) -/

/-- The order of the delay list: wake time, then arrival number. -/
def Delay.before (a b : Delay) : Bool := decide (a.wake < b.wake) || (decide (a.wake = b.wake) && decide (a.arr < b.arr))

/-- Every entry of the delay list, in its order. -/
def State.delayList (s : State) : List Delay :=
  (s.gd.delaySpill.flatMap Prod.snd).foldl (fun l d => insertBy Delay.before d l) s.gd.delays

/-- Remove the entries of the delay list that `f` picks. -/
def State.delayDrop (s : State) (f : Delay → Bool) : State :=
  { s with gd := { s.gd with delays := s.gd.delays.filter fun d => !f d, delaySpill := bucketDrop f s.gd.delaySpill } }

/-! ## Instance frames and the sequencers that own them (R111, R112, R166) -/

/-- Frame entries that live instances and posted actions of a context hold, as runs in order. -/
def State.framesHeld (s : State) (c : Nat) : List (Nat × Nat) :=
  let insts := (s.ctx c).insts.flatMap fun (p : Nat × Inst) => p.2.frame
  let acts := (s.delayList.filter fun (d : Delay) => decide (d.ctx = c) && !d.act.isTask).map fun (d : Delay) => (d.frame, 1)
  (insts ++ acts).foldl (fun l x => insertBy (fun (a b : Nat × Nat) => decide (a.1 < b.1)) x l) []

/-- The lowest `n` free frame entries of a context (assumption 15). -/
def State.takeFrames (s : State) (c n : Nat) : List (Nat × Nat) := takeRuns n (gaps 0 (s.ctx c).frames (s.framesHeld c))

/-- Address of a task's instance-frame entry (R68, R166, assumption 15). -/
def State.frameAddr? (s : State) (c i idx : Nat) : Option Nat := ((s.inst? c i).bind fun x => runAt? x.frame idx).map fun n =>
  (s.ctx c).gsBase + (s.ctx c).gsSize - (s.ctx c).framePart + 8 * n

/-- The sequencer that owns a task's count line, as the cluster it serves: the logical sequencer (line number mod S) (R111). -/
def State.owner? (s : State) (c i idx : Nat) : Option Nat := (s.frameAddr? c i idx).map fun a =>
  s.presentList.getD (a / 64 % max s.presentList.length 1) 0

/-- Prefetch a task into its owner's near-ready buffer, if the buffer has room (R112). -/
def State.nearAdd (s : State) (r : TaskRef) : State := match s.owner? r.ctx r.inst r.idx with
  | none => s
  | some o =>
    if 256 ≤ (AL.get s.csq.near o).length then s
    else { s with csq := { s.csq with near := AL.upd s.csq.near o fun l => l ++ [r] } }

/-- A task is in a near-ready buffer. -/
def State.isNear (s : State) (r : TaskRef) : Bool := s.csq.near.any fun p => p.2.contains r

/-- Take a task out of the near-ready buffers. -/
def State.nearDrop (s : State) (r : TaskRef) : State :=
  { s with csq := { s.csq with near := s.csq.near.map fun (p : Nat × List TaskRef) => (p.1, p.2.filter fun x => x ≠ r) } }

/-- Every sequencer writes its cached counts back to the frames, in a form that the manual does not give (assumption 13); what the
near-ready buffers hold is dropped (R111, assumption 31). -/
def State.writeBackCounts (s : State) : State :=
  let all := s.ctxs.flatMap fun p => p.2.insts.flatMap fun (x : Nat × Inst) => x.2.tasks.map fun y => (p.1, x.1, y.1)
  all.foldl (fun s y => match s.frameAddr? y.1 y.2.1 y.2.2 with
    | some a => let p := s.fresh 64; p.2.wr64 a p.1
    | none => s) { s with csq := { s.csq with near := [] } }

/-! ## The paddock (R99, R108, R169) -/

/-- The block has a paddock (R99). -/
def State.hasPaddock (s : State) : Bool := decide (24 ≤ s.gd.spillLog) && decide (s.gd.spillLog ≤ 38)

/-- Runs of paddock cells that contexts' reservations and the Relay's spill pool take, in order. -/
def State.padHeld (s : State) : List (Nat × Nat) :=
  let rings := (s.rly.offset * 4096 / 48, (4096 * s.rly.rings + 95) / 48)
  (rings :: s.ctxs.flatMap fun (p : Nat × Ctx) => p.2.pad).foldl
    (fun l x => insertBy (fun (a b : Nat × Nat) => decide (a.1 < b.1)) x l) []

/-- The lowest `n` free cells of the paddock: a ready entry and a flow entry each (R99, assumption 32). -/
def State.takePad (s : State) (n : Nat) : List (Nat × Nat) := takeRuns n (gaps 0 (2 ^ s.gd.spillLog / 48) s.padHeld)

/-- Address of the ready entry that the paddock reserves for an instance-frame entry (R99, assumption 32). -/
def State.padAddr? (s : State) (c frame : Nat) : Option Nat := (runAt? (s.ctx c).pad frame).map fun n =>
  s.gd.spillBase * 2 ^ 20 + 48 * n

/-- Write a spilled ready entry in the layout of Table 7.5 (R169). -/
def State.writeSpilled (s : State) (e : Entry) : State :=
  match ((s.inst? e.ref.ctx e.ref.inst).bind fun x => runAt? x.frame e.ref.idx).bind (s.padAddr? e.ref.ctx) with
  | some a => s.wrWords false a (s.entryWords e)
  | none => s

/-- Change a bank; the entries that spill are written to the paddock. -/
def State.putBank (s : State) (b : Nat) (x : Bank) : State :=
  let old := (s.bank b).spill.flatMap Prod.snd
  let new := (x.spill.flatMap Prod.snd).filter fun e => !old.contains e
  new.foldl State.writeSpilled (s.setBank b { x with wr := x.wr + 4 * new.length })

/-- Write an entry of the delay list to the paddock, in a form that the manual does not give (assumption 13). -/
def State.writeDelay (s : State) (d : Delay) : State :=
  let frame := match d.act with
    | .task r => (s.inst? r.ctx r.inst).bind fun x => runAt? x.frame r.idx
    | _ => some d.frame
  let s1 := { s with gd := { s.gd with delayWr := s.gd.delayWr + 4 } }
  match frame.bind (s1.padAddr? d.ctx) with
  | some a => (List.range 4).foldl (fun s i => let p := s.fresh 64; p.2.wr64 (a + 8 * i) p.1) s1
  | none => s1

/-- Put an action on the delay list: with its on-chip part full, the later of it and the latest on-chip entry spills, as in the
heaps. -/
def State.delayAdd (s : State) (x : Delay) : State :=
  let g := s.gd
  if g.delays.length < s.env.dev.delays then { s with gd := { g with delays := insertBy Delay.before x g.delays } }
  else match g.delays.getLast? with
    | some l =>
      if x.before l then ({ s with gd := { g with
        delays := insertBy Delay.before x g.delays.dropLast, delaySpill := bucketAdd (tickOf l.wake) l g.delaySpill } }).writeDelay l
      else ({ s with gd := { g with delaySpill := bucketAdd (tickOf x.wake) x g.delaySpill } }).writeDelay x
    | none => { s with gd := { g with delays := [x] } }

/-- Refill the delay list with the spilled entries of ticks up to `k` (R109). -/
def State.delayRefill (s : State) (k : Nat) : State :=
  let due := s.gd.delaySpill.filter fun p => decide (p.1 ≤ k)
  (due.flatMap Prod.snd).foldl State.delayAdd
    { s with gd := { s.gd with delaySpill := s.gd.delaySpill.filter fun p => !decide (p.1 ≤ k) } }

/-! ## Ready tasks (R93, R94) -/

/-- Draw an arrival number. -/
def State.stamp (s : State) : Nat × State := (s.gd.arrival, { s with gd := { s.gd with arrival := s.gd.arrival + 1 } })

/-- The arrival number of a task, drawn when it becomes ready, unless it has one. -/
def State.stampTask (s : State) (r : TaskRef) : Nat × State := match s.task? r with
  | some t => if t.stamped then (t.arr, s) else
      let (a, s1) := s.stamp
      (a, s1.updTask r fun t => { t with arr := a, stamped := true })
  | none => (0, s)

/-- Deadline of a task (R87, R249). -/
def taskDeadline (x : Inst) (d : List Word) : Nat :=
  if Desc.dlOffset d = 0xFFFFFFFFFFFF then x.stepDl.getD (2 ^ 64 - 1)
  else min (x.launchAt + Desc.dlOffset d) (2 ^ 64 - 1)

/-- Put an entry into its bank, or into the save area when its context is not resident (R22, R95). -/
def State.toHeap (s : State) (e : Entry) : State :=
  let c := e.ref.ctx
  let x := s.ctx c
  match x.st with
  | .resident => s.putBank x.bank ((s.bank x.bank).insert { e with since := s.env.now, held := false })
  | .waiting | .suspending | .suspended => s.saveEntry e
  | _ => s

/-- A flow's entry, by context and flow id. -/
def State.flow (s : State) (k : Nat × Nat) : Flow := AL.get s.gd.flows k

/-- On-chip entries of the flow table. -/
def State.flowsOn (s : State) : Nat := (s.gd.flows.filter fun p => !p.2.spilled).length

/-- The flow spill takes an entry: two words, in a form that the manual does not give, beside the paddock's ready entry of the task
in service (R107, assumptions 13 and 32). -/
def State.writeFlow (s : State) (f : Flow) : State :=
  let s1 := { s with gd := { s.gd with flowWr := s.gd.flowWr + 2 } }
  match f.serving.bind fun r => ((s.inst? r.ctx r.inst).bind fun x => runAt? x.frame r.idx).bind (s.padAddr? r.ctx) with
  | some a => (List.range 2).foldl (fun s i => let p := s.fresh 64; p.2.wr64 (a + 32 + 8 * i) p.1) s1
  | none => s1

/-- Change a flow's entry. A new one is on chip while the table has room, else in the flow spill (R107, assumption 31); an
unpinned one of an idle flow is freed. -/
def State.setFlow (s : State) (k : Nat × Nat) (f : Flow) : State :=
  let g : Flow := if AL.has s.gd.flows k then f else { f with spilled := decide (65536 ≤ s.flowsOn) }
  let s1 := if g.spilled && !AL.has s.gd.flows k then s.writeFlow g else s
  { s1 with gd := { s1.gd with flows :=
      if f.serving.isNone && f.queue.isEmpty && !f.pinned then AL.del s1.gd.flows k else AL.put k g s1.gd.flows } }

/-- Bring a spilled entry on chip, in the place of an unpinned one where the table is full (R107, assumption 31). -/
def State.flowOnChip (s : State) (k : Nat × Nat) : State :=
  if !(s.flow k).spilled then s
  else
    let out := if s.flowsOn < 65536 then none else s.gd.flows.find? fun p => !p.2.spilled && !p.2.pinned
    let l := match out with
      | some p => AL.put p.1 { p.2 with spilled := true } s.gd.flows
      | none => s.gd.flows
    let s1 := match out with
      | some p => s.writeFlow p.2
      | none => s
    { s1 with gd := { s1.gd with flows := AL.put k { s.flow k with spilled := false } l } }

/-- A task whose count is zero takes its route: delay list, flow table, or heap (step 3 of Table 1.3, R82, R106). -/
def State.becomeReady (s : State) (r : TaskRef) : State := match s.inst? r.ctx r.inst, s.task? r with
  | some x, some t =>
    let (a, s1) := s.stampTask r
    let s2 := (((s1.updTask r fun t => { t with st := .ready }).descRead r).nearDrop r).trace r 1 none none
    let e : Entry := { key := { dl := taskDeadline x t.desc, cls := (s.ctx r.ctx).cls, arr := a }, ref := r, pre := s.isNear r }
    if Desc.kind t.desc = 4 then
      let w := Desc.entry t.desc
      let wake := if bit w 63 then bits w 62 0 else s.env.now + bits w 62 0
      s2.delayAdd { wake := wake, arr := a, at_ := s.env.now, ctx := r.ctx, act := .task r, inst := r.inst }
    else if Desc.flow t.desc then
      let k := (r.ctx, Desc.flowId t.desc)
      let f := s2.flow k
      if f.serving.isNone && f.queue.isEmpty then (s2.setFlow k { f with serving := some r }).toHeap e
      else s2.setFlow k { f with queue := insertBy (fun a b => decide (a.key.arr < b.key.arr)) e f.queue }
    else s2.toHeap e
  | _, _ => s

/-- A flow's task leaves service: the waiting task with the lowest arrival number follows (R106). -/
def State.flowNext (s : State) (r : TaskRef) (d : List Word) : State :=
  if !Desc.flow d then s
  else
    let k := (r.ctx, Desc.flowId d)
    let f := s.flow k
    if f.serving = some r then match f.queue with
      | [] => s.setFlow k { f with serving := none }
      | e :: l => (s.setFlow k { f with serving := some e.ref, queue := l }).toHeap e
    else s.setFlow k { f with queue := f.queue.filter fun e => e.ref ≠ r }

/-! ## Candidates for speculation (R195) -/

/-- Whether a task is eligible for speculative dispatch (R195); one with a failed predecessor never runs (R155). -/
def State.specEligible (s : State) (r : TaskRef) : Bool := match s.inst? r.ctx r.inst, s.task? r with
  | some x, some t =>
    let d := t.desc
    let c := s.ctx r.ctx
    let gate := AL.get? (Desc.gatePred d) x.tasks
    decide (Desc.kind d = 1) && Desc.specOk d && !Desc.flow d && decide (1 ≤ Desc.inCount d) &&
    (match gate with
      | some g => decide (Desc.gatePred d < x.span) && decide (Desc.kind g.desc = 2) &&
          (match g.st with | .gone _ => false | _ => true)
      | none => false) &&
    decide (t.count = 1) && decide (t.st = .waiting) && !t.fail &&
    (match x.step, s.pred? r.ctx (Desc.gateSite d) with
      | some n, some p => decide (p.conf = 3) && decide (p.step + 1 = n) && p.gran.isSome
      | _, _ => false) &&
    ((s.outputs d x.base).all fun h => let u := s.tile r.ctx h; !u.valid || u.pooled) &&
    decide (c.st = .resident) && !c.halted && s.plu.specClass.testBit c.cls && s.plu.specEn && !t.specTried
  | _, _ => false

/-- Add an eligible task to its home cluster's candidate list, which holds 64 (R195). Its place in the list is by a number that it draws
now; it keeps that number only if it is staged (assumption 20). -/
def State.addCandidate (s : State) (r : TaskRef) : State :=
  if !s.specEligible r then s
  else match s.inst? r.ctx r.inst, s.task? r with
    | some x, some t =>
      let h := s.homeCluster r.ctx t.desc x.base (effIdx x r.idx)
      if 64 ≤ (s.cluster h).cands.length then s
      else
        let (a, s1) := if t.stamped then (t.arr, s) else s.stamp
        let e : Entry := { key := { dl := taskDeadline x t.desc, cls := (s.ctx r.ctx).cls, arr := a }, ref := r }
        s1.setCluster h { s1.cluster h with cands := onAdd e (s1.cluster h).cands }
    | _, _ => s

/-- Drop candidates (R195, R204). -/
def State.dropCands (s : State) (f : Entry → Bool) : State :=
  { s with csq := { s.csq with clusters := s.csq.clusters.map fun p =>
      (p.1, { p.2 with cands := p.2.cands.filter fun e => !f e }) } }

/-! ## Launch (R85 to R89) -/

/-- Instance-frame entries in use: one a task of a live instance's span, and one a posted action (R68, R108). -/
def Ctx.framesUsed (x : Ctx) : Nat := x.posted + (x.insts.map fun p => p.2.span).sum

/-- Whether two ranges of effective indices meet, taken mod 2^32 (R86). -/
def rangesMeet (a n b m : Nat) : Bool :=
  n ≠ 0 && m ≠ 0 && ((b + 2 ^ 32 - a) % 2 ^ 32 < n || (a + 2 ^ 32 - b) % 2 ^ 32 < m)

/-- Live instances of a graph. -/
def Ctx.liveOf (x : Ctx) (g : Nat) : Nat := (x.insts.filter fun p => p.2.gid = g).length

/-- The checks of R86: 0 pass, 1 graph, 2 ranges, 3 frames; the first that fails decides (DESIGN CHOICE, assumption 31). -/
def State.launchCheck (s : State) (c gid : Nat) (template : Bool) (base count : Nat) : Nat :=
  let x := s.ctx c
  match AL.get? gid x.graphs with
  | none => 1
  | some g =>
    let n := count * g.span
    if g.template ≠ template ∨ (!g.template ∧ (x.liveOf gid ≠ 0 ∨ 1 < count)) then 1
    else if 2 ^ 32 < n ∨ x.insts.any (fun p => rangesMeet base n p.2.base p.2.span) then 2
    else if x.frames < x.framesUsed + n then 3
    else 0

/-- The step number of an instance whose root command is a CAR_STEP, launched by the step itself or on the device (R88, R190). -/
def State.rootStep (s : State) (c : Nat) (owner : Option (Nat × Nat)) : Option Nat := match owner with
  | some (q, n) => match s.cmd? q n with
    | some x => if Op.code x.words = 0x12 then some (AL.get s.car.ctxs c).step else none
    | none => none
  | none => none

/-- What a launch carries. -/
structure Launch where
  owner : Option (Nat × Nat) := none
  step : Option Nat := none
  stepDl : Option Nat := none
  at_ : Nat := 0

/-- The task's count is its DEP_INIT: a root, and a task whose count is 1, are prefetched (R112); a root becomes ready (R83), a task
whose count is 1 may speculate (R195). -/
def State.countSet (s : State) (r : TaskRef) (d : List Word) : State :=
  if Desc.depInit d = 0 then (s.nearAdd r).becomeReady r
  else if Desc.depInit d = 1 then (s.nearAdd r).addCandidate r
  else s

/-- Create one instance with its tasks and counts, and make its roots ready in index order (R83, R94). -/
def State.createInst (s : State) (c gid : Nat) (g : Graph) (base num : Nat) (l : Launch) : State :=
  let i := s.gd.nextInst
  let x : Inst := { gid := gid, base := base, num := num, span := g.span, step := l.step, owner := l.owner,
                    launchAt := l.at_, stepDl := l.stepDl, frame := s.takeFrames c g.span,
                    tasks := g.descs.map fun p => (p.1, { desc := p.2, count := Desc.depInit p.2 }) }
  let s1 := { s with gd := { s.gd with nextInst := i + 1 } }
  let s2 := s1.updCtx c fun k => { k with insts := AL.put i x k.insts }
  let s3 := match l.owner with
    | some (q, n) => s2.updCmd q n fun y => { y with insts := y.insts + 1 }
    | none => s2
  g.descs.foldl (fun s p => s.countSet { ctx := c, inst := i, idx := p.1 } p.2) s3

/-- Create instances j = 0 to `n − 1` (R85). -/
def State.createInsts (s : State) (c gid : Nat) (g : Graph) (base num : Nat) (l : Launch) : Nat → State
  | 0 => s
  | n + 1 => (s.createInst c gid g base num l).createInsts c gid g ((base + g.span) % 2 ^ 32) ((num + 1) % 2 ^ 32) l n

/-- Launch instances whose checks have passed: the first instance number, and the state (R85). -/
def State.launch (s : State) (c gid base count : Nat) (l : Launch) : Nat × State :=
  let x := s.ctx c
  let g := AL.get x.graphs gid
  let s1 := s.setCtx c { x with graphs := AL.put gid { g with seq := (g.seq + count) % 2 ^ 32 } x.graphs }
  (g.seq, s1.createInsts c gid g base g.seq l count)

/-! ## Retirement (R58, R76, R83, R84) -/

/-- A failed part of a root command: a task lost in a cluster (Table 2.14). -/
def State.failPart (s : State) (owner : Option (Nat × Nat)) (cluster : Nat) : State := match owner with
  | some (q, n) => s.updCmd q n fun x => { x with failed := if x.failed.contains cluster then x.failed else x.failed ++ [cluster] }
  | none => s

/-- The signals of a task: inline, then its list's entries, as words a and b (R75, R76). -/
def State.signals (s : State) (d : List Word) : List (Word × Word) :=
  let a := Desc.succList d + 8 * Desc.succCount d
  ([(wordAt d 8, 0), (wordAt d 9, 0)] ++ (List.range (Desc.sigCount d)).map fun i => (s.rd64 (a + 16 * i), s.rd64 (a + 16 * i + 8))).filter
    fun p => bits p.1 55 24 ≠ 0

/-- Perform or poison one signal of a task (R76, R131). `inline` entries have no REMOTE bit. -/
def State.taskSignal (s : State) (c eff : Nat) (poison : Bool) (p : Word × Word) : State :=
  if bit p.1 56 then
    s.push [.trail { dest := bits p.1 9 0, inc := bits p.1 55 24, handle := p.2, poison := poison, sender := .task c }]
  else if s.idLimit c ≤ bits p.1 23 0 then s.push [.faultCtx c 0x04 (bits p.1 23 0) 1 eff]
  else if poison then s.push [.poison c (bits p.1 23 0)]
  else s.push [.signal c (bits p.1 23 0) (bits p.1 55 24) { code := 2, arg := eff } none]

/-- Whether a task has left its instance. -/
def Task.isGone (t : Task) : Bool := match t.st with
  | .gone _ => true
  | _ => false

/-- A successor's count falls by one; at zero it is decided (R21, R83, R84, R199, R225), after its site has resolved (R193). -/
def State.decrement (s : State) (c i idx pred : Nat) (failed : Bool) : State := match s.inst? c i with
  | none => s
  | some x =>
    let r : TaskRef := { ctx := c, inst := i, idx := idx }
    let under := s.push [.faultCtx c 0x01 ((x.base + idx) % 2 ^ 32) (fld x.num 32 32 + fld x.gid 16 0) pred]
    match AL.get? idx x.tasks with
    | none => under
    | some t =>
      if t.count = 0 then under
      else
        let s1 := s.updTask r fun t => { t with count := t.count - 1, fail := t.fail || failed }
        if t.isGone then s1
        else if t.count = 1 then
          let s2 := s1.dropCands fun e => e.ref = r
          let gateNormal := match AL.get? (Desc.gatePred t.desc) x.tasks with
            | some (g : Task) => decide (g.st = .gone .normal)
            | none => false
          let s3 := match x.step with
            | some n => if Desc.specOk t.desc && gateNormal && decide (t.st ≠ TaskState.spec) then (s2.resolve c t.desc x.base n).2 else s2
            | none => s2
          if t.fail || failed then s3.push [.retire r .failed]
          else match t.st with
            | .spec => s3.push [.confirm r]
            | _ => if t.skip then s3.push [.retire r .pruned] else s3.becomeReady r
        else if t.count = 2 then (s1.nearAdd r).addCandidate r
        else s1

/-- Release the task-state slot that a task holds (R176). -/
def State.freeSlots (s : State) (r : TaskRef) : State :=
  if (s.ctx r.ctx).slots.any fun p => p.2.ref = r then
    s.updCtx r.ctx fun x => { x with slots := x.slots.filter fun p => p.2.ref ≠ r }
  else s

/-- Mark a task gone; its context may be idle now (R171). -/
def State.markGone (s : State) (r : TaskRef) (how : How) : State := match s.task? r with
  | none => s
  | some t =>
    if t.isGone then s
    else
      let s1 := (((s.updTask r fun t => { t with st := .gone how, goneAt := s.env.now }).freeSlots r).nearDrop r).dropCands fun e =>
        e.ref = r
      (s1.flowNext r t.desc).testPlace r.ctx

/-- An instance ends with its last task, once that task's decrements have been applied (R84, R88). -/
def State.instCheck (s : State) (r : TaskRef) : State := match s.inst? r.ctx r.inst with
  | some x => if x.tasks.all fun p => p.2.isGone then s.push [.instEnd r.ctx r.inst] else s
  | none => s

/-- A task leaves without applying signals or decrements. -/
def State.taskGone (s : State) (r : TaskRef) (how : How) : State := (s.markGone r how).instCheck r

/-- Relative indices in a task's successor list (Table 3.3). -/
def State.successors (s : State) (d : List Word) : List Nat :=
  (List.range (Desc.succCount d)).map fun k => bits (s.rd64 (Desc.succList d + 8 * k)) 31 0

/-- A retiring task's decrements, each sent to the sequencer that owns the successor's line: owners ascending, within one by list
order (R94, R113). A position without a frame entry goes with the first. They follow the signals to the counters of `after`. -/
def State.sendDecrements (s : State) (r : TaskRef) (d : List Word) (pred : Nat) (failed : Bool) (after : List Nat) : State :=
  let l := (s.successors d).map fun i => ((s.owner? r.ctx r.inst i).getD (s.presentList.headD 0), i)
  s.push ((List.range s.env.dev.clusters).filterMap fun o =>
    let mine := (l.filter fun p => p.1 = o).map Prod.snd
    if mine = [] then none else some (.decr o r.ctx r.inst pred failed after mine))

/-- The decrements of one retirement at one owner (R21, R84); a context that has faulted or is going applies none. The context may be
idle now (R171). -/
def State.applyDecrements (s : State) (c i pred : Nat) (failed : Bool) (idxs : List Nat) : State :=
  if (s.ctx c).st = .faulted ∨ (s.ctx c).st = .destroying then s
  else ((idxs.foldl (fun s k => s.decrement c i k pred failed) s).instCheck { ctx := c, inst := i }).testPlace c

/-- A task retires (R76, R83, R187): trace, unless another event stands for it (R205), outputs of a pruned task, signals,
successors; it is gone. The decrements of a pruned task follow its signals (R187), and those of a speculative commit, for which
another event stands, follow its signals and the `held` ones to those counters (Table 8.4). -/
def State.retireTask (s : State) (r : TaskRef) (how : How) (cluster core : Option Nat) (traced : Bool := true)
    (held : List Nat := []) : State :=
  match s.inst? r.ctx r.inst, s.task? r with
  | some x, some t =>
    if t.isGone then s
    else
      let d := t.desc
      let eff := effIdx x r.idx
      let ev := match how with
        | .normal => 3 | .pruned => 4 | .failed => 5 | .suppressed => 6 | .discarded | .late => 0
      let s1 := if ev = 0 || !traced then s else s.trace r ev cluster core
      let s2 := if how = .pruned then
          { (s1.emptyOutputs r.ctx (s1.outputs d x.base)) with stat := { s1.stat with pruned := s1.stat.pruned + 1 } }
        else s1
      let acts := how = .normal ∨ how = .pruned ∨ how = .failed
      let sigs := s2.signals d
      let s3 := if acts then sigs.foldl (fun s p => s.taskSignal r.ctx eff (how = .failed) p) s2 else s2
      let s4 := s3.markGone r how
      let after := if how = .pruned || !traced then held ++ (sigs.filter fun p => !bit p.1 56).map fun p => bits p.1 23 0 else []
      let s5 := if acts then s4.sendDecrements r d eff (how = .failed) after else s4
      s5.instCheck r
  | _, _ => s

end Sys2Proof.Machine
end

