-- ==== Sys2Proof/Machine/Place.lean ====
section
/-!
DEFINITION. Popping, offering, placing and staging (R100 to R104, R110, R118, R121, R176), CONTROL operations (R80, R81),
spurs, completions and yields (R113, R174, R175, R278).
-/
namespace Sys2Proof.Machine

/-! ## Free places (R100, R102, R103) -/

/-- Local-queue depth in use (Table 4.3). -/
def State.lqMax (s : State) : Nat := min s.gd.lqDepth 8

/-- A unit that gives up its work is offered none (R342). -/
def State.leavingUnit (s : State) (kind phys : Nat) : Bool := s.fsu.leaving.contains (kind, phys)

/-- Logical cores of a cluster in service, paused or leaving ones apart. -/
def State.coresOf (s : State) (n : Nat) : List Nat :=
  ((List.range 8).map fun k => 8 * n + k).filter fun c => s.coreOk c && !s.pausedUnit 2 (s.seqPos n) && !s.pausedUnit 1 (s.globalPort c) &&
    !s.leavingUnit 2 (s.seqPos n) && !s.leavingUnit 1 (s.globalPort c) && !s.leavingUnit 7 (s.physOf 7 (9 * n + c % 8))

/-- A cluster reports an empty saddle. -/
def State.saddleFree (s : State) (n : Nat) : Bool := (s.coresOf n).any fun c => (s.core c).saddle.isNone

/-- A cluster reports a local queue with room. -/
def State.lqFree (s : State) (n : Nat) : Bool := (s.coresOf n).any fun c => decide ((s.core c).lq.length < s.lqMax)

/-- A cluster's free summary: an empty saddle, or local-queue room when local queues are in use (R100). -/
def State.clusterFree (s : State) (n : Nat) : Bool := s.saddleFree n || s.lqFree n

/-- A saddle of the cluster, of a paused core too, holds a stalled task of the context (R103). -/
def State.stalledIn (s : State) (n c : Nat) : Bool := (List.range 8).any fun k => match (s.core (8 * n + k)).saddle with
  | some p => p.stall.isSome && p.e.ref.ctx = c
  | none => false

/-! ## Task-state slots (R176) -/

/-- All task-state slots of a context are held. -/
def State.slotsFull (s : State) (c : Nat) : Bool := (s.ctx c).nslots ≤ (s.ctx c).slots.length

/-- The slot of a task that a sequencer takes: the one it holds, or the lowest free, the model's choice (R176, assumption 31). -/
def State.takeSlot (s : State) (e : Entry) : Nat × State :=
  let x := s.ctx e.ref.ctx
  if e.slot ≠ 0 then (e.slot - 1, s)
  else
    let n := (lowestFree (x.slots.length + 1) (x.slots.map Prod.fst)).getD 0
    (n, s.setCtx e.ref.ctx { x with slots := AL.put n { ref := e.ref } x.slots })

/-! ## Staging (R110, R118, R121) -/

/-- Allocate the outputs that the task has not yet allocated; true when every one is bound. -/
def State.allocAll (s : State) (r : TaskRef) (order : List Nat) : List Nat → Bool × State
  | [] => (true, s)
  | h :: rest =>
    let done := match s.task? r with
      | some t => t.granules.any fun g => g.1 = h
      | none => true
    if done then s.allocAll r order rest
    else match s.allocOutput r.ctx h order with
      | (none, s1) => (false, s1)
      | (some none, s1) => s1.allocAll r order rest
      | (some (some g), s1) => (s1.updTask r fun t => { t with granules := t.granules ++ [(h, g.1, g.2)] }).allocAll r order rest

/-- The saddle's contents in the order of Table 4.1; the instance base lies in the low half of its word (assumption 31). -/
def Placed.contents (p : Placed) : List Word := p.desc ++ p.oper ++ p.inB ++ p.outB ++ [p.base]

/-- Beats of 64 bytes: 6 + ceil((8 (I + O) + 8) / 64) of them for I inputs and O outputs (Table 12.2 step 1). -/
def Placed.beats (p : Placed) : List PortOut := (List.range ((p.contents.length + 7) / 8)).map fun n =>
  .stage n ((p.contents.drop (8 * n)).take 8)

/-- A transfer's channel, numbered in the order of Table 12.1. -/
def PortOut.channel : PortOut → Nat
  | .stage .. => 1 | .spur _ => 2 | .rein _ => 4 | .trap .. => 5

/-- A transfer on a channel of a core's port takes place now: its 1 ms limit runs (R279). The core's own (DONE, YIELD, REQ) show that
the one before has been withdrawn; of the block's, the limit that runs already stands, to the DONE or YIELD that answers a TRAP and
that no core raises before it has taken its RSPs (assumption 31). -/
def State.xferOpen (s : State) (c ch : Nat) : State := s.updCore c fun k =>
  if AL.has k.xfer ch && decide (ch ∉ [3, 6, 7]) then k else { k with xfer := AL.put ch s.env.now k.xfer }

/-- The transfers on some channels are known to have ended. -/
def State.xferClose (s : State) (c : Nat) (chs : List Nat) : State :=
  s.updCore c fun k => { k with xfer := k.xfer.filter fun p => !chs.contains p.1 }

/-- Send transfers on a core's port (Table 12.1). -/
def State.toPort (s : State) (c : Nat) (l : List PortOut) : State :=
  l.foldl (fun s x => s.xferOpen c x.channel) { s with out := { s.out with port := s.out.port ++ l.map fun x => (c, x) } }

/-- A staged saddle: the descriptor with the shape in w7, the operand block unchanged, the bindings, the instance base and number
(Table 4.1, R79); it crosses the port beat by beat (Table 12.2 step 1). When the block reads the operands and lists is open: here at
offer, staging, execution and retirement (R78, assumption 31). -/
def State.loadSaddle (s : State) (c : Nat) (p : Placed) (x : Inst) (d : List Word) (ins outs : List Word) : State :=
  let p' := { p with
    staged := true, stall := none, desc := (List.range 16).map fun i => if i = 7 then p.w7 else wordAt d i,
    oper := s.rdWords false (Desc.operands d) 32, inB := ins, outB := outs, base := wd (fld x.num 32 32 + fld x.base 32 0) }
  (s.updCore c fun k => { k with saddle := some p' }).toPort c p'.beats

/-- Stage the task in a core's saddle: outputs, then binding entries; a task without a granule stalls (R121). A handle in both lists
has its input entry read before the allocation (R110, assumption 31). -/
def State.stageSaddle (s : State) (c : Nat) : State := match (s.core c).saddle with
  | none => s
  | some p =>
    let r := p.e.ref
    let s := s.descRead r
    match s.inst? r.ctx r.inst, s.task? r with
    | some x, some t =>
      let d := t.desc
      let ins := (s.inputs d x.base).map fun h => binding (s.tile r.ctx h) true
      if p.e.slot ≠ 0 then
        let sv := AL.get (s.ctx r.ctx).slots (p.e.slot - 1)
        s.loadSaddle c p x d ins sv.binds
      else
        let outs := s.outputs d x.base
        let (ok, s1) := s.allocAll r (s.sliceOrder r.ctx (Desc.sliceHint d) (c / 8)) outs
        if ok then
          s1.loadSaddle c p x d ins (outs.map fun h => binding (s1.tile r.ctx h) false)
        else
          let sl := s1.firstSlice r.ctx (Desc.sliceHint d) (c / 8)
          let s2 := if p.stall.isSome then s1 else
            s1.setPool r.ctx sl { s1.pool r.ctx sl with stalls := sat 0xFFFFFF ((s1.pool r.ctx sl).stalls + 1) }
          (s2.updTask r fun t => { t with slice := sl }).updCore c fun k =>
            { k with saddle := some { p with stall := some (p.stall.getD s.env.now) } }
    | _, _ => s

/-- A core's saddle holds a task stalled for tiles. -/
def Core.stalls (x : Core) (r : TaskRef) : Bool := match x.saddle with
  | some p => p.e.ref = r && p.stall.isSome
  | none => false

/-- A stalled task tries its allocation again (R121). -/
def State.retryStall (s : State) (r : TaskRef) : State := match s.csq.cores.find? fun p => p.2.stalls r with
  | some p => s.stageSaddle p.1
  | none => s

/-- Put a task into an empty saddle and stage it. -/
def State.enterSaddle (s : State) (c : Nat) (p : Placed) : State :=
  let s1 := s.updTask p.e.ref fun t => if p.e.slot = 0 then { t with st := .placed, granules := [], ran := false }
    else { t with st := .placed }
  (s1.updCore c fun k => { k with saddle := some p }).stageSaddle c

/-- An empty saddle takes the earliest-keyed entry of its own local queue, else of its cluster's, a paused core's too (R104). -/
def State.fillSaddle (s : State) (c : Nat) : State :=
  if (s.core c).saddle.isSome || !s.coreOk c then s
  else
    let own := (s.core c).lq
    let src := if own ≠ [] then some c else
      ((((List.range 8).map fun k => 8 * (c / 8) + k).filter fun k => (s.core k).lq ≠ []).foldl (fun best k => match best, (s.core k).lq.head? with
        | none, _ => some k
        | some b, some x => match (s.core b).lq.head? with
          | some y => if Key.lt x.e.key y.e.key then some k else some b
          | none => some k
        | some b, none => some b) none)
    match src with
    | none => s
    | some k => match (s.core k).lq with
      | [] => s
      | p :: rest => (s.updCore k fun x => { x with lq := rest }).enterSaddle c p

/-! ## Placing COMPUTE tasks (R102) -/

/-- Round 1 and round 2 of R102: the core that takes the task, and whether into its saddle. -/
def State.taker? (s : State) (order : List Nat) (c : Nat) : Option (Nat × Bool) :=
  let open' := order.filter fun n => !s.stalledIn n c
  match open'.find? s.saddleFree with
  | some n => ((s.coresOf n).find? fun k => (s.core k).saddle.isNone).map fun k => (k, true)
  | none => match open'.find? s.lqFree with
    | some n => (argMin (fun k => (s.core k).lq.length + b2n (s.core k).saddle.isSome)
        ((s.coresOf n).filter fun k => (s.core k).lq.length < s.lqMax)).map fun k => (k, false)
    | none => none

/-- The offer order of a COMPUTE task (R102): all present clusters, or its home alone when WIDEN is 0. -/
def State.orderFor (s : State) (h : Nat) : List Nat := if s.gd.widen then s.offerOrder h else [h]

/-- Place a COMPUTE task; none when no cluster takes it. -/
def State.placeTask (s : State) (e : Entry) (h w7 : Nat) : Option State :=
  match s.taker? (s.orderFor h) e.ref.ctx with
  | none => none
  | some (c, saddle) =>
    let (n, s1) := s.takeSlot e
    let p : Placed := { e := { e with held := false }, rslot := n, w7 := wd w7 }
    if saddle then some (s1.enterSaddle c p)
    else some ((s1.updTask e.ref fun t => { t with st := .placed }).updCore c fun k =>
      { k with lq := insertBy (fun a b => Key.lt a.e.key b.e.key) p k.lq })

/-! ## CONTROL operations (R80, R81) -/

/-- The count a LAUNCH asks for: o3, or the count of shape slot o3; none when the slot is invalid (R242). -/
def State.launchCount (s : State) (c : Nat) (fromShape : Bool) (v : Nat) : Option Nat :=
  if fromShape then (s.shape? c v).map Shape.count else some v

/-- A device-side launch of template instances; false when R81 refuses it. Under a CAR_STEP the instances take its step number
(R190), but neither its deadline nor its epoch, which are the step instance's (assumption 33). -/
def State.deviceLaunch (s : State) (c gid base : Nat) (count : Option Nat) (owner : Option (Nat × Nat)) (at_ : Nat) :
    Bool × Nat × State := match count with
  | none => (false, 0, s)
  | some n =>
    if s.launchCheck c gid true base n ≠ 0 then (false, 0, s)
    else
      let (q, s1) := s.launch c gid base n { owner := owner, step := s.rootStep c owner, at_ := at_ }
      (true, q, s1)

/-- Post an action to the delay list; none when no instance-frame entry is free (R108). -/
def State.postAction (s : State) (c : Nat) (d : Delay) : Option State :=
  let x := s.ctx c
  if x.frames < x.framesUsed + 1 then none
  else
    let (a, s1) := s.stamp
    let n := (((s.takeFrames c 1).head?).map Prod.fst).getD 0
    let s2 := s1.updCtx c fun k => { k with posted := k.posted + 1 }
    let s3 := match d.owner with
      | some (q, n) => s2.updCmd q n fun y => { y with actions := y.actions + 1 }
      | none => s2
    some (s3.delayAdd { d with arr := a, at_ := s.env.now, frame := n, ctx := c })

/-- Execute a CONTROL task at the sequencer of its home cluster (R80, R81). -/
def State.execControl (s : State) (r : TaskRef) (h : Nat) : State := match s.inst? r.ctx r.inst, s.task? r with
  | some x, some t =>
    let o := s.rdWords false (Desc.operands t.desc) 8
    let w := wordAt o
    let eff := effIdx x r.idx
    let fail (s : State) : State := (s.failPart x.owner h).retireTask r .failed (some h) none
    let base (i : Nat) (b : Nat) : Nat := if bit (w i) 17 then (x.base + b) % 2 ^ 32 else b
    match bits (w 0) 7 0 with
    | 0 => s.retireTask r .normal (some h) none
    | 1 =>
      let v := bits (w 1) 23 0
      if s.idLimit r.ctx ≤ v then s.push [.faultCtx r.ctx 0x04 v 1 eff]
      else ((s.updTask r fun t => { t with st := .ctlWait }).push
        [.waitCtl r h v (((w 2).toNat + x.num * (w 3).toNat) % 2 ^ 64)]).testPlace r.ctx
    | 2 =>
      match s.deviceLaunch r.ctx (bits (w 1) 15 0) (base 1 (bits (w 2) 31 0))
        (s.launchCount r.ctx (bit (w 1) 16) (bits (w 3) 31 0)) x.owner s.env.now with
      | (true, _, s1) => s1.retireTask r .normal (some h) none
      | (false, _, s1) => fail s1
    | 3 =>
      let wake := if bit (w 1) 63 then bits (w 1) 62 0 else s.env.now + bits (w 1) 62 0
      let act : Action := if bit (w 2) 0 then
          .launch (bits (w 3) 15 0) (base 3 (bits (w 4) 31 0)) (bits (w 5) 31 0)
            (if bit (w 3) 16 then some (bits (w 5) 31 0) else none)
        else .signal (sigWord (w 3)).1 (sigWord (w 3)).2
      match s.postAction r.ctx { wake := wake, act := act, owner := x.owner, inst := r.inst, cluster := h, eff := eff } with
      | some s1 => s1.retireTask r .normal (some h) none
      | none => fail s
    | _ => fail s
  | _, _ => s

/-! ## Popping and offering (R97 to R102) -/

/-- The descriptor of an entry. -/
def State.descOf (s : State) (e : Entry) : List Word := ((s.task? e.ref).map Task.desc).getD []

/-- The home cluster of an entry. -/
def State.homeOf (s : State) (e : Entry) : Nat := match s.inst? e.ref.ctx e.ref.inst, s.task? e.ref with
  | some x, some t => s.homeCluster e.ref.ctx t.desc x.base (effIdx x e.ref.idx)
  | _, _ => 0

/-- The Gating Engine of a GATE task: its home cluster's, or the global one, region 18 (R101). -/
def State.gateRegion (s : State) (e : Entry) : Nat := if Desc.global (s.descOf e) then 18 else s.homeOf e

/-- The sequencer of a cluster is paused: it dispatches nothing and executes no CONTROL task (R284). -/
def State.clusterPaused (s : State) (n : Nat) : Bool := decide (n < s.env.dev.clusters) && s.pausedUnit 2 (s.seqPos n)

/-- A Gating Engine takes another task: its input queue has room, and its cluster is neither leaving nor paused. -/
def State.geRoom (s : State) (g : Nat) : Bool :=
  decide ((s.ge g).queue.length < 16) && !s.leavingUnit 2 (s.seqPos g) && !s.clusterPaused g

/-- Whether an entry is not held back (R101, R102, R176) and its context's tasks are offered (R145, Table 7.1). -/
def State.eligible (s : State) (e : Entry) : Bool :=
  let x := s.ctx e.ref.ctx
  decide (x.st = .resident) && !x.halted && !(decide (e.slot = 0) && s.slotsFull e.ref.ctx) &&
  (!e.held ||
    if Desc.kind (s.descOf e) = 2 then s.geRoom (s.gateRegion e)
    else if Desc.kind (s.descOf e) = 3 then !s.clusterPaused (s.homeOf e)
    else (s.orderFor (s.homeOf e)).any fun n => s.clusterFree n && !s.stalledIn n e.ref.ctx)

/-- Whether the GD pops a bank's top entry (R100). -/
def State.poppable (s : State) (e : Entry) : Bool :=
  let d := s.descOf e
  decide (Desc.kind d = 2) || decide (Desc.kind d = 3) || Desc.pruneOk d || s.presentList.any s.clusterFree

/-- Count a wait in the bank's histogram (Table 4.12). -/
def State.countWait (s : State) (b : Nat) (e : Entry) : State :=
  let w := s.env.now - e.since
  let bin := if w < 128 then 0 else min (Nat.log2 (w / 64)) 15
  { s with stat := { s.stat with hist := AL.upd s.stat.hist (b, bin) (· + 1) } }

/-- Return a declined entry to its bank, held back, key unchanged (R101, R102). -/
def State.decline (s : State) (b : Nat) (e : Entry) : State :=
  s.putBank b ((s.bank b).insert { e with held := true })

/-- Step 5 of Table 1.3 on a popped entry: the tests of R101, in order. The prune tests come first, and once before each dispatch
from the start (R186); a SHAPE_DYN task then takes M, N and K from its slot, resuming or not (R87, R242, assumption 31). -/
def State.offer (s : State) (b : Nat) (e : Entry) : State :=
  let r := e.ref
  match s.inst? r.ctx r.inst, s.task? r with
  | some x, some t =>
    let d := t.desc
    let h := s.homeOf e
    let first := decide (e.slot = 0) && !t.tested
    let dyn := Desc.shapeDyn d
    let sh := s.shape? r.ctx (Desc.shapeSlot d)
    let s := if first then s.updTask r fun t => { t with tested := true } else s
    let taken := s.countWait b e
    if first && (s.prunable r.ctx d x.base || (dyn && decide ((sh.map Shape.count) = some 0))) then
      taken.retireTask r .pruned (some h) none
    else if dyn && sh.isNone then taken.retireTask r .failed (some h) none
    else match Desc.kind d with
      | 2 =>
        let g := s.gateRegion e
        if s.geRoom g then
          (taken.updTask r fun t => { t with st := .placed }).setGe g { s.ge g with
            queue := insertBy (fun a b => Key.lt a.key b.key) { e with held := false } (s.ge g).queue }
        else s.decline b e
      | 3 => if s.clusterPaused h then s.decline b e else taken.execControl r h
      | _ =>
        let w7 := if dyn then (sh.getD {}).w7.toNat else (wordAt d 7).toNat
        match taken.placeTask e h w7 with
        | some s1 => s1
        | none => s.decline b e
  | _, _ => s

/-- The banks with their tops ready, after the refills of R97. -/
def State.settleBanks (s : State) : State :=
  s.bankList.foldl (fun s b => s.putBank b ((s.bank b).top s.eligible).1) s

/-- The bank whose on-chip top has the least key, and that top (R98). -/
def State.bestTop? (s : State) : Option (Nat × Entry) :=
  ((s.bankList.filter fun b => !s.pausedUnit 3 (s.physOf 3 b)).filterMap fun b =>
    (((s.bank b).on.find? s.eligible).map fun e => (b, e))).foldl (fun best x => match best with
    | none => some x
    | some y => if Key.lt x.2.key y.2.key then some x else some y) none

/-- Whether the block pops and offers at this instant: started, `GD_CTL.RUN` set, no gait change (R15). -/
def State.dispatching (s : State) : Bool := s.up && s.gd.run && !s.gcs.changing

/-- GD_POP: pop the earliest eligible entry of the banks and offer it (R97 to R102). -/
def State.gdPop (s : State) : State :=
  if !s.dispatching then s
  else
    let s1 := s.settleBanks
    match s1.bestTop? with
    | none => s1
    | some (b, e) =>
      if s1.poppable e then (s1.setBank b { s1.bank b with on := (s1.bank b).on.filter fun x => x.ref ≠ e.ref }).offer b e
      else s1

/-! ## Spur, completion and yield -/

/-- Budget in force of a task, in ns (R73, R175, Table 7.10). -/
def State.budgetNs (s : State) (d : List Word) : Nat :=
  1000 * min (if Desc.budget d = 0 then 100 else Desc.budget d) (max 1 (min s.gd.budgetMax 1000))

/-- Once the spill pool, which holds no ring without a paddock (R99), has room again, the next RELAY_FULL is reported (R262). -/
def State.relayRoom (s : State) : State :=
  { s with rly := { s.rly with fullRep := s.rly.fullRep && decide ((if s.hasPaddock then s.rly.rings else 0) ≤ s.rly.usedRings.length) } }

/-- Discard the Relay messages, queued or in an operand port, of the (core, context) pairs that `f` picks (R263). -/
def State.stray (s : State) (f : Nat → Nat → Bool) : State :=
  let chan (s : State) (p : Nat × Chan) : State :=
    let c := p.1 / 16
    let gone := (p.2.credits.filter fun m => f c m.ctx).length +
      ((p.2.chains.filter fun x => f c x.1).map fun x => (x.2.map fun (r : Ring) => r.msgs.length).sum).sum
    let freed := (p.2.chains.filter fun x => f c x.1).flatMap fun x => x.2.map Ring.idx
    let left : Chan := { p.2 with credits := p.2.credits.filter fun m => !f c m.ctx, chains := p.2.chains.filter fun x => !f c x.1 }
    { s with rly := { s.rly with
        chans := AL.put p.1 left s.rly.chans
        usedRings := s.rly.usedRings.filter fun i => !freed.contains i
        stray := s.rly.stray + gone } }
  let s1 := s.rly.chans.foldl chan s
  let out := s1.rly.ports.filter fun p => f (p.1 / 256) p.2.ctx
  ({ s1 with rly := { s1.rly with
      ports := s1.rly.ports.filter fun p => !f (p.1 / 256) p.2.ctx
      stray := s1.rly.stray + out.length } }).relayRoom

/-- Address of a task-state slot (Table 7.3). -/
def State.slotAddr (s : State) (c n : Nat) : Nat := (s.ctx c).slotBase + n * 2 ^ (s.ctx c).slotLog

/-- SPUR: the core takes its staged task (R110, R136, R263). -/
def State.spurCore (s : State) (c : Nat) : State := match (s.core c).saddle, (s.core c).running with
  | some p, none =>
    if !p.staged || s.gcs.changing || !(s.coresOf (c / 8)).contains c then s
    else
      let r := p.e.ref
      let sv := AL.get (s.ctx r.ctx).slots p.rslot
      let cc := if p.e.slot ≠ 0 then sv.cc else []
      let p' := { p with spec := p.spec.map fun z => { z with spurAt := s.env.now } }
      let run : Running := { p := p', spurAt := s.env.now, budget := s.budgetNs (s.descOf p.e), resume := p.e.slot ≠ 0 }
      let s0 := ((s.updTask r fun t => { t with tested := false, ran := true }).xferClose c [1, 3, 6]).toPort c
        [.spur (if p.e.slot ≠ 0 then some (s.slotAddr r.ctx p.rslot) else none)]
      let s1 := s0.updCore c fun k => { k with saddle := none, running := some run, cc := cc, ccWaits := [], loadAt := s0.env.now }
      let s2 := s1.stray fun k x => decide (k = c) && decide (x ≠ r.ctx)
      let s3 := (s2.updCtx r.ctx fun x => { x with slots := AL.put p.rslot { sv with ref := r, saved := false } x.slots }).trace r
        (if p.spec.isSome then 7 else 2) (some (c / 8)) (some (c % 8))
      let s4 := if p.spec.isSome then { s3 with stat := { s3.stat with specIssued := s3.stat.specIssued + 1 } } else s3
      s4.fillSaddle c
  | _, _ => s

/-- Withdraw a core's waits on virtual counters (R129), those that wait at its port among them; no probe of it is answered. -/
def State.dropCoreWaits (s : State) (c : Nat) : State :=
  ({ s with work := s.work.filter fun w => match w with
      | .wait k _ _ _ | .probe k _ _ => decide (k ≠ c)
      | _ => true }).dropWaiters fun w => match w.who with
    | .core k _ => k = c
    | _ => false

/-- Time that a core has spent running tasks, to this instant (Table 4.11). -/
def State.busyOf (s : State) (c : Nat) : Nat :=
  let k := s.core c
  (k.busyNs + if k.running.isSome then s.env.now - k.loadAt else 0) % 2 ^ 64

/-- A core has handed back its task: it is free and its load is counted (Table 4.11), a context leaving may be waiting for it, and the
instance of a discarded task may end (R251). -/
def State.coreOff (s : State) (c : Nat) (ctx : Nat) : State :=
  let gone := match (s.core c).running with
    | some y => if y.discard then [Work.instEnd y.p.e.ref.ctx y.p.e.ref.inst] else []
    | none => []
  ((s.updCore c fun k => { k with running := none, cc := [], ccWaits := [], busyNs := s.busyOf c }).dropCoreWaits c).push
    (.coreFree ctx :: gone)

/-- A running task that is not saved when it leaves its core: suppressed (R63), or of a cancelled instance, whose undispatched
tasks are discarded (R59, R251). -/
def State.unsaved (s : State) (y : Running) : Bool :=
  y.suppressed || ((s.inst? y.p.e.ref.ctx y.p.e.ref.inst).map Inst.cancelled).getD false

/-- Write a slot header (Table 7.5). -/
def State.writeSlot (s : State) (r : TaskRef) (n : Nat) (cc : List (Nat × Nat)) : State :=
  let t := (s.task? r).getD {}
  let gid := ((s.inst? r.ctx r.inst).map Inst.gid).getD 0
  let ws := [s.refWord r, wd (fld (sat 0xFFFF t.overruns) 16 16 + fld gid 16 0), wd s.env.now, 0] ++
    (List.range 16).map fun i => wd (fld (AL.get cc (2 * i + 1)) 32 32 + fld (AL.get cc (2 * i)) 32 0)
  s.wrWords false (s.slotAddr r.ctx n) ws

/-- A core yields its task: its state is saved and a ready entry keeps its key and names the slot (Table 7.6 step 6). -/
def State.saveTask (s : State) (c : Nat) (run : Running) : State :=
  let r := run.p.e.ref
  let cc := (s.core c).cc
  let s1 := (s.coreOff c r.ctx).updCtx r.ctx fun x =>
    { x with slots := AL.put run.p.rslot { ref := r, saved := true, at_ := s.env.now, cc := cc, binds := run.p.outB } x.slots }
  ((s1.writeSlot r run.p.rslot cc).updTask r fun t => { t with st := .ready }).toHeap { run.p.e with slot := run.p.rslot + 1 }

/-- Discard a completion of a cancelled instance (R59, R252). -/
def State.lateResult (s : State) (r : TaskRef) : State := match s.task? r, s.inst? r.ctx r.inst with
  | some t, some x =>
    let s1 := s.freeOutputs r.ctx t.granules
    (if x.stepDl.isSome then { s1 with car := { s1.car with discarded := s1.car.discarded + 1 } } else s1).taskGone r .late
  | _, _ => s

/-- Step 8 of Table 1.3 for a completed COMPUTE task (R113). -/
def State.finishTask (s : State) (c : Nat) (r : TaskRef) (occ : Word) (suppressed : Bool) : State :=
  match s.inst? r.ctx r.inst, s.task? r with
  | some x, some t =>
    if suppressed then s.retireTask r .suppressed (some (c / 8)) (some (c % 8))
    else if x.cancelled then s.lateResult r
    else (s.recordOcc r.ctx (s.outputs t.desc x.base) (bit occ)).retireTask r .normal (some (c / 8)) (some (c % 8))
  | _, _ => s

/-- A core's task completes into the speculation hold, which is full: the handshake waits for a place (R200, assumption 33). -/
def State.holdFull (s : State) (c : Nat) : Bool := match (s.core c).running with
  | some run => match run.p.spec with
    | some sp => !run.discard && !run.suppressed && !sp.confirmed && decide (16 ≤ (s.cluster (c / 8)).hold.length)
    | none => false
  | none => false

/-- A completion handshake arrives (R113, R200, R252, R278); none does from a port that has failed (R279). -/
def State.coreDone (s : State) (c : Nat) (occ : Word) : State := match (s.core c).running with
  | none => s
  | some run =>
    let r := run.p.e.ref
    let s1 := ((s.xferClose c [2, 4, 5, 8]).xferOpen c 3).coreOff c r.ctx
    if run.lost then s
    else if run.discard then s1
    else match run.p.spec with
      | some sp =>
        let h : Held := { run := run, occ := occ, core := c % 8 }
        if run.suppressed then s1.retireTask r .suppressed (some (c / 8)) (some (c % 8))
        else if sp.confirmed then s1.push [.commit (c / 8) h]
        else s1.setCluster (c / 8) { s1.cluster (c / 8) with hold := (s1.cluster (c / 8)).hold ++ [h] }
      | none => s1.finishTask c r occ run.suppressed

/-- Count an overrun and write its record; the third in a window faults the context (R175). -/
def State.overrun (s : State) (r : TaskRef) (eff arg unit inst : Nat) : State :=
  let s1 := s.updCtx r.ctx fun x => { x with overruns := sat 0xFF (x.overruns + 1) }
  let n := (s1.ctx r.ctx).overruns
  let s2 := s1.writeHeader r.ctx
  let s3 := s2.err { unit := unit, inst := inst, cls := if n = 3 then 2 else 1, code := 0x09, ctx := some r.ctx, a := eff, b := n,
                     c := arg }
  if n = 3 then s3.push [.faultQuiet r.ctx 0x09] else s3

/-- A yield handshake arrives, in answer to a rein or a forced trap (R174, R175). -/
def State.coreYield (s0 : State) (c : Nat) : State := match (s0.core c).running with
  | none => s0
  | some run =>
    if run.lost || !run.rein && !run.trap then s0
    else
      let s := (s0.xferClose c [2, 4, 5, 8]).xferOpen c 6
      let r := run.p.e.ref
      let eff := match s.inst? r.ctx r.inst with
        | some x => effIdx x r.idx
        | none => 0
      if run.discard then s.coreOff c r.ctx
      else if s.unsaved run then
        let s1 := (s.coreOff c r.ctx).taskGone r .discarded
        if run.trap then s1.overrun r eff c 3 (s.seqPos (c / 8)) else s1
      else if run.trap then
        ((s.updTask r fun t => { t with overruns := sat 0xFFFF (t.overruns + 1) }).saveTask c run).overrun r eff c 3 (s.seqPos (c / 8))
      else s.saveTask c run

/-- The address of the slot that a core's task holds. -/
def State.runSlot (s : State) (y : Running) : Nat := s.slotAddr y.p.e.ref.ctx y.p.rslot

/-- Raise the rein on a core, with the address of the task's slot (R174 step 4, Table 12.3). -/
def State.raiseRein (s : State) (c : Nat) : State := match (s.core c).running with
  | some y => (s.updCore c fun k => { k with running := some { y with rein := true } }).toPort c [.rein (s.runSlot y)]
  | none => s

/-- Raise a trap on a core; with the discard mark nothing is saved (R175, R177, R198, Table 12.3). -/
def State.raiseTrap (s : State) (c : Nat) (discard : Bool) : State := match (s.core c).running with
  | some y => (s.updCore c fun k => { k with running := some { y with trap := true, discard := y.discard || discard } }).toPort c
      [.trap (s.runSlot y) discard]
  | none => s

/-- Force a core's task off as a discard, once (R177, R198). -/
def State.forceOff (s : State) (c : Nat) : State := match (s.core c).running with
  | some y => if y.discard then s else s.raiseTrap c true
  | none => s

end Sys2Proof.Machine
end

