-- ==== Sys2Proof/Machine/Spec.lean ====
section
/-!
DEFINITION. Speculative dispatch: offer and staging (R196, R197), confirmation (R199), commit (R200), refute (R201), commit
as pruned (R202).
-/
namespace Sys2Proof.Machine

/-- A core neither runs a task nor holds one in its saddle (R196). -/
def State.coreIdle (s : State) (c : Nat) : Bool := (s.core c).saddle.isNone && (s.core c).running.isNone

/-- A cluster is idle (R196). -/
def State.clusterIdle (s : State) (n : Nat) : Bool :=
  ((s.coresOf n).all fun c => (s.core c).lq.isEmpty) && (s.coresOf n).any s.coreIdle

/-- Some bank holds an entry that R102 could place on the cluster (R196); one that R176 holds back is none. -/
def State.workFor (s : State) (n : Nat) : Bool := s.bankList.any fun b => (s.bank b).all.any fun e =>
  let x := s.ctx e.ref.ctx
  decide (Desc.kind (s.descOf e) = 1) && decide (x.st = .resident) && !x.halted && (s.orderFor (s.homeOf e)).contains n &&
    !s.stalledIn n e.ref.ctx && !(decide (e.slot = 0) && s.slotsFull e.ref.ctx)

/-- Allocate a shadow granule for each handle; none when a granule lacks (R197). -/
def State.allocShadows (s : State) (c : Nat) (order : List Nat) : List Nat → Option (List (Nat × Nat × Nat) × State)
  | [] => some ([], s)
  | h :: r => match s.allocGranule c order with
    | none => none
    | some (g, s1) => match s1.allocShadows c order r with
      | none => none
      | some (l, s2) => some ((h, g.1, g.2) :: l, s2)

/-- Stage a candidate speculatively on a core (R197); none when shadow granules lack. -/
def State.stageSpec (s : State) (n c : Nat) (e : Entry) : Option State :=
  let r := e.ref
  let s := s.descRead r
  match s.inst? r.ctx r.inst, s.task? r with
  | some x, some t =>
    let d := t.desc
    match s.pred? r.ctx (Desc.gateSite d) with
    | none => none
    | some p => match p.gran with
      | none => none
      | some g =>
        match s.allocShadows r.ctx (s.sliceOrder r.ctx (Desc.sliceHint d) n) (s.outputs d x.base).eraseDups with
        | none => none
        | some (sh, s1) =>
          let (slot, s2) := s1.takeSlot e
          let hs := s.inputs d x.base
          let routed := binding { valid := true, occ := true, addr := s.granAddr g.1 g.2 } true
          let ins := routed :: (hs.drop 1).map fun h => binding (s.tile r.ctx h) true
          let outs := (s.outputs d x.base).map fun h => match sh.find? fun y => y.1 = h with
            | some y => binding { valid := true, addr := s.granAddr y.2.1 y.2.2 } false
            | none => 0
          let w7 := if Desc.shapeDyn d then (p.shape.getD {}).w7 else wordAt d 7
          let pl : Placed := { e := e, rslot := slot, w7 := w7,
                               spec := some { digest := p.digest, shape := p.shape, gran := g, shadows := sh } }
          let s3 := (s2.usePred r.ctx (Desc.gateSite d)).updTask r fun t => { t with st := .spec, specTried := true, arr := e.key.arr, stamped := true }
          some (s3.loadSaddle c pl x d ins outs)
  | _, _ => none

/-- SPEC_OFFER: the earliest eligible candidate of an idle cluster (R196, R197). -/
def State.specOffer (s : State) (n : Nat) : State :=
  if !s.dispatching || !s.present n || !s.clusterIdle n || s.workFor n || decide (16 ≤ (s.cluster n).hold.length) then s
  else match (s.cluster n).cands.find? fun e => s.specEligible e.ref && !s.slotsFull e.ref.ctx,
      (s.coresOf n).find? s.coreIdle with
    | some e, some c => match s.stageSpec n c e with
      | some s1 => s1.dropCands fun x => x.ref = e.ref
      | none => s
    | _, _ => s

/-- Cluster and core of a speculative task: those of its saddle, its core, its place in the hold or its commit (Table 3.6). -/
def State.specAt? (s : State) (r : TaskRef) : Option (Nat × Nat) :=
  match s.csq.cores.find? fun (p : Nat × Core) =>
      (match p.2.saddle with
        | some x => decide (x.e.ref = r)
        | none => false) || match p.2.running with
        | some y => decide (y.p.e.ref = r)
        | none => false with
  | some p => some (p.1 / 8, p.1 % 8)
  | none => ((s.csq.clusters.flatMap fun (p : Nat × Cluster) => p.2.hold.map fun h => (p.1, h)) ++ s.commits).findSome? fun p =>
      if p.2.run.p.e.ref = r then some (p.1, p.2.core) else none

/-- What a speculative task carries, wherever it is: saddle, core, hold or commit in flight. -/
def State.spec? (s : State) (r : TaskRef) : Option Spec := (s.specTasks.find? fun p => p.1 = r).map Prod.snd

/-- Force a speculative task off its core as a discard; it carries no speculation any more (R201). Of a failed port no answer is
awaited (R279). -/
def State.forceSpec (s : State) (c : Nat) (y : Running) : State :=
  let s1 := s.updCore c fun k => { k with running := some { y with p := { y.p with spec := none } } }
  if y.lost then s1.coreOff c y.p.e.ref.ctx else s1.forceOff c

/-- Take a speculative task out of its saddle, off its core or out of the hold, with its commit if that is in flight (Table 8.6 steps 1
and 2, R203). -/
def State.pullSpec (s : State) (r : TaskRef) : State :=
  let s0 := { s with work := s.work.filter fun w => match w with
    | .commit _ h => decide (h.run.p.e.ref ≠ r)
    | _ => true }
  let s1 := { s0 with csq := { s.csq with clusters := s.csq.clusters.map fun (p : Nat × Cluster) =>
    (p.1, { p.2 with hold := p.2.hold.filter fun h => h.run.p.e.ref ≠ r }) } }
  s1.csq.cores.foldl (fun (s : State) (p : Nat × Core) =>
    let k := s.core p.1
    match k.saddle, k.running with
    | some x, run =>
      if x.e.ref = r && x.spec.isSome then (s.setCore p.1 { k with saddle := none }).fillSaddle p.1
      else match run with
        | some y => if y.p.e.ref = r && y.p.spec.isSome then s.forceSpec p.1 y else s
        | none => s
    | none, some y => if y.p.e.ref = r && y.p.spec.isSome then s.forceSpec p.1 y else s
    | none, none => s) s1

/-- Drop a speculation: its place, its held effects, its shadow granules and its retention (Table 8.6 steps 1 to 3). -/
def State.dropSpec (s : State) (r : TaskRef) : State := match s.spec? r with
  | none => s
  | some sp =>
    let s1 := (s.pullSpec r).freeSlots r
    (sp.shadows.foldl (fun s g => s.returnGranule r.ctx (g.2.1, g.2.2)) s1).endRetention r.ctx sp.gran

/-- Refute: causes 1 MISMATCH, 2 GATE, 3 ACCESS, 4 ABANDON (R201, R205). A task whose count is zero becomes ready with the number it
was staged with (Table 8.6 step 4); any other draws its number when it becomes ready (R94, assumption 20). -/
def State.refute (s : State) (r : TaskRef) (cause : Nat) : State := match s.spec? r, s.task? r with
  | some _, some t =>
    let at_ := s.specAt? r
    let s1 := (s.dropSpec r).trace r 9 (at_.map Prod.fst) (at_.map Prod.snd) cause
    let st := s1.stat
    let s2 := { s1 with stat := match cause with
      | 1 => { st with specMismatch := st.specMismatch + 1 }
      | 2 => { st with specGate := st.specGate + 1 }
      | 3 => { st with specAccess := st.specAccess + 1 }
      | _ => { st with specAbandon := st.specAbandon + 1 } }
    let s3 := s2.updTask r fun t => { t with st := .waiting, stamped := decide (t.count = 0) }
    if t.count = 0 ∧ t.skip then s3.push [.retire r .pruned]
    else (if t.count = 0 then s3.becomeReady r else s3).testPlace r.ctx
  | _, _ => s

/-- Commit (Table 8.4). -/
def State.commit (s : State) (n : Nat) (h : Held) : State :=
  let r := h.run.p.e.ref
  match s.inst? r.ctx r.inst, s.task? r, h.run.p.spec with
  | some x, some t, some sp =>
    let hs := s.outputs t.desc x.base
    let s1 := s.setCluster n { s.cluster n with hold := (s.cluster n).hold.filter fun y => y.run.p.e.ref ≠ r }
    let s2 := sp.shadows.foldl (fun s g =>
      let u := s.tile r.ctx g.1
      let occ := (List.range hs.length).any fun i => hs.getD i 0 = g.1 && bit h.occ i
      let s' := match s.heldGranule u with
        | some old => (s.setTile r.ctx g.1 { u with valid := false }).returnGranule r.ctx old
        | none => s
      s'.setTile r.ctx g.1 ⟨true, occ, true, g.2.1, s.granAddr g.2.1 g.2.2, (u.version + 1) % 2 ^ 32, 32768⟩) s1
    let eff := effIdx x r.idx
    let s3 := sp.sigs.foldl (fun s p =>
      if s.idLimit r.ctx ≤ p.1 then s.push [.faultCtx r.ctx 0x04 p.1 1 eff]
      else s.push [.signal r.ctx p.1 p.2 { code := 3, arg := eff } none]) s2
    let lead := match AL.get? (Desc.gatePred t.desc) x.tasks with
      | some g => g.goneAt - sp.spurAt
      | none => 0
    let s4 := { s3 with stat := { s3.stat with specCommit := s3.stat.specCommit + 1, specLead := s3.stat.specLead + lead } }
    ((s4.trace r 8 (some n) (some h.core)).retireTask r .normal (some n) none false (sp.sigs.map Prod.fst)).endRetention r.ctx
      sp.gran
  | _, _, _ => s

/-- Mark a speculative task confirmed where it is; one that waits in the hold commits (R200). -/
def State.markConfirmed (s : State) (r : TaskRef) : State :=
  let ok (p : Placed) : Placed := if p.e.ref = r then { p with spec := p.spec.map fun z => { z with confirmed := true } } else p
  let s1 := { s with csq := { s.csq with
    cores := s.csq.cores.map fun (p : Nat × Core) => (p.1, { p.2 with
      saddle := p.2.saddle.map ok
      running := p.2.running.map fun (y : Running) => { y with p := ok y.p } }) } }
  match s1.csq.clusters.find? fun (p : Nat × Cluster) => p.2.hold.any fun h => h.run.p.e.ref = r with
  | none => s1
  | some (n, k) => match k.hold.find? fun (h : Held) => h.run.p.e.ref = r with
    | some h => s1.push [.commit n h]
    | none => s1

/-- A speculative task commits as pruned (R202, R225): event 4 carries its place (R205). -/
def State.commitPruned (s : State) (r : TaskRef) : State :=
  let at_ := s.specAt? r
  let s1 := s.dropSpec r
  ({ s1 with stat := { s1.stat with specPruned := s1.stat.specPruned + 1 } }).retireTask r .pruned (at_.map Prod.fst)
    (at_.map Prod.snd)

/-- A speculative task's count has reached zero: confirmed or refuted (R199, R202). One that SKIP has marked commits as pruned
whatever its digest (R225). -/
def State.confirm (s : State) (r : TaskRef) : State :=
  match s.inst? r.ctx r.inst, s.task? r, s.spec? r with
  | some x, some t, some sp =>
    let d := t.desc
    let gateNormal := match AL.get? (Desc.gatePred d) x.tasks with
      | some g => decide (g.st = .gone .normal)
      | none => false
    if !gateNormal then s.refute r 2
    else
      let (dig, s1) := s.resolve r.ctx d x.base (x.step.getD 0)
      let sh := s1.shape? r.ctx (Desc.shapeSlot d)
      let shapeOk := !Desc.shapeDyn d || (sh.isSome && decide (sh = sp.shape))
      if t.skip then s1.commitPruned r
      else if dig ≠ sp.digest ∨ !shapeOk then s1.refute r 1
      else if s1.prunable r.ctx d x.base || (Desc.shapeDyn d && decide ((sh.getD {}).count = 0)) then s1.commitPruned r
      else s1.markConfirmed r
  | _, _, _ => s

end Sys2Proof.Machine
end

