-- ==== Sys2Proof/Machine/Carousel.lean ====
section
/-!
DEFINITION. The Carousel's slots, step end and release (R243 to R252), and the end of root commands (R88).
-/
namespace Sys2Proof.Machine

def State.carSlot (s : State) (n : Nat) : SeqSlot := AL.get s.car.slots n
def State.setCarSlot (s : State) (n : Nat) (x : SeqSlot) : State :=
  { s with car := { s.car with slots := if x = {} then AL.del s.car.slots n else AL.put n x s.car.slots } }
def State.carCtx (s : State) (c : Nat) : CarCtx := AL.get s.car.ctxs c
def State.setCarCtx (s : State) (c : Nat) (x : CarCtx) : State :=
  { s with car := { s.car with ctxs := AL.put c x s.car.ctxs } }

/-- Slots that are not FREE, ascending. -/
def State.carUsed (s : State) : List Nat := (List.range s.env.dev.carSlots).filter fun n => (s.carSlot n).st ≠ .free

/-- The context's slots in a state, ascending. -/
def State.carOf (s : State) (c : Nat) (st : SeqState) : List Nat :=
  (s.car.slots.filter fun p => p.2.ctx = c && p.2.st = st).foldl (fun l p => insertNat p.1 l) []

/-- The context's slot with a sequence id, not FREE (R243). -/
def State.carFind (s : State) (c : Nat) (id : Word) : Option Nat :=
  (s.car.slots.find? fun p => p.2.st ≠ .free && decide (p.2.ctx = c) && decide (p.2.id = id)).map Prod.fst

/-- Free a slot; the CANCELs that wait for it complete (R250). -/
def State.carFree (s : State) (n : Nat) : State :=
  let x := s.carSlot n
  (s.setCarSlot n {}).push (x.cancels.map fun p => .complete p.1 p.2 .ok 1)

/-- Address of entry `i` of a batch list (Table 10.8). -/
def batchEntry (list i : Nat) : Nat := list + 64 + 64 * i

/-- Step 6 of Table 10.9 for member `i` of the step. -/
def State.memberEnd (s : State) (st : LiveStep) (i n : Nat) : State :=
  let x := s.carSlot n
  if x.cancelled then s.carFree n
  else
    let eos := bit (s.rd64 (batchEntry st.list i + 32)) 0
    let k := (x.steps + 1) % 2 ^ 32
    let s1 := s.setCarSlot n { x with steps := k }
    if eos || (st.limit ≠ 0 && k = st.limit) || x.st = .leaving then s1.carFree n else s1

/-- The step is over: its members are released and no CANCEL finds it; it stays live to its completion (R248, R251). -/
def State.stepClose (s : State) (c : Nat) : State :=
  let k := s.carCtx c
  s.setCarCtx c { k with live := k.live.map fun st => { st with ended := true, members := [] } }

/-- The step's instance has retired: step end, then the CAR_STEP completes (Table 10.9 steps 6 and 7). -/
def State.stepEnd (s : State) (c : Nat) : State := match (s.carCtx c).live with
  | none => s
  | some st =>
    let s1 := (st.members.zipIdx).foldl (fun s p => s.memberEnd st p.2 p.1) s
    let s2 := s1.stepClose c
    let x := (s2.cmd? st.q st.seq).getD {}
    if x.failed = [] then s2.complete st.q st.seq .ok st.members.length
    else s2.complete st.q st.seq .partialOk x.failed.length

/-- Release the members of a cancelled or contained step (R251 step 4). -/
def State.stepRelease (s : State) (c : Nat) : State := match (s.carCtx c).live with
  | none => s
  | some st =>
    (st.members.foldl (fun s n => if (s.carSlot n).st = .leaving then s.carFree n else s) s).stepClose c

/-- A root command none of whose instances or actions is left completes (R88, R53, R59, R251). A step's end waits while the gait
changes, and there is none after a context fault (Table 10.10). -/
def State.rootCheck (s : State) (q n : Nat) : State := match s.cmd? q n with
  | none => s
  | some x =>
    if x.insts ≠ 0 ∨ x.actions ≠ 0 ∨ x.posted then s
    else if Op.code x.words = 0x12 then
      let c := Op.ctx x.words
      match (s.carCtx c).live with
      | some st =>
        if st.q ≠ q ∨ st.seq ≠ n ∨ (s.ctx c).st = .faulted ∨ (s.ctx c).st = .destroying then s
        else if st.cancelled || x.cancelled then (s.stepRelease c).complete q n .cancelled 0
        else if s.gcs.changing then
          (s.setCarCtx c { s.carCtx c with live := some { st with ended := true } }).push [.carEnd q n]
        else s.stepEnd c
      | none => s
    else if x.cancelled then s.complete q n .cancelled 0
    else if x.failed = [] then s.complete q n .ok x.launch
    else s.complete q n .partialOk x.failed.length

/-- A core holds a task of the instance, whatever becomes of it. -/
def State.instOnCore (s : State) (c i : Nat) : Bool := s.csq.cores.any fun p => match p.2.running with
  | some y => decide (y.p.e.ref.ctx = c) && decide (y.p.e.ref.inst = i)
  | none => false

/-- An instance with no task left unretired ends (R83, R88); one of a cancelled step once no core holds a task of it (R251). -/
def State.instEnd (s : State) (c i : Nat) : State := match s.inst? c i with
  | none => s
  | some x =>
    if !(x.tasks.all fun p => p.2.isGone) || s.work.any (fun w => match w with
        | .decr _ c' i' _ _ _ _ => decide (c' = c) && decide (i' = i)
        | _ => false) || (x.cancelled && x.step.isSome && s.instOnCore c i) then s
    else
      let s1 := s.updCtx c fun k => { k with insts := AL.del k.insts i }
      match x.owner with
      | some (q, n) => (s1.updCmd q n fun y => { y with insts := y.insts - 1 }).rootCheck q n
      | none => s1

end Sys2Proof.Machine
end

