-- ==== Sys2Proof/Machine/Contain.lean ====
section
/-!
DEFINITION. Discarding work (R59, R63, R177, R180), containment of a guilty queue (R62 to R64) and cancellation (R59, R251).
-/
namespace Sys2Proof.Machine

/-! ## Discarding -/

/-- A core runs the task and has not been told to drop it. -/
def State.onCore (s : State) (r : TaskRef) : Bool := s.csq.cores.any fun p => match p.2.running with
  | some y => decide (y.p.e.ref = r) && !y.discard
  | none => false

/-- A core has started the task and has not let go of it. -/
def State.started (s : State) (r : TaskRef) : Bool := s.csq.cores.any fun p => match p.2.running with
  | some y => decide (y.p.e.ref = r)
  | none => false

/-- The Gating Engine that runs the task, if any. -/
def State.onGe? (s : State) (r : TaskRef) : Option Nat :=
  (s.ges.find? fun p => match p.2.run with
    | some y => decide (y.e.ref = r)
    | none => false).map Prod.fst

/-- A running GATE task leaves its engine; its flags join the sticky ones (R220), and the GE_PROGRAM_LOADs that waited for it
alone complete: the instruction caches hold nothing of the entry by then (R226). -/
def State.geLeave (s : State) (g : Nat) : State :=
  let x := s.ge g
  match x.run with
  | some y =>
    let s1 := s.setGe g { x with run := none, flags := x.flags ||| y.flags, ended := (x.ended + 1) % 2 ^ 32 }
    let still (p : Nat × Nat) : Bool := s1.ges.any fun (e : Nat × Ge) => match e.2.run with
      | some z => z.waiters.contains p
      | none => false
    let done := y.waiters.filter fun p => !still p
    let s2 := if done = [] then s1 else { s1 with ges := s1.ges.map fun (p : Nat × Ge) => (p.1, { p.2 with
      icache := p.2.icache.filter fun t => !(decide (t.1 = y.e.ref.ctx) && decide (t.2.1 = y.pid)) }) }
    s2.push (done.map (fun p => Work.complete p.1 p.2 .ok 0) ++ [.coreFree y.e.ref.ctx])
  | none => s

/-- Take a task's entry out of every list that can hold it: bank, save area, delay list, engine queue, flow queue, saddle
and local queue; a CONTROL WAIT is withdrawn. -/
def State.removeEntry (s : State) (r : TaskRef) : State :=
  let hit (e : Entry) : Bool := e.ref = r
  let s1 := { s with
    gd := { s.gd with
      banks := s.gd.banks.map fun (p : Nat × Bank) => (p.1, p.2.drop hit)
      delays := s.gd.delays.filter fun d => d.act ≠ Action.task r
      delaySpill := bucketDrop (fun d => decide (d.act = Action.task r)) s.gd.delaySpill
      flows := s.gd.flows.map fun (p : (Nat × Nat) × Flow) => (p.1, { p.2 with queue := p.2.queue.filter fun e => !hit e }) }
    ges := s.ges.map fun (p : Nat × Ge) => (p.1, { p.2 with queue := p.2.queue.filter fun e => !hit e }) }
  let s2 := if (s1.ctx r.ctx).saved.any hit then s1.setSaved r.ctx ((s1.ctx r.ctx).saved.filter fun e => !hit e) else s1
  let s3 := s2.dropWaiters fun w => match w.who with
    | .control x _ => x = r
    | _ => false
  s3.csq.cores.foldl (fun (s : State) (p : Nat × Core) =>
    let k := s.core p.1
    let k1 := { k with lq := k.lq.filter fun x => x.e.ref ≠ r }
    match k.saddle with
    | some x => if x.e.ref = r then (s.setCore p.1 { k1 with saddle := none }).fillSaddle p.1 else s.setCore p.1 k1
    | none => s.setCore p.1 k1) s3

/-- A task-state slot holds the task's state. -/
def State.savedTask (s : State) (r : TaskRef) : Bool := (s.ctx r.ctx).slots.any fun p => decide (p.2.ref = r) && p.2.saved

/-- Discard a task: it leaves its lists, and the granules that staging allocated to it return if it has not run; at a context
fault (`fault`) a saved task's return too (R119, R177). -/
def State.discardTask (fault : Bool) (s : State) (r : TaskRef) : State := match s.task? r with
  | none => s
  | some t =>
    if t.isGone || (s.onCore r && (s.spec? r).isNone) || (s.onGe? r).isSome then s
    else
      let s1 := (s.dropSpec r).removeEntry r
      let gs := if !t.ran || (fault && s.savedTask r) then ((s1.task? r).map Task.granules).getD [] else []
      (s1.freeOutputs r.ctx gs).taskGone r .discarded

/-- The tasks of a context's instances that `f` picks, not gone. -/
def State.tasksOf (s : State) (c : Nat) (f : Inst → Bool) : List TaskRef :=
  (s.ctx c).insts.flatMap fun p =>
    if f p.2 then (p.2.tasks.filter fun x => !x.2.isGone).map fun x => { ctx := c, inst := p.1, idx := x.1 } else []

/-- Contexts that are defined. -/
def State.definedList (s : State) : List Nat := (s.ctxs.filter fun p => p.2.st ≠ .free).map Prod.fst

/-- Remove the posted actions that `f` picks, freeing their instance-frame entries (R53, R108). -/
def State.removeActions (s : State) (f : Delay → Bool) : State :=
  let g (d : Delay) : Bool := !d.act.isTask && f d
  (s.delayList.filter g).foldl (fun (s : State) (d : Delay) =>
    let s1 := s.updCtx d.ctx fun x => { x with posted := x.posted - 1 }
    match d.owner with
    | some (q, n) => s1.updCmd q n fun y => { y with actions := y.actions - 1 }
    | none => s1) (s.delayDrop g)

/-- Release a core's outstanding waits on virtual counters with POISONED; the answers cross its port's bridge (R279). -/
def State.poisonWaits (s : State) (c : Nat) : State :=
  let mine (w : Waiter) : Option Nat := match w.who with
    | .core k tag => if k = c then some tag else none
    | _ => none
  let l := s.ctu.waiters.filterMap mine
  let s1 := if l = [] then s else s.xferOpen c 8
  { s1.dropWaiters (fun w => (mine w).isSome) with
      out := { s1.out with rsp := s1.out.rsp ++ l.map fun tag => (c, tag, 1, 0) } }

/-- Mark the running tasks that `f` picks as suppressed by the containment of queue `q` (R63 step 3); their outstanding waits at the
core port are released with POISONED (R129). -/
def State.suppress (s : State) (q : Nat) (f : TaskRef → Bool) : State :=
  let hit := s.csq.cores.filter fun (p : Nat × Core) => match p.2.running with
    | some y => f y.p.e.ref && !y.suppressed
    | none => false
  let mark (y : Running) : Running := if f y.p.e.ref && !y.suppressed then { y with suppressed := true, supQ := some q } else y
  (hit.map Prod.fst).foldl State.poisonWaits
    { s with csq := { s.csq with cores := s.csq.cores.map fun (p : Nat × Core) =>
        (p.1, { p.2 with running := p.2.running.map mark }) } }

/-! ## Guilty queues (R62, R63) -/

/-- Error record of a cause: code (Table 2.13). -/
def causeCode (cause : Nat) : Nat := if cause ≤ 5 then 0x05 else if cause = 7 then 0x07 else 0x06

/-- Status of the offending command (Table 2.13). -/
def causeStatus (cause : Nat) : Status := match cause with
  | 2 => .badOpcode | 5 => .denied | 6 | 7 => .timeout | 8 => .poisoned | _ => .queueGuilty

/-- Poison one target of an unperformed signal: a local counter, or a remote one through a trailing signal (R127). -/
def State.poisonSignal (s : State) (c : Nat) (p : Word × Word) : State :=
  if bit p.1 56 then
    s.push [.trail { dest := bits p.1 9 0, inc := bits p.1 55 24, handle := p.2, poison := true, sender := .task c }]
  else if s.idLimit c ≤ bits p.1 23 0 then s
  else s.push [.poison c (bits p.1 23 0)]

/-- Poison what a command's packets name as targets: step 5 of Table 2.15. -/
def State.poisonCmd (s : State) (c : Nat) (w : List Word) (cpl : Option (List Word)) : State :=
  let lim := s.idLimit c
  let loc (s : State) (v : Nat) : State := if v < lim then s.push [.poison c v] else s
  let remote (s : State) (dest : Nat) (h : Word) : State :=
    s.push [.trail { dest := dest, handle := h, poison := true, sender := .completion c }]
  let s1 := match Op.code w with
    | 0x03 => loc s (bits (wordAt w 1) 23 0)
    | 0x13 => if bit (wordAt w 2) 0 then s else loc s (bits (wordAt w 3) 23 0)
    | 0x05 => (List.range (min (bits (wordAt w 2) 6 0) 64)).foldl (fun s i =>
        let a := (wordAt w 1).toNat + 16 * i
        remote s (bits (s.rd64 a) 9 0) (s.rd64 (a + 8))) s
    | _ => s
  match cpl with
  | some p =>
    let s2 := if bit (wordAt p 0) 0 then loc s1 (bits (wordAt p 1) 23 0) else s1
    if bit (wordAt p 0) 1 then remote s2 (bits (wordAt p 2) 9 0) (wordAt p 3) else s2
  | none => s1

/-- Scan the ring from packet `i` to the recorded tail, `n` packets left at most (Table 2.15 step 5). -/
def State.scanRing (s : State) (q : Nat) : Nat → Nat → State
  | 0, _ => s
  | n + 1, i =>
    let x := s.queue q
    if min x.have x.packets ≤ i then s
    else
      let p0 := s.packetAt q i
      if !packetCrcOk true p0 then s.scanRing q n (i + 1)
      else
        let k := Op.extra p0 + 1
        let c := Op.ctx p0
        let last := s.packetAt q (i + k - 1)
        let cpl := if Op.cplExt p0 && decide (1 < k) && decide (i + k ≤ min x.have x.packets) && packetCrcOk false last then
          some last else none
        let s1 := if (q ≠ 0 ∧ c ≠ x.ctxId) ∨ !s.defined c then s else s.poisonCmd c p0 cpl
        s1.scanRing q n (i + k)

/-- Containment is complete: the record of an offending command that had not started, then step 7 of Table 2.15. A queue that its
context's fault or destruction has taken meanwhile keeps its state. -/
def State.contained (s : State) (q cause : Nat) (un : List Word) (tag a b c : Nat) : State :=
  let s1 := if un = [] then s else s.putUnstarted q [wordAt un 0, wd s.env.now, wordAt un 2, wordAt un 3]
  let s2 := s1.err { unit := 1, cls := 2, code := causeCode cause, qt := some (q, tag), a := a, b := b, c := c }
  let x := s2.queue q
  let s3 := s2.setQueue q { x with contain := none }
  if x.contain.isNone ∨ x.ctxStopped then s3
  else (((s3.updQueue q fun y => { y with cause := cause }).unslot q .guilty).queueMsix q).refreshAll

/-- A queue's root command owns it. -/
def ownedBy (q : Nat) (o : Option (Nat × Nat)) : Bool := o.any fun p => decide (p.1 = q)

/-- A posted action is a queue's: of an instance that it owns, or of its DELAY_POST. -/
def Delay.ofQueue (d : Delay) (q : Nat) : Bool := ownedBy q (if d.owner.isSome then d.owner else d.cmd)

/-- Contain a guilty queue: steps 1 to 6 of Table 2.15. `off` is the offending command that had started; `un` the packets of one that
had not; `detail`, `a`, `b` and `c` go to its status and to the error record. Steps 4 to 6 hand on the counters to be poisoned and
the completions that follow them; step 7 comes once nothing of them waits. A command whose completion is still to be performed has not
completed: it takes the status of step 6. Room in a role's queue unblocks other queues at once (R41). -/
def State.guilty (s : State) (q cause : Nat) (off : Option Nat) (un : List Word) (detail a b c : Nat) : State :=
  if (s.queue q).contain.isSome then s else
  -- step 1
  let s1 := (s.recallWork fun p _ => decide (p = q)).updQueue q fun x => { x with fetched := [], contain := some [] }
  let refs := s1.definedList.flatMap fun c => s1.tasksOf c fun x => ownedBy q x.owner
  let sigs := refs.flatMap fun r => ((s1.task? r).map fun t => (s1.signals t.desc).map fun p => (r.ctx, p)).getD []
  let posted := s1.delayList.filter fun d => d.ofQueue q
  -- steps 2 and 3
  let s2 := refs.foldl (State.discardTask false) s1
  let s3 := s2.removeActions fun d => d.ofQueue q
  let s4 := s3.suppress q fun r => refs.contains r
  let s5 := refs.foldl (fun (s : State) (r : TaskRef) => match s.onGe? r with
    | some g => (s.geLeave g).retireTask r .suppressed (some g) none
    | none => s) s4
  -- step 4
  let s6 := sigs.foldl (fun s p => s.poisonSignal p.1 p.2) s5
  let s7 := posted.foldl (fun (s : State) (d : Delay) => match d.act with
    | .signal v _ => if v < s.idLimit d.ctx then s.push [.poison d.ctx v] else s
    | _ => s) s6
  -- step 5
  let s8 := s7.scanRing q (s7.queue q).packets 0
  -- step 6
  let s9 := s8.dropWaiters fun w => match w.who with
    | .cmd p _ => p = q
    | _ => false
  let s9 := s9.updQueue q fun x => { x with contain := some (s9.work.filterMap poisonTarget?) }
  let s10 := ({ s9 with fwc := { s9.fwc with
    roleQ := s9.fwc.roleQ.map fun (p : Nat × List (Nat × Nat)) => (p.1, p.2.filter fun x => x.1 ≠ q) } }).refreshAll
  let tag := match off with
    | some n => Op.tag ((s10.cmd? q n).getD {}).words
    | none => Op.tag un
  let s11 := (s10.queue q).cmds.foldl (fun (s : State) (p : Nat × Cmd) =>
    let live := (s.carCtx (Op.ctx p.2.words)).live
    let s' := if Op.code p.2.words = 0x12 ∧ (live.any fun st => decide (st.q = q) && decide (st.seq = p.1)) = true then
      s.stepRelease (Op.ctx p.2.words) else s
    if off = some p.1 then s'.complete q p.1 (causeStatus cause) 0 else s'.complete q p.1 .queueGuilty cause) s10
  let rec4 := if un = [] then [] else recordWords (Op.code un) (causeStatus cause) (Op.tag un) detail 0 0 0
  s11.push [.contained q cause rec4 tag a b c]

/-! ## Cancellation of root commands (R59, R251) -/

/-- Cancel every instance of a root command: undispatched, speculative and GATE tasks are discarded, COMPUTE tasks on cores
run on (Table 2.20, R251). -/
def State.cancelRoot (s : State) (q n : Nat) : State :=
  let mine (x : Inst) : Bool := x.owner = some (q, n)
  let s1 := s.updCmd q n fun x => { x with cancelled := true }
  let refs := s1.definedList.flatMap fun c => s1.tasksOf c mine
  let s2 := { s1 with ctxs := s1.ctxs.map fun (p : Nat × Ctx) =>
    (p.1, { p.2 with insts := p.2.insts.map fun x => (x.1, if mine x.2 then { x.2 with cancelled := true } else x.2) }) }
  let s3 := refs.foldl (fun (s : State) (r : TaskRef) => match s.onGe? r with
    | some g => (s.geLeave g).taskGone r .discarded
    | none => State.discardTask false s r) s2
  (s3.removeActions fun d => d.owner = some (q, n)).rootCheck q n

end Sys2Proof.Machine
end

