-- ==== Sys2Proof/Machine/Contexts.lean ====
section
/-!
DEFINITION. Contexts (07): residence, quantum windows and displacement (R170 to R173), suspension (R174), context faults
(R177) and destruction (R180).
-/
namespace Sys2Proof.Machine

/-! ## Commands of a context -/

/-- Opcodes that act on the packet's context (Table 2.10, assumption 23). -/
def needsCtx (w : List Word) : Bool :=
  [0x01, 0x02, 0x03, 0x04, 0x05, 0x06, 0x0C, 0x0D, 0x0E, 0x0F, 0x10, 0x11, 0x12, 0x13].contains (Op.code w) ||
    (Op.code w = 0x07 && decide (2 ≤ bits (wordAt w 1) 1 0))

/-- Complete a started command early: its waiter, its place in a role's queue, its posted action and a completion still to be
performed go. Room in a role's queue unblocks the queues that wait for it at once (R41). -/
def State.abortCmd (s : State) (q n : Nat) (st : Status) (detail : Nat) : State :=
  let s1 := (s.recallWork fun p m => decide (p = q) && decide (m = n)).dropWaiters fun w => w.who = .cmd q n
  let s2 := { s1 with fwc := { s1.fwc with
    roleQ := s1.fwc.roleQ.map fun (p : Nat × List (Nat × Nat)) => (p.1, p.2.filter fun x => x ≠ (q, n)) } }
  let s3 := (s2.removeActions fun d => d.cmd = some (q, n)).complete q n st detail
  if s.fwc.roleQ.any (fun p => p.2.contains (q, n)) then s3.refreshAll else s3

/-- Complete every started command of the context: all of its bound queues', and queue 0's that act on it (R65, R180). -/
def State.abortAll (s : State) (c : Nat) (st : Status) (detail : Nat) : State :=
  s.cfe.queues.foldl (fun (s : State) (p : Nat × Queue) =>
    if p.1 ≠ 0 ∧ p.2.ctxId = c ∧ p.2.st ≠ .disabled then
      p.2.cmds.foldl (fun (s : State) (x : Nat × Cmd) => s.abortCmd p.1 x.1 st detail) s
    else if p.1 = 0 then
      (p.2.cmds.filter fun x => Op.ctx x.2.words = c && needsCtx x.2.words).foldl
        (fun (s : State) (x : Nat × Cmd) => s.abortCmd 0 x.1 st detail) s
    else s) s

/-- Queues bound to a context, queue 0 apart. -/
def State.boundQueues (s : State) (c : Nat) : List Nat :=
  (s.cfe.queues.filter fun p => p.1 ≠ 0 && p.2.ctxId = c && p.2.st ≠ .disabled).map Prod.fst

/-- Stop the queues bound to a context (R65): each gives up its slot and is BLOCKED, and a QUEUE_RESET of it under way completes
BAD_PARAM. The spec says of a DESTROYING context's queues only that they stop fetching (R180, assumption 31). -/
def State.stopQueues (s : State) (c : Nat) : State :=
  (s.boundQueues c).foldl (fun s q =>
    let by' := (s.queue q).resetBy
    let s1 := (s.updQueue q fun x => { x with fetched := [], ctxStopped := true, resetTo := none, resetBy := none }).unslot q .blocked
    match by' with
    | some n => s1.complete 0 n .badParam 1
    | none => s1) s

/-- CTX_SUSPEND and CTX_RESUME commands on a subject that are taken up and whose effect still waits (R173, R181). -/
def State.takenUpOn (s : State) (c : Nat) : List (Nat × Nat) := s.cfe.queues.flatMap fun p =>
  (p.2.cmds.filter fun y => decide (y.2.phase = .takenUp) && [0x0A, 0x0B].contains (Op.code y.2.words) &&
    decide (bits (wordAt y.2.words 1) 11 0 = c)).map fun y => (p.1, y.1)

/-- Complete the CTX_SUSPEND and CTX_RESUME commands that a subject's end finds taken up and not completed (R181). -/
def State.endSubject (s : State) (c : Nat) (st : Status) (detail : Nat) : State :=
  let x := s.ctx c
  (x.suspCmd ++ x.resumeCmd ++ s.takenUpOn c).foldl (fun s p => s.complete p.1 p.2 st detail)
    (s.setCtx c { x with suspCmd := [], resumeCmd := [], suspHold := false })

/-! ## Timers that stand still (R145, R164) -/

/-- A context's stopped time runs while it is halted or SUSPENDED. -/
def State.updStop (s : State) (c : Nat) : State :=
  let x := s.ctx c
  let stop := x.halted || x.st = .suspended
  match x.stopAt with
  | none => if stop then s.setCtx c { x with stopAt := some s.env.now } else s
  | some t => if stop then s else s.setCtx c { x with stopAt := none, stopTotal := x.stopTotal + (s.env.now - t) }

/-! ## Work on cores and engines -/

/-- A core holds a task of the context, whatever becomes of it. -/
def State.onCores (s : State) (c : Nat) : Bool := s.csq.cores.any fun p => match p.2.running with
  | some y => y.p.e.ref.ctx = c
  | none => false

/-- Cores that hold a task of the context. -/
def State.coresHolding (s : State) (c : Nat) : List Nat := (s.csq.cores.filter fun p => match p.2.running with
  | some y => y.p.e.ref.ctx = c
  | none => false).map Prod.fst

/-- A Gating Engine runs a task of the context. -/
def State.onGes (s : State) (c : Nat) : Bool := s.ges.any fun p => match p.2.run with
  | some y => y.e.ref.ctx = c
  | none => false

/-- Discard every task of a context: cores and engines are stopped, waiting work goes (R177 steps 2 and 3, R180). -/
def State.discardAll (s : State) (c : Nat) : State :=
  let s1 := (s.coresHolding c).foldl State.forceOff s
  let s2 := s1.ges.foldl (fun (s : State) (p : Nat × Ge) => match p.2.run with
    | some y => if y.e.ref.ctx = c then s.geLeave p.1 else s
    | none => s) s1
  let s3 := (s2.tasksOf c fun _ => true).foldl (State.discardTask true) s2
  (s3.removeActions fun d => d.ctx = c).setSaved c []

/-- REMOTE signal entries of a context's unretired tasks (R177 step 4). -/
def State.remoteSignals (s : State) (c : Nat) : List (Word × Word) :=
  (s.tasksOf c fun _ => true).flatMap fun r =>
    ((s.task? r).map fun t => (s.signals t.desc).filter fun p => bit p.1 56).getD []

/-! ## Context faults (R177, R332) -/

/-- Unit of a code's error record that faults a context (Table 15.2, assumption 23). -/
def faultUnit (code : Nat) : Nat := match code with
  | 0x04 => 4 | 0x08 => 2 | 0x0A => 5 | 0x0F => 6 | 0x13 => 0x0A | _ => 3

/-- INSTANCE of a fault's record (Table 15.2): for CTR_UNDERFLOW, whose C is the logical core, the sequencer that owns the
core counters (R136); for DEP_UNDERFLOW the sequencer that owns the successor's count line (R111), and a free value for a position
that has no line (assumption 13). -/
def State.faultInst (s : State) (c code a b k : Nat) : Nat × State := match code with
  | 0x01 =>
    let own := ((s.ctx c).insts.find? fun p => p.2.num = b / 2 ^ 32 && p.2.gid = b % 2 ^ 16).bind fun p =>
      s.owner? c p.1 ((a + 2 ^ 32 - p.2.base) % 2 ^ 32)
    match own with
    | some n => (s.seqPos n, s)
    | none => let p := s.fresh 16; (p.1.toNat, p.2)
  | 0x02 => (s.seqPos (k / 8), s)
  | _ => (0, s)

/-- Fault a context; `record` is false where the caller writes the record itself. -/
def State.faultCtx (s : State) (c code a b k : Nat) (record : Bool := true) : State :=
  let note (s : State) : State := if record then
      let (i, s1) := s.faultInst c code a b k
      s1.err { unit := faultUnit code, inst := i, cls := 2, code := code, ctx := some c, a := a, b := b, c := k } else s
  let x := s.ctx c
  if x.st = .free then s
  else if x.st = .faulted ∨ x.st = .destroying then note s
  else
    let remote := s.remoteSignals c
    let s1 := (s.updCtx c fun x => { x with faultCode := code, faultAt := s.env.now }).setCtxState c .faulted
    let s2 := (s1.updStop c).discardAll c
    let s3 := remote.foldl (fun s p => s.poisonSignal c p) s2
    let s4 := note ((s3.stray fun _ x => x = c).writeHeader c)
    let s5 := ((s4.abortAll c .ctxFault code).stopQueues c).endSubject c .ctxFault code
    s5.push [.coreFree c]

/-! ## Residence (R162, R170 to R173, R179) -/

/-- Firmware takes decisions: no core restarts and no handover is in progress (R42, R173). -/
def State.fwActs (s : State) : Bool :=
  s.up && !s.fwc.handover && !s.fwc.frozen && !s.fwc.pendingRestart && s.fwc.cores.all fun p => p.2 ≠ 2

/-- Resident places that no context holds, lowest first. -/
def State.freePlaces (s : State) : List Nat :=
  (List.range s.env.dev.places).filter fun p => !(s.ctxs.any fun x => x.2.place = some p)

/-- The earliest saved deadline of a context. -/
def Ctx.savedDl (x : Ctx) : Option Nat := (argMin (fun e => e.key.dl) x.saved).map fun e => e.key.dl

/-- The MAPPED counters of a context fit the mapping limit (R134). -/
def State.fits (s : State) (c : Nat) : Bool := decide (s.mappedResident + (s.mappedIds c).length ≤ s.mapLimit)

/-- Whether a context may be chosen for residence (R170, R179 step 1). -/
def State.wantsPlace (s : State) (c : Nat) : Bool :=
  let x := s.ctx c
  x.st = .waiting && (x.saved ≠ [] || x.resumeCmd ≠ []) && (!x.noResume || s.fits c)

/-- The order of R170: earliest saved deadline, lower class, longest wait; no deadline ranks last. -/
def State.ranksBefore (s : State) (a b : Nat) : Bool :=
  let x := s.ctx a
  let y := s.ctx b
  let dx := x.savedDl.getD (2 ^ 64)
  let dy := y.savedDl.getD (2 ^ 64)
  decide (dx < dy) || (decide (dx = dy) && (decide (x.cls < y.cls) || (decide (x.cls = y.cls) && decide (x.waitingAt < y.waitingAt))))

/-- Contexts that want a place, in the order of R170. -/
def State.candidates (s : State) : List Nat :=
  (s.definedList.filter s.wantsPlace).foldl (fun l c => insertBy s.ranksBefore c l) []

/-- Quantum of a context in ns (R172, Table 7.9). -/
def State.quantumNs (s : State) (c : Nat) : Nat :=
  if (s.ctx c).quantumUs = 0 then min (max s.gd.quantum 100000) 100000000 else 1000 * (s.ctx c).quantumUs

/-- The bank of a context that becomes resident (Table 7.7 step 2). -/
def State.chooseBank (s : State) (c : Nat) : Nat :=
  let on (b : Nat) (f : Ctx → Bool) : List (Nat × Ctx) := s.ctxs.filter fun p => p.2.place.isSome && p.2.bank = b && f p.2
  let banks := s.bankList.filter fun b => !s.leavingUnit 3 (s.physOf 3 b)
  match banks.find? fun b => on b (fun x => x.cls = (s.ctx c).cls) = [] with
  | some b => b
  | none => (argMin (fun b => (on b fun _ => true).length) banks).getD 0

/-- Make a waiting context resident at place `p` (Table 7.7); a counter set that does not fit turns a CTX_RESUME away. -/
def State.enterPlace (s : State) (c p : Nat) : State :=
  if !s.fits c then
    let x := s.ctx c
    x.resumeCmd.foldl (fun s r => s.complete r.1 r.2 .noResource 0) (s.setCtx c { x with resumeCmd := [], noResume := true })
  else
    let b := s.chooseBank c
    let s1 := s.updCtx c fun x => { x with
      bank := b, place := some p, windowAt := s.env.now, windowLen := s.quantumNs c, windowEnded := false, overruns := 0,
      noResume := false }
    let s2 := s1.setCtxState c .resident
    let s3 := (s2.mappedIds c).foldl (fun s v => s.withCtr c v { code := 1, arg := 0 } fun s => s) s2
    let entries := (s3.ctx c).saved
    let s4 := entries.foldl State.toHeap (s3.setSaved c [])
    let cmds := (s4.ctx c).resumeCmd
    (cmds.foldl (fun s r => s.complete r.1 r.2 .ok 0) (s4.updCtx c fun x => { x with resumeCmd := [] })).writeHeader c

/-! ## Suspension (Table 7.6) -/

/-- The largest remaining budget of the context's running tasks (R178). -/
def State.maxRemaining (s : State) (c : Nat) : Nat := (s.csq.cores.filterMap fun p => match p.2.running with
  | some y => if y.p.e.ref.ctx = c then some (y.budget - (s.env.now - y.spurAt)) else none
  | none => none).foldl max 0

/-- A gait change that ends now has stretched the pre-emption bound of the suspensions that it overlapped by its whole length (R178). -/
def State.stretchSusp (s : State) (start : Nat) : State :=
  { s with ctxs := s.ctxs.map fun (p : Nat × Ctx) =>
      (p.1, if p.2.st = .suspending then { p.2 with suspBound := p.2.suspBound + (s.env.now - start) } else p.2) }

/-- Return a placed task to the ready region: SLOT 0, or its slot when it was to resume (Table 7.6 step 3). -/
def State.returnPlaced (s : State) (p : Placed) : State :=
  let s1 := if p.e.slot = 0 then s.freeSlots p.e.ref else s
  (s1.updTask p.e.ref fun t => { t with st := .ready }).saveEntry p.e

/-- Take a context's tasks out of a core's saddle and local queue (step 3). -/
def State.unplace (s : State) (c k : Nat) : State :=
  let x := s.core k
  let mine (p : Placed) : Bool := p.e.ref.ctx = c && p.spec.isNone
  let sad := match x.saddle with
    | some p => if mine p then [p] else []
    | none => []
  let s1 := s.setCore k { x with lq := x.lq.filter fun p => !mine p, saddle := if sad = [] then x.saddle else none }
  (sad ++ x.lq.filter mine).foldl State.returnPlaced s1

/-- Start a suspension: steps 1 to 4 of Table 7.6. -/
def State.suspendStart (s : State) (c : Nat) : State :=
  let specs := (s.specTasks.filter fun p => p.1.ctx = c).map Prod.fst
  let s1 := (s.setCtxState c .suspending).updCtx c fun x => { x with
    suspAt := s.env.now, suspBound := s.env.now + s.maxRemaining c + 2000, suspFailed := [] }
  -- step 2
  let b := (s1.ctx c).bank
  let mine (e : Entry) : Bool := e.ref.ctx = c
  let heap := (s1.bank b).all.filter mine
  let s2 := heap.foldl State.saveEntry (s1.setBank b ((s1.bank b).drop mine))
  -- step 3
  let s3 := (s2.csq.cores.map Prod.fst).foldl (fun s k => s.unplace c k) s2
  let geq := s3.ges.flatMap fun p => p.2.queue.filter mine
  let s4 := { s3 with ges := s3.ges.map fun (p : Nat × Ge) => (p.1, { p.2 with queue := p.2.queue.filter fun e => !mine e }) }
  let s5 := geq.foldl (fun (s : State) (e : Entry) => (s.updTask e.ref fun t => { t with st := .ready }).saveEntry e) s4
  let s6 := (s5.dropCands mine).push (specs.map fun r => .refute r 4)
  -- step 4
  let s7 := (s6.coresHolding c).foldl (fun (s : State) (k : Nat) => match (s.core k).running with
    | some y => if y.p.spec.isSome then s else s.raiseRein k
    | none => s) s6
  ((s7.csq.cores.map Prod.fst).foldl State.fillSaddle s7).writeHeader c

/-- Give up the resident place of a context that has left every core. -/
def State.freePlace (s : State) (c : Nat) : State := s.updCtx c fun x => { x with place := none }

/-- SUSPEND_COMPLETE: step 8 of Table 7.6, once no core and no Gating Engine holds a task of the context and step 3 has refuted its
speculative tasks. A core in a cluster that failed to drain no longer counts (Table 2.14). A displacement suspension that a CTX_SUSPEND
has marked ends PARTIAL as its own does (R178, assumption 31). -/
def State.suspendFinish (s : State) (c : Nat) : State :=
  let x := s.ctx c
  let held := (s.coresHolding c).filter fun k => !x.suspFailed.contains (k / 8)
  if x.st ≠ .suspending ∨ held ≠ [] ∨ s.onGes c ∨ s.specTasks.any (fun p => decide (p.1.ctx = c)) then s
  else
    let s1 := (s.writeBackWaiters c).setCtx c { x with place := none, suspCmd := [], suspHold := false, waitingAt := s.env.now }
    let s2 := ((s1.setCtxState c (if x.suspHold then .suspended else .waiting)).updStop c).stray fun _ y => y = c
    (x.suspCmd.foldl (fun s p =>
      let s' := s.updCmd p.1 p.2 fun y => { y with failed := x.suspFailed }
      if x.suspFailed = [] then s'.complete p.1 p.2 .ok 0 else s'.complete p.1 p.2 .partialOk x.suspFailed.length) s2).testPlace c

/-- SUSPEND_DRAIN_LIMIT, under CTX_SUSPEND alone: clusters in which a core still holds a task fail; the tasks are saved as ready, to
run again from the start, or from their saved state when they were resuming (Table 2.14, R178). -/
def State.drainLimit (s : State) (c : Nat) : State :=
  let x := s.ctx c
  if x.st ≠ .suspending ∨ x.suspCmd = [] ∨ s.gcs.changing ∨ s.env.now < x.suspBound + 1000000 then s
  else
    (s.coresHolding c).foldl (fun (s : State) (k : Nat) => match (s.core k).running with
      | none => s
      | some y =>
        if y.discard then s.updCtx c fun z => { z with suspFailed := if z.suspFailed.contains (k / 8) then z.suspFailed else z.suspFailed ++ [k / 8] }
        else
          let r := y.p.e.ref
          let s1 := (s.forceOff k).dropCoreWaits k
          let s2 := s1.updCtx c fun z => { z with
            suspFailed := if z.suspFailed.contains (k / 8) then z.suspFailed else z.suspFailed ++ [k / 8] }
          if s.unsaved y then s2.taskGone r .discarded
          else
            let s3 := if y.p.e.slot = 0 then s2.freeSlots r else
              s2.updCtx c fun z => { z with slots := AL.upd z.slots y.p.rslot fun v => { v with saved := true } }
            (s3.updTask r fun t => { t with st := .ready, ran := t.ran && decide (y.p.e.slot ≠ 0) }).saveEntry y.p.e) s

/-! ## Displacement (R171) -/

/-- A sequencer is deciding what follows a task of the context: its retirement, its successors' counts, its speculation (R171). -/
def State.deciding (s : State) (c : Nat) : Bool := s.work.any fun w => match w with
  | .decr _ k .. => decide (k = c)
  | .retire r _ | .confirm r | .refute r _ => decide (r.ctx = c)
  | .commit _ h => decide (h.run.p.e.ref.ctx = c)
  | _ => false

/-- None of a context's tasks is in a heap, saddle, local queue, core, Gating Engine or sequencer; a halted context counts as
idle. -/
def State.idleCtx (s : State) (c : Nat) : Bool :=
  let x := s.ctx c
  let mine (e : Entry) : Bool := e.ref.ctx = c
  x.halted || (!s.deciding c && !(s.bank x.bank).all.any mine && !s.onCores c && !s.onGes c && !(s.ges.any fun p => p.2.queue.any mine) &&
    !(s.csq.cores.any fun p => p.2.lq.any (fun y => mine y.e) || match p.2.saddle with
      | some y => mine y.e
      | none => false))

/-- The earliest ready deadline of a resident context; none counts as latest. -/
def State.heapDl (s : State) (c : Nat) : Nat :=
  ((argMin (fun e => e.key.dl) ((s.bank (s.ctx c).bank).all.filter fun e => e.ref.ctx = c)).map fun e => e.key.dl).getD (2 ^ 64)

/-- Among displaceable contexts: idle first, then the highest class, the latest deadline, the longest residence. -/
def State.displaceBefore (s : State) (a b : Nat) : Bool :=
  let x := s.ctx a
  let y := s.ctx b
  let ia := s.idleCtx a
  let ib := s.idleCtx b
  if ia ≠ ib then ia
  else if x.cls ≠ y.cls then decide (y.cls < x.cls)
  else if s.heapDl a ≠ s.heapDl b then decide (s.heapDl b < s.heapDl a)
  else decide (x.lastChange < y.lastChange)

/-- The context that `w` displaces, if any. -/
def State.victim? (s : State) (w : Nat) : Option Nat :=
  ((s.definedList.filter fun v => (s.ctx v).st = .resident && decide ((s.ctx w).cls ≤ (s.ctx v).cls) &&
    (s.idleCtx v || (s.ctx v).windowEnded)).foldl (fun l v => insertBy s.displaceBefore v l) []).head?

/-- Test for displacement: while no place is free, each context that wants one displaces a candidate. -/
def State.displace (s : State) : State :=
  if !s.fwActs then s
  else
    s.candidates.foldl (fun s w =>
      if s.freePlaces ≠ [] ∨ s.gd.heirs.any (fun h => h.2 = w) ∨ !s.wantsPlace w then s
      else match s.victim? w with
        | some v => ({ s with gd := { s.gd with heirs := s.gd.heirs ++ [(v, w)] } }).suspendStart v
        | none => s) s

/-- MAKE_RESIDENT: a freed place goes to the context it was displaced for, else to the first of R170; with the last place taken, the
others that wait may displace (R171). -/
def State.makeResident (s : State) : State :=
  if !s.fwActs then s
  else
    let s0 := { s with gd := { s.gd with heirs := s.gd.heirs.filter fun p => s.wantsPlace p.2 } }
    let free := s0.freePlaces
    match free with
    | [] => s0
    | p :: _ =>
      match s0.gd.heirs.find? fun h => (s0.ctx h.1).place.isNone with
      | some h => (({ s0 with gd := { s0.gd with heirs := s0.gd.heirs.filter fun x => x ≠ h } }).enterPlace h.2 p).displace
      | none => match s0.candidates.find? fun c => !(s0.gd.heirs.any fun h => h.2 = c) with
        | some c => (s0.enterPlace c p).displace
        | none => s0

/-- QUANTUM_WINDOW_END: the next window begins; firmware tests for displacement, unless it is restarting (R172, R173). -/
def State.windowEnd (s : State) (c : Nat) : State :=
  let x := s.ctx c
  if x.st ≠ .resident ∨ s.env.now < x.windowAt + x.windowLen then s
  else
    let s1 := s.setCtx c { x with
      windowAt := x.windowAt + x.windowLen, windowLen := s.quantumNs c, windowEnded := true, overruns := 0 }
    s1.displace

/-! ## Destruction (R180) -/

/-- Start a CTX_DESTROY: steps 1 to 3. A queue that its context's fault stopped stays BLOCKED and no longer shows condition 7 (R60,
assumption 31). -/
def State.destroyStart (s : State) (c q n : Nat) : State :=
  let remote := s.remoteSignals c
  let s1 := s.updCtx c fun x => { x with destroyCmd := some (q, n) }
  let s2 := s1.setCtxState c .destroying
  let s3 := (s2.endSubject c .cancelled 0).updStop c
  let s4 := (s3.abortAll c .cancelled 0).stopQueues c
  let s5 := s4.discardAll c
  let s6 := remote.foldl (fun s p => s.poisonSignal c p) s5
  (s6.stray fun _ x => x = c).push [.coreFree c]

/-- Clear VALID of an event line's action that names a context, and drop the pending actions that name it (R289). -/
def clearLine (c : Nat) (p : Nat × EvtLine) : Nat × EvtLine :=
  (p.1, { p.2 with
    act := if bits p.2.act 59 48 = c then wd (p.2.act.toNat % 2 ^ 63) else p.2.act
    pend := p.2.pend.filter fun x => bits x.1 59 48 ≠ c })

/-- Actions in flight that go with a destroyed context: operations on its counters, and what its tasks' ends still do (R123, R180). -/
def Work.goesWith (c : Nat) : Work → Bool
  | .signal x .. | .poison x _ | .decr _ x .. | .instEnd x _ => decide (x = c)
  | .confirm r | .refute r _ | .retire r _ | .retryWait r | .waitCtl r .. => decide (r.ctx = c)
  | .commit _ h => decide (h.run.p.e.ref.ctx = c)
  | _ => false

/-- What a port has latched for a task of a destroyed context is discarded when it comes up, as a suppressed task's is (R263, R264). -/
def Work.orphan (c : Nat) : Work → Work
  | .sig k w vid inc => .sig k (if w.ref.ctx = c then { w with spec := false, suppressed := true } else w) vid inc
  | .relay z => .relay (if z.who.ref.ctx = c then { z with who := { z.who with spec := false, suppressed := true } } else z)
  | w => w

/-- Clear the actions in flight of a destroyed context, and its sends that wait for `RLY_CTL.EN`. -/
def State.endWork (s : State) (c : Nat) : State :=
  { s with
    work := (s.work.filter fun w => !w.goesWith c).map (Work.orphan c)
    rly := { s.rly with held := s.rly.held.map fun z =>
      if z.who.ref.ctx = c then { z with who := { z.who with spec := false, suppressed := true } } else z } }

/-- Return the resources of a context (step 4). -/
def State.freeResources (s : State) (c : Nat) : State :=
  let s1 := (s.endWork c).flushPreds fun p => p.ctx = c
  let s2 := (s1.ctu.phys.filter fun p => p.ctx = c).foldl State.evict s1
  let s3 := s2.dropWaiters fun w => w.ctx = c
  { s3 with
    plu := { s3.plu with pools := s3.plu.pools.filter fun p => p.1.1 ≠ c }
    gd := { s3.gd with
      flows := s3.gd.flows.filter fun p => p.1.1 ≠ c
      heirs := s3.gd.heirs.filter fun h => h.2 ≠ c }
    car := { s3.car with
      slots := s3.car.slots.filter fun p => p.2.ctx ≠ c
      ctxs := AL.del s3.car.ctxs c }
    ges := s3.ges.map fun (p : Nat × Ge) => (p.1, { p.2 with icache := p.2.icache.filter fun x => x.1 ≠ c })
    gcs := { s3.gcs with lines := s3.gcs.lines.map (clearLine c) } }

/-- Steps 4 to 6 of R180, once no core holds a task of the context. A QUEUE_RESET of a bound queue that still waits completes
BAD_PARAM with detail 1, and a status record that a bound queue still holds is dropped (assumption 31). -/
def State.destroyFinish (s : State) (c : Nat) : State :=
  let x := s.ctx c
  let s1 := s.freeResources c
  let s2 := (s1.boundQueues c).foldl (fun s q =>
    let by' := (s.queue q).resetBy
    let s := (s.queue q).cmds.foldl (fun (s : State) (p : Nat × Cmd) => s.completeNow q p.1 .cancelled 0) s
    let s' := (s.unslot q .disabled).updQueue q fun y => { y with
      ctxStopped := false, fetched := [], cmds := [], reserved := 0, heldRec := none, pendingMsix := false, resetTo := none,
      resetBy := none, contain := none }
    match by' with
    | some n => s'.complete 0 n .badParam 1
    | none => s') s1
  let s3 := s2.setCtxState c .free
  let s4 := s3.setCtx c {}
  s4.completeOpt x.destroyCmd .ok 0

/-- A core or an engine has let go of a context's task: a place that waits for it is freed (R162, R177, R180). An idle context may
be displaced, and a waiting one may displace (R171). -/
def State.coreFree (s : State) (c : Nat) : State :=
  let x := s.ctx c
  if s.onCores c then s
  else match x.st with
    | .faulted => s.freePlace c
    | .destroying => (s.freePlace c).destroyFinish c
    | .resident | .waiting => s.displace
    | _ => s

end Sys2Proof.Machine
end

