-- ==== Sys2Proof/Machine/Start.lean ====
section
/-!
DEFINITION. Fetching and checking packets (R26 to R28, R45), the start of a command (R46, R51), the firmware path
(R317, R318), queue registers, slots and their timers (R31 to R42), and queue resets (R66).
-/
namespace Sys2Proof.Machine

/-! ## References outside the context (R45, R49, R131) -/

/-- Word number of each virtual id that a command's parameters name. -/
def cmdVidWords (w : List Word) : List (Nat × Nat) :=
  (match Op.code w with
    | 0x03 | 0x04 => [(1, bits (wordAt w 1) 23 0)]
    | 0x0C => [(1, bits (wordAt w 1) 23 0 + bits (wordAt w 2) 16 0 - 1)]
    | 0x13 => if bit (wordAt w 2) 0 then [] else [(3, bits (wordAt w 3) 23 0)]
    | _ => []) ++ if Op.local w then [(8 * opPackets (Op.code w) + 1, bits (Op.cpl w 1) 23 0)] else []

/-- The creator of a context is `ctx` (R49); while the context is FREE, a CTX_CREATE in progress names its creator. -/
def State.createdBy (s : State) (subject ctx : Nat) : Bool :=
  if s.defined subject then (s.ctx subject).creator = some ctx
  else s.cfe.queues.any fun p => p.1 ≠ 0 && p.2.ctxId = ctx && p.2.cmds.any fun x =>
      Op.code x.2.words = 0x08 && bits (wordAt x.2.words 1) 11 0 = subject

/-- The first parameter word that names an object outside the command's context. A QUERY QUEUE off queue 0 of a queue that the
device lacks counts as one (assumption 31). -/
def State.outside? (s : State) (q : Nat) (w : List Word) : Option Nat :=
  let c := Op.ctx w
  let w1 := wordAt w 1
  if q = 0 ∧ !s.defined c then
    if needsCtx w then some 0 else if Op.local w then some (8 * opPackets (Op.code w) + 1) else none
  else
    let subject : Option Nat :=
      if q = 0 then none
      else match Op.code w with
        | 0x08 => if s.defined (bits w1 11 0) && !s.createdBy (bits w1 11 0) c then some 1 else none
        | 0x09 | 0x0A | 0x0B => if s.createdBy (bits w1 11 0) c then none else some 1
        | 0x14 => match bits w1 7 0 with
          | 0x01 => if (s.queue (bits w1 25 16)).ctxId = c ∧ bits w1 25 16 ≠ 0 then none else some 1
          | 0x02 => if bits w1 27 16 = c then none else some 1
          | 0x05 => if bits w1 27 16 = c ∧ bits w1 51 28 < s.idLimit c then none else some 1
          | _ => none
        | _ => none
    match subject with
    | some i => some i
    | none => ((cmdVidWords w).find? fun p => s.idLimit c ≤ p.2).map Prod.fst

/-! ## Checking packets (R28, R45) -/

/-- The words of the last fetched command, when it is not whole. -/
def fetchTail : List Word → Nat → List Word
  | w, 0 => w
  | [], _ => []
  | w, n + 1 =>
    let k := 8 * (Op.extra w + 1)
    if w.length < k then w else fetchTail (w.drop k) n

/-- Cause of a first packet's failing check, if any: CRC, opcode, length, context. -/
def State.firstCause (s : State) (q : Nat) (p : List Word) : Nat :=
  if !packetCrcOk true p then 1
  else if opcodes ≤ Op.code p then 2
  else if Op.extra p + 1 ≠ cmdPackets p then 3
  else if q ≠ 0 ∧ (Op.ctx p ≠ (s.queue q).ctxId ∨ !s.defined (Op.ctx p)) then 5
  else 0

/-- The first later packet of a command whose packet `p` lies `i` packets past the head, among those before the tail, that
fails its CRC: its distance from `p` (R45: the CRC check comes before the others). -/
def State.laterCrcBad (s : State) (q i : Nat) (p : List Word) : Option Nat :=
  ((List.range (Op.extra p)).map (· + 1)).find? fun j =>
    decide (i + j < (s.queue q).have) && !packetCrcOk false (s.packetAt q (i + j))

/-- CFE_PACKET_CHECK: fetch the next packet before the tail and make the checks it decides. With none to fetch, a slot that
marked itself idle has read the tail again and waits (R35). -/
def State.packetCheck (s : State) (q : Nat) : State :=
  let x := s.queue q
  let i := x.fetched.length / 8
  if x.st ≠ .slotted ∨ !s.up ∨ x.contain.isSome then s
  else if x.have ≤ i then if s.slotStateOf q = .idleCheck then s.slotState q .idleWait else s
  else
    let p := s.packetAt q i
    let part := fetchTail x.fetched (x.fetched.length + 1)
    let count := (x.head.toNat + i) % 2 ^ 32
    let bad (s : State) (cause : Nat) (un : List Word) (detail : Nat) : State := s.guilty q cause none un detail cause count 0
    if part = [] then
      match s.firstCause q p with
      | 0 => (s.updQueue q fun x => { x with fetched := x.fetched ++ p }).refresh q
      | 1 => bad s 1 p 1
      | c => match s.laterCrcBad q i p with
        | some j => s.guilty q 1 none p 1 1 ((count + j) % 2 ^ 32) 0
        | none => bad s c p (if c = 5 then 0 else c)
    else if !packetCrcOk false p then bad s 1 (part ++ p) 1
    else
      let w := part ++ p
      let lastOne := decide (w.length = 8 * cmdPackets w)
      if lastOne && Op.local w && (!s.defined (Op.ctx w) || decide (s.idLimit (Op.ctx w) ≤ bits (Op.cpl w 1) 23 0)) then
        bad s 5 w (8 * opPackets (Op.code w) + 1)
      else (s.updQueue q fun x => { x with fetched := x.fetched ++ p }).refresh q

/-! ## Starting a command (R46, R51, R366) -/

/-- Whether the command `w` at the head of a queue can start now. Slot 0 taken out of service by its ENABLE stops queue 0's starts alone:
the queue stays SLOTTED and fetches (R37, assumption 31). -/
def State.canStart (s : State) (q : Nat) (w : List Word) : Bool :=
  let x := s.queue q
  s.up && x.st = .slotted && decide (w.length = 8 * cmdPackets w) && w.isPrefixOf x.fetched &&
    decide (cmdPackets w ≤ x.have) && s.blocking q (wordAt w 0) = 0 && x.contain.isNone &&
    (match s.slotOf? q with
      | some n => (s.slot n).enable
      | none => false)

/-- The command takes its place among the started ones: head moved, a status record reserved (R26, R30). -/
def State.enter (s : State) (q : Nat) (w : List Word) : Nat × State :=
  let n := s.cfe.nextSeq
  let x := s.queue q
  let c : Cmd := { words := w, start := s.env.now, stop0 := s.stopped (Op.ctx w) }
  (n, ({ s with cfe := { s.cfe with nextSeq := n + 1 } }).setQueue q { x with
    head := x.head + BitVec.ofNat 32 (cmdPackets w), fetched := x.fetched.drop w.length,
    cmds := x.cmds ++ [(n, c)], reserved := x.reserved + 1, blockAt := none })

/-- Targets of a SIGNAL_REMOTE: word 0 and the handle of each entry. -/
def State.remoteTargets (s : State) (w : List Word) : List (Word × Word) :=
  (List.range (bits (wordAt w 2) 6 0)).map fun i =>
    (s.rd64 ((wordAt w 1).toNat + 16 * i), s.rd64 ((wordAt w 1).toNat + 16 * i + 8))

/-- A target entry that is out of range (Table 2.11). -/
def targetBad (p : Word × Word) : Bool := bits p.1 63 32 = 0 || bits p.1 31 10 ≠ 0

/-- The header checks of a batch list that the list alone decides (Table 10.9 step 1). -/
def State.batchOk (s : State) (c : Nat) (h : List Word) : Bool :=
  let w := wordAt h
  decide (bits (w 0) 63 32 = 0) && decide (bits (w 2) 63 32 = 0) && decide (bits (w 3) 63 48 = 0) &&
    decide (bits (w 4) 63 32 = 0) && decide (w 6 = 0) && decide (w 7 = 0) && decide (1 ≤ bits (w 0) 31 0) &&
    decide (bits (w 0) 31 0 ≤ s.env.dev.carSlots) && (bits (w 1) 31 0 = 0xFFFFFFFF || s.slotOk c (bits (w 1) 31 0))

/-- The word that names a list in memory with an entry or a header out of range (R366). -/
def State.listWord? (s : State) (w : List Word) : Option Nat := match Op.code w with
  | 0x05 => if (s.remoteTargets w).any targetBad then some 1 else none
  | 0x12 => if s.batchOk (Op.ctx w) (s.rdWords false (wordAt w 2).toNat 8) then none else some 2
  | _ => none

/-- The first word out of range of a command with such a word (R46, R366): a word that gives the address of a list stands for
the list, once it and the count in word 2 are in range. -/
def State.firstBad? (s : State) (w : List Word) : Option Nat :=
  (badWord? s.env.dev w).map fun i => if 2 < i then (s.listWord? w).getD i else i

/-- Start a command: its checks in the order of R45, R46; some serial number when its effect is to follow. A managed opcode off
queue 0 that also has a word out of range completes BAD_PARAM, and parameters are checked here, packet 0's too (R28, assumption 31). -/
def State.begin (s : State) (q : Nat) (w : List Word) : Option Nat × State :=
  if !s.canStart q w then (none, s.refresh q)
  else match s.outside? q w with
    | some i => (none, s.guilty q 5 none w i 5 (((s.queue q).head.toNat + i / 8) % 2 ^ 32) 0)
    | none =>
      let (n, s1) := s.enter q w
      match s.firstBad? w with
      | some i => (none, s1.complete q n .badParam i)
      | none =>
        let c := Op.ctx w
        if opManaged (Op.code w) ∧ q ≠ 0 then (none, s1.complete q n .denied 0)
        else if q = 0 ∧ needsCtx w ∧ (s.ctx c).st = .faulted then (none, s1.complete q n .ctxFault (s.ctx c).faultCode)
        else if q = 0 ∧ needsCtx w ∧ (s.ctx c).st = .destroying then (none, s1.complete q n .cancelled 0)
        else (some n, s1)

/-- A hardware-path command: it starts and takes effect. -/
def State.hwCmd (s : State) (code q : Nat) (w : List Word) (eff : Nat → State → State) : State :=
  if Op.code w ≠ code then s
  else match s.begin q w with
    | (some n, s1) => (eff n s1).refresh q
    | (none, s1) => s1

/-- Move a started command to a phase. -/
def State.setPhase (s : State) (q n : Nat) (p : Phase) : State := s.updCmd q n fun x => { x with phase := p }

/-- The oldest started command of a queue with these words that waits for its effect. -/
def State.waiting? (s : State) (q : Nat) (w : List Word) : Option Nat :=
  ((s.queue q).cmds.find? fun p => p.2.phase = .takenUp && decide (p.2.words = w)).map Prod.fst

/-- A firmware-path command: presented at the head it starts into its role's queue (R317), which may block the queues that wait for
room there (R40); presented again once taken up, it takes effect. A residence change that a command asks for waits for the end of
a freeze (R173). -/
def State.fwCmd (s : State) (code q : Nat) (w : List Word) (eff : Nat → State → State) : State :=
  if Op.code w ≠ code then s
  else match s.waiting? q w with
    | some n => if s.up && s.roleRuns (opRole code) && (s.fwActs || !opResidence code) then (eff n (s.setPhase q n .running)).refresh q else s
    | none => match s.begin q w with
      | (some n, s1) =>
        let s2 := s1.setPhase q n .fwQueued
        ({ s2 with fwc := { s2.fwc with roleQ := AL.upd s2.fwc.roleQ (opRole code) fun l => l ++ [(q, n)] } }).refreshAll
      | (none, s1) => s1

/-- A Carousel command: one that starts while `CAR_CTL.EN` is clear waits for it (R254), and a CAR_STEP accepted during a gait change
waits for its snapshot (Table 10.10). -/
def State.carCmd (s : State) (code q : Nat) (w : List Word) (eff : Nat → State → State) : State :=
  if Op.code w ≠ code then s
  else match s.waiting? q w with
    | some n =>
      let c := Op.ctx w
      if s.car.en && !(code = 0x12 && ((s.carCtx c).live.isSome || (s.ctx c).halted || s.gcs.changing)) then
        (eff n (s.setPhase q n .running)).refresh q
      else s
    | none => match s.begin q w with
      | (some n, s1) => if s1.car.en && !(decide (code = 0x12) && s1.gcs.changing) then (eff n s1).refresh q
        else (s1.setPhase q n .takenUp).refresh q
      | (none, s1) => s1

/-- FW_TAKE_UP: a role's core takes up the oldest command of its queue and journals it (R317 to R319). -/
def State.takeUp (s : State) (role : Nat) : State :=
  if !s.fwActs || !s.roleRuns role then s
  else match AL.get s.fwc.roleQ role with
    | [] => s
    | (q, n) :: r =>
      (({ s with fwc := { s.fwc with roleQ := AL.put role r s.fwc.roleQ } }).updCmd q n fun x =>
        { x with phase := .takenUp, core := some (s.roleCore role) }).refreshAll

/-- FW_BUSY_EXPIRY: a command not taken up within WAIT_NS of its start completes FW_BUSY (R317). -/
def State.fwBusy (s : State) (q n : Nat) : State :=
  let t := (s.queue q).waitNs
  match s.cmd? q n with
  | none => s
  | some x =>
    if x.phase ≠ .fwQueued ∨ t = 0 ∨ s.env.now < x.start + t then s
    else (s.abortCmd q n .fwBusy 0).refreshAll

/-! ## Timers of started commands (R52, R62) -/

/-- Time that a command's timers have run: the timebase since its start, less the stopped time of the context that its packets
name (R145, R164), on queue 0 too (assumption 31). -/
def State.runTime (s : State) (x : Cmd) : Nat := s.env.now - x.start - (s.stopped (Op.ctx x.words) - x.stop0)

/-- A WAIT has been released, and only its release or its completion is still to be performed. -/
def State.waitOver (s : State) (q n : Nat) : Bool := s.work.any fun w => match w with
  | .release (.cmd p m) _ | .complete p m .. => decide (p = q) && decide (m = n)
  | _ => false

/-- WAIT_TIMEOUT: the queue's WAIT has waited WAIT_NS and has not been released; the queue becomes guilty (R52). -/
def State.waitTimeout (s : State) (q : Nat) : State :=
  let t := (s.queue q).waitNs
  match (s.queue q).cmds.find? fun p => Op.code p.2.words = 0x04 && !s.waitOver q p.1 with
  | none => s
  | some (n, x) =>
    if t = 0 ∨ s.runTime x < t then s
    else s.guilty q 6 (some n) [] 0 6 (bits (wordAt x.words 1) 23 0) (wordAt x.words 2).toNat

/-- The graph id of a root command. -/
def rootGraph (w : List Word) : Nat := bits (wordAt w (if Op.code w = 0x13 then 3 else 1)) 15 0

/-- GRAPH_WATCHDOG: a root command has not completed GRAPH_NS after its launch time (R62 cause 7). -/
def State.graphWatchdog (s : State) (q n : Nat) : State :=
  let t := (s.queue q).graphNs
  match s.cmd? q n with
  | none => s
  | some x =>
    if !x.watched ∨ t = 0 ∨ s.runTime x < t then s
    else s.guilty q 7 (some n) [] 0 (rootGraph x.words) (if Op.code x.words = 0x12 then
      (((s.carCtx (Op.ctx x.words)).live.bind LiveStep.inst).bind fun i => (s.inst? (Op.ctx x.words) i).map Inst.num).getD 0
      else x.launch) t

/-! ## Queue resets (R66, Table 2.16) -/

/-- A task that containment of the queue suppressed is still on a core, whatever has become of its instance. -/
def State.suppressedOn (s : State) (q : Nat) : Bool := s.csq.cores.any fun p => p.2.running.any fun y => decide (y.supQ = some q)

/-- Steps 4 to 6 of a reset, once nothing holds it back. A head that leaves more than N packets before the recorded tail makes no
BAD_TAIL: the queue is PENDING and fetches the ring's positions modulo N (R34, R66, assumption 31). -/
def State.resetStep (s : State) (q : Nat) : State :=
  let x := s.queue q
  match x.st, x.resetTo with
  | .resetting, some h =>
    if s.suppressedOn q ∨ x.heldRec.isSome ∨ x.cmds ≠ [] then s
    else
      let s1 := s.setQueue q { x with
        head := h, fetched := [], cmds := [], reserved := 0, cause := 0, resetTo := none, resetBy := none,
        st := if q = 0 then .slotted else .idle }
      let s2 := s1.refresh q
      match x.resetBy with
      | some n => s2.complete 0 n .ok 0
      | none => s2
  | _, _ => s

/-- Start a reset of a GUILTY queue with a new head. -/
def State.resetStart (s : State) (q : Nat) (h : BitVec 32) (by' : Option Nat) : State :=
  (s.updQueue q fun x => { x with st := .resetting, resetTo := some h, resetBy := by' }).resetStep q

/-- QUEUE0_RESET: the reset bit of queue 0 (Table 2.5). -/
def State.queue0Reset (s : State) : State :=
  if (s.queue 0).st = .guilty then s.resetStart 0 (s.queue 0).tail none else s

/-- Bring a queue up to date, and take a reset of it further where it can go on. -/
def State.resetRefresh (s : State) (q : Nat) : State := (s.resetStep q).refresh q

/-- Take every reset in progress further. -/
def State.resetAll (s : State) : State := (s.cfe.queues.map Prod.fst).foldl State.resetStep s

/-! ## Doorbells and queue attributes (R31 to R36) -/

/-- DB_TAIL_WRITE (R34, R36). -/
def State.dbTail (s : State) (q : Nat) (v : Word) : State :=
  let x := s.queue q
  if x.st = .disabled ∨ s.env.dev.queues ≤ q then s
  else
    let tail := BitVec.ofNat 32 v.toNat
    let s1 := s.setQueue q { x with tail := tail, pendDl := x.deadline }
    if x.st = .guilty ∨ x.st = .resetting ∨ x.ctxStopped ∨ x.contain.isSome then s1
    else if x.packets < (tail - x.head).toNat then s1.guilty q 4 none [] 0 4 tail.toNat 0
    else s1.refresh q

/-- DB_CPL_HEAD_WRITE: software has consumed records (R30, R36). -/
def State.dbCplHead (s : State) (q : Nat) (v : Word) : State :=
  let x := s.queue q
  if x.st = .disabled ∨ s.env.dev.queues ≤ q then s
  else ((s.setQueue q { x with consumed := BitVec.ofNat 32 v.toNat }).flushHeld q).resetRefresh q

/-- LOG2_SIZE of a ring register is valid (Table 2.2). -/
def ringSizeOk (w : Word) : Bool := decide (12 ≤ bits w 4 0) && decide (bits w 4 0 ≤ 26)

/-- QUEUE_ENABLE (Table 2.5). A queue whose bound context has FAULTED becomes IDLE too; condition 7 blocks its starts
(assumption 31). -/
def State.queueEnable (s : State) (q : Nat) : State :=
  let x := s.queue q
  if x.st ≠ .disabled ∨ s.env.dev.queues ≤ q ∨ !ringSizeOk x.ring ∨ !ringSizeOk x.cpl then s
  else
    let s1 := s.setQueue q { x with
      st := if q = 0 then .slotted else .idle, written := 0, reserved := 0, consumed := 0, deadline := ctrMax, pendDl := ctrMax,
      tail := x.head, fetched := [], idleAt := none, blockAt := none, slotAt := s.env.now, ctxStopped := false }
    if q = 0 then s1.slotState 0 .idleWait else s1

/-- QUEUE_DISABLE (Table 2.5). -/
def State.queueDisable (s : State) (q : Nat) : State :=
  let x := s.queue q
  if x.contain.isNone ∧ (x.st = .idle ∨ (q = 0 ∧ x.st = .slotted ∧ x.cmds = [])) then s.unslot q .disabled else s

/-- The attribute registers take a write only while the queue is DISABLED (R31). -/
def State.qattr (s : State) (off : Nat) (v : Word) : State :=
  let q := s.cfe.qsel
  let x := s.queue q
  if x.st ≠ .disabled ∨ s.env.dev.queues ≤ q then s
  else match off with
    | 0x08 => s.setQueue q { x with ring := v &&& wd 0xFFFFFFFFFFFFF81F }
    | 0x10 => s.setQueue q { x with cpl := v &&& wd 0xFFFFFFFFFFFFF81F }
    | 0x18 => s.setQueue q { x with ctxReg := v &&& wd 0xFF0FFF }
    | 0x20 => s.setQueue q { x with waitNs := v.toNat }
    | 0x30 => s.setQueue q { x with graphNs := v.toNat }
    | _ => s

/-! ## Slots (R37 to R42) -/

/-- Class of a queue's bound context; 4 when the context is not defined. -/
def State.queueClass (s : State) (q : Nat) : Nat :=
  let c := (s.queue q).ctxId
  if s.defined c then (s.ctx c).cls else 4

/-- Pending queues in slot order: a defined context first, the earliest pending deadline, the lower class, then round-robin
by number within the class (R39). -/
def State.pendingBefore (s : State) (a b : Nat) : Bool :=
  let key (q : Nat) : Nat × Nat × Nat × Nat :=
    let cl := s.queueClass q
    let last := (AL.get? cl s.cfe.rr).getD (s.env.dev.queues - 1)
    (b2n (decide (cl = 4)), (s.queue q).pendDl, cl, (q + s.env.dev.queues - last - 1) % s.env.dev.queues)
  let x := key a
  let y := key b
  decide (x.1 < y.1) || (decide (x.1 = y.1) && (decide (x.2.1 < y.2.1) || (decide (x.2.1 = y.2.1) &&
    (decide (x.2.2.1 < y.2.2.1) || (decide (x.2.2.1 = y.2.2.1) && decide (x.2.2.2 < y.2.2.2))))))

/-- PENDING queues, in slot order. -/
def State.pendingQueues (s : State) : List Nat :=
  ((s.cfe.queues.filter fun p => p.1 ≠ 0 && p.2.st = .pending && p.2.contain.isNone).map Prod.fst).foldl
    (fun l q => insertBy s.pendingBefore q l) []

/-- Slots that may be given: in service, empty, other than slot 0. -/
def State.freeSlots' (s : State) : List Nat :=
  (List.range s.env.dev.slots).filter fun n => n ≠ 0 && (s.slot n).enable && !(s.slot n).valid

/-- Give slot `n` to a queue and note its turn. -/
def State.give (s : State) (n q : Nat) : State :=
  ({ s with cfe := { s.cfe with rr := AL.put (s.queueClass q) q s.cfe.rr } }).grant n q

/-- SLOT_GRANT: firmware gives a free slot to the first PENDING queue (R39). -/
def State.slotGrant (s : State) (n : Nat) : State :=
  if !s.fwActs ∨ !s.roleRuns 0 ∨ !s.freeSlots'.contains n then s
  else match s.pendingQueues with
    | [] => s
    | q :: _ => s.give n q

/-- The slot whose queue firmware displaces for `q`: held 100 µs, a later pending deadline; the latest deadline, then the
higher class, then the longest held (R40). -/
def State.displaceSlot? (s : State) (q : Nat) : Option Nat :=
  let cand := (List.range s.env.dev.slots).filter fun n =>
    let x := s.slot n
    n ≠ 0 && x.valid && decide ((s.queue x.queue).slotAt + 100000 ≤ s.env.now) &&
      decide ((s.queue q).pendDl < (s.queue x.queue).pendDl)
  argMin (fun n =>
    let x := s.queue (s.slot n).queue
    ((2 ^ 64 - x.pendDl) * 8 + (7 - s.queueClass (s.slot n).queue)) * 2 ^ 64 + min x.slotAt (2 ^ 64 - 1)) cand

/-- SLOT_DISPLACE: with no slot free, firmware displaces a queue for an earlier PENDING one; the freed slot is then given
under R39 (R40). -/
def State.slotDisplace (s : State) : State :=
  if !s.fwActs ∨ !s.roleRuns 0 ∨ s.freeSlots' ≠ [] then s
  else match s.pendingQueues with
    | [] => s
    | q :: _ => match s.displaceSlot? q with
      | some n => s.release n .pending
      | none => s

/-- SLOT_IDLE_RELEASE: no whole unstarted command for 50 µs (R40). The slot marks itself releasing, reads the tail again, and
stays if a command has come (R35). -/
def State.slotIdle (s : State) (n : Nat) : State :=
  let q := (s.slot n).queue
  match (s.queue q).idleAt with
  | some t => if n ≠ 0 ∧ s.fwActs ∧ (s.slot n).valid ∧ (s.queue q).st = .slotted ∧ !s.whole q ∧ t + 50000 ≤ s.env.now then
      let s1 := s.setSlot n { s.slot n with st := .releasing }
      if s1.whole q then s1.refresh q else s1.release n .idle
    else s
  | none => s

/-- SLOT_BLOCKED_RELEASE: the next start has been blocked for 50 µs (R40). -/
def State.slotBlocked (s : State) (n : Nat) : State :=
  let q := (s.slot n).queue
  match (s.queue q).blockAt with
  | some t => if n ≠ 0 ∧ s.fwActs ∧ (s.slot n).valid ∧ (s.queue q).st = .slotted ∧ s.blocking q (s.headWord q) ≠ 0 ∧
      t + 50000 ≤ s.env.now then s.release n .blocked else s
  | none => s

/-- A write of a slot's DISPLACE bit: the queue gives up the slot and is PENDING (Table 2.8, R358). -/
def State.displaceBit (s : State) (n : Nat) : State :=
  if n = 0 ∨ !(s.slot n).valid ∨ s.env.dev.slots ≤ n then s else s.release n .pending

/-- A write of `CFE_SLOT_QUEUE`: a displacement followed by a grant (R37). A slot out of service is left empty, and the write
acts while the mapping is frozen too (assumption 31). -/
def State.slotQueue (s : State) (n : Nat) (v : Word) : State :=
  if n = 0 ∨ s.env.dev.slots ≤ n then s
  else
    let q := bits v 9 0
    let s1 := s.release n .pending
    if bit v 15 && q ≠ 0 && (s1.queue q).st = .pending && (s1.slotOf? q).isNone && (s1.slot n).enable then s1.grant n q else s1

/-- A write of a slot's ENABLE bit; 0 takes the slot out of service, and its queue gives it up (Table 2.8). -/
def State.slotEnable (s : State) (n : Nat) (en : Bool) : State :=
  if s.env.dev.slots ≤ n then s
  else
    let s1 := if !en && n ≠ 0 && (s.slot n).valid then s.release n .pending else s
    s1.setSlot n { s1.slot n with enable := en }

end Sys2Proof.Machine
end

