-- ==== Sys2Proof/Machine/Effects.lean ====
section
/-!
DEFINITION. Effects of the hardware-path commands: graphs (R70 to R72, R85, R86), signals (R124, R141), cancellation (R59, R250,
R251), the Carousel (R245 to R249), delayed actions (R53, R108, R109).
-/
namespace Sys2Proof.Machine

/-! ## GRAPH_LOAD and GRAPH_LAUNCH -/

/-- The descriptor part holds graphs of these spans (R166). -/
def Ctx.descRoom (x : Ctx) (spans : Nat) : Bool := decide (4096 + 128 * spans ≤ x.gsSize - x.framePart)

/-- The first failing descriptor of a load: the detail of R72. -/
def loadBad? (first : Nat) : Nat → List (List Word) → Option Nat
  | _, [] => none
  | p, d :: r => match descBad? d ((first + p) % 2 ^ 32) with
    | some i => some (16 + 16 * p + i)
    | none => loadBad? first (p + 1) r

/-- Store descriptors from position `first` on, none of them loaded; positions stay ascending. -/
def putDescs (first : Nat) (ds : List (List Word)) (m : List (Nat × List Word)) : List (Nat × List Word) :=
  (m.filter fun p => p.1 < first) ++ (ds.zipIdx.map fun p => (first + p.2, p.1)) ++ m.filter fun p => !decide (p.1 < first)

/-- Extend a live one-shot instance by appended tasks (R89), whatever other live ranges its span then meets, and whether or not it has
been cancelled or contained (assumption 31). -/
def State.extendInst (s : State) (c i first span : Nat) (ds : List (List Word)) : State :=
  let s1 := s.updInst c i fun x => { x with
    span := max x.span span, frame := x.frame ++ s.takeFrames c (span - x.span),
    tasks := x.tasks ++ ds.zipIdx.map fun p => (first + p.2, { desc := p.1, count := Desc.depInit p.1 }) }
  ds.zipIdx.foldl (fun s p => s.countSet { ctx := c, inst := i, idx := first + p.2 } p.1) s1

/-- GRAPH_LOAD (R70 to R72, R89, R92). Of several failing conditions the graph's comes first, then the target positions', the
descriptors' and the room's (assumption 31). -/
def State.effGraphLoad (s : State) (q n : Nat) (w : List Word) : State :=
  let c := Op.ctx w
  let x := s.ctx c
  let gid := bits (wordAt w 3) 15 0
  let template := bit (wordAt w 3) 16
  let append := bit (wordAt w 3) 17
  let first := bits (wordAt w 2) 31 0
  let count := bits (wordAt w 2) 63 32
  let old := AL.get? gid x.graphs
  let live := x.liveOf gid
  let bad (d : Nat) : State := s.complete q n .badParam d
  if !append ∧ live ≠ 0 then bad 3
  else if append ∧ (old.map Graph.template) ≠ some template then bad 3
  else if append ∧ (old.getD {}).descs.any (fun p => decide (first ≤ p.1) && decide (p.1 < first + count)) then bad 2
  else
    let ds := (List.range count).map fun i => s.rdWords false ((wordAt w 1).toNat + 128 * i) 16
    match loadBad? first 0 ds with
    | some d => bad d
    | none =>
      let g0 : Graph := if append then old.getD {} else { template := template }
      let g : Graph := { g0 with descs := putDescs first ds g0.descs }
      let others := ((x.graphs.filter fun p => p.1 ≠ gid).map fun p => p.2.span).sum
      let inst := if append && !template then (x.insts.find? fun p => p.2.gid = gid) else none
      let grow := match inst with
        | some p => g.span - p.2.span
        | none => 0
      if !x.descRoom (others + g.span) ∨ x.frames < x.framesUsed + grow then s.complete q n .noResource 0
      else
        let s1 := s.storeGraph c gid g append first count
        let s2 := match inst with
          | some p => s1.extendInst c p.1 first g.span ds
          | none => s1
        s2.complete q n .ok 0

/-- The status of a failed check of R86, with the detail words of its opcode (Table 2.21). -/
def State.launchFail (s : State) (q n chk dGraph dRange : Nat) : State :=
  match chk with
  | 1 => s.complete q n .badParam dGraph
  | 2 => s.complete q n .badParam dRange
  | _ => s.complete q n .noResource 0

/-- Launch for a root command: launch number noted, watchdog running from `at_` (R88). -/
def State.rootLaunch (s : State) (q n c gid base count at_ : Nat) : State :=
  let (no, s1) := s.launch c gid base count { owner := some (q, n), at_ := at_ }
  (s1.updCmd q n fun x => { x with launch := no, watched := true, start := at_, stop0 := s.stopped c, posted := false }).rootCheck q n

/-- GRAPH_LAUNCH (R85, R86, R88). The result q of one that launches nothing because a check fails is not stated; the model gives 0
(R56, assumption 31). -/
def State.effGraphLaunch (s : State) (q n : Nat) (w : List Word) : State :=
  let c := Op.ctx w
  let gid := bits (wordAt w 1) 15 0
  let base := bits (wordAt w 2) 31 0
  match s.launchCount c (bit (wordAt w 1) 17) (bits (wordAt w (if bit (wordAt w 1) 17 then 4 else 3)) 31 0) with
  | none => s.complete q n .badParam 4
  | some count => match s.launchCheck c gid (bit (wordAt w 1) 16) base count with
    | 0 => s.rootLaunch q n c gid base count s.env.now
    | chk => s.launchFail q n chk 1 2

/-! ## Signals and waits -/

/-- SIGNAL: handed to the CTU (R124). -/
def State.effSignal (s : State) (q n : Nat) (w : List Word) : State :=
  let p := sigWord (wordAt w 1)
  s.push [.signal (Op.ctx w) p.1 p.2 { code := 1, arg := q } (some (q, n))]

/-- The CTU applies a signal; a SIGNAL or DELAY_POST that asked for it completes (R124, R126, R127). -/
def State.doSignal (s : State) (c v inc : Nat) (src : SigSrc) (cmd : Option (Nat × Nat)) : State :=
  if s.idLimit c ≤ v ∨ !s.defined c then s
  else s.withCtr c v src fun s =>
    let x := s.ctr c v
    if x.poison then s.completeOpt cmd .poisoned 0
    else (s.applySignal c v inc src).completeOpt cmd .ok (b2n (ctrMax < x.val + inc))

/-- The CTU poisons a counter (R127). -/
def State.doPoison (s : State) (c v : Nat) : State :=
  if s.idLimit c ≤ v ∨ !s.defined c then s else s.withCtr c v {} fun s => s.applyPoison c v

/-- WAIT: handed to the CTU (R125). -/
def State.effWait (s : State) (q n : Nat) : State := s.push [.waitCmd q n]

/-- The CTU takes the wait of a WAIT. -/
def State.waitCmd (s : State) (q n : Nat) : State := match s.cmd? q n with
  | none => s
  | some x =>
    let c := Op.ctx x.words
    let v := bits (wordAt x.words 1) 23 0
    s.withCtr c v { code := 1, arg := q } fun s => s.applyWait c v (wordAt x.words 2).toNat (.cmd q n)

/-- The CTU takes the wait of a CONTROL WAIT whose task still waits. -/
def State.waitCtl (s : State) (r : TaskRef) (cluster v expected : Nat) : State :=
  if (s.task? r).map Task.st = some .ctlWait then
    s.withCtr r.ctx v { code := 2, arg := s.effOf r } fun s => s.applyWait r.ctx v expected (.control r cluster)
  else s

/-- A WAIT is released (R52). -/
def State.waitReleased (s : State) (q n : Nat) (poisoned : Bool) : State := match s.cmd? q n with
  | none => s
  | some x =>
    if !poisoned then s.complete q n .ok 0
    else if Op.onPoison x.words then
      s.guilty q 8 (some n) [] 0 8 (bits (wordAt x.words 1) 23 0) (wordAt x.words 2).toNat
    else s.complete q n .poisoned 0

/-- SIGNAL_REMOTE (R141): every target a part. -/
def State.effSignalRemote (s : State) (q n : Nat) (w : List Word) : State :=
  let ts := s.remoteTargets w
  if ts.any targetBad then s.complete q n .badParam 1
  else
    (s.updCmd q n fun x => { x with parts := List.range ts.length }).push (ts.zipIdx.map fun p =>
      .trail { dest := bits p.1.1 9 0, inc := bits p.1.1 63 32, handle := p.1.2, sender := .part q n p.2 })

/-- PEER_WRITE (R54). -/
def State.effPeerWrite (s : State) (q n : Nat) (w : List Word) : State :=
  let w64 := bit (wordAt w 3) 0
  let a := (wordAt w 1).toNat
  if s.peerOk q (Op.ctx w) a (if w64 then 8 else 4) then
    let d := if w64 then wordAt w 2 else wd (bits (wordAt w 2) 31 0)
    ({ s with out := { s.out with peer := s.out.peer ++ [(a, d, w64)] } }).complete q n .ok 0
  else s.complete q n .denied 1

/-! ## The Carousel (R245 to R251) -/

/-- CAR_JOIN (R245). -/
def State.effCarJoin (s : State) (q n : Nat) (w : List Word) : State :=
  let c := Op.ctx w
  if (s.carFind c (wordAt w 1)).isSome then s.complete q n .badParam 1
  else match lowestFree s.env.dev.carSlots (s.car.slots.map Prod.fst) with
    | none => s.complete q n .noResource 0
    | some i => (s.setCarSlot i { st := .joining, ctx := c, id := wordAt w 1, dlOff := (wordAt w 2).toNat, kv := wordAt w 3 }).complete
        q n .ok i

/-- A slot is a member of its context's live step. -/
def State.inStep (s : State) (i : Nat) : Bool := match (s.carCtx (s.carSlot i).ctx).live with
  | some st => st.members.contains i
  | none => false

/-- CAR_LEAVE (R246). -/
def State.effCarLeave (s : State) (q n : Nat) (w : List Word) : State :=
  match s.carFind (Op.ctx w) (wordAt w 1) with
  | none => s.complete q n .badParam 1
  | some i =>
    let s1 := if s.inStep i then s.setCarSlot i { s.carSlot i with st := .leaving } else s.carFree i
    s1.complete q n .ok 0

/-- Entry words of a member in a step accepted at `t` (Table 10.8, R249). -/
def State.batchWords (s : State) (t i : Nat) : List Word :=
  let x := s.carSlot i
  [x.id, x.kv, wd (fld i 12 48 + fld x.epoch 16 32 + fld x.steps 32 0), wd (min ctrMax (t + x.dlOff)), 0, 0, 0, 0]

/-- CAR_STEP: steps 1 to 4 of Table 10.9; t is the time at which the CFE accepted it. The step is live to its completion, one
without a member too (R248), which blocks the other queues of its context (R40). One that ends NO_RESOURCE reports no member
(assumption 31). -/
def State.effCarStep (s : State) (q n : Nat) (w : List Word) : State :=
  let c := Op.ctx w
  let t := ((s.cmd? q n).map Cmd.start).getD s.env.now
  let gid := bits (wordAt w 1) 15 0
  let list := (wordAt w 2).toNat
  let h := s.rdWords false list 8
  let k := s.carCtx c
  let step := (k.step + 1) % 2 ^ 32
  let span := ((AL.get? gid (s.ctx c).graphs).map Graph.span).getD 0
  let base := (bits (wordAt h 1) 63 32 + step * span) % 2 ^ 32
  if !s.batchOk c h then s.complete q n .badParam 2
  else if s.launchCheck c gid true base 1 ≠ 0 then s.complete q n .badParam 1
  else
    let joining := s.carOf c .joining
    let members := (joining ++ s.carOf c .active).foldl (fun l i => insertNat i l) []
    let a := members.length
    if bits (wordAt h 0) 31 0 < a then s.complete q n .noResource 0
    else
      let epoch := step % 2 ^ 16
      let s1 := joining.foldl (fun s i => s.setCarSlot i { s.carSlot i with st := .active, epoch := epoch }) s
      let dl := match argMin (fun i => (s1.carSlot i).dlOff) members with
        | some i => min ctrMax (t + (s1.carSlot i).dlOff)
        | none => ctrMax
      let s2 := s1.wrWords false (list + 24) [wd (fld epoch 16 32 + fld a 32 0), wd step, wd dl]
      let s3 := members.zipIdx.foldl (fun s p => s.wrWords false (batchEntry list p.2) (s.batchWords t p.1)) s2
      let slot := bits (wordAt h 1) 31 0
      let s4 := if slot = 0xFFFFFFFF then s3 else
        let w0 := s3.rd64 (s3.tile c slot).addr
        s3.writeShape c slot { m := a, n := bits w0 31 16, k := bits w0 47 32, count := a }
      let s5 := s4.updCmd q n fun x => { x with launch := a }
      let live : LiveStep := { q := q, seq := n, list := list, inst := if a = 0 then none else some s5.gd.nextInst,
                               members := members, limit := bits (wordAt h 2) 31 0, ended := decide (a = 0) }
      let s6 := s5.setCarCtx c { step := step, epoch := epoch, live := some live }
      if a = 0 then s6.complete q n .ok 0
      else
        let s7 := (s6.updCmd q n fun x => { x with watched := true }).refreshAll
        (s7.launch c gid base 1 { owner := some (q, n), step := some step, stepDl := some dl, at_ := t }).2

/-! ## CANCEL (R59, R250, R251) -/

/-- A command that a CANCEL of scope 0 or 1 can target (Table 2.20). -/
def State.cancellable (s : State) (q : Nat) (p : Nat × Cmd) : Bool := match Op.code p.2.words with
  | 0x02 => true
  | 0x13 => p.2.posted || bit (wordAt p.2.words 2) 0
  | 0x12 => match (s.carCtx (Op.ctx p.2.words)).live with
    | some st => decide (st.q = q) && decide (st.seq = p.1) && !st.ended
    | none => false
  | _ => p.2.phase = .fwQueued

/-- The targets of a CANCEL of scope 0 (tag) or 1 (graph id). -/
def State.cancelTargets (s : State) (q n scope v : Nat) : List Nat :=
  ((s.queue q).cmds.filter fun p => p.1 ≠ n && s.cancellable q p &&
    (if scope = 0 then Op.tag p.2.words = v
     else (Op.code p.2.words = 0x02 || (Op.code p.2.words = 0x13 && bit (wordAt p.2.words 2) 0)) &&
       rootGraph p.2.words = v)).map Prod.fst

/-- Cancel one target (Table 2.20). -/
def State.cancelOne (s : State) (q m : Nat) : State := match s.cmd? q m with
  | none => s
  | some x =>
    if x.phase = .fwQueued ∨ x.posted then s.abortCmd q m .cancelled 0
    else if Op.code x.words = 0x12 then
      let c := Op.ctx x.words
      let k := s.carCtx c
      (s.setCarCtx c { k with live := k.live.map fun st => { st with cancelled := true } }).cancelRoot q m
    else s.cancelRoot q m

/-- CANCEL with scope 2: a sequence id (R250). -/
def State.cancelSeq (s : State) (q n : Nat) (w : List Word) : State :=
  match s.carFind (Op.ctx w) (wordAt w 2) with
  | none => s.complete q n .badParam 2
  | some i =>
    let x := s.carSlot i
    if s.inStep i then
      let s1 := s.setCarSlot i { x with st := .leaving, cancelled := true, cancels := x.cancels ++ [(q, n)] }
      match (s.carCtx x.ctx).live with
      | some st =>
        let a := batchEntry st.list (st.members.idxOf i) + 16
        s1.wr64 a (s1.rd64 a ||| wd (2 ^ 62))
      | none => s1
    else (s.carFree i).complete q n .ok 1

/-- CANCEL with scope 3: an epoch (R251). -/
def State.cancelEpoch (s : State) (q n : Nat) (w : List Word) : State :=
  let c := Op.ctx w
  let k := s.carCtx c
  match k.live with
  | some st =>
    if k.epoch = bits (wordAt w 2) 15 0 ∧ st.ended = false then
      (s.setCarCtx c { k with live := some { st with cancelled := true, cancels := st.cancels ++ [(q, n)] } }).cancelRoot st.q st.seq
    else s.complete q n .badParam 2
  | none => s.complete q n .badParam 2

/-- CANCEL. -/
def State.effCancel (s : State) (q n : Nat) (w : List Word) : State :=
  match bits (wordAt w 1) 1 0 with
  | 2 => s.cancelSeq q n w
  | 3 => s.cancelEpoch q n w
  | scope => match s.cancelTargets q n scope (bits (wordAt w 2) 15 0) with
    | [] => s.complete q n .badParam 2
    | ts => ts.foldl (fun s m => s.cancelOne q m) (s.updCmd q n fun x => { x with targets := ts })

/-! ## Delayed actions (R53, R108, R109) -/

/-- DELAY_POST: post the action (R53). -/
def State.effDelayPost (s : State) (q n : Nat) (w : List Word) : State :=
  let act : Action := if bit (wordAt w 2) 0 then
      .launch (bits (wordAt w 3) 15 0) (bits (wordAt w 4) 31 0) (bits (wordAt w 5) 31 0)
        (if bit (wordAt w 3) 16 then some (bits (wordAt w 5) 31 0) else none)
    else .signal (sigWord (wordAt w 3)).1 (sigWord (wordAt w 3)).2
  match s.postAction (Op.ctx w) { wake := (wordAt w 1).toNat, act := act, cmd := some (q, n) } with
  | none => s.complete q n .noResource 0
  | some s1 => s1.updCmd q n fun x => { x with posted := true }

/-- A posted launch at its wake. -/
def State.postedLaunch (s : State) (d : Delay) (gid base count : Nat) (slot : Option Nat) : State :=
  let cnt := match slot with
    | some i => (s.shape? d.ctx i).map Shape.count
    | none => some count
  match d.cmd with
  | some (q, n) =>
    let s1 := s.updCmd q n fun x => { x with posted := false }
    match cnt with
    | none => s1.complete q n .badParam 5
    | some k => match s.launchCheck d.ctx gid true base k with
      | 0 => s1.rootLaunch q n d.ctx gid base k d.wake
      | chk => s1.launchFail q n chk 3 4
  | none => match s.deviceLaunch d.ctx gid base cnt d.owner d.wake with
    | (true, _, s1) => s1
    | (false, _, s1) => s1.failPart d.owner d.cluster

/-- Perform one entry of the delay list: its frame entry is freed, and its root command may end (R53, R88, R109). A posted signal of
increment 0 counts as one (assumption 31). -/
def State.perform (s : State) (d : Delay) : State :=
  let s0 := s.delayDrop fun x => x = d
  let freed := s0.updCtx d.ctx fun x => { x with posted := x.posted - 1 }
  let endAct (s : State) : State := match d.owner with
    | some (q, n) => (s.updCmd q n fun y => { y with actions := y.actions - 1 }).rootCheck q n
    | none => s
  match d.act with
  | .task r => s0.retireTask r .normal none none
  | .signal v inc =>
    if d.cmd.isNone ∧ s.idLimit d.ctx ≤ v then endAct (freed.push [.faultCtx d.ctx 0x04 v 1 d.eff])
    else match d.cmd with
      | some (q, n) => (freed.updCmd q n fun x => { x with posted := false }).push [.signal d.ctx v inc { code := 1, arg := q } (some (q, n))]
      | none => endAct (freed.push [.signal d.ctx v inc { code := 2, arg := d.eff } none])
  | .launch gid base count slot => endAct (freed.postedLaunch d gid base count slot)

/-- An entry is due at boundary `k`: its wake time has come by then, and it entered the list before (R82, R109). -/
def Delay.due (d : Delay) (k : Nat) : Bool := decide (d.wake ≤ k * 1024) && decide (d.at_ < k * 1024)

/-- The GD reaches boundary `k`, no earlier than its time: every entry due is performed in list order, and `GD_TICK` reports it
(R109). -/
def State.tick (s : State) (k : Nat) : State :=
  let s0 := (s.at (k * 1024)).delayRefill k
  let s1 := (s0.delayList.filter fun d => d.due k).foldl State.perform s0
  { s1 with gd := { s1.gd with tick := max s1.gd.tick k } }

/-- The head of the delay list, if it is due at the last boundary before now and is of the kind asked for. -/
def State.dueHead? (s : State) (kind : Action → Bool) : Option Delay := match s.delayList with
  | d :: _ => if d.due (s.env.now / 1024) ∧ kind d.act then some d else none
  | [] => none

/-- Perform the head of the delay list when it is due and of this kind. -/
def State.wakeHead (s : State) (kind : Action → Bool) : State :=
  if s.gcs.changing ∨ !s.up then s
  else match s.dueHead? kind with
    | some d => (s.delayRefill (s.env.now / 1024)).perform d
    | none => s

end Sys2Proof.Machine
end

