-- ==== Sys2Proof/Machine/Manage.lean ====
section
/-!
DEFINITION. Effects of the firmware-path commands on contexts, counters, pools, flows and queues (07, R134, R120, R107, R66,
R146).
-/
namespace Sys2Proof.Machine

/-! ## CTX_CREATE (R165 to R168, R99, R139, R140) -/

/-- The generation mark of a context id. -/
def Tack.mark (t : Tack) (c : Nat) : Nat := (t.markBase + AL.get t.marks c) % 2 ^ 16

/-- The generation of the next CTX_CREATE of an id; a used-up lease advances its mark in the tack store first (R140). -/
def State.nextGen (s : State) (c : Nat) : Nat × State :=
  let use (s : State) (g : Nat) : Nat × State := (g, { s with fwc := { s.fwc with gens := AL.put c g s.fwc.gens } })
  match AL.get? c s.fwc.gens with
  | none => use s (s.tack.mark c)
  | some g =>
    let g' := (g + 1) % 2 ^ 16
    if g' = (s.tack.mark c + 256) % 2 ^ 16 then
      use (s.setTack { s.tack with marks := AL.upd s.tack.marks c fun m => (m + 256) % 2 ^ 16 }) g'
    else use s g'

/-- Every id's mark advances by 256, and each id goes on from its mark (R140, "Start"). -/
def State.advanceMarks (s : State) : State :=
  let s1 := s.setTack { s.tack with markBase := (s.tack.markBase + 256) % 2 ^ 16 }
  { s1 with fwc := { s1.fwc with gens := [] } }

/-- Paddock bytes left for contexts' reservations; none without a paddock (R99). -/
def State.paddockRoom (s : State) : Option Nat :=
  if !s.hasPaddock then none
  else some (2 ^ s.gd.spillLog - 4096 * s.rly.rings - ((s.definedList.map fun c => 48 * (s.ctx c).frames).sum))

/-- Active cores of the device. -/
def State.activeCores (s : State) : Nat := ((List.range (8 * s.env.dev.clusters)).filter s.coreOk).length

/-- Offset of the task-state slots in a save area (Table 7.3). -/
def State.slotsOffset (s : State) (frames slotLog : Nat) : Nat :=
  roundUp (waiterOffset frames + roundUp (16 * (frames + s.env.dev.queues + 8 * s.activeCores)) 4096) (2 ^ slotLog)

/-- The context that a CTX_CREATE defines (Table 7.2). -/
def State.newCtx (s : State) (q gen : Nat) (w : List Word) : Ctx :=
  let x := wordAt w
  { st := .waiting, cls := bits (x 1) 13 12, gen := gen, creator := if q = 0 then none else some (Op.ctx w),
    idLog := bits (x 1) 28 24, mapLog := bits (x 1) 20 16, gsBase := (x 2).toNat, gsSize := (x 3).toNat,
    slotLog := bits (x 4) 52 48, nslots := bits (x 4) 44 32, frames := bits (x 4) 31 0, saveBase := (x 5).toNat,
    slotBase := (x 5).toNat + s.slotsOffset (bits (x 4) 31 0) (bits (x 4) 52 48),
    ctBase := (x 6).toNat, mapBase := (x 7).toNat, stallNs := (x 8).toNat, quantumUs := bits (x 9) 31 0,
    traceBase := (x 10).toNat, traceLog := bits (x 11) 4 0, peerBase := (x 12).toNat, peerSize := (x 13).toNat,
    waitingAt := s.env.now }

/-- CTX_CREATE. -/
def State.effCtxCreate (s : State) (q n : Nat) (w : List Word) : State :=
  let c := bits (wordAt w 1) 11 0
  if s.defined c then s.complete q n .badParam 1
  else
    let need := 48 * bits (wordAt w 4) 31 0
    match s.paddockRoom with
    | none => s.complete q n .noResource 0
    | some room =>
      if room < need then s.complete q n .noResource 0
      else
        let (g, s1) := s.nextGen c
        let x := s1.newCtx q g w
        ((s1.setCtx c { x with pad := s1.takePad x.frames }).writeHeader c).complete q n .ok g

/-! ## CTX_DESTROY, CTX_SUSPEND, CTX_RESUME (R181) -/

/-- CTX_DESTROY. -/
def State.effCtxDestroy (s : State) (q n : Nat) (w : List Word) : State :=
  let c := bits (wordAt w 1) 11 0
  match (s.ctx c).st with
  | .free | .destroying => s.complete q n .badParam 1
  | _ => s.destroyStart c q n

/-- CTX_SUSPEND. A CTX_RESUME that still waits for the subject goes on waiting (R181, assumption 31). -/
def State.effCtxSuspend (s : State) (q n : Nat) (w : List Word) : State :=
  let c := bits (wordAt w 1) 11 0
  let mark (s : State) : State := s.updCtx c fun x => { x with suspCmd := x.suspCmd ++ [(q, n)], suspHold := true }
  match (s.ctx c).st with
  | .free | .faulted | .destroying => s.complete q n .badParam 1
  | .waiting => ((s.setCtxState c .suspended).updStop c).complete q n .ok 0
  | .suspended => s.complete q n .ok 0
  | .suspending => mark s
  | .resident => (mark s).suspendStart c

/-- CTX_RESUME. -/
def State.effCtxResume (s : State) (q n : Nat) (w : List Word) : State :=
  let c := bits (wordAt w 1) 11 0
  let ask (s : State) : State := s.updCtx c fun x => { x with resumeCmd := x.resumeCmd ++ [(q, n)], noResume := false }
  match (s.ctx c).st with
  | .free | .faulted | .destroying => s.complete q n .badParam 1
  | .resident => s.complete q n .ok 0
  | .waiting => (ask s).displace
  | .suspending => (ask s).updCtx c fun x => { x with suspHold := false }
  | .suspended =>
    let s1 := ((s.updCtx c fun x => { x with waitingAt := s.env.now }).setCtxState c .waiting).updStop c
    (ask s1).displace

/-! ## Counters, pools and flows -/

/-- Set the MAPPED and EXPORTED flags of a counter. -/
def State.setMapped (s : State) (c v : Nat) (mapped exported : Bool) : State :=
  s.setCtr c v { s.ctr c v with mapped := mapped, exported := exported }

/-- Make the counters of a list resident; the first that cannot be (R133). -/
def State.residentAll (s : State) (c : Nat) : List Nat → State ⊕ Nat
  | [] => .inl s
  | v :: r => match s.makeCtrResident c v with
    | some s1 => s1.residentAll c r
    | none => .inr v

/-- COUNTER_MAP (R134). Where an id cannot be made resident, the command has no effect and its context faults with NO_COUNTER
(R133), which completes it (R65). An UNMAP may make room for a context that a full mapping limit turned away (R171, R179). -/
def State.effCounterMap (s : State) (q n : Nat) (w : List Word) : State :=
  let c := Op.ctx w
  let first := bits (wordAt w 1) 23 0
  let exports := bit (wordAt w 1) 24
  let unmap := bit (wordAt w 1) 25
  let ids := (List.range (bits (wordAt w 2) 16 0)).map fun i => first + i
  let res (s : State) : State := s.updCmd q n fun x =>
    { x with result := if exports then mkHandle c first (s.ctx c).gen else 0 }
  if unmap then ((res (ids.foldl (fun s v => s.setMapped c v false false) s)).displace).complete q n .ok 0
  else
    let fresh := (ids.filter fun v => !(s.ctr c v).mapped).length
    if (s.ctx c).st.inPlace ∧ s.mapLimit < s.mappedResident + fresh then s.complete q n .noResource 0
    else
      let s1 := ids.foldl (fun s v => s.setMapped c v true (exports || (s.ctr c v).exported)) s
      if !(s.ctx c).st.inPlace then (res s1).complete q n .ok 0
      else match s1.residentAll c ids with
        | .inl s2 => (res s2).complete q n .ok 0
        | .inr v => s.push [.faultCtx c 0x04 v 2 ctrMax]

/-- TILE_POOL (R120, R57). -/
def State.effTilePool (s : State) (q n : Nat) (w : List Word) : State :=
  let c := Op.ctx w
  let slices := (List.range s.env.dev.slices).filter fun i => bit (wordAt w 1) i
  let k := (wordAt w 2).toNat / 32768
  let (s1, failed) := slices.foldl (fun (p : State × List Nat) sl =>
    let (ok, s') := p.1.reserve c sl k
    (s', if ok then p.2 else p.2 ++ [sl])) (s, [])
  let s2 := s1.updCmd q n fun x => { x with failed := failed }
  if failed = [] then s2.complete q n .ok 0
  else if failed.length = slices.length then s2.complete q n .noResource 0
  else s2.complete q n .partialOk failed.length

/-- FLOW_CONFIG (R107). -/
def State.effFlowConfig (s : State) (q n : Nat) (w : List Word) : State :=
  let k := (Op.ctx w, bits (wordAt w 1) 23 0)
  let f := s.flow k
  if bit (wordAt w 1) 24 then (s.setFlow k { f with pinned := false }).complete q n .ok 0
  else if !f.pinned && decide (32768 ≤ (s.gd.flows.filter fun p => p.2.pinned).length) then s.complete q n .noResource 0
  else ((s.setFlow k { f with pinned := true }).flowOnChip k).complete q n .ok 0

/-! ## Queue 0's management commands -/

/-- QUEUE_RESET (R66). -/
def State.effQueueReset (s : State) (q n : Nat) (w : List Word) : State :=
  let k := bits (wordAt w 1) 9 0
  let x := s.queue k
  let h : BitVec 32 := if bit (wordAt w 1) 16 then BitVec.ofNat 32 (wordAt w 2).toNat else x.tail
  if k = 0 ∨ s.env.dev.queues ≤ k ∨ x.st ≠ .guilty ∨ x.ctxStopped then s.complete q n .badParam 1
  else if (x.tail - x.head).toNat < (h - x.head).toNat then s.complete q n .badParam 2
  else s.resetStart k h (some n)

/-- Raise a counter of a halted context: 0 done, 1 not halted, 2 lower, 3 no such context, 5 id out of range (R146). -/
def State.debugSet (s : State) (c v new : Nat) : Nat × State :=
  if !s.defined c then (3, s)
  else if s.idLimit c ≤ v then (5, s)
  else if !(s.ctx c).halted then (1, s)
  else if new < (s.ctr c v).val then (2, s)
  else (0, s.handSet c v new)

/-- DEBUG_SET_COUNTER, at the instant the set is applied (R146, Table 2.21). -/
def State.effDebugSet (s : State) (q n : Nat) : State :=
  let w := ((s.cmd? q n).getD {}).words
  match s.debugSet (bits (wordAt w 1) 11 0) (bits (wordAt w 2) 23 0) (wordAt w 3).toNat with
  | (0, s1) => s1.complete q n .ok 0
  | (1, _) => s.complete q n .denied 1
  | (2, _) => s.complete q n .denied 3
  | (3, _) => s.complete q n .badParam 1
  | (_, _) => s.complete q n .badParam 2

/-- HEALTH_ACK (R345). -/
def State.effHealthAck (s : State) (q n : Nat) (w : List Word) : State :=
  ({ s with fsu := { s.fsu with newBits := s.fsu.newBits &&& ~~~(BitVec.ofNat 5 (bits (wordAt w 1) 20 16)) } }).complete q n .ok 0

/-- SEQ of a stud-book record. -/
def sbSeq (r : List Word) : Nat := (wordAt r 0).toNat

/-- A stud-book record's CRC-32C holds (R347). -/
def sbIntact (r : List Word) : Bool :=
  decide (crc32c ((r.take 7).flatMap wordBytes ++ (wordBytes (wordAt r 7)).take 4) = bits (wordAt r 7) 63 32)

/-- Records of the ring and the reserve together with SEQ at or above `first`, ascending, torn ones skipped (R351). -/
def State.sbFrom (s : State) (first n : Nat) : List (List Word) :=
  (((s.flash.ring ++ s.flash.reserve).filter fun r => decide (first ≤ sbSeq r) && sbIntact r).foldl
    (fun l r => insertBy (fun a b => decide (sbSeq a < sbSeq b)) r l) []).take n

/-- STUDBOOK_READ (R351): what is staged is flushed first and included. -/
def State.effStudbookRead (s : State) (q n : Nat) (w : List Word) : State :=
  let s1 := s.flushStudbook
  let rs := s1.sbFrom (wordAt w 1).toNat (wordAt w 2).toNat
  (s1.wrWords false (wordAt w 3).toNat (rs.flatMap fun r => r)).complete q n .ok rs.length

end Sys2Proof.Machine
end

