-- ==== Sys2Proof/Machine/Flags.lean ====
section
/-!
DEFINITION. Numbers of the Gating Engine and the IEEE 754 flags they raise (R213, R214, R220): formats, decoding, rounding,
arithmetic, comparison and conversion, each computed exactly and narrowed once.
A flag set is a number in `GE_FLAGS` bit order: 1 invalid, 2 divide-by-zero, 4 overflow, 8 underflow, 16 inexact.
-/
namespace Sys2Proof.Machine

/-! ## Formats (Table 9.2) -/

/-- A binary floating-point format. -/
structure FFmt where
  ebits : Nat
  mbits : Nat
  hasInf : Bool := true            -- E4M3 has no infinity
deriving DecidableEq, Repr, Inhabited

def fp64 : FFmt := { ebits := 11, mbits := 52 }
def fp32 : FFmt := { ebits := 8, mbits := 23 }
def bf16 : FFmt := { ebits := 8, mbits := 7 }
def fp16 : FFmt := { ebits := 5, mbits := 10 }
def e4m3 : FFmt := { ebits := 4, mbits := 3, hasInf := false }
def e5m2 : FFmt := { ebits := 5, mbits := 2 }

/-- How results are narrowed (w7 of Table 9.1): RND, FTZ, SAT. -/
structure Rnd where
  mode : Nat := 0
  ftz : Bool := false
  sat : Bool := false
deriving DecidableEq, Repr, Inhabited

/-- A value: a number is ±m × 2^e. -/
inductive FV where
  | nan (signalling : Bool)
  | inf (neg : Bool)
  | num (neg : Bool) (m : Nat) (e : Int)
deriving DecidableEq, Repr, Inhabited

/-- A result in some format, with the flags it raises. -/
abbrev Flagged := Nat × Nat

namespace FFmt

def bias (f : FFmt) : Int := 2 ^ (f.ebits - 1) - 1
/-- Exponent of the least normal number. -/
def emin (f : FFmt) : Int := 1 - f.bias
/-- Exponent of the last place of a subnormal number. -/
def qmin (f : FFmt) : Int := f.emin - f.mbits
/-- The sign, placed. -/
def sign (f : FFmt) (neg : Bool) : Nat := if neg then 2 ^ (f.ebits + f.mbits) else 0
/-- Infinity without its sign. -/
def infBits (f : FFmt) : Nat := (2 ^ f.ebits - 1) <<< f.mbits
/-- The canonical quiet NaN (R213). -/
def nanBits (f : FFmt) : Nat :=
  if f.hasInf then f.infBits + 2 ^ (f.mbits - 1) else f.infBits + 2 ^ f.mbits - 1
/-- The largest finite number. -/
def maxBits (f : FFmt) : Nat := if f.hasInf then f.infBits - 1 else f.infBits + 2 ^ f.mbits - 2

/-- The value of a bit pattern. -/
def decode (f : FFmt) (n : Nat) : FV :=
  let neg := n.testBit (f.ebits + f.mbits)
  let ex := (n >>> f.mbits) % 2 ^ f.ebits
  let fr := n % 2 ^ f.mbits
  if ex = 2 ^ f.ebits - 1 ∧ f.hasInf then if fr = 0 then .inf neg else .nan (!fr.testBit (f.mbits - 1))
  else if ex = 2 ^ f.ebits - 1 ∧ fr = 2 ^ f.mbits - 1 then .nan false
  else if ex = 0 then .num neg fr f.qmin
  else .num neg (fr + 2 ^ f.mbits) (ex - f.bias - f.mbits)

/-- An operand: with FTZ a subnormal one is zero of its sign (R213). -/
def operand (f : FFmt) (r : Rnd) (n : Nat) : FV := match f.decode n with
  | .num neg m e => if r.ftz ∧ m < 2 ^ f.mbits then .num neg 0 e else .num neg m e
  | v => v

end FFmt

/-! ## Rounding -/

/-- m / 2^k rounded to an integer under a mode; whether it is inexact. -/
def roundInt (mode : Nat) (neg : Bool) (m k : Nat) : Nat × Bool :=
  let r := m >>> k
  let rem := m % 2 ^ k
  let up := match mode with
    | 0 => decide (2 ^ k < 2 * rem) || (decide (2 * rem = 2 ^ k) && decide (r % 2 = 1))
    | 1 => false
    | 2 => !neg && decide (rem ≠ 0)
    | _ => neg && decide (rem ≠ 0)
  (if up then r + 1 else r, decide (rem ≠ 0))

/-- m × 2^e as a multiple of 2^q. -/
def roundAt (mode : Nat) (neg : Bool) (m : Nat) (e q : Int) : Nat × Bool :=
  if q ≤ e then (m * 2 ^ (e - q).toNat, false) else roundInt mode neg m (q - e).toNat

/-- What an overflow gives: an operation's result under IEEE 754, or a narrowing's (R213). -/
inductive OnOverflow where
  | operation
  | narrowing
deriving DecidableEq, Repr

/-- The pattern of an overflowing value. -/
def FFmt.overflow (f : FFmt) (r : Rnd) (o : OnOverflow) (neg : Bool) : Nat :=
  let toMax := match o with
    | .narrowing => r.sat
    | .operation => match r.mode with
      | 0 => false
      | 1 => true
      | 2 => neg
      | _ => !neg
  f.sign neg + if toMax then f.maxBits else if f.hasInf then f.infBits else f.nanBits

/-- ±m × 2^e rounded into a format, with overflow, underflow (detected after rounding) and inexact (R213). -/
def FFmt.round (f : FFmt) (r : Rnd) (o : OnOverflow) (neg : Bool) (m : Nat) (e : Int) : Flagged :=
  if m = 0 then (f.sign neg, 0)
  else
    let q0 := e + (Nat.log2 m : Int) - f.mbits
    let u := roundAt r.mode neg m e q0
    let tiny := decide (q0 + (if u.1 = 2 ^ (f.mbits + 1) then 1 else 0) < f.qmin)
    let q1 := max q0 f.qmin
    let v := roundAt r.mode neg m e q1
    let inexact := if v.2 then 16 else 0
    let (n, q) := if v.1 = 2 ^ (f.mbits + 1) then (2 ^ f.mbits, q1 + 1) else (v.1, q1)
    if n < 2 ^ f.mbits then
      if r.ftz then (f.sign neg, 24)
      else (f.sign neg + n, inexact + if tiny ∧ v.2 then 8 else 0)
    else
      let ex := q + f.mbits + f.bias
      let pattern := (ex.toNat <<< f.mbits) + (n - 2 ^ f.mbits)
      if f.maxBits < pattern then (f.overflow r o neg, 20)
      else (f.sign neg + pattern, inexact + if tiny ∧ v.2 then 8 else 0)

/-- A value with a remainder below its last place: two more places hold it. -/
def FFmt.roundSticky (f : FFmt) (r : Rnd) (neg : Bool) (m : Nat) (sticky : Bool) (e : Int) : Flagged :=
  f.round r .operation neg (4 * m + if sticky then 1 else 0) (e - 2)

/-! ## Arithmetic (Table 9.4; Table 9.6) -/

/-- A signed multiple of 2^e. -/
def signed (neg : Bool) (m : Nat) : Int := if neg then -(m : Int) else m

/-- An operand is a signalling NaN. -/
def FV.sig : FV → Bool
  | .nan s => s
  | _ => false

/-- An operand is NaN. -/
def FV.isNan : FV → Bool
  | .nan _ => true
  | _ => false

/-- A NaN result, from operands: invalid when one signals. -/
def FFmt.nanOf (f : FFmt) (signalling : Bool) : Flagged := (f.nanBits, if signalling then 1 else 0)

/-- Sum of two values. -/
def FFmt.addV (f : FFmt) (r : Rnd) (x y : FV) : Flagged := match x, y with
  | .nan _, _ | _, .nan _ => f.nanOf (x.sig || y.sig)
  | .inf a, .inf b => if a = b then (f.sign a + f.infBits, 0) else f.nanOf true
  | .inf a, _ => (f.sign a + f.infBits, 0)
  | _, .inf b => (f.sign b + f.infBits, 0)
  | .num a m e, .num b n g =>
    let q := min e g
    let t := signed a (m * 2 ^ (e - q).toNat) + signed b (n * 2 ^ (g - q).toNat)
    if t = 0 then (f.sign (if m = 0 ∧ n = 0 ∧ a = b then a else decide (r.mode = 3)), 0)
    else f.round r .operation (decide (t < 0)) t.natAbs q

/-- Negation of a value. -/
def FV.neg : FV → FV
  | .nan s => .nan s
  | .inf a => .inf (!a)
  | .num a m e => .num (!a) m e

/-- The exact product; none when it is invalid. -/
def FV.mul? : FV → FV → Option FV
  | .nan s, y => some (.nan (s || y.sig))
  | x, .nan s => some (.nan (s || x.sig))
  | .inf a, .inf b => some (.inf (a != b))
  | .inf a, .num b m _ => if m = 0 then none else some (.inf (a != b))
  | .num a m _, .inf b => if m = 0 then none else some (.inf (a != b))
  | .num a m e, .num b n g => some (.num (a != b) (m * n) (e + g))

/-- A value brought into the format, as the result of an operation. -/
def FFmt.ofV (f : FFmt) (r : Rnd) : FV → Flagged
  | .nan s => f.nanOf s
  | .inf a => (f.sign a + f.infBits, 0)
  | .num a m e => f.round r .operation a m e

def FFmt.mulV (f : FFmt) (r : Rnd) (x y : FV) : Flagged := match x.mul? y with
  | none => f.nanOf true
  | some v => f.ofV r v

/-- x × y + z with one rounding. -/
def FFmt.fmaV (f : FFmt) (r : Rnd) (x y z : FV) : Flagged := match x.mul? y with
  | none => f.nanOf true
  | some v => f.addV r v z

/-- Quotient: a finite number over zero raises divide-by-zero. -/
def FFmt.divV (f : FFmt) (r : Rnd) (x y : FV) : Flagged := match x, y with
  | .nan _, _ | _, .nan _ => f.nanOf (x.sig || y.sig)
  | .inf _, .inf _ => f.nanOf true
  | .inf a, .num b _ _ => (f.sign (a != b) + f.infBits, 0)
  | .num a _ _, .inf b => (f.sign (a != b), 0)
  | .num a m e, .num b n g =>
    if n = 0 then if m = 0 then f.nanOf true else (f.sign (a != b) + f.infBits, 2)
    else if m = 0 then (f.sign (a != b), 0)
    else
      let k := f.mbits + 4 + Nat.log2 n
      f.roundSticky r (a != b) (m * 2 ^ k / n) (decide (m * 2 ^ k % n ≠ 0)) (e - g - k)

/-- Integer square root, by bits `i` − 1 to 0. -/
def isqrt (n : Nat) : Nat → Nat → Nat
  | 0, r => r
  | i + 1, r => isqrt n i (if (r + 2 ^ i) * (r + 2 ^ i) ≤ n then r + 2 ^ i else r)

def FFmt.sqrtV (f : FFmt) (r : Rnd) : FV → Flagged
  | .nan s => f.nanOf s
  | .inf a => if a then f.nanOf true else (f.infBits, 0)
  | .num a m e =>
    if m = 0 then (f.sign a, 0)
    else if a then f.nanOf true
    else
      let e' := if e % 2 = 0 then e else e - 1
      let k := f.mbits + 4
      let n := (if e % 2 = 0 then m else 2 * m) * 2 ^ (2 * k)
      let s := isqrt n (Nat.log2 n / 2 + 1) 0
      f.roundSticky r false s (decide (s * s ≠ n)) (e' / 2 - k)

/-! ## Exponential and logarithm (R214) -/

/-- Fraction bits of the fixed-point values below. -/
def fxBits : Nat := 256

/-- The inverse hyperbolic tangent of a fixed-point number of at most 1/3. -/
def atanhFx (z : Nat) : Nat :=
  ((List.range 96).foldl (fun (p : Nat × Nat) i => (p.1 + p.2 / (2 * i + 1), (p.2 * z >>> fxBits) * z >>> fxBits)) (0, z)).1

/-- ln 2 in fixed point. -/
def ln2Fx : Nat := 2 * atanhFx (2 ^ fxBits / 3)

/-- ln (m × 2^e) of a number that is not zero, in fixed point. -/
def lnFx (m : Nat) (e : Int) : Int :=
  let k := Nat.log2 m
  let one := 2 ^ fxBits
  let f := (m <<< fxBits) >>> k
  (e + k) * ln2Fx + 2 * atanhFx ((f - one) * one / (f + one))

/-- A number as a fixed-point integer, toward minus infinity; one too large for any format's exponential stands at 2^14. -/
def toFx (neg : Bool) (m : Nat) (e : Int) : Int :=
  if (14 : Int) < e + Nat.log2 m then signed neg (2 ^ (14 + fxBits))
  else
    let v := m * 2 ^ (e + fxBits).toNat
    let k := (-(e + fxBits)).toNat
    if neg then -(((v + 2 ^ k - 1) / 2 ^ k : Nat) : Int) else max 1 ((v / 2 ^ k : Nat) : Int)

/-- e to a fixed-point number: c × 2^k with c of `fxBits` fraction bits. -/
def expFx (x : Int) : Nat × Int :=
  let k := x / (ln2Fx : Int)
  let r := (x - k * ln2Fx).toNat
  let one := 2 ^ fxBits
  let p := (List.range 64).foldl (fun (p : Nat × Nat) i =>
    let t := (p.2 * r >>> fxBits) / (i + 1)
    (p.1 + t, t)) (one, one)
  (p.1, k - fxBits)

/-- e to a finite number that is not zero, as ±m × 2^e. -/
def expOf : FV → Bool × Nat × Int
  | .num neg m e => let y := expFx (toFx neg m e); (false, y.1, y.2)
  | _ => (false, 0, 0)

/-- ln of a finite number above zero and not 1, as ±m × 2^e. -/
def logOf : FV → Bool × Nat × Int
  | .num _ m e => let y := lnFx m e; (decide (y < 0), y.natAbs, -(fxBits : Int))
  | _ => (false, 0, 0)

/-- A result within 2 ulp of ±m × 2^e: `pick` chooses among the two values that enclose it and the next on either side. Its flags,
and an overflow, are those of the rounded value. -/
def FFmt.nearby (f : FFmt) (r : Rnd) (pick : Nat) (neg : Bool) (m : Nat) (e : Int) : Flagged :=
  let y := f.round r .operation neg m e
  if y.2.testBit 2 then y
  else
    let low := (f.round { mode := 1 } .operation false m e).1
    let n := min (low + pick % 4 - 1) f.maxBits
    if r.ftz ∧ n < 2 ^ f.mbits then (f.sign neg, 24) else (f.sign neg + n, y.2)

/-! ## Comparison -/

/-- Order of two values, −0 and +0 equal; none when one is NaN. -/
def FV.cmp? : FV → FV → Option Ordering
  | .nan _, _ | _, .nan _ => none
  | .inf a, .inf b => some (if a = b then .eq else if a then .lt else .gt)
  | .inf a, _ => some (if a then .lt else .gt)
  | _, .inf b => some (if b then .gt else .lt)
  | .num a m e, .num b n g =>
    let q := min e g
    some (compare (signed a (m * 2 ^ (e - q).toNat)) (signed b (n * 2 ^ (g - q).toNat)))

/-- The sign of a value. -/
def FV.isNeg : FV → Bool
  | .nan _ => false
  | .inf a => a
  | .num a _ _ => a

/-- IEEE 754 maximum (`true`) or minimum of two patterns: NaN propagates, −0 < +0 (Table 9.4). -/
def FFmt.maxMin (f : FFmt) (r : Rnd) (isMax : Bool) (a b : Nat) : Flagged :=
  let x := f.operand r a
  let y := f.operand r b
  let pat (v : FV) : Nat := (f.ofV r v).1
  match x.cmp? y with
  | none => f.nanOf (x.sig || y.sig)
  | some o =>
    let xLess := o = .lt || (o = .eq && x.isNeg && !y.isNeg)
    (pat (if xLess = isMax then y else x), 0)

/-! ## Conversion (R213) -/

/-- From one floating-point format to another. -/
def FFmt.convert (f g : FFmt) (r : Rnd) (n : Nat) : Flagged := match f.operand r n with
  | .nan _ => (g.nanBits, 0)
  | .inf a => (if g.hasInf then g.sign a + g.infBits else g.overflow r .narrowing a, 0)
  | .num a m e => g.round r .narrowing a m e

/-- An integer into a floating-point format. -/
def FFmt.ofInt (g : FFmt) (r : Rnd) (i : Int) : Flagged := g.round r .narrowing (decide (i < 0)) i.natAbs 0

/-- A value to an integer between bounds, rounded by `mode`: out of range saturates, NaN gives 0, each with invalid; a
non-integral value raises inexact. -/
def FV.toInt (mode : Nat) (lo hi : Int) : FV → Int × Nat
  | .nan _ => (0, 1)
  | .inf a => (if a then lo else hi, 1)
  | .num a m e =>
    let v := roundAt mode a m e 0
    let i := signed a v.1
    let x := if v.2 then 16 else 0
    if i < lo then (lo, x ||| 1) else if hi < i then (hi, x ||| 1) else (i, x)

/-- A pattern of `n` bits as a signed integer. -/
def asInt (n v : Nat) : Int := (BitVec.ofNat n v).toInt

/-- A signed integer as a pattern of `n` bits. -/
def ofInt (n : Nat) (i : Int) : Nat := (BitVec.ofInt n i).toNat

/-! ## Memory formats (Table 9.2) -/

/-- A memory format: floating point, or a signed integer of so many bits. -/
inductive MFmt where
  | float (f : FFmt)
  | int (n : Nat)
deriving DecidableEq, Repr

/-- FMT values of Table 9.2. -/
def mfmt? : Nat → Option MFmt
  | 0 => some (.float fp64) | 1 => some (.float fp32) | 2 => some (.float bf16) | 3 => some (.float fp16)
  | 4 => some (.float e4m3) | 5 => some (.float e5m2) | 8 => some (.int 32) | 9 => some (.int 16) | 10 => some (.int 8)
  | _ => none

/-- Bytes of an element of a FMT. -/
def fmtBytes (c : Nat) : Nat := match c with
  | 0 => 8 | 1 | 8 => 4 | 2 | 3 | 9 => 2 | _ => 1

/-- Lane formats: 0 F32, 1 F64, 2 I32. -/
def laneFmt? : Nat → Option FFmt
  | 0 => some fp32
  | 1 => some fp64
  | _ => none

/-- Bits of a lane. -/
def laneBits (l : Nat) : Nat := if l = 1 then 64 else 32

/-- CONVERT: a memory pattern into a lane. -/
def toLane (l : Nat) (m : MFmt) (r : Rnd) (n : Nat) : Flagged := match m, laneFmt? l with
  | .float f, some g => f.convert g r n
  | .float f, none => let x := (f.operand r n).toInt r.mode (-(2 ^ 31)) (2 ^ 31 - 1); (ofInt 32 x.1, x.2)
  | .int k, some g => g.ofInt r (asInt k n)
  | .int k, none => (ofInt 32 (asInt k n), 0)

/-- An integer into a memory format. An integer too large for an integer format saturates with SAT; without it the manual
states no result (none). -/
def intToMem (m : MFmt) (r : Rnd) (i : Int) : Option Nat × Nat := match m with
  | .float f => let x := f.ofInt r i; (some x.1, x.2)
  | .int k =>
    if -(2 ^ (k - 1) : Int) ≤ i ∧ i < 2 ^ (k - 1) then (some (ofInt k i), 0)
    else if r.sat then (some (ofInt k (if i < 0 then -(2 ^ (k - 1)) else 2 ^ (k - 1) - 1)), 4)
    else (none, 4)

/-- EMIT: a lane into a memory format; none as for `intToMem`. -/
def fromLane (l : Nat) (m : MFmt) (r : Rnd) (n : Nat) : Option Nat × Nat := match laneFmt? l, m with
  | some f, .float g => let x := f.convert g r n; (some x.1, x.2)
  | some f, .int k =>
    let x := (f.operand r n).toInt r.mode (-(2 ^ (k - 1))) (2 ^ (k - 1) - 1)
    (some (ofInt k x.1), x.2)
  | none, m => intToMem m r (asInt 32 n)

end Sys2Proof.Machine
end

