-- ==== Sys2Proof/Machine/Pass.lean ====
section
/-!
DEFINITION. The pass of a Gating Engine (R209 to R221, R231 to R239): the configuration block and its checks, operands, element
programs, SCAN, SELECT, EMIT and REDUCE. A pass is computed from the state at its end; its writes are a list in order.
-/
namespace Sys2Proof.Machine

/-! ## The configuration block (Table 9.1) -/

namespace Cfg
def trap (b : List Word) : Nat := bits (wordAt b 0) 58 54
def stage (b : List Word) (i : Nat) : Bool := bit (wordAt b 0) (48 + i)
def convert (b : List Word) : Bool := stage b 0
def element (b : List Word) : Bool := stage b 1
def scan (b : List Word) : Bool := stage b 2
def select (b : List Word) : Bool := stage b 3
def emit (b : List Word) : Bool := stage b 4
def reduce (b : List Word) : Bool := stage b 5
def lane (b : List Word) : Nat := bits (wordAt b 0) 46 45
def cols (b : List Word) : Nat := bits (wordAt b 0) 44 32
def rows (b : List Word) : Nat := bits (wordAt b 0) 31 0
def rnd (b : List Word) : Rnd := { mode := bits (wordAt b 7) 1 0, ftz := bit (wordAt b 7) 3, sat := bit (wordAt b 7) 2 }
def maskEn (b : List Word) : Bool := bit (wordAt b 8) 18
def mp (b : List Word) : Nat := bits (wordAt b 8) 17 16
def k (b : List Word) : Nat := if element b then bits (wordAt b 8) 15 12 else 0
def v (b : List Word) : Nat := if element b then bits (wordAt b 8) 11 8 else 0
def n (b : List Word) : Nat := bits (wordAt b 8) 5 0
def scanMode (b : List Word) : Nat := bits (wordAt b 9) 1 0
def capFactor (b : List Word) : Nat := bits (wordAt b 10) 39 24
def capEn (b : List Word) : Bool := bit (wordAt b 10) 23
def noDrop (b : List Word) : Bool := bit (wordAt b 10) 22
def dedup (b : List Word) : Bool := bit (wordAt b 10) 21 && bits (wordAt b 10) 3 0 = 1
def buckets (b : List Word) : Nat := bits (wordAt b 10) 20 8
def ksel (b : List Word) : Nat := bits (wordAt b 10) 7 4
def mode (b : List Word) : Nat := bits (wordAt b 10) 3 0
/-- Bucket count NB (R231). -/
def nb (b : List Word) : Nat := if mode b = 0 then cols b else buckets b
/-- Element instruction `i`. -/
def insn (b : List Word) (i : Nat) : Nat := bits (wordAt b (16 + i / 2)) (32 * (i % 2) + 31) (32 * (i % 2))
/-- Words of EMIT port `p`. -/
def port (b : List Word) (p : Nat) : Word := wordAt b (11 + p)
def kind (b : List Word) (p : Nat) : Nat := bits (port b p) 15 12
def efmt (b : List Word) (p : Nat) : Nat := bits (port b p) 11 8
def out (b : List Word) (p : Nat) : Nat := bits (port b p) 5 0
def offset (b : List Word) (p : Nat) : Nat := bits (port b p) 47 24
def zeroFill (b : List Word) (p : Nat) : Bool := bit (port b p) 16
def redOp (b : List Word) (c : Nat) : Nat := bits (wordAt b (13 + c)) 2 0
def redSrc (b : List Word) (c : Nat) : Nat := bits (wordAt b (13 + c)) 7 4
/-- NODROP overflow goes to port 1 (R236). -/
def split (b : List Word) : Bool := noDrop b && capEn b && kind b 0 = 4 && kind b 1 = 4
/-- Bytes that a port writes for a row (Table 9.5). -/
def rowBytes (b : List Word) (p : Nat) : Nat := fmtBytes (efmt b p) * match kind b p with
  | 1 => cols b
  | 2 | 3 => ksel b
  | _ => 1
/-- Distance between a port's rows (R218). -/
def rowStep (b : List Word) (p : Nat) : Nat :=
  if bits (port b p) 63 48 = 0 then rowBytes b p else 64 * bits (port b p) 63 48
/-- A port writes row by row: DENSE, TOPK_IDX, TOPK_VAL, ROWRED. -/
def rowKind (b : List Word) (p : Nat) : Bool := kind b p = 1 || kind b p = 2 || kind b p = 3 || kind b p = 6
/-- Outputs that a port names, from OUT on. -/
def outSpan (b : List Word) (p : Nat) : Nat := match kind b p with
  | 4 => nb b
  | 5 => if dedup b then 3 else 2
  | _ => 1
end Cfg

/-- Bits of each word of a block that are not reserved. -/
def cfgMask (i : Nat) : Nat := match i with
  | 0 => 0x07FF7FFFFFFFFFFF
  | 2 | 4 | 6 => 0x00FCFFFFFFFFFFFF
  | 7 => 0xF
  | 8 => 0x7FF3F
  | 9 => 3
  | 10 => 0xFFFFFFFFFF
  | 11 | 12 => 0xFFFFFFFFFF01FF3F
  | 13 | 14 => 0xF7
  | 15 => 0
  | _ => allBits

/-- What a pass of a running task works on: bindings, sizes of the outputs. -/
structure PassIo where
  inB : List Word := []
  outB : List Word := []
  sizes : List Nat := []           -- SIZE of each output

/-- An element instruction's operation code. -/
def eOp (i : Nat) : Nat := i >>> 26

/-- An element instruction is defined for the lane format (Table 9.4). -/
def insnOk (lane i : Nat) : Bool :=
  let op := eOp i
  decide (op ≤ 0x17) && !(lane = 2 && [0x04, 0x06, 0x0B, 0x0C].contains op) &&
    !(op = 0x0E && i % 8 = 7) && !(op = 0x12 && decide (3 < i % 128))

/-- An operand word pair is in order (R211, R212, R213). -/
def operandOk (b : List Word) (io : PassIo) (k : Nat) : Bool :=
  let base := wordAt b (1 + 2 * k)
  let w := wordAt b (2 + 2 * k)
  !bit w 55 ||
    ((mfmt? (bits w 53 50)).isSome &&
      (Cfg.convert b || 8 * fmtBytes (bits w 53 50) = laneBits (Cfg.lane b)) &&
      (!bit w 54 || (decide (bits base 63 40 = 0) && decide (bits base 7 0 < io.inB.length) &&
        bit (wordAt io.inB (bits base 7 0)) 49)))

/-- An EMIT port is in order (R211, R218, R232). -/
def portOk (b : List Word) (io : PassIo) (p : Nat) : Bool :=
  let kind := Cfg.kind b p
  kind = 0 ||
    (decide (kind ≤ 6) && (mfmt? (Cfg.efmt b p)).isSome &&
      !((kind = 4 || kind = 5) && Cfg.efmt b p ≠ 8) &&
      !(kind = 2 && Cfg.efmt b p ≠ 8 && Cfg.efmt b p ≠ 9) &&
      !(kind = 5 && (Cfg.mode b = 0 || (Cfg.noDrop b && Cfg.capEn b))) &&
      decide (Cfg.out b p + Cfg.outSpan b p ≤ io.outB.length) &&
      (!Cfg.rowKind b p ||
        decide (Cfg.offset b p + (Cfg.rows b - 1) * Cfg.rowStep b p + Cfg.rowBytes b p ≤ io.sizes.getD (Cfg.out b p) 0)))

/-- The block passes every check that RUN makes (R221). Fields of a bypassed stage may hold any value of their width
(assumption 29). -/
def cfgOk (b : List Word) (io : PassIo) : Bool :=
  (List.range 16).all (fun i => (wordAt b i).toNat &&& (allBits - cfgMask i) = 0) &&
  decide (Cfg.lane b ≤ 2) && decide (1 ≤ Cfg.cols b) && decide (Cfg.cols b ≤ 4096) && decide (1 ≤ Cfg.rows b) &&
  (List.range 3).all (operandOk b io) &&
  (!Cfg.element b || (decide (1 ≤ Cfg.n b) && decide (Cfg.n b ≤ 32) &&
    (List.range (Cfg.n b)).all fun i => insnOk (Cfg.lane b) (Cfg.insn b i))) &&
  (!Cfg.select b || (decide (Cfg.mode b ≤ 1) &&
    (Cfg.mode b ≠ 0 || (decide (1 ≤ Cfg.ksel b) && decide (Cfg.ksel b ≤ 8) && decide (Cfg.ksel b ≤ Cfg.cols b) &&
      decide (Cfg.cols b ≤ 1024))) &&
    (Cfg.mode b ≠ 1 || (decide (Cfg.lane b = 2) && decide (1 ≤ Cfg.buckets b) && decide (Cfg.buckets b ≤ 4096))) &&
    !(Cfg.capEn b && (Cfg.capFactor b = 0 || bit (wordAt b 10) 21)))) &&
  (!Cfg.emit b || (portOk b io 0 && portOk b io 1 &&
    !(Cfg.noDrop b && Cfg.capEn b && Cfg.kind b 0 = 4 && Cfg.kind b 1 ≠ 4))) &&
  (!Cfg.reduce b || (decide (Cfg.redOp b 0 ≤ 6) && decide (Cfg.redOp b 1 ≤ 6)))

/-! ## Lane arithmetic -/

/-- Operations on lanes of a format. -/
structure Lanes where
  l : Nat := 0
  r : Rnd := {}

def Lanes.bin (x : Lanes) (f : FFmt → Rnd → FV → FV → Flagged) (i : Int → Int → Int) (a b : Nat) : Flagged :=
  match laneFmt? x.l with
  | some g => f g x.r (g.operand x.r a) (g.operand x.r b)
  | none => (ofInt 32 (i (asInt 32 a) (asInt 32 b)), 0)

def Lanes.add (x : Lanes) : Nat → Nat → Flagged := x.bin FFmt.addV (· + ·)
def Lanes.sub (x : Lanes) : Nat → Nat → Flagged := x.bin (fun f r a b => f.addV r a b.neg) (· - ·)
def Lanes.mul (x : Lanes) : Nat → Nat → Flagged := x.bin FFmt.mulV (· * ·)

/-- Division; integers truncate, and a divisor of 0 gives 0 with divide-by-zero. -/
def Lanes.div (x : Lanes) (a b : Nat) : Flagged :=
  if x.l = 2 ∧ b = 0 then (0, 2) else x.bin FFmt.divV Int.tdiv a b

def Lanes.maxMin (x : Lanes) (isMax : Bool) (a b : Nat) : Flagged := match laneFmt? x.l with
  | some g => g.maxMin x.r isMax a b
  | none => (if decide (asInt 32 a < asInt 32 b) = isMax then b else a, 0)

/-- Order of two lanes; none when unordered. -/
def Lanes.cmp? (x : Lanes) (a b : Nat) : Option Ordering := match laneFmt? x.l with
  | some g => (g.operand x.r a).cmp? (g.operand x.r b)
  | none => some (compare (asInt 32 a) (asInt 32 b))

/-- A lane is NaN. -/
def Lanes.nan (x : Lanes) (a : Nat) : Bool := match laneFmt? x.l with
  | some g => (g.decode a).isNan
  | none => false

/-- The ranking of R217: whether `a` ranks above `b`; NaN ranks below every number. -/
def Lanes.above (x : Lanes) (a b : Nat) : Bool := match x.nan a, x.nan b with
  | false, true => true
  | true, _ => false
  | _, _ => x.cmp? a b = some .gt

/-- A small constant in a lane. -/
def Lanes.const (x : Lanes) (n : Nat) : Flagged := match laneFmt? x.l with
  | some g => g.ofInt x.r n
  | none => (ofInt 32 n, 0)

/-! ## Element programs (R214, Tables 9.3, 9.4) -/

/-- The registers of a lane. -/
structure Lane where
  r : Nat := 0
  c : Nat := 0
  v : List Nat := []               -- v0 to v15
  p : List Bool := [true, false, false, false]
  flags : Nat := 0
  masked : Bool := false

/-- The results that IEEE 754 fixes for e^x: a NaN, the infinities and a zero (Table 9.4, assumption 12). -/
def expSpecial (g : FFmt) : FV → Option Flagged
  | .nan s => some (g.nanOf s)
  | .inf neg => some (if neg then 0 else g.infBits, 0)
  | .num _ m _ => if m = 0 then some ((g.ofInt {} 1).1, 0) else none

/-- The results that IEEE 754 fixes for ln x: a NaN, the infinities, a zero, a negative number and 1 (Table 9.4, assumption 12). -/
def logSpecial (g : FFmt) : FV → Option Flagged
  | .nan s => some (g.nanOf s)
  | .inf neg => some (if neg then g.nanOf true else (g.infBits, 0))
  | .num neg m e =>
    if m = 0 then some (g.sign true + g.infBits, 2)
    else if neg then some (g.nanOf true)
    else if FV.cmp? (.num false m e) (.num false 1 0) = some .eq then some (0, 0)
    else none

/-- e^x and ln x of a lane: the results that IEEE 754 fixes, else one within 2 ulp of the value `exact` gives (R214). The manual
does not say which one: `pick` does, the same for the same operand. -/
def expLog (x : Lanes) (special : FFmt → FV → Option Flagged) (exact : FV → Bool × Nat × Int)
    (pick : Nat → Nat → Word → BitVec 2) (a : Nat) : Flagged := match laneFmt? x.l with
  | some g =>
    let v := g.operand x.r a
    (special g v).getD (let y := exact v; g.nearby x.r (pick (laneBits x.l) x.r.mode (wd a)).toNat y.1 y.2.1 y.2.2)
  | none => (a, 0)

/-- Condition `c` of CMP. -/
def cmpCond (o : Option Ordering) (c : Nat) : Bool := match c, o with
  | 0, o => o = some .eq
  | 1, o => o ≠ some .eq
  | 2, o => o = some .lt
  | 3, o => o = some .lt || o = some .eq
  | 4, o => o = some .gt
  | 5, o => o = some .gt || o = some .eq
  | _, o => o = none

/-- One element instruction: a register or a predicate of the lane, and flags. -/
def elemStep (x : Lanes) (s : Lane) (i : Nat) : Lane :=
  let w := wd i
  let d := bits w 25 22
  let a := s.v.getD (bits w 21 18) 0
  let b := s.v.getD (bits w 17 14) 0
  let c := s.v.getD (bits w 13 10) 0
  let pa := s.p.getD (bits w 19 18) false
  let pb := s.p.getD (bits w 15 14) false
  let imm := i % 128
  let n := laneBits x.l
  let top := 2 ^ (n - 1)
  let go := !bit w 9 || s.p.getD (bits w 8 7) false
  let reg (y : Flagged) : Lane := if go then { s with v := s.v.set d y.1, flags := s.flags ||| y.2 } else s
  let pred (y : Bool) (f : Nat) : Lane := if go then { s with p := s.p.set (d % 4) y, flags := s.flags ||| f } else s
  match eOp i with
  | 0x01 => reg (x.add a b)
  | 0x02 => reg (x.sub a b)
  | 0x03 => reg (x.mul a b)
  | 0x04 => match laneFmt? x.l with
    | some g => reg (g.fmaV x.r (g.operand x.r a) (g.operand x.r b) (g.operand x.r c))
    | none => s
  | 0x05 => reg (x.div a b)
  | 0x06 => match laneFmt? x.l with
    | some g => reg (g.sqrtV x.r (g.operand x.r a))
    | none => s
  | 0x07 => reg (x.maxMin true a b)
  | 0x08 => reg (x.maxMin false a b)
  | 0x09 => reg (if x.l = 2 then ofInt 32 (asInt 32 a).natAbs else a % top, 0)
  | 0x0A => reg (if x.l = 2 then ofInt 32 (-(asInt 32 a)) else a ^^^ top, 0)
  | 0x0B => reg (expLog x expSpecial expOf Config.expLane a)
  | 0x0C => reg (expLog x logSpecial logOf Config.logLane a)
  | 0x0D => reg (if s.p.getD (imm % 4) false then a else b, 0)
  | 0x0E =>
    let o := x.cmp? a b
    let cond := imm % 8
    pred (cmpCond o cond) (if 2 ≤ cond ∧ cond ≤ 5 ∧ o = none then 1 else 0)
  | 0x0F => pred (pa && pb) 0
  | 0x10 => pred (pa || pb) 0
  | 0x11 => pred (!pa) 0
  | 0x12 => reg (x.const (match imm with
    | 0 => s.r
    | 1 => s.c
    | 2 => 0
    | _ => 1))
  | 0x13 => reg (a &&& b, 0)
  | 0x14 => reg (a ||| b, 0)
  | 0x15 => reg (a ^^^ b, 0)
  | 0x16 => reg ((a <<< (imm % 64)) % 2 ^ n, 0)
  | 0x17 => reg (a >>> (imm % 64), 0)
  | _ => s

/-! ## LOAD and CONVERT (R212, R213) -/

/-- An access to `n` bytes at `a` that the memory system refuses (assumption 11). -/
def State.refuses (s : State) (a n : Nat) : Bool :=
  s.env.refused.any fun p => decide (a < p.1 + p.2) && decide (p.1 < a + n)

/-- Whether two runs of bytes meet. -/
def runsMeet (p q : Nat × Nat) : Bool := decide (p.1 < q.1 + q.2) && decide (q.1 < p.1 + p.2)

/-- The bytes that element (r, c) of operand `k` is read from; none for an absent operand and for an empty input (R212). -/
def elemAt? (b : List Word) (io : PassIo) (k r c : Nat) : Option (Nat × Nat) :=
  let base := wordAt b (1 + 2 * k)
  let w := wordAt b (2 + 2 * k)
  let n := fmtBytes (bits w 53 50)
  let bind := wordAt io.inB (bits base 7 0)
  let org := if bit w 54 then bits bind 47 0 + bits base 39 8 else base.toNat
  if !bit w 55 || (bit w 54 && !bit bind 48) then none
  else some (addr (org + r * bits w 31 0 + c * bits w 47 32 * n), n)

/-- Element (r, c) of operand `k`: its lane pattern and flags; none when the access is refused. A location that the pass
writes, one of `ts`, reads as a free value (R209). -/
def State.loadElem (s : State) (b : List Word) (io : PassIo) (ts : List (Nat × Nat)) (k r c : Nat) : Option Flagged :=
  let fmt := bits (wordAt b (2 + 2 * k)) 53 50
  match elemAt? b io k r c with
  | none => some (0, 0)
  | some (a, n) =>
    if s.refuses a n then none
    else
      let raw := if ts.any fun t => runsMeet (a, n) t then
          (Config.freeValue (8 * n) (s.freeCount + 3 * (r * Cfg.cols b + c) + k)).toNat
        else leNat (s.rdBytes false a n)
      match mfmt? fmt with
      | some m => some (if Cfg.convert b then toLane (Cfg.lane b) m (Cfg.rnd b) raw else (raw, 0))
      | none => some (0, 0)

/-- An element that DEDUP leaves out (R239). -/
def dedupOut (b : List Word) (l : Lane) : Bool :=
  Cfg.select b && Cfg.dedup b && decide (l.v.getD (Cfg.v b) 0 = 0xFFFFFFFF)

/-- The lane of element (r, c) after LOAD, CONVERT and ELEMENT; masked by the predicate (R215) or by DEDUP (R239). -/
def State.laneAt (s : State) (b : List Word) (io : PassIo) (ts : List (Nat × Nat)) (r c : Nat) : Option Lane :=
  match s.loadElem b io ts 0 r c, s.loadElem b io ts 1 r c, s.loadElem b io ts 2 r c with
  | some x, some y, some z =>
    let l : Lane := { r := r, c := c, v := [x.1, y.1, z.1] ++ List.replicate 13 0, flags := x.2 ||| y.2 ||| z.2 }
    let l1 := if Cfg.element b then
        (List.range (Cfg.n b)).foldl (fun l i => elemStep { l := Cfg.lane b, r := Cfg.rnd b } l (Cfg.insn b i)) l
      else l
    some { l1 with masked := (Cfg.maskEn b && !l1.p.getD (Cfg.mp b) false) || dedupOut b l1 }
  | _, _, _ => none

/-- The lanes of the pass in row-major order, up to a refused access; whether one was refused. -/
def State.lanesFrom (s : State) (b : List Word) (io : PassIo) (ts : List (Nat × Nat)) : Nat → Nat → List Lane × Bool
  | 0, _ => ([], false)
  | n + 1, i => match s.laneAt b io ts (i / Cfg.cols b) (i % Cfg.cols b) with
    | none => ([], true)
    | some l => let r := s.lanesFrom b io ts n (i + 1); (l :: r.1, r.2)

/-! ## SCAN (R216) -/

/-- One position of a running sum: S, the sum after it, and flags. -/
def scanStep (x : Lanes) (excl : Bool) (run : Option Nat) (v : Nat) (masked : Bool) : Nat × Option Nat × Nat :=
  if masked then (run.getD 0, run, 0)
  else
    let y : Flagged := match run with
      | none => (v, 0)
      | some a => x.add a v
    (if excl then run.getD 0 else y.1, some y.1, y.2)

/-- S of every lane in row-major order, and flags; running sums are kept by row or by column. -/
def scanAll (b : List Word) (x : Lanes) (ls : List Lane) : List Nat × Nat :=
  let byCol := decide (2 ≤ Cfg.scanMode b)
  let r := ls.foldl (fun (p : List (Nat × Nat) × List Nat × Nat) l =>
    let key := if byCol then l.c else l.r
    let st := scanStep x (Cfg.scanMode b % 2 = 1) (AL.get? key p.1) (l.v.getD (Cfg.v b) 0) l.masked
    ((match st.2.1 with
      | some v => AL.put key v p.1
      | none => p.1), p.2.1 ++ [st.1], p.2.2 ||| st.2.2)) ([], [], 0)
  r.2

/-! ## SELECT (R217, R231 to R235, R239) -/

/-- An assignment: bucket, position, score, row and rank in its row (Table 10.1). -/
structure Assign where
  bucket : Nat
  pos : Nat
  score : Nat
  row : Nat := 0
  rank : Nat := 0
deriving DecidableEq, Repr, Inhabited

/-- Columns of a row by rank, the lower column first among equals. -/
def rankRow (x : Lanes) (v : Nat) (ls : List Lane) : List Lane :=
  ls.foldl (fun acc l => insertBy (fun a b => x.above (a.v.getD v 0) (b.v.getD v 0)) l acc) []

/-- The assignments of the pass. -/
def assigns (b : List Word) (x : Lanes) (ls : List Lane) : List Assign :=
  let live := ls.filter fun l => !l.masked
  if !Cfg.select b then []
  else if Cfg.mode b = 0 then
    (List.range (Cfg.rows b)).flatMap fun r =>
      ((rankRow x (Cfg.v b) (live.filter fun l => l.r = r)).take (Cfg.ksel b)).zipIdx.map fun p =>
        { bucket := p.1.c, pos := r, score := p.1.v.getD (Cfg.v b) 0, row := r, rank := p.2 }
  else live.map fun l =>
    { bucket := l.v.getD (Cfg.k b) 0, pos := l.r * Cfg.cols b + l.c, score := l.v.getD (Cfg.v b) 0, row := l.r }

/-- Flags of SELECT: invalid for each NaN ranked (R217). -/
def selectFlags (b : List Word) (x : Lanes) (ls : List Lane) : Nat :=
  if Cfg.select b && Cfg.mode b = 0 && ls.any (fun l => !l.masked && x.nan (l.v.getD (Cfg.v b) 0)) then 1 else 0

/-- The first lane whose key is not a bucket (R217). -/
def badKey? (b : List Word) (ls : List Lane) : Option Nat :=
  if Cfg.select b && Cfg.mode b = 1 then
    ls.findIdx? fun l => !l.masked && decide (Cfg.buckets b ≤ l.v.getD (Cfg.k b) 0)
  else none

/-- Capacity C (R233). -/
def capacity (b : List Word) (t : Nat) : Nat :=
  (Cfg.capFactor b * t + 256 * Cfg.nb b - 1) / (256 * Cfg.nb b)

/-- The assignments of bucket `i` in order of rank (R234), and how many are kept. -/
def bucketSplit (b : List Word) (x : Lanes) (as : List Assign) (i : Nat) : List Assign × List Assign :=
  let mine := as.filter fun a => a.bucket = i
  if !Cfg.capEn b then (mine, [])
  else
    let c := capacity b as.length
    let ranked := mine.foldl (fun acc a => insertBy (fun a b => x.above a.score b.score) a acc) []
    let kept := ranked.take c
    (mine.filter fun a => kept.contains a, mine.filter fun a => !kept.contains a)

/-! ## REDUCE (R219, Table 9.16) -/

/-- A value of a REDUCE channel. -/
structure Red where
  v : Nat := 0                     -- lane pattern, count, 64-bit sum or pattern
  idx : Option Nat := none         -- ARGMAX: index of the best
deriving DecidableEq, Repr, Inhabited

/-- The identity of an operation (Table 9.16). -/
def redId (x : Lanes) (op : Nat) : Red := match op, laneFmt? x.l with
  | 1, some g => { v := g.sign true }
  | 2, some g => { v := g.sign true + g.infBits }
  | 3, some g => { v := g.infBits }
  | 2, none => { v := 2 ^ 31 }
  | 3, none => { v := 2 ^ 31 - 1 }
  | _, _ => {}

/-- Combine two values, the left one earlier. -/
def redOp2 (x : Lanes) (op : Nat) (a b : Red) : Red × Nat := match op with
  | 1 => if x.l = 2 then ({ v := (a.v + b.v) % 2 ^ 64 }, 0) else let y := x.add a.v b.v; ({ v := y.1 }, y.2)
  | 2 => let y := x.maxMin true a.v b.v; ({ v := y.1 }, y.2)
  | 3 => let y := x.maxMin false a.v b.v; ({ v := y.1 }, y.2)
  | 4 => match a.idx, b.idx with
    | none, _ => (b, 0)
    | some _, none => (a, 0)
    | some _, some _ => (if x.above b.v a.v then b else a, 0)
  | 5 => ({ v := a.v + b.v }, 0)
  | 6 => ({ v := a.v ||| b.v }, 0)
  | _ => ({}, 0)

/-- What a lane contributes, and the flag of a NaN in the ranking of ARGMAX. -/
def redOf (b : List Word) (x : Lanes) (op src : Nat) (l : Lane) : Red × Nat :=
  let v := l.v.getD src 0
  if l.masked then (redId x op, 0)
  else match op with
    | 1 => ({ v := if x.l = 2 then (sext 32 v).toNat else v }, 0)
    | 4 => ({ v := v, idx := some (l.r * Cfg.cols b + l.c) }, if x.nan v then 1 else 0)
    | 5 => ({ v := match laneFmt? x.l with
        | some g => (match g.operand x.r v with
          | .num _ 0 _ => 0
          | _ => 1)
        | none => if v = 0 then 0 else 1 }, 0)
    | _ => ({ v := v }, 0)

/-- Combine pairs, then pairs of the results, `n` times. -/
def redTree (x : Lanes) (op : Nat) : Nat → List Red × Nat → List Red × Nat
  | 0, p => p
  | n + 1, p =>
    let q := (List.range (p.1.length / 2)).foldl (fun (acc : List Red × Nat) i =>
      let y := redOp2 x op (p.1.getD (2 * i) {}) (p.1.getD (2 * i + 1) {})
      (acc.1 ++ [y.1], acc.2 ||| y.2)) ([], p.2)
    redTree x op n q

/-- A block of at most 32 columns as a balanced tree over 32 positions. -/
def redBlock (x : Lanes) (op : Nat) (l : List Red) : Red × Nat :=
  let p := redTree x op 5 (l ++ List.replicate (32 - l.length) (redId x op), 0)
  (p.1.headD {}, p.2)

/-- Combine one at a time, in order. -/
def redSeq (x : Lanes) (op : Nat) : List Red → Red × Nat
  | [] => (redId x op, 0)
  | a :: r => r.foldl (fun (p : Red × Nat) y => let z := redOp2 x op p.1 y; (z.1, p.2 ||| z.2)) (a, 0)

/-- A row's result. -/
def redRow (x : Lanes) (op : Nat) (l : List Red) : Red × Nat :=
  let bs := (List.range ((l.length + 31) / 32)).map fun i => redBlock x op ((l.drop (32 * i)).take 32)
  let p := redSeq x op (bs.map Prod.fst)
  (p.1, bs.foldl (fun f y => f ||| y.2) p.2)

/-- A channel over the first `n` rows: row results, the result of the pass, and flags. -/
def redAll (b : List Word) (x : Lanes) (ch n : Nat) (ls : List Lane) : List Red × Red × Nat :=
  let op := Cfg.redOp b ch
  let src := Cfg.redSrc b ch
  let of' (r : Nat) : List (Red × Nat) := (ls.filter fun l => l.r = r).map (redOf b x op src)
  let rows := (List.range n).map fun r =>
    let vs := of' r
    let p := redRow x op (vs.map Prod.fst)
    (p.1, vs.foldl (fun f y => f ||| y.2) p.2)
  let p := redSeq x op (rows.map Prod.fst)
  (rows.map Prod.fst, p.1, rows.foldl (fun f y => f ||| y.2) p.2)

/-- A result as a summary item (Table 9.7). -/
def redWord (x : Lanes) (op : Nat) (v : Red) : Word := match op with
  | 4 => match v.idx with
    | some i => wd i
    | none => wd ctrMax
  | 1 | 2 | 3 => match x.l with
    | 0 => wd (fp32.convert fp64 {} v.v).1
    | 1 => wd v.v
    | _ => if op = 1 then wd v.v else sext 32 v.v
  | _ => wd v.v

/-! ## EMIT (R218, R236, R237) -/

/-- A number of `n` bytes, lowest byte first. -/
def leBytes (n v : Nat) : List Byte := (List.range n).map fun i => BitVec.ofNat 8 (v >>> (8 * i))

/-- A write of a port: output index, byte offset in its tile, bytes. -/
structure Emit where
  out : Nat
  off : Nat
  data : List Byte
  port : Nat := 0
deriving DecidableEq, Repr, Inhabited

/-- The result of a row of ROWRED, or an integer, in the port's format. -/
def redEmit (x : Lanes) (m : MFmt) (op : Nat) (v : Red) : Option Nat × Nat :=
  if op = 4 ∨ op = 5 ∨ (op = 1 ∧ x.l = 2) then intToMem m x.r (redWord x op v).toInt
  else fromLane x.l m x.r v.v

/-- Writes of a row-by-row port, and their flags (Table 9.5). `free` numbers the free values of results that the manual does
not state. -/
def emitRows (b : List Word) (x : Lanes) (p : Nat) (free n0 : Nat) (ls : List Lane) (sc : List Nat) (as : List Assign)
    (reds : List Red) : List Emit × Nat :=
  let fmt := Cfg.efmt b p
  let n := fmtBytes fmt
  let m := (mfmt? fmt).getD (.int 32)
  let start (r : Nat) : Nat := Cfg.offset b p + r * Cfg.rowStep b p
  let put (r i : Nat) (y : Option Nat × Nat) : Emit × Nat :=
    ({ out := Cfg.out b p, off := start r + i * n, port := p,
       data := leBytes n (y.1.getD (Config.freeValue (8 * n) (free + r * 4096 + i)).toNat) }, y.2)
  let kept (a : Assign) : Bool := Cfg.noDrop b || (bucketSplit b x as a.bucket).1.contains a
  let all : List (Emit × Nat) := match Cfg.kind b p with
    | 1 => (ls.zip (if Cfg.scan b then sc else ls.map fun l => l.v.getD (Cfg.v b) 0)).map fun q =>
        put q.1.r q.1.c (if q.1.masked then (some 0, 0) else fromLane x.l m x.r q.2)
    | 2 => (List.range n0).flatMap fun r => (List.range (Cfg.ksel b)).map fun i =>
        put r i (match as.find? fun a => a.row = r && a.rank = i && kept a with
          | some a => (some a.bucket, 0)
          | none => (some (2 ^ (8 * n) - 1), 0))
    | 3 => (List.range n0).flatMap fun r => (List.range (Cfg.ksel b)).map fun i =>
        put r i (match as.find? fun a => a.row = r && a.rank = i && kept a with
          | some a => fromLane x.l m x.r a.score
          | none => (some 0, 0))
    | 6 => (reds.take n0).zipIdx.map fun q =>
        if Cfg.reduce b && Cfg.redOp b 0 ≠ 0 then put q.2 0 (redEmit x m (Cfg.redOp b 0) q.1) else put q.2 0 (none, 0)
    | _ => []
  (all.map Prod.fst, all.foldl (fun f y => f ||| y.2) 0)

/-- Entries of a bucket: positions, or distinct values in order of first occurrence (R234, R239). -/
def entriesOf (b : List Word) (as : List Assign) : List Nat :=
  if Cfg.dedup b then (as.map Assign.score).eraseDups else as.map Assign.pos

/-- Writes of LISTS: a token list for each bucket. -/
def emitLists (b : List Word) (x : Lanes) (p : Nat) (as : List Assign) : List Emit :=
  (List.range (Cfg.nb b)).flatMap fun i =>
    let sp := bucketSplit b x as i
    let es := entriesOf b (if Cfg.split b && p = 1 then sp.2 else if Cfg.noDrop b && !Cfg.split b then as.filter fun a => a.bucket = i
      else sp.1)
    let o := Cfg.offset b p
    { out := Cfg.out b p + i, off := o, port := p, data := leBytes 8 es.length } ::
      es.zipIdx.map fun q => { out := Cfg.out b p + i, off := o + 8 + 4 * q.2, port := p, data := leBytes 4 q.1 }

/-- Padded length P(n). -/
def padLen (n : Nat) : Nat := (n + 63) / 64 * 64

/-- Writes of PACKED (Table 10.3). -/
def emitPacked (b : List Word) (x : Lanes) (p : Nat) (ls : List Lane) (as : List Assign) : List Emit :=
  let groups := (List.range (Cfg.nb b)).map fun i => entriesOf b (bucketSplit b x as i).1
  let starts := groups.foldl (fun (acc : List Nat × Nat) g => (acc.1 ++ [acc.2], acc.2 + padLen g.length)) ([], 0)
  let o := Cfg.offset b p
  let put (k off n v : Nat) : Emit := { out := Cfg.out b p + k, off := o + off, port := p, data := leBytes n v }
  let table := put 0 0 8 (Cfg.nb b + starts.2 * 2 ^ 32) ::
    groups.zipIdx.map fun q => put 0 (8 + 8 * q.2) 8 (q.1.length + (starts.1.getD q.2 0) * 2 ^ 32)
  let list := (groups.flatMap fun g => g ++ List.replicate (padLen g.length - g.length) 0xFFFFFFFF).zipIdx.map fun q =>
    put 1 (4 * q.2) 4 q.1
  let inv := if Cfg.dedup b then ls.zipIdx.map fun q =>
      let v := q.1.v.getD (Cfg.v b) 0
      let i := q.1.v.getD (Cfg.k b) 0
      put 2 (4 * q.2) 4 (if q.1.masked then 0xFFFFFFFF
        else starts.1.getD i 0 + (groups.getD i []).idxOf v)
    else []
  table ++ list ++ inv

/-! ## The whole pass -/

/-- What a pass leaves. -/
structure PassOut where
  flags : Nat := 0
  sums : List (Nat × Word) := []
  writes : List Emit := []
  free : Nat := 0                  -- free values used
  access : Bool := false           -- an access was refused
  config : Bool := false           -- a data-dependent configuration error (R221)
  partly : Bool := false           -- how many of the writes were made is open
deriving DecidableEq, Repr, Inhabited

/-- The address of a write. -/
def Emit.addr (io : PassIo) (e : Emit) : Nat := bits (wordAt io.outB e.out) 47 0 + e.off

/-- The writes up to the first that a list's or packed form's tile has no room for, or that is refused. -/
def State.cutWrites (s : State) (io : PassIo) : List Emit → List Emit × Nat
  | [] => ([], 0)
  | e :: r =>
    if io.sizes.getD e.out 0 < e.off + e.data.length then ([], 3)
    else if s.refuses (e.addr io) e.data.length then ([], 2)
    else let p := s.cutWrites io r; (e :: p.1, p.2)

/-- Flags that the first `k` elements raise (R220): in LOAD, CONVERT, ELEMENT, SCAN, SELECT and DENSE emission each of its own; in
REDUCE and in the emission of a row's selection or result at the row's last element (assumption 29). -/
def flagsTo (b : List Word) (ls : List Lane) (k : Nat) : Nat :=
  let x : Lanes := { l := Cfg.lane b, r := Cfg.rnd b }
  let l := ls.take k
  let n := k / Cfg.cols b
  let scn := if Cfg.scan b then scanAll b x l else ([], 0)
  let red (c : Nat) : List Red × Red × Nat := if Cfg.reduce b then redAll b x c n l else ([], {}, 0)
  let as := assigns b x ls
  let port (p : Nat) : Nat := if Cfg.emit b then (emitRows b x p 0 n l scn.1 as (red 0).1).2 else 0
  l.foldl (fun f e => f ||| e.flags) (scn.2 ||| selectFlags b x l ||| (red 0).2.2 ||| (red 1).2.2 ||| port 0 ||| port 1)

/-- The element at which a trapped flag stops the pass (R220). -/
def trapAt? (b : List Word) (ls : List Lane) (trap : Nat) : Option Nat :=
  if flagsTo b ls ls.length &&& trap = 0 then none
  else (List.range ls.length).find? fun k => flagsTo b ls (k + 1) &&& trap ≠ 0

/-- Run a pass whose reads of `ts` are open (R209). A trapped flag stops it at the element that raises it (R220), and so do a
refused access and a key that is no bucket (R221). -/
def State.passOn (s : State) (b : List Word) (io : PassIo) (trap : Nat) (ts : List (Nat × Nat)) : PassOut :=
  let x : Lanes := { l := Cfg.lane b, r := Cfg.rnd b }
  let total := Cfg.rows b * Cfg.cols b
  let (ls0, refused0) := s.lanesFrom b io ts total 0
  let key := badKey? b ls0
  let ls1 := match key with
    | some i => ls0.take i
    | none => ls0
  let cut := trapAt? b ls1 (trap ||| Cfg.trap b)
  let refused := refused0 && key.isNone && cut.isNone
  let stop := key.isSome && cut.isNone
  let ls := match cut with
    | some i => ls1.take (i + 1)
    | none => ls1
  let whole := !refused && !stop && cut.isNone
  let as := if whole then assigns b x ls else []
  let scn := if Cfg.scan b then scanAll b x ls else ([], 0)
  let red (c : Nat) : List Red × Red × Nat := if Cfg.reduce b && whole then redAll b x c (Cfg.rows b) ls else ([], {}, 0)
  let r0 := red 0
  let r1 := red 1
  let rows0 := if Cfg.reduce b then r0.1 else List.replicate (Cfg.rows b) {}
  let free0 := s.freeCount + 3 * total
  let port (p : Nat) : List Emit :=
    if !Cfg.emit b then []
    else if whole || Cfg.kind b p = 1 then (emitRows b x p (free0 + p * 4096 * Cfg.rows b) (Cfg.rows b) ls scn.1 as rows0).1 else []
  let lists (p : Nat) : List Emit :=
    if !Cfg.emit b || !whole then []
    else match Cfg.kind b p with
      | 4 => emitLists b x p as
      | 5 => emitPacked b x p ls as
      | _ => []
  let flags := flagsTo b ls1 ls.length
  let (ws, code) := s.cutWrites io (port 0 ++ port 1 ++ lists 0 ++ lists 1)
  let splits := (List.range (Cfg.nb b)).map fun i => bucketSplit b x as i
  let dropped := if Cfg.noDrop b then 0 else (splits.map fun p => p.2.length).sum
  let empty := ((List.range (min (Cfg.nb b) 64)).filter fun i => (splits.getD i ([], [])).1 = []).foldl (fun n i => n + 2 ^ i) 0
  { flags := flags
    sums := [(0, redWord x (Cfg.redOp b 0) r0.2.1), (1, redWord x (Cfg.redOp b 1) r1.2.1), (2, wd flags),
      (4, wd (if Cfg.select b then dropped else 0)), (5, wd (ls.filter fun l => !l.masked).length),
      (6, wd (if Cfg.select b then empty else 0))]
    writes := ws
    free := 3 * total + 2 * 4096 * Cfg.rows b
    access := refused || code = 2
    config := stop || code = 3
    partly := refused || stop || flags &&& (trap ||| Cfg.trap b) ≠ 0 }

/-- Make writes. -/
def State.emitAll (s : State) (io : PassIo) (ws : List Emit) : State :=
  ws.foldl (fun s e => s.wrBytes false (e.addr io) e.data) s

/-- Occupancy of the outputs that a pass wrote: 0 only for an output that ZERO_FILL ports alone wrote, all zero, in this pass
and before (R218). -/
def passOuts (b : List Word) (old : List (Nat × Bool)) (ws : List Emit) : List (Nat × Bool) :=
  ws.foldl (fun l e => AL.upd l e.out fun occ =>
    occ || !Cfg.zeroFill b e.port || e.data.any fun y => decide (y ≠ 0)) old

/-- Address and SIZE of output `i`'s tile. -/
def PassIo.tileOf (io : PassIo) (i : Nat) : Nat × Nat := (bits (wordAt io.outB i) 47 0, io.sizes.getD i 0)

/-- Tiles of the all-zero outputs that a pass wrote: their rest is zeroed (R218). -/
def zeroTiles (io : PassIo) (ws : List Emit) (outs : List (Nat × Bool)) : List (Nat × Nat) :=
  (outs.filter fun p => !p.2 && ws.any fun e => e.out = p.1).map fun p => io.tileOf p.1

/-- Zero tiles. -/
def State.zeroRest (s : State) (ts : List (Nat × Nat)) : State :=
  ts.foldl (fun s t => s.wrBytes false t.1 (List.replicate t.2 0)) s

/-- The bytes that a pass writes. -/
def PassOut.wrote (o : PassOut) (b : List Word) (io : PassIo) (old : List (Nat × Bool)) : List (Nat × Nat) :=
  (o.writes.map fun e => (e.addr io, e.data.length)) ++ zeroTiles io o.writes (passOuts b old o.writes)

/-- Some element is read from `new` and not from `ts`. -/
def readsNew (b : List Word) (io : PassIo) (ts new : List (Nat × Nat)) : Bool :=
  (List.range (Cfg.rows b * Cfg.cols b)).any fun i => (List.range 3).any fun k =>
    match elemAt? b io k (i / Cfg.cols b) (i % Cfg.cols b) with
    | none => false
    | some a => !(ts.any fun t => runsMeet a t) && new.any fun t => runsMeet a t

/-- Run a pass (R209): what it writes may follow from what it reads, so the locations whose reads are open are found by running it
with those known so far. After `n` rounds the tiles whose extent follows from the data count as written whole. -/
def State.pass (s : State) (b : List Word) (io : PassIo) (trap : Nat) (old : List (Nat × Bool)) : Nat → List (Nat × Nat) → PassOut
  | 0, ts => s.passOn b io trap (ts ++ ([0, 1].filter fun p => Cfg.emit b && Cfg.kind b p ≠ 0).flatMap fun p =>
      (List.range (Cfg.outSpan b p)).map fun i => io.tileOf (Cfg.out b p + i))
  | n + 1, ts =>
    let o := s.passOn b io trap ts
    let new := o.wrote b io old
    if readsNew b io ts new then s.pass b io trap old n (ts ++ new) else o

end Sys2Proof.Machine
end

