-- ==== Sys2Proof/Machine/Gating.lean ====
section
/-!
DEFINITION. The Gating Engine's control core (R207, R222 to R227): the start and the ends of a GATE task, its instructions, and
GE_PROGRAM_LOAD. Each row carries the operands of the instruction that the control core executes (assumption 29).
-/
namespace Sys2Proof.Machine

/-! ## Registers -/

/-- Scalar register `n`; s0 reads as zero (R222). -/
def GeRun.reg (y : GeRun) (n : Nat) : Word := if n = 0 then 0 else AL.get y.regs n

/-- Write a scalar register; a write to s0 is discarded (R222). -/
def GeRun.setReg (y : GeRun) (n : Nat) (v : Word) : GeRun := if n = 0 then y else { y with regs := AL.put n v y.regs }

/-- Bindings of a running task, and the sizes of its outputs. -/
def State.geIo (s : State) (y : GeRun) : PassIo :=
  let r := y.e.ref
  let hs := match s.inst? r.ctx r.inst, s.task? r with
    | some x, some t => s.outputs t.desc x.base
    | _, _ => []
  { inB := y.inB, outB := y.outB, sizes := hs.map fun h => (s.tile r.ctx h).size }

/-- The root command of a task's instance. -/
def State.ownerOf (s : State) (r : TaskRef) : Option (Nat × Nat) := (s.inst? r.ctx r.inst).bind Inst.owner

/-! ## Ends of a GATE task (Table 9.8) -/

/-- The record GE_TRAP: cause, region with task flags, instruction index (Table 15.3). -/
def State.geRecord (s : State) (g : Nat) (y : GeRun) (cause : Nat) : State :=
  s.err { unit := 6, inst := g, cls := 2, code := 0x0F, ctx := some y.e.ref.ctx, a := cause,
          b := g + fld y.flags 5 8, c := y.pc }

/-- END 0: the task retires normally, with the occupancy of what it wrote (R113, R218). -/
def State.geDone (s : State) (g : Nat) : State := match (s.ge g).run with
  | none => s
  | some y =>
    let r := y.e.ref
    let hs := match s.inst? r.ctx r.inst, s.task? r with
      | some x, some t => s.outputs t.desc x.base
      | _, _ => []
    let outs := y.outs.map fun p => (hs.getD p.1 0, p.2)
    let s1 := (outs.map Prod.fst).eraseDups.foldl (fun s h =>
      s.setTile r.ctx h { s.tile r.ctx h with occ := outs.any fun p => decide (p.1 = h) && p.2 }) s
    (s1.geLeave g).retireTask r .normal (some g) none

/-- A task that retires failed, under a cause (3 CONFIG, 4 ILLEGAL, 6 LAUNCH) or by END 1 (0). A failed LAUNCH counts as a
task lost in the engine's cluster (R81). -/
def State.geFail (s : State) (g cause : Nat) : State := match (s.ge g).run with
  | none => s
  | some y =>
    let r := y.e.ref
    let s1 := if cause = 0 then s else s.geRecord g y cause
    let s2 := if cause = 6 then s1.failPart (s1.ownerOf r) (if g < 18 then g else s1.homeOf y.e) else s1
    (s2.geLeave g).retireTask r .failed (some g) none

/-- A task that a flag (1) or a refused access (2) stops: its context faults with GE_TRAP (R177). -/
def State.geTrap (s : State) (g cause : Nat) : State := match (s.ge g).run with
  | none => s
  | some y => (s.geRecord g y cause).push [.faultQuiet y.e.ref.ctx 0x0F]

/-- The 64-byte line of the instruction at `pc`, as the instruction cache tags it (R226). -/
def GeRun.line (y : GeRun) (pc : Nat) : Nat × Nat × Nat := (y.e.ref.ctx, y.pid, (y.prog + 8 * pc) / 64 * 64)

/-- A line enters the 16 KiB instruction cache; the oldest leaves a full one (R226, assumption 31). -/
def Ge.fetch (k : Ge) (t : Nat × Nat × Nat) : Ge :=
  if k.icache.contains t then k else { k with icache := k.icache.drop (k.icache.length - 255) ++ [t] }

/-- The next instruction is at `pc`; outside the program it is illegal (R222). Its line is fetched on a miss (R226); a refused
fetch stops the task. -/
def State.geNext (s : State) (g : Nat) (y : GeRun) (pc : Nat) : State :=
  let k := { s.ge g with run := some { y with pc := pc } }
  let s1 := s.setGe g k
  if y.count ≤ pc then s1.geFail g 4
  else if !k.icache.contains (y.line pc) && s.refuses (y.line pc).2.2 64 then s1.geTrap g 2
  else s.setGe g (k.fetch (y.line pc))

/-! ## Start (R207, R226) -/

/-- A task starts with program `p`: its registers and bindings (R222). -/
def State.geEnter (s : State) (g : Nat) (e : Entry) (x : Inst) (t : Task) (p : Nat × Nat) : State :=
  let c := e.ref.ctx
  let pid := bits (Desc.entry t.desc) 7 0
  let step : Word := match x.step with
    | some n => wd n
    | none => wd ctrMax
  let y : GeRun := {
    e := e, prog := p.1, count := p.2, pid := pid, startAt := s.env.now,
    regs := [(1, wd (Desc.operands t.desc)), (2, wd x.base), (3, wd x.num), (4, step), (5, wd (effIdx x e.ref.idx))],
    inB := (s.inputs t.desc x.base).map fun h => binding (s.tile c h) true,
    outB := (s.outputs t.desc x.base).map fun h => binding (s.tile c h) false }
  let k := s.ge g
  let s1 := (s.updTask e.ref fun t => { t with ran := true }).setGe g { k with queue := k.queue.filter fun z => z.ref ≠ e.ref, run := some y }
  (s1.trace e.ref 2 (some g) none).geNext g y 0

/-- GE_TASK_START: a free engine starts the task with the earliest key whose context is not halted; its outputs are allocated
then, and it waits while no granule is free (assumption 29). A remount of one of its lanes takes effect first (R229). -/
def State.geStart (s : State) (g : Nat) : State :=
  let k := s.ge g
  let lanes := s.env.dev.geLanes + s.env.dev.geSpares
  if !k.en || k.run.isSome || s.gcs.changing || !s.up || s.fsu.paused.any (fun p => p.1 = 5 && p.2 / lanes = g) ||
      s.fsu.remounts.any (fun p => p.1 = 5 && p.2.1 / lanes = g) then s
  else match k.queue.find? fun e => !(s.ctx e.ref.ctx).halted with
    | none => s
    | some e =>
      let r := e.ref
      match s.inst? r.ctx r.inst, s.task? r with
      | some x, some t =>
        match AL.get? (bits (Desc.entry t.desc) 7 0) (s.ctx r.ctx).progs with
        | none =>
          let s1 := s.setGe g { k with queue := k.queue.filter fun z => z.ref ≠ r, ended := (k.ended + 1) % 2 ^ 32 }
          (s1.geRecord g { e := e } 5).retireTask r .failed (some g) none
        | some p =>
          let s0 := s.descRead r
          let (ok, s1) := s0.allocAll r (s0.sliceOrder r.ctx (Desc.sliceHint t.desc) (s0.homeOf e)) (s0.outputs t.desc x.base)
          if ok then s1.geEnter g e x t p else s1
      | _, _ => s.setGe g { k with queue := k.queue.filter fun z => z.ref ≠ r }

/-! ## Instructions (Table 9.6) -/

/-- The row that engine `g` executes next: the instruction word that its program counter addresses in device memory (R223). -/
def State.geRow (s : State) (g : Nat) : Option Instr :=
  (s.ge g).run.bind fun y => geInstr g s.env.now (s.rd64 (y.prog + 8 * y.pc))

/-- Instruction `i` of engine `g`: it executes when the engine runs a task whose program counter addresses it, no pass runs and no
gait change holds it. A word there that is no instruction ends the task (ILLEGAL, R223). -/
def State.geOp (s : State) (i : Instr) (g : Nat) (f : GeRun → State) : State := match (s.ge g).run with
  | none => s
  | some y =>
    if y.pass.isSome || s.gcs.changing then s
    else match s.geRow g with
      | none => s.geFail g 4
      | some j => if j = i then f y else s

/-- Write register `d` and go on. -/
def State.geSet (s : State) (i : Instr) (g d : Nat) (v : Word) : State := s.geOp i g fun y => s.geNext g (y.setReg d v) (y.pc + 1)

/-- A register instruction: sD = f of sA and sB. -/
def State.geAlu (s : State) (i : Instr) (g d a b : Nat) (f : Word → Word → Word) : State :=
  s.geOp i g fun y => s.geNext g (y.setReg d (f (y.reg a) (y.reg b))) (y.pc + 1)

/-- A floating-point instruction: a result and flags; a flag whose bit of `GE_TRAP_EN` is set stops the task (R220). -/
def State.geFp (s : State) (i : Instr) (g d : Nat) (f : GeRun → Word × Nat) : State := s.geOp i g fun y =>
  let (v, fl) := f y
  let y1 := { y with flags := y.flags ||| fl }
  if fl &&& (s.ge g).trapEn ≠ 0 then (s.setGe g { s.ge g with run := some y1 }).geTrap g 1
  else s.geNext g (y1.setReg d v) (y.pc + 1)

/-- A binary64 value of a register. -/
def f64 (w : Word) : FV := fp64.decode w.toNat

/-- A binary64 operation, to nearest with ties to even. -/
def State.geF2 (s : State) (i : Instr) (g d a b : Nat) (f : FFmt → Rnd → FV → FV → Flagged) : State :=
  s.geFp i g d fun y => let r := f fp64 {} (f64 (y.reg a)) (f64 (y.reg b)); (wd r.1, r.2)

/-- A binary64 comparison: NaN gives 0 and raises invalid. -/
def State.geFcmp (s : State) (i : Instr) (g d a b : Nat) (f : Ordering → Bool) : State :=
  s.geFp i g d fun y => match (f64 (y.reg a)).cmp? (f64 (y.reg b)) with
    | none => (0, 1)
    | some o => (wd (b2n (f o)), 0)

/-- ICVT: NaN raises invalid; its result is not stated (a free value, assumption 13). -/
def State.geIcvt (s : State) (g d a : Nat) : State := match (s.ge g).run with
  | none => s
  | some y0 =>
    if (f64 (y0.reg a)).isNan then
      let (v, s1) := s.fresh 64
      s1.geFp (.icvt g d a) g d fun _ => (v, 1)
    else s.geFp (.icvt g d a) g d fun y =>
      let r := (f64 (y.reg a)).toInt 1 (-(2 ^ 63)) (2 ^ 63 - 1)
      (BitVec.ofInt 64 r.1, r.2)

/-- The sign-extended IMM field. -/
def immS (imm : BitVec 32) : Word := imm.signExtend 64

/-- LD; a misaligned address is illegal (assumption 29), a refused access stops the task; a granule that no binding entry names reads
as the bytes its memory holds (R156, assumption 31). -/
def State.geLd (s : State) (g d a : Nat) (imm : BitVec 32) : State := s.geOp (.ld g d a imm) g fun y =>
  let p := (y.reg a + immS imm).toNat
  if p % 8 ≠ 0 then s.geFail g 4
  else if s.refuses p 8 then s.geTrap g 2
  else s.geNext g (y.setReg d (s.rd64 p)) (y.pc + 1)

/-- Outputs whose tile holds an address. -/
def PassIo.outsAt (io : PassIo) (p : Nat) : List Nat := (List.range io.outB.length).filter fun i =>
  let base := bits (wordAt io.outB i) 47 0
  decide (base ≤ p) && decide (p < base + io.sizes.getD i 0)

/-- ST; an output that it writes reports OCC = 1 (R218). -/
def State.geSt (s : State) (g a b : Nat) (imm : BitVec 32) : State := s.geOp (.st g a b imm) g fun y =>
  let p := (y.reg a + immS imm).toNat
  if p % 8 ≠ 0 then s.geFail g 4
  else if s.refuses p 8 then s.geTrap g 2
  else
    let outs := ((s.geIo y).outsAt p).foldl (fun l i => AL.put i true l) y.outs
    (s.wr64 p (y.reg b)).geNext g { y with outs := outs } (y.pc + 1)

/-- BIND; an index that names no binding gives a value that the manual does not state (assumption 13). -/
def State.geBind (s : State) (g d : Nat) (imm : BitVec 32) : State := s.geOp (.bind g d imm) g fun y =>
  let l := if imm.getLsbD 8 then y.outB else y.inB
  let i := imm.toNat % 256
  if i < l.length then s.geNext g (y.setReg d (wordAt l i)) (y.pc + 1)
  else
    let (v, s1) := s.fresh 64
    s1.geNext g (y.setReg d v) (y.pc + 1)

/-- A branch: to the instruction's index plus IMM when taken. -/
def State.geBranch (s : State) (i : Instr) (g a b : Nat) (imm : BitVec 32) (f : Word → Word → Bool) : State := s.geOp i g fun y =>
  s.geNext g y (if f (y.reg a) (y.reg b) then (wd y.pc + immS imm).toNat else y.pc + 1)

/-- The configuration block that RUN names, with the override of operand A's input (Table 9.6). -/
def State.geCfg (s : State) (p : Nat) (ov : Word) : List Word :=
  let b := s.rdWords false p 32
  if bit ov 8 then b.set 1 (wd ((wordAt b 1).toNat / 256 * 256 + bits ov 7 0)) else b

/-- RUN: check the block and start the pass (R209, R221). -/
def State.geRun (s : State) (g a b : Nat) : State := s.geOp (.run g a b) g fun y =>
  let p := (y.reg a).toNat
  if s.refuses p 256 then s.geTrap g 2
  else
    let cfg := s.geCfg p (y.reg b)
    if p % 64 ≠ 0 ∨ !cfgOk cfg (s.geIo y) then s.geFail g 3
    else s.setGe g { s.ge g with run := some { y with pass := some cfg } }

/-- The output streams of a pass's EMIT ports have taken packets: their write counts, in words whose number a packet the manual does
not give, advance (R268, assumption 13). -/
def State.streamsWrite (s : State) (g : Nat) (ws : List Emit) : State :=
  ((ws.map Emit.port).eraseDups).foldl (fun s p =>
    let n := s.fresh 64
    let k := n.2.ge g
    n.2.setGe g { k with streamWr := AL.put p ((AL.get k.streamWr p + n.1.toNat) % 2 ^ 64) k.streamWr }) s

/-- GE_PASS_END: the pass takes effect (R209 to R221). -/
def State.gePassEnd (s : State) (g : Nat) : State := match (s.ge g).run with
  | none => s
  | some y => match y.pass with
    | none => s
    | some cfg =>
      if s.gcs.changing then s
      else
        let io := s.geIo y
        let o := s.pass cfg io (s.ge g).trapEn y.outs 8 []
        let n := if o.partly then (Config.freeValue 64 (s.freeCount + o.free)).toNat else o.writes.length
        let ws := o.writes.take n
        let outs := passOuts cfg y.outs ws
        let zs := if o.access || o.config || o.partly then [] else zeroTiles io ws outs
        let ok := zs.takeWhile fun t => !s.refuses t.1 t.2
        let s1 := (({ s with freeCount := s.freeCount + o.free + 1 }).emitAll io ws).streamsWrite g ws
        let s2 := s1.zeroRest ok
        let y1 := { y with flags := y.flags ||| o.flags, sums := o.sums, outs := outs, pass := none }
        let s3 := s2.setGe g { s2.ge g with run := some y1 }
        if o.flags &&& ((s.ge g).trapEn ||| Cfg.trap cfg) ≠ 0 then s3.geTrap g 1
        else if o.access || decide (ok.length < zs.length) then s3.geTrap g 2
        else if o.config then s3.geFail g 3
        else s3.geNext g y1 (y.pc + 1)

/-- SUM: a summary item (Table 9.7); one that no pass has left, or that the table does not name, is a free value. -/
def State.geSum (s : State) (g d : Nat) (imm : BitVec 32) : State := s.geOp (.sum g d imm) g fun y =>
  if imm = 3 then s.geNext g (y.setReg d (wd y.flags)) (y.pc + 1)
  else match AL.get? imm.toNat y.sums with
    | some v => s.geNext g (y.setReg d v) (y.pc + 1)
    | none =>
      let (v, s1) := s.fresh 64
      s1.geNext g (y.setReg d v) (y.pc + 1)

/-- SIG (R224, R225). -/
def State.geSig (s : State) (g a b : Nat) : State := s.geOp (.geSig g a b) g fun y =>
  let c := y.e.ref.ctx
  let v := bits (y.reg a) 23 0
  let inc := bits (y.reg b) 31 0
  let s1 := s.geNext g y (y.pc + 1)
  if inc = 0 then s1
  else if s.idLimit c ≤ v then s1.push [.faultCtx c 0x04 v 1 (s.effOf y.e.ref)]
  else s1.push [.signal c v inc { code := 6, arg := s.effOf y.e.ref } none]

/-- LAUNCH (R225, R81); its checks stand for a count of 0 too, which launches nothing (R86). -/
def State.geLaunch (s : State) (g d a b : Nat) : State := s.geOp (.geLaunch g d a b s.env.now) g fun y =>
  let r := y.e.ref
  let n := bits (y.reg d) 31 0
  let own := ((s.inst? r.ctx r.inst).map Inst.base).getD 0
  let base := if bit (y.reg a) 17 then (own + bits (y.reg b) 31 0) % 2 ^ 32 else bits (y.reg b) 31 0
  match s.deviceLaunch r.ctx (bits (y.reg a) 15 0) base (some n) (s.ownerOf r) s.env.now with
    | (true, _, s1) => s1.geNext g y (y.pc + 1)
    | (false, _, _) => s.geFail g 6

/-- SHAPE (R225, R241); a target that breaks R240 is illegal (R242), and a refused access to the slot stops the task. -/
def State.geShape (s : State) (g d a b : Nat) : State := s.geOp (.shape g d a b) g fun y =>
  let c := y.e.ref.ctx
  let i := bits (y.reg a) 31 0
  let w := y.reg b
  if !s.slotOk c i then s.geFail g 4
  else if s.refuses (s.tile c i).addr 16 then s.geTrap g 2
  else (s.writeShape c i { m := bits w 15 0, n := bits w 31 16, k := bits w 47 32, count := bits (y.reg d) 31 0 }).geNext g y (y.pc + 1)

/-- SKIP (R225). -/
def State.geSkip (s : State) (g d a : Nat) : State := s.geOp (.skip g d a) g fun y =>
  let r : TaskRef := { y.e.ref with idx := (y.reg a).toNat }
  match s.inst? r.ctx r.inst, s.task? r with
  | some x, some t =>
    if x.span ≤ r.idx ∨ (Desc.kind t.desc ≠ 1 ∧ Desc.kind t.desc ≠ 2) then s.geFail g 4
    else
      let early := (t.st = .waiting || t.st = .spec) && decide (t.count ≠ 0)
      let s1 := if early then s.updTask r fun t => { t with skip := true } else s
      s1.geNext g (y.setReg d (wd (b2n early))) (y.pc + 1)
  | _, _ => s.geFail g 4

/-- END (Table 9.8). -/
def State.geEnd (s : State) (g : Nat) (imm : BitVec 32) : State := s.geOp (.endTask g imm s.env.now) g fun _ =>
  if imm.getLsbD 0 then s.geFail g 0 else s.geDone g

/-- GATE_BUDGET_EXPIRY: the task stops and retires failed; an overrun is counted (Table 9.8, R175). -/
def State.geBudget (s : State) (g : Nat) : State := match (s.ge g).run with
  | none => s
  | some y =>
    let r := y.e.ref
    if s.gcs.changing ∨ s.env.now < y.startAt + s.budgetNs (s.descOf y.e) then s
    else
      let eff := s.effOf r
      ((s.geLeave g).retireTask r .failed (some g) none).overrun r eff (g + 2 ^ 63) 6 g

/-! ## GE_PROGRAM_LOAD (R226) -/

/-- The three checks on instruction `i` of a program of `n`: its word is a row of Table 9.6 with a zero reserved field, and a
branch's target lies in the program. -/
def geInsnOk (n i : Nat) (w : Word) : Bool :=
  let op := bits w 63 56
  let target : Int := i + (BitVec.ofNat 32 (bits w 31 0)).toInt
  (geInstr 0 0 w).isSome &&
    (!(decide (0x28 ≤ op) && decide (op ≤ 0x2D)) || (decide (0 ≤ target) && decide (target < n)))

/-- GE_PROGRAM_LOAD. -/
def State.effGeProgramLoad (s : State) (q n : Nat) (w : List Word) : State :=
  let c := Op.ctx w
  let a := (wordAt w 1).toNat
  let count := bits (wordAt w 2) 12 0
  let pid := bits (wordAt w 2) 23 16
  let ws := s.rdWords false a count
  if !(ws.zipIdx.all fun p => geInsnOk count p.2 p.1) then s.complete q n .badParam 1
  else
    let s1 := s.wrWords false ((s.ctx c).gsBase + 16 * pid) [wd a, wd (2 ^ 63 + count)]
    let s2 := s1.updCtx c fun x => { x with progs := AL.put pid (a, count) x.progs }
    let mine (y : GeRun) : Bool := y.e.ref.ctx = c && y.pid = pid && !y.old
    let busy := s2.ges.any fun (p : Nat × Ge) => match p.2.run with
      | some y => mine y
      | none => false
    let note (y : GeRun) : GeRun := if mine y then { y with old := true, waiters := y.waiters ++ [(q, n)] } else y
    let s3 := { s2 with ges := s2.ges.map fun (p : Nat × Ge) =>
      (p.1, { p.2 with run := p.2.run.map note, icache := p.2.icache.filter fun t => !(decide (t.1 = c) && decide (t.2.1 = pid)) }) }
    if busy then s3 else s3.complete q n .ok 0

end Sys2Proof.Machine
end

