-- ==== Sys2Proof/Machine/Service.lean ====
section
/-!
DEFINITION. Faults of the block's own units (15): spares and remount (R341 to R343), wear (R339, R340), SRAM errors (R335, R336),
lost tasks (R58), pointer mismatches (R271).
Units are numbered physically (assumption 30): kind 1 global port; 2 sequencer position; 3 heap bank; 4 counter-store row; 5 GE
lane, L + S of them a region; 6 firmware core; 7 Relay port 9n + p; 8 stud-book sector.
-/
namespace Sys2Proof.Machine

/-! ## Units -/

/-- Units of a kind that the device has without its spares. -/
def State.isBase (s : State) (kind phys : Nat) : Bool := match kind with
  | 3 => decide (phys < s.env.dev.banks)
  | 4 => decide (phys < s.env.dev.counters / 1024)
  | 5 => decide (phys % s.lanesPer < s.env.dev.geLanes)
  | 7 => decide (phys % 9 < 8)
  | _ => decide (phys < 2032)

/-- The position of the row's spare sequencer. -/
def State.rowSpare (s : State) (p : Nat) : Nat := match s.env.dev with
  | .xs144 => p / 10 * 10 + 9
  | .xs64 => 8

/-- The unit that a physical instance serves; none when it serves none. -/
def State.logicalOf (s : State) (kind phys : Nat) : Option Nat :=
  if s.fsu.retired.contains (kind, phys) then none
  else match kind with
    | 1 => ((List.range 8).map fun k => 8 * (phys / 9) + k).find? fun c => s.globalPort c = phys && !(s.core c).withdrawn
    | 2 => if (s.seqr phys).valid && (s.seqr phys).role = 0 then some (s.seqr phys).cluster else none
    | 6 => if AL.get s.fwc.cores phys = 1 ∨ AL.get s.fwc.cores phys = 2 then some phys else none
    | _ => match s.fsu.map.find? fun p => p.1.1 = kind && p.2 = phys with
      | some p => some p.1.2
      | none => if s.isBase kind phys && (AL.get? (kind, phys) s.fsu.map).isNone && !s.fsu.lostUnits.contains (kind, phys) then
          some phys else none

/-- A physical instance is an unused, unretired spare. -/
def State.freeSpare (s : State) (kind phys : Nat) : Bool :=
  !s.fsu.retired.contains (kind, phys) && match kind with
    | 1 => (s.seqr (s.seqPos (phys / 9))).spare = phys % 9
    | 2 => (s.seqr phys).role = 1
    | 6 => AL.get s.fwc.cores phys = 3
    | _ => !s.isBase kind phys && !(s.fsu.map.any fun p => p.1.1 = kind && p.2 = phys)

/-- A unit is being remounted or withdrawn. -/
def State.remounting (s : State) (kind phys : Nat) : Bool := s.fsu.remounts.any fun p => p.1 = kind && p.2.1 = phys

/-- The lowest spare that can serve a unit, has not failed itself and is not chosen for another (Table 15.6 step 2). -/
def State.spareFor (s : State) (kind phys : Nat) : Option Nat :=
  let d := s.env.dev
  let all : List Nat := match kind with
    | 1 => (List.range 9).map fun p => 9 * (phys / 9) + p
    | 2 => [s.rowSpare phys]
    | 3 => (List.range d.bankSpares).map fun i => d.banks + i
    | 4 => (List.range (d.pick 8 4)).map fun i => d.counters / 1024 + i
    | 5 => (List.range d.geSpares).map fun i => phys / s.lanesPer * s.lanesPer + d.geLanes + i
    | 6 => List.range d.fwCores
    | 7 => [9 * (phys / 9) + 8]
    | _ => (List.range 16).map fun i => 2032 + i
  all.find? fun p => s.freeSpare kind p && !s.remounting kind p && !(s.fsu.chosen.any fun x => x.1.1 = kind && x.2 = p)

/-- Units of a kind still active (Table 15.3, SPARES_EXHAUSTED). -/
def State.unitsActive (s : State) (kind : Nat) : Nat :=
  let d := s.env.dev
  match kind with
  | 1 | 7 => ((List.range (8 * d.clusters)).filter s.coreOk).length
  | 2 => s.presentList.length
  | 3 => s.bankList.length
  | 4 => d.counters / 1024 - s.lostOf 4
  | 5 => d.geLanes * (d.geRegions + 1) - s.lostOf 5
  | 6 => (s.fwc.cores.filter fun p => p.2 = 1 || p.2 = 2).length
  | _ => s.fsu.sectors

/-! ## Mapping registers (Table 15.6 step 4) -/

/-- Take a spare out of the count. -/
def State.useSpare (s : State) (kind : Nat) : State :=
  { s with fsu := { s.fsu with
      spares := AL.upd s.fsu.spares kind fun n => n - 1
      sbSpares := if kind = 8 then s.fsu.sbSpares - 1 else s.fsu.sbSpares } }

/-- Physical port `k` of a port map replaced. -/
def portSet (m k p : Nat) : Nat := m - (m >>> (4 * k)) % 16 * 2 ^ (4 * k) + p * 2 ^ (4 * k)

/-- Replace core `k` by `n` in a role map. -/
def roleMove (m k n : Nat) : Nat :=
  (List.range 4).foldl (fun x r => x + (if (m >>> (4 * r)) % 16 = k then n else (m >>> (4 * r)) % 16) * 2 ^ (4 * r)) 0

/-- A core's watchdog runs anew (R322). -/
def State.pet (s : State) (k : Nat) : State := { s with fwc := { s.fwc with petAt := AL.put k s.env.now s.fwc.petAt } }

/-- A spare firmware core takes every role of another, which is retired (R316); it starts, which freezes the mapping (Table 14.3). -/
def State.fwMove (s : State) (old new : Nat) : State :=
  ({ s with fwc := { s.fwc with
    cores := AL.put new 2 (AL.put old 4 s.fwc.cores), spares := s.fwc.spares - 1, roleMap := roleMove s.fwc.roleMap old new,
    frozen := true } }).pet new

/-- Firmware cores in service other than `k`. -/
def State.fwOthers (s : State) (k : Nat) : List Nat := (s.fwc.cores.filter fun p => p.1 ≠ k && (p.2 = 1 || p.2 = 2)).map Prod.fst

/-- An active firmware core is retired without a spare: its roles move to the remaining one with the lowest number (R316). -/
def State.fwDrop (s : State) (k : Nat) : State := match s.fwOthers k with
  | [] => s
  | n :: _ => { s with fwc := { s.fwc with
      cores := AL.put k 4 s.fwc.cores, active := s.fwc.active - 1, roleMap := roleMove s.fwc.roleMap k n } }

/-- Switch unit `l` from `old` to the spare `new`. -/
def State.moveUnit (s : State) (kind l old new : Nat) : State := match kind with
  | 1 =>
    let pos := s.seqPos (l / 8)
    let x := s.seqr pos
    s.setSeqr pos { x with port := portSet x.port (l % 8) (new % 9), spare := 0xF }
  | 2 =>
    let x := s.seqr old
    let s1 := (s.setSeqr new { x with role := 0, cluster := l, valid := true }).setSeqr old { x with role := 2 }
    { s1 with tth := { s1.tth with roles := AL.put new 0 (AL.put old 2 s1.tth.roles) } }
  | 5 =>
    let s1 := { s with fsu := { s.fsu with map := AL.put (kind, l) new s.fsu.map } }
    s1.setGe (old / s.lanesPer) { s1.ge (old / s.lanesPer) with lost := (s1.ge (old / s.lanesPer)).lost + 1 }
  | 6 => s.fwMove old new
  | _ => { s with fsu := { s.fsu with map := AL.put (kind, l) new s.fsu.map } }

/-- A unit leaves service without a spare. -/
def State.loseUnit (s : State) (kind l phys : Nat) : State :=
  let s1 := { s with fsu := { s.fsu with
    lostUnits := s.fsu.lostUnits ++ [(kind, l)]
    sectors := if kind = 8 then s.fsu.sectors - 1 else s.fsu.sectors } }
  match kind with
  | 1 | 7 => s1.updCore (if kind = 1 then l else 8 * (phys / 9) + l % 9) fun k => { k with withdrawn := true }
  | 2 =>
    let s2 := (s1.setSeqr phys { s1.seqr phys with role := 2 }).writeBackCounts
    { s2 with tth := { s2.tth with roles := AL.put phys 2 s2.tth.roles } }
  | 5 => s1.setGe (phys / s.lanesPer) { s1.ge (phys / s.lanesPer) with lost := (s1.ge (phys / s.lanesPer)).lost + 1 }
  | 6 => (s1.fwDrop phys).push [.fwRoles]
  | _ => s1

/-- Mark a unit retired. -/
def State.markRetired (s : State) (kind phys : Nat) : State :=
  { s with fsu := { s.fsu with
      retired := s.fsu.retired ++ [(kind, phys)]
      paused := s.fsu.paused.filter fun p => p ≠ (kind, phys)
      leaving := s.fsu.leaving.filter fun p => p ≠ (kind, phys)
      chosen := s.fsu.chosen.filter fun p => p.1 ≠ (kind, phys)
      remounts := s.fsu.remounts.filter fun p => !(decide (p.1 = kind) && decide (p.2.1 = phys)) } }

/-! ## Work of a unit that leaves service (Table 15.5) -/

/-- Return a placed task to its heap with its key unchanged; a speculative one is refuted (R279). -/
def State.backToHeap (s : State) (p : Placed) : State :=
  if p.spec.isSome then s.push [.refute p.e.ref 4]
  else
    let s1 := if p.e.slot = 0 then s.freeSlots p.e.ref else s
    (s1.updTask p.e.ref fun t => { t with st := .ready }).toHeap p.e

/-- The saddle and local-queue tasks of a logical core return to the heap. -/
def State.emptyCore (s : State) (c : Nat) : State :=
  let k := s.core c
  let keep := match k.saddle with
    | some p => if p.spec.isSome then k.saddle else none
    | none => none
  let sad := match k.saddle with
    | some p => [p]
    | none => []
  (sad ++ k.lq).foldl State.backToHeap (s.setCore c { k with saddle := keep, lq := [] })

/-- The counters of a counter-store row move to free counters, are evicted, or fault their contexts with NO_COUNTER. -/
def State.emptyRow (s : State) (row : Nat) : State :=
  (s.ctu.phys.filter fun p => p.idx / 1024 = row).foldl (fun (s : State) (p : Phys) =>
    match s.physFree? with
    | some i =>
      let x := s.ctr p.ctx p.vid
      let s1 := { s with ctu := { s.ctu with phys := s.ctu.phys.map fun (y : Phys) => if y.idx = p.idx then { y with idx := i } else y } }
      s1.wr64 (s1.ctrAddr p.ctx p.vid) ({ x with phys := i } : Ctr).w0
    | none =>
      if !(s.ctx p.ctx).st.inPlace || (!(s.ctr p.ctx p.vid).mapped && !(s.ctu.waiters.any fun w => w.ctx = p.ctx ∧ w.vid = p.vid)) then
        s.evict p
      else (s.evict p).push [.faultCtx p.ctx 0x04 p.vid 2 ctrMax]) s

/-- Give up the work of a unit that is withdrawn (R342): what it has not started goes elsewhere, a bank's contexts unless residence
changes are frozen (R173). -/
def State.giveUp (s : State) (kind l : Nat) : State := match kind with
  | 1 => s.emptyCore l
  | 7 => s.emptyCore (8 * (l / 9) + l % 9)
  | 2 =>
    let s1 := ((List.range 8).map fun k => 8 * l + k).foldl State.emptyCore s
    let s2 := s1.setCluster l { s1.cluster l with cands := [] }
    let q := (s2.ge l).queue
    q.foldl (fun s e => (s.updTask e.ref fun t => { t with st := .ready }).toHeap e) (s2.setGe l { s2.ge l with queue := [] })
  | 3 => if !s.fwActs then s
    else (s.definedList.filter fun c => (s.ctx c).st = .resident && (s.ctx c).bank = l).foldl State.suspendStart s
  | 4 => s.emptyRow l
  | _ => s

/-- A unit that is withdrawn has given up its work and has finished what it held (R342). -/
def State.gaveUp (s : State) (kind l : Nat) : Bool :=
  let free (c : Nat) : Bool := (s.core c).running.isNone && (s.core c).saddle.isNone && (s.core c).lq.isEmpty
  match kind with
  | 1 => free l
  | 7 => free (8 * (l / 9) + l % 9)
  | 2 => ((List.range 8).all fun k => free (8 * l + k)) && (s.ge l).run.isNone
  | 3 => !(s.definedList.any fun c => (s.ctx c).place.isSome && (s.ctx c).bank = l)
  | 4 => !(s.ctu.phys.any fun p => p.idx / 1024 = l)
  | 5 => (s.ge (l / s.lanesPer)).run.isNone
  | _ => true

/-! ## Remount (R342, R340 steps 2 to 4) -/

/-- SPARES_EXHAUSTED: a unit is lost with no spare of its kind left (Table 15.3). -/
def State.noSpareLeft (s : State) (kind phys : Nat) : State :=
  s.err { unit := kindUnit kind, inst := s.kindInst kind phys, cls := 1, code := 0x15, a := kind, b := phys, c := s.unitsActive kind }

/-- Unit `l` leaves service: SPARES_EXHAUSTED, the retirement, a REMOUNT record with all ones, health (R341, R344). -/
def State.withdraw (s : State) (kind l phys cause : Nat) : State :=
  let s2 := ((s.loseUnit kind l phys).markRetired kind phys).noSpareLeft kind phys
  let s3 := s2.setTack { s2.tack with repair := s2.tack.repair ++ [(kind, phys)] }
  (s3.stage 0x04 [wd kind, wd phys, wd ctrMax, wd cause]).health

/-- Step 5 of Table 15.6, which the Farrier takes: the repair map, the REMOUNT record and health. -/
def State.noteRemount (s : State) (kind phys new cause : Nat) : State :=
  ((s.setTack { s.tack with repair := s.tack.repair ++ [(kind, phys)] }).stage 0x04 [wd kind, wd phys, wd new, wd cause]).health

/-- Step 5 is the Farrier's: while role 2 restarts it waits for it (R343, Table 14.4). -/
def State.farrierNotes (s : State) (kind phys new cause : Nat) : State :=
  if s.roleRuns 2 then s.noteRemount kind phys new cause
  else { s with fsu := { s.fsu with unrecorded := s.fsu.unrecorded ++ [(kind, phys, new, cause)] } }

/-- Steps 3 to 5: the unit's state moves from `phys` to the spare `new`, and the mapping switches. -/
def State.toSpare (s : State) (kind l phys new cause : Nat) : State :=
  let s1 := ((s.moveUnit kind l phys new).useSpare kind).markRetired kind phys
  ({ s1 with fsu := { s1.fsu with remounted := true } }).farrierNotes kind phys new cause

/-- Begin to withdraw a unit: it is offered no new work and gives up what it has (R342); a REMOUNT takes it out of service once it holds
nothing. -/
def State.startLeaving (s : State) (kind l phys cause : Nat) : State :=
  let s1 := ({ s with fsu := { s.fsu with
    leaving := s.fsu.leaving ++ [(kind, phys)], paused := s.fsu.paused.filter fun p => p ≠ (kind, phys) } }).giveUp kind l
  if s1.gaveUp kind l then s1.withdraw kind l phys cause
  else { s1 with fsu := { s1.fsu with remounts := s1.fsu.remounts ++ [(kind, phys, cause)] } }

/-- Keep a unit in service, its worn stage at code 63 (R340 step 3). -/
def State.keepUnit (s : State) (kind phys : Nat) : State :=
  let at' := match AL.get? (kind, phys) s.fsu.margins with
    | some x => s.fsu.at63 ++ [x.2]
    | none => s.fsu.at63
  ({ s with fsu := { s.fsu with
      at63 := at', paused := s.fsu.paused.filter fun p => p ≠ (kind, phys)
      kept := if s.fsu.kept.contains (kind, phys) then s.fsu.kept else s.fsu.kept ++ [(kind, phys)] } }).health

/-- With no spare left a unit is kept when it is worn and its margin at code 63 is above 0, by wear or by corrections, and a last
firmware core always (R323, R340 step 3). -/
def State.keeps (s : State) (kind phys cause : Nat) : Bool :=
  decide (cause = 0x12) || (decide (cause = 0x14) && decide (0 < (AL.get s.fsu.margins (kind, phys)).1)) ||
    (decide (kind = 6) && decide (s.fwOthers phys = []))

/-- No spare is left: R340 step 3 or 4. -/
def State.lastResort (s : State) (kind l phys cause : Nat) : State :=
  if s.keeps kind phys cause then s.keepUnit kind phys else s.startLeaving kind l phys cause

/-- Retire an unused spare (R343). -/
def State.retireSpare (s : State) (kind phys : Nat) : State :=
  let s1 := (s.useSpare kind).markRetired kind phys
  if kind = 2 then ({ s1 with tth := { s1.tth with roles := AL.put phys 2 s1.tth.roles } }).setSeqr phys { s1.seqr phys with role := 2 }
  else if kind = 1 then
    let pos := s1.seqPos (phys / 9)
    s1.setSeqr pos { s1.seqr pos with spare := 0xF }
  else if kind = 5 then
    let g := phys / s.lanesPer
    s1.setGe g { s1.ge g with lost := (s1.ge g).lost + 1 }
  else if kind = 6 then { s1 with fwc := { s1.fwc with cores := AL.put phys 4 s1.fwc.cores, spares := s1.fwc.spares - 1 } }
  else s1

/-- The spare chosen for a unit, or one that can serve it. -/
def State.spareOf? (s : State) (kind phys : Nat) : Option Nat := match AL.get? (kind, phys) s.fsu.chosen with
  | some new => if s.freeSpare kind new && !s.remounting kind new then some new else s.spareFor kind phys
  | none => s.spareFor kind phys

/-- Remount a unit at its drained point; with no spare left it is kept or withdrawn. An unused spare is only retired. -/
def State.remountNow (s : State) (kind phys cause : Nat) : State := match s.logicalOf kind phys with
  | none =>
    if s.freeSpare kind phys then
      let s2 := s.retireSpare kind phys
      (s2.setTack { s2.tack with repair := s2.tack.repair ++ [(kind, phys)] }).health
    else s
  | some l => match s.spareOf? kind phys with
    | some new => s.toSpare kind l phys new cause
    | none => s.lastResort kind l phys cause

/-- The unit is at its drained point (Table 15.5). -/
def State.drained (s : State) (kind phys : Nat) : Bool := match kind with
  | 1 => match s.logicalOf 1 phys with
    | some c => (s.core c).running.isNone
    | none => true
  | 5 => (s.ge (phys / s.lanesPer)).run.isNone
  | _ => true

/-- Step 2 for a remount decided before, which the Farrier takes (Table 15.6): it chooses the spare, or finds that none is left. -/
def State.chooseSpare (s : State) (p : Nat × Nat × Nat) : State :=
  let unit := (p.1, p.2.1)
  if !(s.up || s.gcs.state = 1) || !s.roleRuns 2 || AL.has s.fsu.chosen unit || s.fsu.leaving.contains unit then s
  else match s.logicalOf p.1 p.2.1 with
    | none => s
    | some l => match s.spareFor p.1 p.2.1 with
      | some new => { s with fsu := { s.fsu with chosen := AL.put unit new s.fsu.chosen } }
      | none => ({ s with fsu := { s.fsu with remounts := s.fsu.remounts.filter fun x => x ≠ p } }).lastResort p.1 l p.2.1 p.2.2

/-- A spare has failed: the Farrier returns to step 2 for the unit that it was chosen for (R343). -/
def State.dropChoice (s : State) (kind phys : Nat) : State :=
  s.fsu.remounts.foldl State.chooseSpare
    { s with fsu := { s.fsu with chosen := s.fsu.chosen.filter fun x => !(decide (x.1.1 = kind) && decide (x.2 = phys)) } }

/-- Decide a remount (steps 1 and 2), or the retirement of a spare; a unit that is already being remounted goes on as it is (R343). -/
def State.decideRemount (s : State) (kind phys cause : Nat) : State :=
  if s.remounting kind phys then s
  else
    let s1 := { s with fsu := { s.fsu with remounts := s.fsu.remounts ++ [(kind, phys, cause)] } }
    if s.freeSpare kind phys then s1.dropChoice kind phys else s1.chooseSpare (kind, phys, cause)

/-- A decided remount is over. -/
def State.dropRemount (s : State) (p : Nat × Nat × Nat) : State :=
  { s with fsu := { s.fsu with remounts := s.fsu.remounts.filter fun x => x ≠ p } }

/-- REMOUNT: a remount decided before takes place at its drained point. Steps 3 and 4 are the hardware's; steps 2 and 5, and a
withdrawal, are the Farrier's, so that they wait while role 2 restarts (R343, Table 14.4). -/
def State.remountRow (s : State) (kind phys cause : Nat) : State :=
  let p := (kind, phys, cause)
  if !s.fsu.remounts.contains p || !s.up || s.gcs.changing then s
  else if s.fsu.leaving.contains (kind, phys) then match s.logicalOf kind phys with
    | some l =>
      let s1 := s.giveUp kind l
      if s1.roleRuns 2 && s1.gaveUp kind l then (s1.dropRemount p).withdraw kind l phys cause else s1
    | none => s.dropRemount p
  else if s.drained kind phys && (s.roleRuns 2 || ((AL.get? (kind, phys) s.fsu.chosen).any fun new => s.freeSpare kind new)) then
    (s.dropRemount p).remountNow kind phys cause
  else s

/-! ## Wear (R339, R340, R284) -/

/-- Note a margin in `FSU_WEAR` (R339). -/
def State.noteMargin (s : State) (x : Wear) : State :=
  if x.margin < s.fsu.worst then { s with fsu := { s.fsu with worst := x.margin, stage := x.stage } } else s

/-- A stage is groomed again: its codes are new measurements (R302, R340 step 1, assumption 35). -/
def State.regroom (s : State) (stage : Nat) : State :=
  { s with
      freeCount := s.freeCount + 3
      tth := { s.tth with train := s.tth.train.map fun t => { t with redone := AL.put stage s.freeCount t.redone } } }

/-- Record a worn stage with the action taken (Table 15.3). -/
def State.wearRecord (s : State) (x : Wear) (action : Nat) : State :=
  let s1 := s.err { unit := kindUnit x.kind, inst := s.kindInst x.kind x.inst, cls := 1, code := 0x14, a := x.stage, b := x.margin,
                    c := action }
  { s1 with fsu := { s1.fsu with events := sat 0xFFFF (s1.fsu.events + 1) } }

/-- Pause a unit until it is remounted (R284). -/
def State.pauseUnit (s : State) (unit : Nat × Nat) : State :=
  if s.fsu.paused.contains unit then s else { s with fsu := { s.fsu with paused := s.fsu.paused ++ [unit] } }

/-- A worn stage of a sequencer before the start has enumerated the tether (R302): with the row's spare free, or the position itself an
unused spare, its remount is left to the enumeration; else it is kept, or withdrawn there (R340). -/
def State.seqWorn (s : State) (x : Wear) : State :=
  let row (p : Nat) : Bool := decide (s.rowSpare p = s.rowSpare x.inst)
  if s.env.dev.positions ≤ x.inst ∨ s.tack.repair.contains (2, x.inst) then s
  else
    let again := s.remounting 2 x.inst
    let taken := (s.fsu.remounts.any fun p => decide (p.1 = 2) && decide (p.2.1 ≠ x.inst) && row p.2.1) ||
      s.tack.repair.any fun p => decide (p.1 = 2) && row p.2
    let action := if !taken then 2 else if !again && decide (0 < x.margin63) then 3 else 4
    let s1 := (s.noteMargin x).wearRecord x action
    let s2 := { s1 with fsu := { s1.fsu with margins := AL.put (2, x.inst) (x.margin63, x.stage) s1.fsu.margins } }
    if action = 3 then s2.keepUnit 2 x.inst
    else if again then s2
    else { s2 with fsu := { s2.fsu with remounts := s2.fsu.remounts ++ [(2, x.inst, 0x14)] } }

/-- Act on a worn stage: regroom at the unit's next drained point, remount, keep or withdraw (R340); `verify` starts at step 2, pauses
the unit until its remount, and withdraws it where no spare is left (R284, Table 16.3 note C32). A unit that is already being remounted
is only recorded (R343). -/
def State.wearAct (s : State) (x : Wear) (verify : Bool) : State :=
  let unit := (x.kind, x.inst)
  if x.kind = 2 ∧ !(s.seqr x.inst).valid then s.seqWorn x
  else if (s.logicalOf x.kind x.inst).isNone && !s.freeSpare x.kind x.inst then s
  else
    let again := s.remounting x.kind x.inst
    let m := if verify then 0 else x.margin63
    let s0 := (s.noteMargin x)
    let s0 := if again then s0 else { s0 with fsu := { s0.fsu with margins := AL.put unit (m, x.stage) s0.fsu.margins } }
    let action :=
      if again then if s.fsu.leaving.contains unit then 4 else 2
      else if !verify && decide (s.fsu.wearLimit ≤ x.margin63) then 1
      else if (s.spareFor x.kind x.inst).isSome || s.freeSpare x.kind x.inst then 2
      else if s0.keeps x.kind x.inst 0x14 then 3
      else 4
    let s1 := s0.wearRecord x action
    let s2 := if verify && decide (action = 2) then s1.pauseUnit unit else s1
    if again then s2
    else match action with
    | 1 => s2.push [.regroom x.kind x.inst x.stage]
    | 2 => s2.decideRemount x.kind x.inst 0x14
    | 3 => s2.keepUnit x.kind x.inst
    | _ => match s2.logicalOf x.kind x.inst with
      | some l => s2.startLeaving x.kind l x.inst 0x14
      | none => s2

/-- Role 2 decides about a worn stage, or decides once it runs (Table 14.4). -/
def State.wearOrHold (s : State) (x : Wear) : State :=
  if s.roleRuns 2 then s.wearAct x false
  else { s with fsu := { s.fsu with heldWear := s.fsu.heldWear ++ [(x, false)] } }

/-- WEAR_DETECT: the margin that a stage has shown. `FSU_WEAR` takes it whenever the block is powered; below the limit it stands for
the 16 consecutive measurements that make the stage worn, as the command table has the row (R339), which counts once the block runs. -/
def State.wearDetect (s : State) (x : Wear) : State :=
  if s.gcs.state = 0 then s
  else if !s.up ∨ s.fsu.wearLimit ≤ x.margin then s.noteMargin x
  else (s.noteMargin x).wearOrHold x

/-- A stage fails verification at step 5 of a gait change (R284): role 2 decides, or decides once it runs; its unit is paused till
then. -/
def State.wearVerify (s : State) (x : Wear) : State :=
  if s.up && s.roleRuns 2 then s.wearAct x true
  else if s.gcs.state = 0 then s
  else
    let s1 := s.noteMargin x
    ({ s1 with fsu := { s1.fsu with heldWear := s1.fsu.heldWear ++ [(x, true)] } }).pauseUnit (x.kind, x.inst)

/-- Role 2 runs again: it records the remounts that were made meanwhile, decides those that wait for it, then takes up the worn
stages. -/
def State.wearResume (s : State) : State :=
  let s1 := s.fsu.unrecorded.foldl (fun (s : State) (p : Nat × Nat × Nat × Nat) => s.noteRemount p.1 p.2.1 p.2.2.1 p.2.2.2)
    { s with fsu := { s.fsu with unrecorded := [] } }
  let s2 := s1.fsu.remounts.foldl State.chooseSpare s1
  s2.fsu.heldWear.foldl (fun (s : State) (x : Wear × Bool) => s.wearAct x.1 x.2) { s2 with fsu := { s2.fsu with heldWear := [] } }

/-! ## Lost tasks (R58) -/

/-- Retire a task as lost in cluster `n`. -/
def State.loseTask (s : State) (n : Nat) (r : TaskRef) : State :=
  let s1 := (s.dropSpec r).removeEntry r
  (s1.failPart (s1.ownerOf r) n).retireTask r .failed (some n) none

/-- The task in entry `e` of a logical core: 0 its saddle, else place `e` of its local queue. -/
def State.entryTask (s : State) (c e : Nat) : Option TaskRef :=
  if e = 0 then (s.core c).saddle.map fun p => p.e.ref
  else (((s.core c).lq.drop (e - 1)).head?).map fun p => p.e.ref

/-! ## Spill rings -/

/-- Words of a spill ring (R262, R268). -/
def ringWords : Nat := 512

/-- Words that the record at a ring's read count takes, a pad before it included (R270). -/
def ringStep (rd : Nat) (m : Msg) : Nat :=
  let left := ringWords - rd % ringWords
  if m.data.length + 1 ≤ left then m.data.length + 1 else left + m.data.length + 1

/-- The message that a spill ring takes fails its ECC check and is rewound (R269): the last of the chain's last ring. The write count
returns to where the messages before it end. -/
def State.ringRewind (s : State) (ch c : Nat) : State :=
  let x := AL.get s.rly.chans ch
  let chain := AL.get x.chains c
  match chain.getLast? with
  | some r =>
    let l := r.msgs.dropLast
    let r' := { r with msgs := l, wr := l.foldl (fun n m => n + ringStep n m) r.rd }
    { s with rly := { s.rly with chans := AL.put ch { x with chains := AL.put c (chain.dropLast ++ [r']) x.chains } s.rly.chans } }
  | none => s

/-! ## SRAM errors (R335, R336) -/

/-- UNIT of a storage's records (assumption 30). -/
def storageUnit (storage : Nat) : Nat := match storage with
  | 1 | 3 | 8 => 2 | 2 | 7 => 3 | 4 | 5 | 6 => 4 | 9 => 7 | 10 => 5 | 11 => 8 | 12 | 13 => 6 | 14 => 1 | 15 => 9 | _ => 0x0A

/-- INSTANCE of a storage's records: sequencer position, bank or region where the unit has one. -/
def storageInst (storage inst : Nat) : Nat := match storage with
  | 2 | 3 | 7 | 12 | 13 => inst
  | _ => 0

/-- SRAM_CE: the first of a row, then at most one a second (R336). -/
def State.sramCe (s : State) (storage inst row : Nat) : State :=
  let key := (storage, inst * 2 ^ 32 + row)
  let old := AL.get? key s.fsu.ces
  let total := sat ctrMax (AL.get s.fsu.ceTotal storage + 1)
  let s1 := { s with fsu := { s.fsu with ceTotal := AL.put storage total s.fsu.ceTotal } }
  let due := match old with
    | none => true
    | some p => decide (p.2 + 1000000000 ≤ s.env.now)
  if due then
    ({ s1 with fsu := { s1.fsu with ces := AL.put key (((old.map Prod.fst).getD 0) + 1, s.env.now) s1.fsu.ces } }).err
      { unit := storageUnit storage, inst := storageInst storage inst, cls := 1, code := 0x12, a := storage, b := row, c := total }
  else { s1 with fsu := { s1.fsu with ces := AL.upd s1.fsu.ces key fun p => (p.1 + 1, p.2) } }

/-- A physical instance that serves a unit, or an unused spare. -/
def State.inUse (s : State) (kind phys : Nat) : Bool := (s.logicalOf kind phys).isSome || s.freeSpare kind phys

/-- Corrections of a counter-store row or a heap bank within one hour; the 64th treats the row as worn (R336). -/
def State.ceWorn (s : State) (storage inst row : Nat) : State :=
  let key := (storage, inst * 2 ^ 32 + row)
  let unit := if storage = 3 then (3, inst) else (4, row)
  let l := ((AL.get s.fsu.ceHour key).filter fun t => s.env.now < t + 3600000000000) ++ [s.env.now]
  let s1 := { s with fsu := { s.fsu with ceHour := AL.put key (if 64 ≤ l.length then [] else l) s.fsu.ceHour } }
  if l.length < 64 ∨ !s.inUse unit.1 unit.2 then s1
  else s1.decideRemount unit.1 unit.2 0x12

/-- SRAM_UE, and the context faults it brings. -/
def State.sramUe (s : State) (storage inst row cls : Nat) (ctxs : List Nat) : State :=
  let cs := ctxs.eraseDups
  let s1 := s.err { unit := storageUnit storage, inst := storageInst storage inst, cls := cls, code := 0x13,
                    ctx := if cs.length = 1 then cs.head? else none, a := storage, b := row, c := cs.length }
  s1.push (cs.map fun c => .faultQuiet c 0x13)

/-- Remount a heap bank or a counter-store row that failed, or retire the spare that did (Table 15.4, R343). -/
def State.failUnit (s : State) (kind phys : Nat) : State :=
  if s.inUse kind phys then s.decideRemount kind phys 0x13 else s

/-- An uncorrectable error (Table 15.4). `row` names the row or entry as assumption 30 says. A word of an output stream of a Gating
Engine rewinds the stream, which stops the task under cause ACCESS (R269). -/
def State.sramUncorrectable (s : State) (storage inst row : Nat) : State :=
  match storage with
  | 1 =>
    let key := (row / 16, row % 16)
    match AL.get? key s.dcache.lines with
    | some l => ((s.sramCe 1 inst row).dcDrop fun x => x = l).dcRead l
    | none => s.sramCe 1 inst row
  | 2 =>
    match (s.logicalOf 2 inst).bind fun n => (s.entryTask (8 * n + row / 16) (row % 16)).map fun r => (n, r) with
    | some (n, r) => (s.sramUe 2 inst row 2 []).loseTask n r
    | none => s.sramCe 2 inst row
  | 3 =>
    let b := s.logicalOf 3 inst
    (s.sramUe 3 inst row 2 (s.definedList.filter fun c => (s.ctx c).place.isSome && some (s.ctx c).bank = b)).failUnit 3 inst
  | 4 =>
    let l := s.logicalOf 4 row
    (s.sramUe 4 inst row 2 ((s.ctu.phys.filter fun p => some (p.idx / 1024) = l).map Phys.ctx)).failUnit 4 row
  | 5 => s.sramCe 5 inst row
  | 6 =>
    let cached := s.ctu.waiters.filter Waiter.cached
    s.sramUe 6 inst row 2 (((cached.drop row).head?.map fun (w : Waiter) => [w.ctx]).getD (cached.map Waiter.ctx))
  | 7 => s.sramUe 7 inst row 2 (if s.defined row then [row] else s.definedList.filter fun c => (s.ctx c).insts ≠ [])
  | 8 =>
    let on := s.gd.flows.filter fun p => !p.2.spilled
    s.sramUe 8 inst row 2 (((on.drop row).head?.map fun p => [p.1.1]).getD (on.map fun p => p.1.1))
  | 9 => s.sramUe 9 inst row 2 (if (s.carSlot row).st = .free then
      ((s.car.slots.filter fun p => p.2.st ≠ .free).map fun p => p.2.ctx).eraseDups else [(s.carSlot row).ctx])
  | 10 =>
    match (s.plu.preds.drop row).head? with
    | some p => (s.sramCe 10 inst row).flushPreds fun x => x = p
    | none => s.sramCe 10 inst row
  | 11 =>
    if 2 ^ 63 ≤ row then (s.sramUe 11 inst row 2 [row / 4096 % 4096]).ringRewind (row % 4096) (row / 4096 % 4096)
    else s.sramUe 11 inst row 2 ((((AL.get s.rly.chans (row / 8)).credits.drop (row % 8)).head?.map fun (m : Msg) => [m.ctx]).getD
      (s.rly.chans.flatMap fun p => p.2.credits.map Msg.ctx).eraseDups)
  | 12 => s.sramCe 12 inst row
  | 13 =>
    let s1 := s.sramUe 13 inst row 2 []
    if 2 ^ 63 ≤ row then s1.geTrap inst 2 else s1.geFail inst 0
  | 15 => ({ s with fwc := { s.fwc with sramOk := false } }).sramUe 15 inst row 3 []
  | _ => s.sramUe storage inst row 3 []

/-- SRAM_ERROR. -/
def State.sramError (s : State) (storage inst row : Nat) (uncorrectable : Bool) : State :=
  if s.gcs.state = 0 ∨ storage = 0 ∨ 16 < storage then s
  else if uncorrectable then s.sramUncorrectable storage inst row
  else
    let s1 := s.sramCe storage inst row
    if storage = 3 ∨ storage = 4 then s1.ceWorn storage inst row else s1

/-- STAGE_BEAT_REFUSED: the saddle's task is lost (R277, R58; Table 15.4 storage 2). -/
def State.stageBeat (s : State) (c : Nat) : State := match s.entryTask c 0 with
  | some r => (s.sramUe 2 (s.seqPos (c / 8)) (16 * (c % 8)) 2 []).loseTask (c / 8) r
  | none => s

/-! ## Pointer mismatches (R271, Table 11.3) -/

/-- The record PTR_MISMATCH. -/
def State.ptrRecord (s : State) (unit inst kind arg wr : Nat) (ctx : Option Nat) : State :=
  s.err { unit := unit, inst := inst, cls := 2, code := 0x08, ctx := ctx, a := kind, b := arg, c := wr }

/-- The error ring is reset; its PTR_MISMATCH record is the first written after it (R338). -/
def State.errReset (s : State) : State :=
  let wr := s.fsu.errTail.toNat
  ({ s with fsu := { s.fsu with errHead := s.fsu.errTail, errArmed := true } }).ptrRecord 0x0A 0 6 0 wr none

/-- Drop the messages of a channel's buffer, or of the first spill ring of a context's chain. -/
def State.dropMsgs (s : State) (ch ctx : Nat) (spill : Bool) : State :=
  let k := AL.get s.rly.chans ch
  if spill then
    match AL.get k.chains ctx with
    | r :: rest =>
      let k' := { k with chains := if rest = [] then AL.del k.chains ctx else AL.put ctx rest k.chains }
      ({ s with rly := { s.rly with chans := AL.put ch k' s.rly.chans, usedRings := s.rly.usedRings.filter (· ≠ r.idx) } }).relayRoom
    | [] => s
  else { s with rly := { s.rly with chans := AL.put ch { k with credits := [] } s.rly.chans } }

/-- PTR_MISMATCH. `inst` is [7:0] bank, core or region and [11:8] channel; `ctx` the context the queue names. -/
def State.ptrMismatch (s : State) (kind inst ctx : Nat) : State :=
  let core := inst % 256
  let ch := 16 * core + inst / 256 % 16
  if s.gcs.state = 0 then s
  else match kind with
  | 1 => (((s.dropMsgs ch ctx false).ptrRecord 8 0 1 inst (AL.get s.rly.chans ch).wr (some ctx))).push [.faultQuiet ctx 0x08]
  | 2 =>
    let wr := ((AL.get (AL.get s.rly.chans ch).chains ctx).head?.map Ring.wr).getD 0
    ((s.dropMsgs ch ctx true).ptrRecord 8 0 2 inst wr (some ctx)).push [.faultQuiet ctx 0x08]
  | 3 =>
    let s2 := s.setBank core { s.bank core with spill := [] }
    (s2.ptrRecord 2 core 3 core (s.bank core).wr none).push
      ((s.definedList.filter fun c => (s.ctx c).place.isSome && (s.ctx c).bank = core).map fun c => .faultQuiet c 0x08)
  | 4 =>
    let gone := (s.gd.delaySpill.flatMap Prod.snd).map Delay.ctx
    let s2 := { s with gd := { s.gd with delaySpill := [] } }
    (s2.ptrRecord 2 0 4 0 s.gd.delayWr none).push (gone.eraseDups.map fun c => .faultQuiet c 0x08)
  | 5 =>
    let gone := (s.gd.flows.filter fun p => p.2.spilled).map fun p => p.1.1
    let s2 := { s with gd := { s.gd with flows := s.gd.flows.filter fun p => !p.2.spilled } }
    (s2.ptrRecord 2 0 5 0 s.gd.flowWr none).push (gone.eraseDups.map fun c => .faultQuiet c 0x08)
  | 6 => s.errReset
  | 7 =>
    let a := (s.ctx ctx).traceBase
    if a = 0 then s
    else
      let wr := s.rd64 a
      ((s.wr64 (a + 8) wr).wr64 (a + 32) (s.rd64 (a + 32) + 1)).ptrRecord 3 0 7 0 wr.toNat (some ctx)
  | 8 =>
    (({ s with fsu := { s.fsu with staging := [] } }).ptrRecord 0x0A 0 8 0 s.fsu.stageWr none).stageLost
  | 9 =>
    let n := AL.get (s.ge core).streamWr (inst / 256 % 16)
    match (s.ge core).run with
    | some y => (s.ptrRecord 6 core 9 core n (some y.e.ref.ctx)).geTrap core 2
    | none => s.ptrRecord 6 core 9 core n none
  | _ => s

end Sys2Proof.Machine
end

