-- ==== Sys2Proof/Machine/Ports.lean ====
section
/-!
DEFINITION. Core dispatch ports: the requests of a running task (R131, R136 to R138, R198), budgets and stalls (R175, R121), port
faults (R279).
-/
namespace Sys2Proof.Machine

/-- The task that runs on a core and has not been discarded. -/
def State.runningOn (s : State) (c : Nat) : Option Running := match (s.core c).running with
  | some y => if y.discard then none else some y
  | none => none

/-- Answer a request on RSP (Table 5.4a). -/
def State.respond (s : State) (c tag result : Nat) (v : Word) : State :=
  { s with out := { s.out with rsp := s.out.rsp ++ [(c, tag, result, v)] } }

/-- Answer a request that crossed the bridge: the RSP transfer is open (R279). -/
def State.reply (s : State) (c tag result : Nat) (v : Word) : State := (s.respond c tag result v).xferOpen c 8

/-- The running task's context has faulted (Table 5.4a). -/
def State.portFaulted (s : State) (y : Running) : Bool := (s.ctx y.p.e.ref.ctx).st = .faulted

/-- An id outside the context: the context faults with NO_COUNTER and the operation has no effect (R131). -/
def State.portBadId (s : State) (y : Running) (vid : Nat) : State :=
  s.push [.faultCtx y.p.e.ref.ctx 0x04 vid 1 (s.effOf y.p.e.ref)]

/-- Signals that a speculative task's port holds until confirmation (Table 8.3). -/
def State.holdSig (s : State) (c vid inc : Nat) (y : Running) (z : Spec) : State :=
  if z.sigs.length < 16 then
    s.updCore c fun k => { k with running := some { y with p := { y.p with spec := some { z with sigs := z.sigs ++ [(vid, inc)] } } } }
  else s.push [.refute y.p.e.ref 3]

/-- The task whose request a core's port latches now. -/
def State.reqOf (s : State) (c : Nat) : Option Req :=
  (s.runningOn c).map fun y => { ref := y.p.e.ref, spec := y.p.spec.isSome, suppressed := y.suppressed }

/-- The task of a latched request is suppressed, on its core or since it left. -/
def State.reqSuppressed (s : State) (c : Nat) (w : Req) : Bool :=
  w.suppressed || (s.core c).running.any (fun y => decide (y.p.e.ref = w.ref) && y.suppressed) ||
    (s.task? w.ref).any fun t => decide (t.st = .gone .suppressed)

/-- A core-port SIG (R138): suppressed tasks signal nothing (R63), speculative ones hold (R198); a refuted one's are dropped
(Table 8.6). -/
def State.portSig (s : State) (c : Nat) (w : Req) (vid inc : Nat) : State :=
  let x := w.ref.ctx
  if (s.ctx x).st = .faulted ∨ s.reqSuppressed c w ∨ inc % 2 ^ 32 = 0 then s
  else match (s.runningOn c).bind fun y => if y.p.e.ref = w.ref then y.p.spec.map fun z => (y, z) else none with
    | some (y, z) => s.holdSig c vid (inc % 2 ^ 32) y z
    | none =>
      if w.spec then s
      else if s.idLimit x ≤ vid then s.push [.faultCtx x 0x04 vid 1 (s.effOf w.ref)]
      else s.push [.signal x vid (inc % 2 ^ 32) { code := 3, arg := s.effOf w.ref } none]

/-- The port latches a SIG. -/
def State.latchSig (s : State) (c vid inc : Nat) : State := match s.reqOf c with
  | some w => s.push [.sig c w vid inc]
  | none => s

/-- Outstanding waits of a core on virtual counters (R128). -/
def State.coreWaits (s : State) (c : Nat) : Nat := (s.ctu.waiters.filter fun w => match w.who with
  | .core k _ => k = c
  | _ => false).length

/-- A core-port WAIT (R125, R138); a ninth waits at the port while eight are outstanding (R128). -/
def State.portWait (s : State) (c tag vid expected : Nat) : State := match s.runningOn c with
  | none => s
  | some y =>
    let x := y.p.e.ref.ctx
    if s.portFaulted y then s.reply c tag 2 0
    else if y.suppressed then s.reply c tag 1 0
    else if s.idLimit x ≤ vid then (s.portBadId y vid).reply c tag 2 0
    else s.withCtrOr x vid { code := 3, arg := s.effOf y.p.e.ref } (fun s => s.reply c tag 2 0) fun s =>
      s.applyWait x vid expected (.core c tag)

/-- A core-port PROBE (R138). -/
def State.portProbe (s : State) (c tag vid : Nat) : State := match s.runningOn c with
  | none => s
  | some y =>
    let x := y.p.e.ref.ctx
    if s.portFaulted y then s.reply c tag 2 0
    else if s.idLimit x ≤ vid then (s.portBadId y vid).reply c tag 2 0
    else s.withCtrOr x vid { code := 3, arg := s.effOf y.p.e.ref } (fun s => s.reply c tag 2 0) fun s =>
      s.reply c tag (b2n (s.ctr x vid).poison) (wd (s.ctr x vid).val)

/-! ## Core counters (R136, R137, Table 5.3) -/

/-- Largest core-counter value. -/
def ccMax : Nat := 2 ^ 32 - 1

/-- A core counter's value. -/
def State.cc (s : State) (c k : Nat) : Nat := AL.get (s.core c).cc k
def State.setCc (s : State) (c k v : Nat) : State := s.updCore c fun x => { x with cc := AL.put k v x.cc }

/-- The first `n` CC_WAITs on counter `k` are released, each consuming 1. -/
def State.ccRelease (s : State) (c k : Nat) : Nat → State
  | 0 => s
  | n + 1 => match (s.core c).ccWaits.find? fun p => p.1 = k with
    | none => s
    | some p =>
      let s1 := s.updCore c fun x => { x with ccWaits := x.ccWaits.erase p, cc := AL.put k (AL.get x.cc k - 1) x.cc }
      (s1.respond c p.2 0 0).ccRelease c k n

/-- CC_SIGNAL (Table 5.3, R137): answered as every CC_ request is (R136). -/
def State.ccSignal (s : State) (c tag k inc : Nat) : State := match s.runningOn c with
  | none => s
  | some y =>
    let i := inc % 2 ^ 32
    if s.portFaulted y then s.respond c tag 2 0
    else if i = 0 then s.respond c tag 0 0
    else
      let old := s.cc c k
      let new := old + i
      let s1 := s.setCc c k (min new ccMax)
      let s2 := if ccMax < new ∧ !((s.task? y.p.e.ref).getD {}).ccOver then
          (s1.updTask y.p.e.ref fun t => { t with ccOver := true }).err
            { unit := 3, inst := s.seqPos (c / 8), cls := 1, code := 0x03, ctx := some y.p.e.ref.ctx, a := k + 2 ^ 63, b := 3,
              c := s.effOf y.p.e.ref }
        else s1
      (s2.respond c tag 0 0).ccRelease c k (min new ccMax - old)

/-- CC_WAIT (Table 5.3). -/
def State.ccWait (s : State) (c tag k : Nat) : State := match s.runningOn c with
  | none => s
  | some y =>
    if s.portFaulted y then s.respond c tag 2 0
    else if s.cc c k = 0 then s.updCore c fun x => { x with ccWaits := x.ccWaits ++ [(k, tag)] }
    else (s.setCc c k (s.cc c k - 1)).respond c tag 0 0

/-- CTR_UNDERFLOW: the context faults (Table 5.3). -/
def State.ccUnder (s : State) (c tag k : Nat) (y : Running) : State :=
  (s.push [.faultCtx y.p.e.ref.ctx 0x02 (s.effOf y.p.e.ref) k c]).respond c tag 2 0

/-- CC_TAKE; an OP that Table 5.4a does not define is treated as CC_TAKE at value 0 (R138). The operations that the table
defines are rows of their own. -/
def State.ccTake (s : State) (c tag k op : Nat) : State := match s.runningOn c with
  | none => s
  | some y =>
    if s.portFaulted y then s.respond c tag 2 0
    else if op = 6 then
      if s.cc c k = 0 then s.ccUnder c tag k y else (s.setCc c k (s.cc c k - 1)).respond c tag 0 0
    else if op = 0 ∨ 7 < op then s.ccUnder c tag k y
    else s

/-- CC_READ. -/
def State.ccRead (s : State) (c tag k : Nat) : State := match s.runningOn c with
  | none => s
  | some y => if s.portFaulted y then s.respond c tag 2 0 else s.respond c tag 0 (wd (s.cc c k))

/-! ## Reports and timers of a running task -/

/-- SPEC_ACCESS_ATTEMPT (R198). -/
def State.specAccess (s : State) (c : Nat) : State := match s.runningOn c with
  | some y => if y.p.spec.isSome then s.push [.refute y.p.e.ref 3] else s
  | none => s

/-- BUDGET_EXPIRY: a forced trap (R175); a speculative task is refuted instead (Table 8.3). -/
def State.budgetExpiry (s : State) (c : Nat) : State := match s.runningOn c with
  | none => s
  | some y =>
    if s.env.now < y.spurAt + y.budget ∨ y.trap then s
    else if y.p.spec.isSome then s.push [.refute y.p.e.ref 4]
    else s.raiseTrap c false

/-- Tile-stall timeout of a context in ns (R121, Table 7.2): 0 selects the default. -/
def Ctx.stallLimit (x : Ctx) : Nat := if x.stallNs = 0 then 100000000 else x.stallNs

/-- TILE_STALL_TIMEOUT (R121). -/
def State.stallTimeout (s : State) (c : Nat) : State := match (s.core c).saddle with
  | none => s
  | some p => match p.stall with
    | none => s
    | some t =>
      let r := p.e.ref
      if s.env.now < t + (s.ctx r.ctx).stallLimit then s
      else s.push [.faultCtx r.ctx 0x0A (s.effOf r) (((s.task? r).map Task.slice).getD 0xFF) t]

/-! ## Port faults (R279) -/

/-- A DONE or YIELD that waits at the bridge of a failed port is not latched: it goes with the port (R279, Table 12.2 step 6). -/
def State.dropAnswers (s : State) (c : Nat) : State :=
  { s with work := s.work.filter fun w => match w with
    | .done k _ | .yield k => decide (k ≠ c)
    | _ => true }

/-- The task of a failed port goes back: refuted if speculative, with no trap to the failed port, else ready from its start, or from
its saved state when it was resuming. -/
def State.portTask (s : State) (c : Nat) (y : Running) : State :=
  let r := y.p.e.ref
  let s0 := s.dropAnswers c
  let s1 := s0.coreOff c r.ctx
  if y.discard then s1
  else if y.p.spec.isSome then
    (s0.updCore c fun k => { k with running := some { y with discard := true, lost := true } }).push [.refute r 4]
  else if s.unsaved y then s1.taskGone r .discarded
  else
    let s2 := if y.p.e.slot = 0 then s1.freeSlots r else
      s1.updCtx r.ctx fun x => { x with slots := AL.upd x.slots y.p.rslot fun v => { v with saved := true } }
    (s2.updTask r fun t => { t with st := .ready, ran := t.ran && decide (y.p.e.slot ≠ 0) }).toHeap y.p.e

/-- A transfer on a channel of a core's port may have been open for 1 ms (R279). -/
def State.xferLate (s : State) (c channel : Nat) : Bool := match AL.get? channel (s.core c).xfer with
  | some t => decide (t + 1000000 ≤ s.env.now)
  | none => false

/-- The PORT_HANDSHAKE record of a core's port (Table 15.3). -/
def State.portRecord (s : State) (c channel : Nat) : State :=
  let run := (s.core c).running
  s.err { unit := 0x0C, inst := s.globalPort c, cls := 1, code := 0x0C, ctx := run.map fun y => y.p.e.ref.ctx, a := s.globalPort c,
          b := channel, c := (run.map fun y => s.effOf y.p.e.ref).getD ctrMax }

/-- Isolate a port: the spare core takes over the logical core; while role 2 restarts, the remount waits for a REMOUNT (Table
14.4). -/
def State.isolate (s : State) (port : Nat) : State :=
  if s.roleRuns 2 then s.remountNow 1 port 0x0C
  else
    ({ s with fsu := { s.fsu with paused := s.fsu.paused ++ [(1, port)] } }).decideRemount 1 port 0x0C

/-- PORT_FAULT: a transfer has reached its limit; the port is isolated and its task goes back. -/
def State.portFault (s : State) (c channel : Nat) : State :=
  if !s.up ∨ !s.coreOk c ∨ !s.xferLate c channel then s
  else
    let s1 := s.portRecord c channel
    let s2 := match (s.core c).running with
      | some y => s1.portTask c y
      | none => s1
    (s2.updCore c fun k => { k with xfer := [] }).isolate (s.globalPort c)

end Sys2Proof.Machine
end

