-- ==== Sys2Proof/Machine/Relay.lean ====
section
/-!
DEFINITION. The Relay (11): sends (R255, R256, R260 to R264), spill rings (R262, R268 to R270), delivery and port reads (R258).
-/
namespace Sys2Proof.Machine

/-- Fields of a send header (Table 11.1). -/
def hdrCore (h : Word) : Nat := bits h 7 0
def hdrChan (h : Word) : Nat := bits h 11 8
def hdrSlot (h : Word) : Nat := bits h 17 12
def hdrPort (h : Word) : Nat := bits h 19 18
def hdrLen (h : Word) : Nat := bits h 21 20

/-- The current context of a core (R263). -/
def State.curCtx (s : State) (c : Nat) : Option Nat := match (s.core c).running, (s.core c).saddle with
  | some y, _ => some y.p.e.ref.ctx
  | none, some p => some p.e.ref.ctx
  | none, none => none

/-- The Relay port of a logical core is paused (R284). -/
def State.relayPaused (s : State) (c : Nat) : Bool := s.pausedUnit 7 (s.physOf 7 (9 * (c / 8) + c % 8))

/-- A channel's buffer; its key is 16 × core + channel. -/
def State.chan (s : State) (ch : Nat) : Chan := AL.get s.rly.chans ch
def State.setChan (s : State) (ch : Nat) (x : Chan) : State :=
  { s with rly := { s.rly with chans := AL.put ch x s.rly.chans } }

/-- Credits of a channel in use: queued, or in an operand port not yet read (R257, R258). -/
def State.creditsUsed (s : State) (ch : Nat) : Nat :=
  (s.chan ch).credits.length + (s.rly.ports.filter fun p => p.1 / 256 = ch / 16 && p.2.chan = ch % 16).length

/-- Messages of a context in a channel's spill. -/
def Chan.spilled (x : Chan) (c : Nat) : List Msg := (AL.get x.chains c).flatMap Ring.msgs

/-- Address of word `i` of a spill ring (R262, Table 11.6). -/
def State.ringAddr (s : State) (idx i : Nat) : Nat := s.gd.spillBase * 2 ^ 20 + (s.rly.offset + idx) * 4096 + 8 * i

/-- Header of a spill record (Table 11.4). -/
def spillHeader (m : Msg) : Word := wd (fld m.slot 6 26 + fld m.port 2 24 + fld 1 8 16 + fld (m.data.length + 1) 16 0)

/-- Write a record to a ring under R270; none when it does not fit. -/
def State.ringWrite (s : State) (r : Ring) (m : Msg) : Option (Ring × State) :=
  let w := r.wr % ringWords
  let l := m.data.length + 1
  let free := ringWords - (r.wr - r.rd)
  let ws := spillHeader m :: m.data
  if l ≤ ringWords - w then
    if l ≤ free then some ({ r with wr := r.wr + l, msgs := r.msgs ++ [m] }, s.wrWords false (s.ringAddr r.idx w) ws) else none
  else if ringWords - w + l ≤ free then
    some ({ r with wr := r.wr + (ringWords - w) + l, msgs := r.msgs ++ [m] },
      (s.wr64 (s.ringAddr r.idx w) (wd (ringWords - w))).wrWords false (s.ringAddr r.idx 0) ws)
  else none

/-- Take a ring from the pool: the lowest free one (assumption 19), none without a paddock (R99); the pool's level (R272). -/
def State.takeRing (s : State) : Option (Nat × State) :=
  match lowestFree (if s.hasPaddock then s.rly.rings else 0) s.rly.usedRings with
  | none => none
  | some i =>
    let n := s.rly.usedRings.length
    let hit := s.rly.level ≠ 0 && decide (n < s.rly.level) && decide (s.rly.level ≤ n + 1)
    let s1 := { s with rly := { s.rly with usedRings := s.rly.usedRings ++ [i], levelHit := s.rly.levelHit || hit } }
    some (i, if hit && !s.rly.levelHit then s1.irq 5 else s1)

/-- Spill a message: into the chain's last ring, or into a new one (R262); none when the pool has no free ring, or without a paddock
(R99). -/
def State.spill (s : State) (ch : Nat) (m : Msg) : Option State :=
  let chain := AL.get (s.chan ch).chains m.ctx
  let put (s : State) (l : List Ring) : State :=
    let x := s.chan ch
    s.setChan ch { x with chains := AL.put m.ctx l x.chains }
  let old := match if s.hasPaddock then chain.getLast? else none with
    | some r => s.ringWrite r m
    | none => none
  match old with
  | some (r, s1) => some (put s1 (chain.dropLast ++ [r]))
  | none => match s.takeRing with
    | none => none
    | some (i, s1) => match s1.ringWrite { idx := i } m with
      | some (r, s2) => some (put s2 (chain ++ [r]))
      | none => none

/-- Read the oldest message of a chain; rings read empty that the chain has moved on from return to the pool. -/
def chainRead : List Ring → Option (Msg × List Ring × List Nat)
  | [] => none
  | r :: rest => match r.msgs with
    | m :: ms =>
      let r' := { r with rd := r.rd + ringStep r.rd m, msgs := ms }
      if ms = [] ∧ rest ≠ [] then some (m, rest, [r.idx]) else some (m, r' :: rest, [])
    | [] => match chainRead rest with
      | some (m, l, freed) => some (m, l, r.idx :: freed)
      | none => none

/-- Move the oldest spilled message of the core's current context into a free credit (R260), `n` at most; a paused port takes none
(R284). -/
def State.refill (s : State) (ch : Nat) : Nat → State
  | 0 => s
  | n + 1 =>
    if 8 ≤ s.creditsUsed ch || s.relayPaused (ch / 16) then s
    else match s.curCtx (ch / 16) with
      | none => s
      | some c => match chainRead (AL.get (s.chan ch).chains c) with
        | none => s
        | some (m, l, freed) =>
          let x := s.chan ch
          let s1 := s.setChan ch { x with
            credits := x.credits ++ [m], chains := AL.put c l x.chains, wr := x.wr + m.data.length + 1 }
          (({ s1 with rly := { s1.rly with usedRings := s1.rly.usedRings.filter fun i => !freed.contains i } }).relayRoom).refill ch n

/-- Discards have returned credits: every channel takes what they free (R260). -/
def State.refillAll (s : State) : State :=
  (s.rly.chans.filter fun p => p.2.chains ≠ []).foldl (fun (s : State) (p : Nat × Chan) => s.refill p.1 8) s

/-- A message is discarded and counted (R263). -/
def State.strayOne (s : State) : State := { s with rly := { s.rly with stray := s.rly.stray + 1 } }

/-- A send completes ACCEPTED. -/
def State.relayOk (s : State) (c tag : Nat) : State :=
  ({ s with rly := { s.rly with sent := s.rly.sent + 1 } }).reply c tag 0 0

/-- A send completes RELAY_FULL (R262). -/
def State.relayRefuse (s : State) (c tag : Nat) : State :=
  ({ s with rly := { s.rly with full := s.rly.full + 1 } }).reply c tag 1 0

/-- A send finds no ring: the first RELAY_FULL since the pool last had room writes an error record (R262). -/
def State.relayFull (s : State) (c tag : Nat) (h : Word) (ctx : Nat) : State :=
  let s1 := if s.rly.fullRep then s else
    ({ s with rly := { s.rly with fullRep := true } }).err
      { unit := 8, cls := 1, code := 0x0E, ctx := some ctx,
        a := fld (hdrChan h) 4 8 + hdrCore h, b := c, c := s.rly.usedRings.length }
  s1.relayRefuse c tag

/-- A speculative task's send with a good header is discarded, and the task refuted (R198, R264); the result that answers it is not
stated: a free one of ACCEPTED and RELAY_FULL, counted and no more (assumption 13). -/
def State.relaySpec (s : State) (z : Send) : State :=
  let p := s.strayOne.fresh 1
  let s1 := p.2.push [.refute z.who.ref 3]
  if p.1 = 0 then s1.relayOk z.core z.tag else s1.relayRefuse z.core z.tag

/-- Take an accepted message: a free credit, or the spill (R260). -/
def State.relayTake (s : State) (c tag : Nat) (h : Word) (m : Msg) : State :=
  let ch := 16 * hdrCore h + hdrChan h
  let s0 := s.refill ch 8
  let x := s0.chan ch
  if s0.creditsUsed ch < 8 ∧ x.spilled m.ctx = [] then 
    (s0.setChan ch { x with credits := x.credits ++ [m], wr := x.wr + m.data.length + 1 }).relayOk c tag
  else match s0.spill ch m with
    | some s1 => ({ s1 with rly := { s1.rly with spilled := s1.rly.spilled + 1 } }).relayOk c tag
    | none => s0.relayFull c tag h m.ctx

/-- The port latches a send with the task that issues it (R255). -/
def State.latchSend (s : State) (c tag : Nat) (hdr : Word) (payload : List Word) : State := match s.reqOf c with
  | some w => s.push [.relay { core := c, who := w, tag := tag, hdr := hdr, payload := payload }]
  | none => s

/-- A send reaches the Relay (R255, R256, R263, R264, R274). A suppressed task's completes ACCEPTED whatever its header, the model's
reading of R264 beside R256 (assumption 31). One that a speculative task issued is discarded whatever has become of the task. -/
def State.relaySend (s : State) (z : Send) : State :=
  let x := z.who.ref.ctx
  let h := z.hdr
  let t := hdrCore h
  if !s.rly.en then { s with rly := { s.rly with held := s.rly.held ++ [z] } }
  else if s.reqSuppressed z.core z.who then s.strayOne.relayOk z.core z.tag
  else if bits h 63 22 ≠ 0 ∨ !s.present (t / 8) then
    (if z.who.spec then s.push [.refute z.who.ref 3] else s).reply z.core z.tag 2 0
  else if z.who.spec then s.relaySpec z
  else
    let m : Msg := { ctx := x, slot := hdrSlot h, port := hdrPort h, chan := hdrChan h,
                     data := (List.range (hdrLen h + 1)).map fun i => wordAt z.payload i }
    match s.curCtx t with
    | some k => if k ≠ x then s.strayOne.relayOk z.core z.tag else s.relayTake z.core z.tag h m
    | none => s.relayTake z.core z.tag h m

/-- Sends that waited for `RLY_CTL.EN` reach the Relay in order, before those that are still at their bridges (R259). -/
def State.relayResume (s : State) : State :=
  { s with rly := { s.rly with held := [] }, work := s.rly.held.map Work.relay ++ s.work }

/-- RELAY_DELIVER: the oldest message of a channel enters its operand port (R258). -/
def State.relayDeliver (s : State) (c ch : Nat) : State :=
  let key := 16 * c + ch
  let s0 := s.refill key 8
  match (s0.chan key).credits, s0.runningOn c with
  | m :: rest, some y =>
    let port := 256 * c + 4 * m.slot + m.port
    if y.p.e.ref.ctx ≠ m.ctx ∨ AL.has s0.rly.ports port ∨ s0.gcs.changing ∨ s0.relayPaused c ∨ 16 ≤ ch then s
    else
      let s1 := s0.setChan key { s0.chan key with credits := rest }
      { s1 with rly := { s1.rly with ports := AL.put port m s1.rly.ports } }
  | _, _ => s

/-- OPERAND_PORT_READ: the port empties, and its credit goes to the oldest spilled message (R258, R260). -/
def State.portRead (s : State) (c slot port : Nat) : State :=
  let k := 256 * c + 4 * slot + port
  match AL.get? k s.rly.ports with
  | none => s
  | some m =>
    let s1 := { s with rly := { s.rly with ports := AL.del s.rly.ports k } }
    s1.refill (16 * c + m.chan) 8

end Sys2Proof.Machine
end

