-- ==== Sys2Proof/Machine/Pins.lean ====
section
/-!
DEFINITION. Pins and links: event lines (R288 to R290), the gait handshake (R284, R285), power-fail (R291, R350), the herd-link rows
(R282, R283).
-/
namespace Sys2Proof.Machine

/-! ## Event lines -/

def State.updLine (s : State) (n : Nat) (f : EvtLine → EvtLine) : State := s.setLine n (f (s.line n))

/-- Count of launches among pending actions. -/
def EvtLine.launches (x : EvtLine) : Nat := (x.pend.filter fun p => bit p.1 62).length

/-- Add the action of an accepted edge: signals merge, launches wait up to 16 (R289). -/
def EvtLine.addAction (x : EvtLine) (now : Nat) : EvtLine :=
  if !bit x.act 63 then x
  else if bit x.act 62 then
    if x.launches < 16 then { x with pend := x.pend ++ [(x.act, now, 1)] } else x
  else if x.pend.any fun p => p.1 = x.act then
    { x with pend := x.pend.map fun (p : Word × Nat × Nat) => if p.1 = x.act then (p.1, p.2.1, p.2.2 + 1) else p }
  else { x with pend := x.pend ++ [(x.act, now, 1)] }

/-- EVT_EDGE: a rising edge of line `n` (R288); LEVEL follows the line whether or not the edge is accepted (Table 12.12). -/
def State.evtEdge (s : State) (n : Nat) : State :=
  let x := s.line n
  if 8 ≤ n ∨ x.level then s
  else if s.gcs.state = 0 || !s.gcs.evtEn.getLsbD n || s.gcs.evtStuck.getLsbD n then s.setLine n { x with level := true }
  else if (match x.lastEdge with
      | some t => decide (s.env.now < t + 50)
      | none => false) then s.setLine n { x with level := true, held := true }
  else
    let y := { x with level := true, held := true, lastEdge := some s.env.now, count := sat (2 ^ 32 - 1) (x.count + 1) }
    (s.setLine n (y.addAction s.env.now)).push [.evtAct n]

/-- Perform one pending action of a line; a context, id or launch that does not hold discards it (R289). -/
def State.evtPerform (s : State) (p : Word × Nat × Nat) : State :=
  let c := bits p.1 59 48
  if !s.defined c ∨ (s.ctx c).st = .faulted then s
  else if bit p.1 62 then
    let g := bits p.1 15 0
    match AL.get? g (s.ctx c).graphs with
    | none => s
    | some x =>
      let base := (x.seq * x.span) % 2 ^ 32
      if s.launchCheck c g true base 1 ≠ 0 then s else (s.launch c g base 1 { at_ := p.2.1 }).2
  else
    let v := bits p.1 47 24
    if s.idLimit c ≤ v then s else s.push [.signal c v p.2.2 { code := 5, arg := 0 } none]

/-- Perform a line's pending actions (R289). -/
def State.evtAct (s : State) (n : Nat) : State :=
  (s.line n).pend.foldl State.evtPerform (s.updLine n fun x => { x with pend := [] })

/-- EVT_LINE_FALL: the line falls (R288, R290). -/
def State.evtFall (s : State) (n : Nat) : State :=
  if 8 ≤ n then s else s.updLine n fun x => { x with level := false, held := false }

/-- EVT_STUCK: a line stayed high for longer than STUCK_MS after an accepted edge (R290). -/
def State.evtStuckLine (s : State) (n : Nat) : State :=
  let x := s.line n
  match x.lastEdge with
  | none => s
  | some t =>
    if 8 ≤ n ∨ !x.held ∨ !x.level ∨ s.gcs.stuckMs = 0 ∨ s.gcs.evtStuck.getLsbD n ∨ s.env.now ≤ t + 1000000 * s.gcs.stuckMs then s
    else
      let (u, s1) := s.fresh 8
      (({ s1 with gcs := { s1.gcs with evtStuck := s1.gcs.evtStuck ||| (1#8 <<< n) } }).err
        { unit := u.toNat, cls := 1, code := 0x0B, a := n, b := x.count, c := t }).irq 4

/-- A write of 1 to STUCK bit `n`: it takes effect only while the line is low (R290). -/
def State.stuckClear (s : State) (n : Nat) : State :=
  if (s.line n).level then s else { s with gcs := { s.gcs with evtStuck := s.gcs.evtStuck &&& ~~~(1#8 <<< n) } }

/-- STUCK_REARM: firmware re-arms a line while role 2 runs (Table 14.4). -/
def State.stuckRearm (s : State) (n : Nat) : State := if s.up && s.roleRuns 2 && decide (n < 8) then s.stuckClear n else s

/-- Bits of an action register that are not reserved (Table 12.13). -/
def evtActMask : Word := wd 0xCFFFFFFFFF00FFFF

/-- A write of `GCS_EVT_ACT` n takes effect only while the line is disabled (R290). -/
def State.evtActWrite (s : State) (n : Nat) (v : Word) : State :=
  if 8 ≤ n ∨ s.gcs.evtEn.getLsbD n then s else s.updLine n fun x => { x with act := v &&& evtActMask }

/-- A write of 0 restarts the count; the register is RW (Table 12.13). -/
def State.evtCountWrite (s : State) (n : Nat) (v : Word) : State :=
  if 8 ≤ n then s else s.updLine n fun x => { x with count := bits v 31 0 }

/-! ## Gait changes (Table 12.6) -/

/-- No change is possible: the block answers without draining (R285). -/
def State.noDrain (s : State) : Bool := s.gcs.state = 0 || s.gcs.state = 1 || s.gcs.state = 4

/-- Raise `gait_ack` (step 3). -/
def State.raiseAck (s : State) : State :=
  { s with gcs := { s.gcs with gaitAck := true }, out := { s.out with gaitAcks := s.out.gaitAcks + 1 } }

/-- GAIT_REQ (step 1). One raised during a change is taken up after it (R285). -/
def State.gaitReq (s : State) (sel : Nat) : State :=
  if 3 ≤ sel then s
  else if s.gcs.changing then { s with gcs := { s.gcs with gaitNext := some sel } }
  else
    let s1 := { s with gcs := { s.gcs with changing := true, gaitSel := sel, gaitStart := s.env.now, gaitAck := false } }
    if s1.noDrain then s1.raiseAck else s1

/-- GAIT_ACK (step 3): the handshakes in flight have drained. -/
def State.gaitAcked (s : State) : State := if s.gcs.changing && !s.gcs.gaitAck then s.raiseAck else s

/-- GAIT_DONE (steps 4 to 6): stages in `bad` fail verification, each as wear beyond the limit. -/
def State.gaitDone (s : State) (bad : List Wear) : State :=
  if !s.gcs.changing ∨ !s.gcs.gaitAck then s
  else
    let g := s.gcs
    let s1 := { s.stretchSusp g.gaitStart with gcs := { g with
      changing := false, gaitAck := false, gait := g.gaitSel, changes := (g.changes + 1) % 2 ^ 32,
      lastUs := sat 0xFFFF ((s.env.now - g.gaitStart) / 1000) } }
    (bad.foldl State.wearVerify s1).irq 6

/-- A request raised during the change is taken up after step 6 (R285). -/
def State.gaitFollow (s : State) : State := match s.gcs.gaitNext with
  | some sel => if s.gcs.changing then s else ({ s with gcs := { s.gcs with gaitNext := none } }).gaitReq sel
  | none => s

/-- TTH_GAIT_REQ: firmware asks for a gait (R285, Table 12.8); role 3 issues gait requests (Table 14.2). -/
def State.tthGaitReq (s : State) (target : Nat) : State :=
  if !s.up ∨ !s.roleRuns 3 ∨ 4 ≤ target then s else { s with tth := { s.tth with reqTarget := target, req := true } }

/-- GAIT_REQUEST_ANSWER (Table 12.8). -/
def State.gaitAnswer (s : State) (denied : Bool) : State :=
  if s.tth.req then { s with tth := { s.tth with req := false, reqDenied := denied } } else s

/-! ## Power-fail (R291, R350) -/

/-- Write the staging queue to the power-loss reserve, or to the ring when it lacks room (R350). -/
def State.flushReserve (s : State) : State :=
  if s.flash.reserve.length + s.fsu.staging.length ≤ 1024 then
    ({ s with
        flash := { s.flash with reserve := s.flash.reserve ++ s.fsu.staging }
        fsu := { s.fsu with staging := [] } }).stageLost
  else s.flushStudbook

/-- PWR_FAIL: an assertion of `pwr_fail_n` that lasts 1 µs (R291). -/
def State.pwrFail (s : State) : State :=
  if !s.fsu.power ∨ s.fsu.pfAsserted then s
  else
    let n := s.fsu.powerFails + 1
    let s1 := { s with fsu := { s.fsu with powerFails := n, pfAsserted := true, pfHighAt := none } }
    let s2 := s1.err { unit := 0x0A, cls := 1, code := 0x16, a := n, b := min 16 (s1.fsu.staging.length + 1) }
    let s3 := s2.flushReserve
    (({ s3 with fsu := { s3.fsu with flushed := true } }).healthNew 19).ibi 4

/-- PWR_FAIL_RELEASE (R291). -/
def State.pwrFailRelease (s : State) : State :=
  if s.fsu.pfAsserted then { s with fsu := { s.fsu with pfAsserted := false, pfHighAt := some s.env.now } } else s

/-- Move the reserve's records into the ring (R349). -/
def State.emptyReserve (s : State) : State :=
  s.flash.reserve.foldl State.sbWrite { s with flash := { s.flash with reserve := [] } }

/-- Write the staged records: those of a start only behind the reserve's (R349). -/
def State.flushOrdered (s : State) : State := (if s.up then s else s.emptyReserve).flushStudbook

/-- STUDBOOK_FLUSH: the FSU writes what is staged; while a start has not moved the reserve's records it waits (R349). -/
def State.flushRow (s : State) : State :=
  if s.gcs.state ≠ 0 ∧ s.env.sfdpOk ∧ (s.up ∨ s.flash.reserve = []) then s.flushStudbook else s

/-- RESERVE_DRAIN: `pwr_fail_n` has been high for 1 s (R350). -/
def State.reserveDrain (s : State) : State := match s.fsu.pfHighAt with
  | some t => if s.up && s.roleRuns 2 && decide (t + 1000000000 ≤ s.env.now) then s.emptyReserve else s
  | none => s

/-! ## Herd links (R282, R283) -/

/-- TRAIL_SEND (Table 12.5 steps 1 and 2). -/
def State.trailSend (s : State) : State := if s.up && !s.gcs.changing then s.trailPlace else s

/-- TRAIL_TIMEOUT: 1 ms without an ACK (R283). -/
def State.trailTimeout (s : State) (dest seq : Nat) : State :=
  s.trailClose (fun x => decide (x.dest = dest) && decide (x.seq = seq) && decide (x.sentAt + 1000000 ≤ s.env.now)) (some 0)

/-- LINK_RESET: SEQ restarts in both directions, and every unacknowledged record fails (R283). -/
def State.linkReset (s : State) (herd : Nat) : State :=
  let s1 := s.trailFailAll herd 3
  { s1 with ctu := { s1.ctu with
      seqOut := AL.del s1.ctu.seqOut herd
      seen := s1.ctu.seen.filter fun p => p.1 ≠ herd
      down := s1.ctu.down.filter fun d => d ≠ herd } }

/-- LINK_UNREACHABLE: the destination's records fail at once, sent or queued (R283). -/
def State.linkDown (s : State) (herd : Nat) : State :=
  let s1 := s.trailFailAll herd 3
  let mine := s1.ctu.toSend.filter fun x => x.dest = herd
  mine.foldl (fun s x => s.trailSettled x (some 3))
    { s1 with ctu := { s1.ctu with
        toSend := s1.ctu.toSend.filter fun x => x.dest ≠ herd
        down := if s1.ctu.down.contains herd then s1.ctu.down else s1.ctu.down ++ [herd] } }

end Sys2Proof.Machine
end

