-- ==== Sys2Proof/Machine/Boot.lean ====
section
/-!
DEFINITION. Resets and starts (13): quiescing and what a start keeps (R296, R297), image choice and verification (R306 to R309),
cold and warm starts (R298, R304), tether enumeration (R299, R300), grooming (R302, R303), herd address (R310), safe mode
and recovery (R311, R312).
-/
namespace Sys2Proof.Machine

/-! ## Images (R308) -/

/-- An image slot; `b` is image B. -/
def State.imageSlot (s : State) (b : Bool) : Image := if b then s.flash.imgB else s.flash.imgA

/-- Store an image in a slot. -/
def State.setImage (s : State) (b : Bool) (x : Image) : State :=
  { s with flash := if b then { s.flash with imgB := x } else { s.flash with imgA := x } }

/-- The first failing check of R308. -/
def State.imageFail? (s : State) (x : Image) : Option Nat :=
  if !x.formOk then some 1 else if !x.keyOk then some 2 else if !x.sigOk then some 3 else if !x.bodyOk then some 4
  else if x.secVer < s.flash.otp then some 5 else none

/-- Bytes of an image header field, as a number. -/
def State.hdrNat (s : State) (a off n : Nat) : Nat := leNat (s.rdBytes false (a + off) n)

/-- An image in device memory, and what checks 1 to 4 find (Table 13.10). -/
def State.readImage (s : State) (a : Nat) : Image :=
  let load := s.hdrNat a 0x14 4
  let total := s.hdrNat a 0x18 4
  let key := s.rdBytes false (a + 0x50) 97
  { formOk := s.hdrNat a 0 8 = 0x4D495742 && s.hdrNat a 8 4 = 1 && decide (load ≤ 1024 * s.env.dev.sramKib) &&
      decide (0x200 ≤ total) && decide (load ≤ total - 0x200) && decide (total ≤ 0x800000)
    keyOk := Sys2Proof.Machine.keyOk key
    sigOk := signatureOk (s.rdBytes false a 0x100) key (s.rdBytes false (a + 0x100) 96)
    bodyOk := bodyHashOk (s.rdBytes false (a + 0x200) (total - 0x200)) (s.rdBytes false (a + 0x20) 48)
    imageVer := s.hdrNat a 0x0C 4
    secVer := s.hdrNat a 0x10 4
    loadSize := load
    totalSize := total
    digest := s.hdrNat a 0x20 48 }

/-- FW_IMAGE_BAD: the slot, the failed check, SEC_VER read (Table 15.3). -/
def State.imageBad (s : State) (b : Bool) (check : Nat) (x : Image) : State :=
  s.err { unit := 9, cls := 1, code := 0x11, a := b2n b, b := check, c := x.secVer }

/-- Consecutive failed starts of an image. -/
def Tack.fails (t : Tack) (b : Bool) : Nat := if b then t.failB else t.failA
/-- Set the failure count of an image. -/
def Tack.setFails (t : Tack) (b : Bool) (n : Nat) : Tack := if b then { t with failB := n } else { t with failA := n }

/-- The image that R306 chooses; none leads to safe mode. -/
def Tack.choose (t : Tack) : Option Bool :=
  if t.fails t.prefB < 3 then some t.prefB else if t.fails (!t.prefB) < 3 then some !t.prefB else none

/-- The rollback floor rises to the lower SEC_VER of the slots whose headers pass checks 1 to 3 (R309). -/
def State.raiseFloor (s : State) : State :=
  let ok := [s.flash.imgA, s.flash.imgB].filter fun x => x.formOk && x.keyOk && x.sigOk
  match argMin Image.secVer ok with
  | some x =>
    let f := max s.flash.otp x.secVer
    { s with flash := { s.flash with otp := f }, fwc := { s.fwc with verFloor := f } }
  | none => s

/-- Note the running image in `GCS_STATUS` and `FWC_IMAGE_VER`. -/
def State.noteImage (s : State) (b : Bool) : State :=
  let x := s.imageSlot b
  { s with
      gcs := { s.gcs with image := b }
      fwc := { s.fwc with verSlot := b, verFloor := s.flash.otp, verSec := x.secVer, verImage := x.imageVer } }

/-! ## Firmware cores (R314 to R316) -/

/-- Physical cores in a state. -/
def Fwc.coresIn (f : Fwc) (st : Nat) : List Nat := (f.cores.filter fun p => p.2 = st).map Prod.fst

/-- Take a firmware core out of service at a start: the spare, or the active core with the lowest number, takes its roles. -/
def State.retireFwCore (s : State) (k : Nat) : State :=
  let mark (s : State) : State := { s with fsu := { s.fsu with retired := s.fsu.retired ++ [(6, k)] } }
  if AL.get s.fwc.cores k = 3 then mark (s.retireSpare 6 k)
  else match s.fwc.coresIn 3 with
    | n :: _ =>
      let s1 := mark ((s.fwMove k n).useSpare 6)
      { s1 with fsu := { s1.fsu with remounted := true } }
    | [] =>
      if s.fwOthers k = [] then s
      else
        let s1 := mark (s.fwDrop k)
        { s1 with fsu := { s1.fsu with lostUnits := s1.fsu.lostUnits ++ [(6, k)] } }

/-- The cores of a first cold start (Table 14.1), less those that the repair map retires. -/
def State.startCores (s : State) : State :=
  let d := s.env.dev
  let cores := (List.range d.fwCores).map fun k => (k, if k < d.fwActive then 1 else 3)
  let s1 := { s with fwc := { s.fwc with
    cores := cores, active := d.fwActive, spares := d.fwCores - d.fwActive, roleMap := d.pick 0x3210 0 } }
  let s2 := (s1.tack.repair.filter fun p => p.1 = 6).foldl (fun s p => s.retireFwCore p.2) s1
  { s2 with fwc := { s2.fwc with frozen := false, cores := s2.fwc.cores.map fun (p : Nat × Nat) => (p.1, if p.2 = 2 then 1 else p.2) } }

/-! ## What a start keeps (R297) -/

/-- Every field at its reset value but for what lies outside the block's registers: memories, flash, outputs, the waiting
commands. -/
def State.cleared (s : State) : State :=
  { State.resetOn s.env.dev with
      env := s.env, mem := s.mem, hostMem := s.hostMem, freeCount := s.freeCount, pending := s.pending, out := s.out,
      flash := s.flash }

/-- Through a reset the pins, the gait handshake and the management endpoint stay as they are (assumptions 25 and 27). -/
def State.keepPins (s o : State) : State :=
  { s with
      gcs := { s.gcs with
        gait := o.gcs.gait, changing := o.gcs.changing, gaitSel := o.gcs.gaitSel, gaitStart := o.gcs.gaitStart,
        gaitAck := o.gcs.gaitAck, gaitNext := o.gcs.gaitNext,
        lines := o.gcs.lines.map fun (p : Nat × EvtLine) => (p.1, { level := p.2.level }) }
      i3c := o.i3c
      fsu := { s.fsu with power := o.fsu.power, pfAsserted := o.fsu.pfAsserted, pfHighAt := o.fsu.pfHighAt } }

/-- What a warm start keeps (Table 13.3, R8): the sticky register fields, and the remount map behind them. -/
def State.keepSticky (s o : State) : State :=
  { s with
      csq := { s.csq with
        seqrs := o.csq.seqrs
        cores := (o.csq.cores.filter fun p => p.2.withdrawn).map fun (p : Nat × Core) => (p.1, { withdrawn := true }) }
      ges := (o.ges.filter fun p => p.2.lost ≠ 0).map fun (p : Nat × Ge) => (p.1, { lost := p.2.lost })
      gcs := { s.gcs with
        herdValid := o.gcs.herdValid, herdGroup := o.gcs.herdGroup, herdDa := o.gcs.herdDa, herdAddr := o.gcs.herdAddr }
      tth := { s.tth with
        safeCodes := o.tth.safeCodes, roles := o.tth.roles, noAnswer := o.tth.noAnswer, groomValid := o.tth.groomValid,
        groomGait := o.tth.groomGait, groomTemp := o.tth.groomTemp, groomFailed := o.tth.groomFailed,
        groomTrained := o.tth.groomTrained, train := o.tth.train, answers := o.tth.answers }
      fwc := { s.fwc with
        active := o.fwc.active, spares := o.fwc.spares, roleMap := o.fwc.roleMap, restarts := o.fwc.restarts,
        cores := o.fwc.cores.map fun (p : Nat × Nat) => (p.1, if p.2 = 2 then 1 else p.2),
        digest := o.fwc.digest, sramOk := o.fwc.sramOk, group := o.fwc.group }
      fsu := { s.fsu with
        state := o.fsu.state, replace := o.fsu.replace, exhausted := o.fsu.exhausted, spares := o.fsu.spares,
        sectors := o.fsu.sectors, sbSpares := o.fsu.sbSpares, kept := o.fsu.kept, lostUnits := o.fsu.lostUnits,
        retired := o.fsu.retired, map := o.fsu.map, paused := o.fsu.paused, remounts := o.fsu.remounts,
        unrecorded := o.fsu.unrecorded, leaving := o.fsu.leaving, margins := o.fsu.margins, at63 := o.fsu.at63,
        remounted := o.fsu.remounted, heldWear := o.fsu.heldWear } }

/-! ## Safe mode (R311) -/

/-- Enter safe mode; the in-band interrupts 0x03 and 0x01 are raised whatever REPLACE was. -/
def State.safeMode (s : State) : State := ((({ s with gcs := { s.gcs with state := 4 } }).health).ibi 3).ibi 1

/-! ## Steps 1 to 6 of a start (Tables 13.4, 13.6) -/

def State.setStep (s : State) (n : Nat) : State := { s with gcs := { s.gcs with step := n } }

/-- Step 3: choose an image, count the attempt, verify it; `n` bounds the repeats. True when an image is accepted. -/
def State.bootImage (s : State) (warm : Bool) : Nat → Bool × State
  | 0 => (false, s.safeMode)
  | n + 1 => match s.tack.choose with
    | none => (false, s.safeMode)
    | some b =>
      let x := s.imageSlot b
      let s1 := s.setTack (s.tack.setFails b (s.tack.fails b + 1))
      if warm && s1.fwc.digest = some x.digest && s1.fwc.sramOk then (true, s1.noteImage b)
      else match s1.imageFail? x with
        | none => (true, ({ s1 with fwc := { s1.fwc with digest := some x.digest, sramOk := true } }).noteImage b)
        | some k => ((s1.imageBad b k x).setTack (s1.tack.setFails b 3)).bootImage warm n

/-- One unit that the repair map retires (step 6); `new` where this start's self-test has found it, so that its loss is new. -/
def State.repairUnit (new : Bool) (s : State) (p : Nat × Nat) : State := match s.logicalOf p.1 p.2 with
  | none => if s.freeSpare p.1 p.2 then s.retireSpare p.1 p.2 else s
  | some l => match s.spareFor p.1 p.2 with
    | some n =>
      let s1 := ((s.moveUnit p.1 l p.2 n).useSpare p.1).markRetired p.1 p.2
      { s1 with fsu := { s1.fsu with remounted := true } }
    | none =>
      let s1 := (s.loseUnit p.1 l p.2).markRetired p.1 p.2
      if new then s1.noSpareLeft p.1 p.2 else s1

/-- The rows and banks that the self-tests find bad and the repair map does not name (step 5). -/
def State.findings (s : State) : List (Nat × Nat) := (s.env.defects.filter fun p => (p.1 = 3 || p.1 = 4) && !s.tack.repair.contains p).eraseDups

/-- Step 6: they join the repair map (Table 13.4). -/
def State.mergeFindings (s : State) : State :=
  if s.findings = [] then s else s.setTack { s.tack with repair := s.tack.repair ++ s.findings }

/-- R303: a warm start keeps its codes. -/
def State.groomKept (s : State) : Bool :=
  s.tth.groomGait = s.gcs.gait && decide (s.env.temp - s.tth.groomTemp ≤ 40) && decide (s.tth.groomTemp - s.env.temp ≤ 40)

/-- A start is at the step that grooms: 7 of a cold start, or of a warm one that R303 does not excuse. -/
def State.groomDue (s : State) : Bool := s.gcs.state = 1 && s.gcs.step = 7 && s.tth.groomReq

/-- Step 7 begins where a grooming is due. -/
def State.groomStart (s : State) : State :=
  if s.gcs.kind = 3 ∧ s.groomKept then s else { s with gcs := { s.gcs with step := 7 }, tth := { s.tth with groomReq := true } }

/-- Step 6: the repair map is applied, then this start's findings; sequencers follow at step 8, firmware cores went before at step
4. -/
def State.applyRepair (s : State) : State :=
  let s1 := (s.tack.repair.filter fun p => p.1 ≠ 2 && p.1 ≠ 6).foldl (State.repairUnit false) s
  s.findings.foldl (State.repairUnit true) s1.mergeFindings

/-- No heap bank or no counter-store row is usable (R298). -/
def State.storesMissing (s : State) : Bool := s.bankList = [] || decide (s.env.dev.counters / 1024 ≤ s.lostOf 4)

/-- A step that finds no usable instance of an essential unit makes the start fail (R298). -/
def State.failsIf (s : State) (b : Bool) : State := if b then s.push [.startFail] else s

/-- The next SEQ after the flash's records (R349). -/
def State.nextSbSeq (s : State) : Nat :=
  ((s.flash.ring ++ s.flash.reserve).filter sbIntact).foldl (fun n r => max n (sbSeq r + 1)) 0

/-- A block that starts on a bus whose controller has run ENTDAA, and that holds no dynamic address, requests hot-join (R310, Table
12.15). -/
def State.hotJoin (s : State) : State :=
  if s.i3c.ranDaa ∧ s.gcs.herdDa = 0 then { s with out := { s.out with hotJoins := s.out.hotJoins + 1 } } else s

/-- Steps 1 to 6; `kind` as `GCS_STATUS.KIND`: 1 power-on, 2 cold, 3 warm. The reset choice for an UNCONTAINED error is in force once
the tack store has been read (R295). -/
def State.startSteps (s : State) (kind : Nat) : State :=
  let warm := decide (kind = 3)
  let s1 := ({ s with
    gcs := { s.gcs with state := 1, kind := kind, step := 1 }
    fsu := { s.fsu with nextSeq := s.nextSbSeq } }).hotJoin
  if !s.env.sfdpOk then s1.safeMode
  else
    let s2 := (match s1.tack? with
      | some _ => s1
      | none => s1.stage 0x07 [1, 0, 0, 0]).setStep 3
    let t := s2.tack
    let s2 := { s2 with fwc := { s2.fwc with resetCold := bit (AL.get t.policy 479) 0 } }
    let s3 := s2.setTack (if warm then { t with warm := (t.warm + 1) % 2 ^ 32 } else { t with cold := (t.cold + 1) % 2 ^ 32 })
    match s3.bootImage warm 7 with
    | (false, s4) => s4
    | (true, s4) =>
      let s4' := if warm then s4 else { s4.startCores with fwc := { s4.startCores.fwc with group := s4.tack.group } }
      let s5 := (List.range s.env.dev.fwCores).foldl State.pet s4'
      let s6 := ({ s5 with fwc := { s5.fwc with watchdog := some s5.env.now } }).setStep 6
      let s7 := if warm then s6 else s6.applyRepair
      if s7.storesMissing then s7.push [.startFail] else s7.groomStart

/-! ## Resets (R295, R296) -/

/-- Steps 2 and 3 of Table 13.2 for a core: a task on it is trapped with the discard mark at `start`. Whether the core answers within
the 1 ms of R279 is not for the block to say (a free value, assumption 6); a port that does not is recorded and isolated at that
limit. -/
def State.quiesceCore (start : Nat) (s : State) (c : Nat) : State := match (s.core c).running with
  | none => s
  | some y =>
    let p := (s.toPort c [.trap (s.runSlot y) true]).fresh 1
    if p.1 = 0 then p.2 else ((p.2.at (start + 1000000)).portRecord c 5).isolate (p.2.globalPort c)

/-- Quiesce (Table 13.2), clear and start: `trigger` and `code` as in a RESET record (Table 15.8). -/
def State.resetNow (s0 : State) (cold : Bool) (trigger code : Nat) : State :=
  let s := (s0.csq.cores.map Prod.fst).foldl (State.quiesceCore s0.env.now) s0
  let q := (s.stage 0x03 [wd (fld trigger 8 8 + if cold then 1 else 2), wd code, 0, 0]).flushOrdered
  let c := q.cleared.keepPins q
  let k := if cold then c else c.keepSticky q
  let k1 := if trigger = 3 then k.healthNew 18 else k
  k1.startSteps (if cold then 2 else 3)

/-- A reset asked for: nothing while power is off; while BOOTING, one through `GCS_CTL` is cold (R307); in safe mode only a
cold reset acts (R311). -/
def State.resetReq (s : State) (cold : Bool) (trigger code : Nat) : State :=
  let cold' := cold || (decide (trigger = 2) && s.gcs.state = 1)
  if s.gcs.state = 0 then s
  else if s.gcs.state = 4 ∧ !cold' then { s with fsu := { s.fsu with resetPending := false } }
  else s.resetNow cold' trigger code

/-- POWER_ON: module power is applied; the power manager grants Walk (Table 12.7). -/
def State.powerOn (s : State) : State :=
  if s.fsu.power then s
  else
    let c := s.cleared
    let lines := s.gcs.lines.map fun (p : Nat × EvtLine) => (p.1, ({ level := p.2.level } : EvtLine))
    ({ c with
        gcs := { c.gcs with lines := lines }
        i3c := { c.i3c with ranDaa := s.i3c.ranDaa }
        fsu := { c.fsu with power := true, pfHighAt := some s.env.now } }).startSteps 1

/-- POWER_FALL: every activity ends; what is not in flash or memory is lost (R291, assumption 1). -/
def State.powerFall (s : State) : State :=
  let c := s.cleared
  { c with
      gcs := { c.gcs with lines := s.gcs.lines.map fun (p : Nat × EvtLine) => (p.1, ({ level := p.2.level } : EvtLine)) }
      i3c := { c.i3c with ranDaa := s.i3c.ranDaa } }

/-- START_WATCHDOG: 10 s after step 4 (R307). -/
def State.startWatchdog (s : State) : State := match s.fwc.watchdog with
  | some t => if t + 10000000000 ≤ s.env.now ∧ s.gcs.state ≠ 0 ∧ s.gcs.state ≠ 4 then s.resetNow false 4 0 else s
  | none => s

/-! ## Grooming (R302, R303) -/

/-- The remounts that the step decided are made at once: every unit is idle during a start. Those of sequencers wait for the
enumeration. -/
def State.remountAll (s : State) : State :=
  (s.fsu.remounts.filter fun p => p.1 ≠ 2 || (s.seqr p.2.1).valid).foldl (fun (s : State) (p : Nat × Nat × Nat) => (s.dropRemount p).remountNow p.1 p.2.1 p.2.2) s

/-- A stage with no passing code: its unit is worn beyond the limit, at code 63 too, and is remounted (R302); the decision is role
2's. -/
def State.groomFail (s : State) (x : Wear) : State := s.wearOrHold { x with margin63 := min x.margin63 (s.fsu.wearLimit - 1) }

/-- GROOM: every stage is groomed at the gait in force and at this temperature, which a warm start compares with its codes' (R303);
once the block runs, role 2 decides on it (Table 14.4). `failed` lists stages with no passing code. The lowest passing code of every
other stage, at this gait and as the model gives it at the other two, is measured: a free value (R302, assumption 35). -/
def State.groom (s0 : State) (temp : Int) (failed : List Wear) : State :=
  let s := { s0 with env := { s0.env with temp := temp } }
  if !s.groomDue ∧ !((s.up || s.tth.groomReq) && s.roleRuns 2) then s
  else
    let n := failed.length
    let tr : Training := { gait := s.gcs.gait, temp := temp, first := s.freeCount, failed := failed.map Wear.stage }
    let s1 := { s with
      freeCount := s.freeCount + 3 * s.env.dev.stages
      tth := { s.tth with
        safeCodes := false, groomValid := true, groomGait := s.gcs.gait, groomTemp := temp, groomReq := false, train := some tr,
        groomFailed := sat 0xFFFF n, groomTrained := sat 0xFFFF (s.env.dev.stages - n) } }
    let s2 := s1.setTack { s1.tack with training := some tr }
    let s3 := failed.foldl State.groomFail s2
    if s.groomDue then
      let s4 := s3.remountAll
      s4.failsIf s4.storesMissing
    else s3

/-- The trained code of a stage at a gait: min(c_min + 3, 63) (R302). -/
def Training.code (t : Training) (stages gait i : Nat) : Nat :=
  if t.failed.contains i then 63
  else min ((Config.freeValue 6 (match AL.get? i t.redone with
    | some n => n + gait
    | none => t.first + gait * stages + i)).toNat + 3) 63

/-- The matched-delay code of a stage (R301): the safe code until training is in force and while a grooming runs (R302), and for a kept
stage (R340); a gait change loads the new gait's (Table 12.6 step 5). -/
def State.stageCode (s : State) (i : Nat) : Nat :=
  if s.tth.safeCodes || s.tth.groomReq || s.fsu.at63.contains i then 63 else (s.tth.train.map fun t => t.code s.env.dev.stages s.gcs.gait i).getD 63

/-! ## Tether enumeration (R299, R300) -/

/-- A position that the token reaches in neither direction: one that did not answer, or that lies between two such (Table 13.5
step 3). -/
def State.unreached (s : State) (p : Nat) : Bool :=
  s.tth.noAnswer.any (fun a => decide (a ≤ p)) && s.tth.noAnswer.any fun b => decide (p ≤ b)

/-- A position that the repair map retires, that grooming has found worn, that the token does not reach, or whose self-test failed (R299,
R300, R302, assumption 35). -/
def State.posFailed (s : State) (p : Nat) : Bool :=
  s.tack.repair.contains (2, p) || s.remounting 2 p || s.unreached p || s.env.defects.contains (2, p)

/-- Assign one position: its role and cluster, with the core map of the cluster's place. -/
def State.assign (s : State) (p role cluster : Nat) : State :=
  let h := s.seqr (homePos cluster)
  let s1 := s.setSeqr p { h with valid := true, role := role, cluster := if role = 0 then cluster else 0 }
  { s1 with tth := { s1.tth with roles := AL.put p role s1.tth.roles } }

/-- Assign the positions of row `r` (R300). -/
def State.assignRow (s : State) (r : Nat) : State :=
  let d := s.env.dev
  let cl := (List.range d.rowLen).map fun i => r * d.rowLen + i
  let s1 := cl.foldl (fun s n => s.assign (homePos n) (if s.posFailed (homePos n) then 2 else 0) n) s
  let spare := s1.rowSpare (homePos (r * d.rowLen))
  match cl.find? fun n => s1.posFailed (homePos n) with
  | some n => s1.assign spare (if s1.posFailed spare then 2 else 0) n
  | none =>
    let s2 := s1.setSeqr spare { s1.seqr spare with valid := true, role := if s1.posFailed spare then 2 else 1 }
    { s2 with tth := { s2.tth with roles := AL.put spare (if s1.posFailed spare then 2 else 1) s2.tth.roles } }

/-- Roles, clusters and the counts that follow from them. -/
def State.enumerate (s : State) : State :=
  let d := s.env.dev
  let s1 := (List.range d.rows).foldl State.assignRow s
  let served (n : Nat) : Bool := s1.csq.seqrs.any fun p => p.2.valid && p.2.role = 0 && p.2.cluster = n
  let absent := (List.range d.clusters).filter fun n => !served n
  let spares := (s1.csq.seqrs.filter fun p => p.2.valid && p.2.role = 1).length
  let failed := (List.range d.positions).filter s1.posFailed
  { s1 with
    tth := { s1.tth with enumReq := false, answers := ((List.range d.positions).filter fun p => !s.unreached p).map fun p => (p, !s.env.defects.contains (2, p)) }
    fsu := { s1.fsu with
      lostUnits := s1.fsu.lostUnits.filter (fun p => p.1 ≠ 2) ++ absent.map fun n => (2, n)
      retired := s1.fsu.retired.filter (fun p => p.1 ≠ 2) ++ failed.map fun p => (2, p)
      remounted := s1.fsu.remounted || s1.csq.seqrs.any fun p => p.2.valid && p.2.role = 0 && decide (p.1 ≠ homePos p.2.cluster)
      spares := AL.put 2 spares s1.fsu.spares } }

/-- Clusters that have no sequencer when the positions that `f` picks have failed (R300). -/
def State.absentBy (s : State) (f : Nat → Bool) : List Nat := (List.range s.env.dev.rows).flatMap fun r =>
  let bad := ((List.range s.env.dev.rowLen).map fun i => r * s.env.dev.rowLen + i).filter fun n => f (homePos n)
  if f (s.rowSpare (homePos (r * s.env.dev.rowLen))) then bad else bad.drop 1

/-- The record of a sequencer that grooming has found worn (R302): its remount by the enumeration, or its loss; an unused spare is only
retired. -/
def State.noteSeq (s : State) (p : Nat × Nat × Nat) : State :=
  let s1 := s.dropRemount p
  if s.rowSpare p.2.1 = p.2.1 then s1.setTack { s1.tack with repair := s1.tack.repair ++ [(2, p.2.1)] }
  else
    let by' := s.csq.seqrs.find? fun x => x.2.valid && decide (x.2.role = 0) && decide (homePos x.2.cluster = p.2.1)
    s1.farrierNotes 2 p.2.1 ((by'.map Prod.fst).getD ctrMax) p.2.2

/-- Step 4 of Table 13.5: the TTH assigns roles and clusters and writes `CSQ_ADDR` and `TTH_MAP`, once. A cluster that the repair map
alone would not leave without a sequencer is newly lost (R334). Without a sequencer the start fails (R298). -/
def State.enumEnd (s : State) : State :=
  let old := s.absentBy fun p => s.tack.repair.contains (2, p)
  let lost := (s.absentBy s.posFailed).filter fun n => !old.contains n
  let s1 := s.enumerate
  let s2 := lost.foldl (fun (s : State) n => s.noSpareLeft 2 (homePos n)) s1
  let s3 := (s2.fsu.remounts.filter fun p => p.1 = 2).foldl State.noteSeq s2
  s3.failsIf (s3.presentList = [])

/-- Steps 1 to 3: the TTH sends the token and takes the answers; enumeration runs once, at a cold start, once grooming is done (R299). -/
def State.enumSend (s : State) : State :=
  if s.gcs.state = 1 ∧ s.gcs.kind ≠ 3 ∧ s.gcs.step = 7 ∧ !s.tth.groomReq then
    ({ s with tth := { s.tth with enumReq := true, enumAt := s.env.now } }).setStep 8
  else s

/-- ENUM: the token is sent; presented again the answers are in and step 4 follows, so that a position's silence falls between the two
(assumption 36). -/
def State.enumRow (s : State) : State := if s.gcs.state = 1 ∧ s.tth.enumReq then s.enumEnd else s.enumSend

/-- TETHER_NO_ANSWER: 20 µs after the enumeration sent its token a position counts as failed (Table 13.5 step 3, assumption 30). -/
def State.noAnswer (s : State) (p : Nat) : State :=
  if s.gcs.state = 1 ∧ s.tth.enumReq ∧ s.tth.enumAt + 20000 ≤ s.env.now ∧ p < s.env.dev.positions ∧ !s.tth.noAnswer.contains p then
    { s with tth := { s.tth with noAnswer := s.tth.noAnswer ++ [p] } }
  else s

/-! ## Herd address (R310) -/

/-- Form the herd address from a dynamic address in range, once, with the herd group in force since the last cold start; an
assignment out of range writes one CONFIG record. -/
def State.formHerd (s : State) : State :=
  let d := s.gcs.herdDa
  if d = 0 ∨ s.gcs.herdValid then s
  else if 0x08 ≤ d ∧ d ≤ 0x47 then
    let g := s.fwc.group
    { s with
        gcs := { s.gcs with herdValid := true, herdGroup := g, herdAddr := 64 * g + (d - 8) }
        ctu := { s.ctu with trailEn := s.ctu.trailEn || s.up } }
  else if s.i3c.daNoted then s
  else ({ s with i3c := { s.i3c with daNoted := true } }).stage 0x07 [2, wd d, 0, 0]

/-! ## Register values that firmware loads at step 10 -/

def State.setGdCtl (s : State) (v : Word) : State :=
  { s with gd := { s.gd with lqDepth := bits v 11 8, widen := bit v 1, run := bit v 0 } }
def State.setQuantum (s : State) (v : Word) : State := { s with gd := { s.gd with quantum := bits v 26 0 } }
def State.setBudgetMax (s : State) (v : Word) : State := { s with gd := { s.gd with budgetMax := bits v 10 0 } }
def State.setSpillBase (s : State) (v : Word) : State :=
  { s with gd := { s.gd with spillBase := bits v 63 20, spillLog := bits v 5 0 } }
def State.setSpecCtl (s : State) (v : Word) : State :=
  { s with plu := { s.plu with specEn := bit v 0, specClass := bits v 7 4 } }
def State.setRlySpill (s : State) (v : Word) : State :=
  ({ s with rly := { s.rly with offset := bits v 57 32, rings := bits v 25 0 } }).relayRoom
def State.setRlyLevel (s : State) (v : Word) : State := { s with rly := { s.rly with level := bits v 25 0 } }
def State.setTrapEn (s : State) (g : Nat) (v : Word) : State := s.setGe g { s.ge g with trapEn := bits v 4 0 }

/-- Gating Engines in service: of each present cluster, and the global one (R300). -/
def State.geList (s : State) : List Nat := s.presentList ++ [18]

/-- Apply a policy word if the tack store holds it (assumption 30). -/
def State.policy (s : State) (i : Nat) (f : State → Word → State) : State := match AL.get? i s.tack.policy with
  | some v => f s v
  | none => s

/-- Step 10: load the policy and set the enable bits. -/
def State.loadPolicy (s : State) : State :=
  let s1 := ((((s.policy 0 State.setSpillBase).policy 1 State.setQuantum).policy 2 State.setBudgetMax).policy 3 State.setGdCtl).policy 4
    State.setSpecCtl
  let s2 := (s1.policy 5 State.setRlySpill).policy 6 State.setRlyLevel
  let s3 := s2.policy 7 fun s v => s.geList.foldl (fun s g => s.setTrapEn g v) s
  let s4 := s3.policy 8 fun s v => { s with gcs := { s.gcs with stuckMs := bits v 15 0 } }
  let s5 := s4.policy 9 fun s v => { s with fsu := { s.fsu with wearLimit := bits v 7 0 } }
  let s5' := s5.policy 479 fun s v => { s with fwc := { s.fwc with resetCold := bit v 0 } }
  let s6 := s5'.geList.foldl (fun s g => s.setGe g { s.ge g with en := true }) s5'
  { s6 with
      gd := { s6.gd with run := true }
      ctu := { s6.ctu with run := true, trailEn := s6.gcs.herdValid }
      car := { s6.car with en := true }
      rly := { s6.rly with en := true } }

/-! ## The end of a start (steps 9 to 11, R307) -/

/-- An essential unit has no usable instance (R298). -/
def State.startFails (s : State) : Bool := s.presentList = [] || s.storesMissing

/-- The start is ready for its last steps: the grooming, where one is due, is done, and at a cold start the token has been sent. -/
def State.startReady (s : State) : Bool :=
  s.gcs.state = 1 && (if s.gcs.kind = 3 then !s.groomDue else s.gcs.step = 8)

/-- Firmware declares the start failed: a stud-book record and a warm reset (R307); the record's trigger is not stated, a free value
(assumption 13). -/
def State.startFailed (s : State) : State :=
  let (u, s1) := s.fresh 8
  s1.resetNow false u.toNat 0

/-- Step 10 clears every scheduling structure: a start's reset has (R297), so that a queue enabled meanwhile is all there is. -/
def State.clearQueues (s : State) : State :=
  (s.cfe.queues.filter fun p => p.2.st ≠ .disabled).foldl (fun (s : State) (p : Nat × Queue) => s.unslot p.1 .disabled) s

/-- The tack store at the end of a start (R306, R307). -/
def Tack.ended (t : Tack) (b : Bool) : Tack :=
  { t.setFails b 0 with prefB := if t.fails (!b) = 3 then b else t.prefB }

/-- START_END: steps 9 to 11, after the end of an enumeration still under way. FROZEN stands while a core restarts (Table 14.3). -/
def State.startEnd (s0 : State) : State :=
  let s := if s0.startReady && s0.tth.enumReq then s0.enumEnd else s0
  if !s0.startReady then s0
  else if s.startFails then s.startFailed
  else
    let s1 := ((s.formHerd.clearQueues.advanceMarks).loadPolicy).emptyReserve
    let s2 := s1.setTack (s1.tack.ended s1.gcs.image)
    let s3 := { s2 with
      gcs := { s2.gcs with state := if s2.fsu.lostUnits ≠ [] ∨ s2.fsu.kept ≠ [] then 3 else 2, step := 11 }
      fwc := { s2.fwc with watchdog := none, frozen := s2.fwc.cores.any fun p => p.2 = 2, handover := false } }
    let s4 := s3.health
    let s5 := s4.stage 0x02 [s4.statusReg, s4.imageVer, s4.spareMap, s4.groomReg]
    let s6 := if s5.roleRuns 2 then (s5.irq 3).wearResume else s5.irq 3
    (if s6.gcs.state = 3 then s6.ibi 2 else s6).raiseFloor.ibiRelease

/-! ## Recovery (R312) -/

/-- A recovery ends with a result. -/
def State.setRecover (s : State) (n : Nat) : State :=
  { s with gcs := { s.gcs with recoverResult := n, recoverBusy := false } }

/-- Step `k` of the checks refuses the image of a recovery. -/
def State.recoverRefuse (s : State) (k : Nat) (x : Image) : State := (s.imageBad false k x).setRecover (if k = 5 then 3 else 2)

/-- RECOVER (Table 13.11). Presented in safe mode with no recovery in progress, it is step 2: the image at RECOVER_BASE is checked.
Presented again it is steps 3 to 5, so that other events fall between them (assumption 36): image A is erased, programmed from
memory and read back under R308, and the block cold-resets. -/
def State.recover (s : State) : State :=
  if s.gcs.state ≠ 4 then s
  else
    let x := s.readImage (s.gcs.recoverBase * 4096)
    if s.gcs.recoverBusy then
      match s.imageFail? x with
      | some k => (s.setImage false {}).recoverRefuse k x
      | none =>
        if !s.env.flashOk then (s.setImage false {}).recoverRefuse 6 x
        else
          let s1 := s.setImage false x
          (s1.setTack { s1.tack with failA := 0, prefB := false }).resetNow true 5 0
    else match s.imageFail? x with
      | some k => s.recoverRefuse k x
      | none => { s with gcs := { s.gcs with recoverBusy := true } }

end Sys2Proof.Machine
end

