-- ==== Sys2Proof/Machine/Firmware.lean ====
section
/-!
DEFINITION. The firmware complex (14): core restarts (R322, R323), firmware-only restarts (R304), FW_UPDATE and handover (R324),
the mailbox (R328, R329), the I3C target and MCTP endpoint (R293, R310, R326).
-/
namespace Sys2Proof.Machine

/-! ## Restarts (Table 14.3) -/

/-- Firmware cores run: after step 4 of a start and outside safe mode. -/
def State.fwAlive (s : State) : Bool := s.gcs.state = 1 || s.up

/-- Steps 1 and 2 of Table 14.3; a firmware SRAM that does not match leads to a firmware-only restart, whose check fails too, and so
to a warm start (Table 13.6). -/
def State.fwRestart (s : State) (k : Nat) : State :=
  let f := s.fwc
  let s1 := ({ s with fwc := { f with
    cores := AL.put k 2 f.cores, frozen := true, restarts := AL.upd f.restarts k fun n => sat 255 (n + 1) } }).pet k
  if f.sramOk then s1 else s1.resetNow false 7 0

/-- The third crash of a core within 600 s (R323): the retirement is the Farrier's to record (Table 15.6 step 5), which waits where role
2's own core restarts. -/
def State.fwThird (s : State) (k : Nat) : State :=
  match s.fwc.coresIn 3, s.fwOthers k with
  | n :: _, _ => (s.retireFwCore k).farrierNotes 6 k n 0x10
  | [], _ :: _ => (((s.retireFwCore k).noSpareLeft 6 k).farrierNotes 6 k ctrMax 0x10).push [.fwRoles]
  | [], [] => ((s.fwRestart k).noSpareLeft 6 k).health true

/-- A crash: FW_CRASH, and a restart of the core, or the third crash (R322, R323); a core that restarts can crash again. Cause 2 is
the watchdog, which expires 50 ms after the core last ran it anew. -/
def State.fwCrash (s : State) (k cause mcause : Nat) : State :=
  if !s.fwAlive ∨ (AL.get s.fwc.cores k ≠ 1 ∧ AL.get s.fwc.cores k ≠ 2) ∨
      (cause = 2 ∧ s.env.now < AL.get s.fwc.petAt k + 50000000) then s
  else
    let recent := (s.fwc.crashes.filter fun p => decide (s.env.now < p.2 + 600000000000)) ++ [(k, s.env.now)]
    let s1 := ({ s with fwc := { s.fwc with crashes := recent } }).err
      { unit := 9, inst := k, cls := 1, code := 0x10, a := k, b := cause, c := mcause }
    if 3 ≤ (recent.filter fun p => p.1 = k).length then s1.fwThird k else s1.fwRestart k

/-- Roles of a physical core. -/
def State.rolesOf (s : State) (k : Nat) : List Nat := (List.range 4).filter fun r => s.roleCore r = k

/-- FIRMWARE_RESTART: `GCS_CTL.RESET` = 3 (Table 13.6); ignored while BOOTING, and in safe mode. During a handover it acts at once
(R325). -/
def State.firmwareRestart (s : State) : State :=
  if !s.up then s
  else if !s.fwc.sramOk then s.resetNow false 7 0
  else
    let s := (s.fwc.cores.map Prod.fst).foldl State.pet s
    { s with
        gcs := { s.gcs with kind := 4, step := 4 }
        fwc := { s.fwc with
          pendingRestart := true, frozen := true,
          cores := s.fwc.cores.map fun (p : Nat × Nat) => (p.1, if p.2 = 1 then 2 else p.2) } }

/-! ## Handover (Table 14.6) -/

/-- Step 5: the body in device memory is checked again; a mismatch restarts the old image and refuses the update. -/
def State.handoverCheck (s : State) (u : Handover) : State :=
  let x := s.readImage u.base
  if x.bodyOk then
    let s1 := s.setTack (s.tack.setFails u.target (s.tack.fails u.target + 1))
    { s1 with fwc := { s1.fwc with
        digest := some (s1.imageSlot u.target).digest, sramOk := true, watchdog := some s1.env.now,
        upd := some { u with loaded := true } } }
  else
    let s1 := (s.setTack { s.tack with prefB := s.gcs.image }).imageBad u.target 4 x
    ({ s1 with
        gcs := { s1.gcs with kind := 4, step := 4 }
        fwc := { s1.fwc with upd := none, updResult := 4, updPhase := 5, pendingRestart := true, handover := false } }).complete
      u.q u.seq .denied 1

/-- Step 7: the new image ends the start. -/
def State.handoverEnd (s : State) (u : Handover) : State :=
  let s1 := (s.setTack (s.tack.ended u.target)).noteImage u.target
  let s2 := { s1 with
    gcs := { s1.gcs with kind := 4, step := 11 }
    fwc := { s1.fwc with
      upd := none, handover := false, frozen := false, watchdog := none, updResult := 1, updPhase := 4,
      freezeUs := sat 0xFFFF ((s1.env.now - u.startAt) / 1000) } }
  let s3 := (s2.advanceMarks).raiseFloor
  let s4 := (s3.stage 0x03 [wd (3 + fld 6 8 8), 0, 0, 0]).stage 0x06 [wd (b2n u.target), s3.imageVer, s3.updateReg, 0]
  s4.complete u.q u.seq .ok 0

/-- Note an update's target, RESULT and PHASE (Table 14.11). -/
def State.noteUpdate (s : State) (target : Bool) (result phase : Nat) : State :=
  { s with fwc := { s.fwc with updTarget := target, updResult := result, updPhase := phase } }

/-- Step 1 of Table 14.6: the image and the length are checked. -/
def State.updateCheck (s : State) (q n : Nat) (w : List Word) : State :=
  let target := bit (wordAt w 3) 0
  let a := (wordAt w 1).toNat
  if target = s.gcs.image then s.complete q n .badParam 3
  else
    let x := s.readImage a
    match s.imageFail? x with
    | some k => ((s.noteUpdate target 2 5).imageBad target k x).complete q n .denied 1
    | none =>
      if (wordAt w 2).toNat ≠ x.totalSize then (s.noteUpdate target 2 5).complete q n .badParam 2
      else
        let s1 := s.noteUpdate target 0 1
        ({ s1 with fwc := { s1.fwc with
          progressKib := 0, prog := some { q := q, seq := n, base := a, target := target } } }).setPhase q n .takenUp

/-- Step 2 begins: the target slot is erased. -/
def State.updateErase (s : State) (u : Handover) : State :=
  ((s.setImage u.target {}).noteUpdate u.target 0 2).setPhase u.q u.seq .takenUp

/-- Step 2 ends with the image programmed and read back under R308, or refused; steps 3 and 4. -/
def State.updateProgram (s : State) (u : Handover) : State :=
  let x := s.readImage u.base
  let s0 := { s with fwc := { s.fwc with prog := none } }
  if !s.env.flashOk ∨ (s.imageFail? x).isSome then ((s0.noteUpdate u.target 3 5).imageBad u.target 6 x).complete u.q u.seq .denied 1
  else
    let s1 := s0.setImage u.target x
    let s2 := s1.setTack { s1.tack.setFails u.target 0 with prefB := u.target }
    let s3 := ((s2.fwc.cores.map Prod.fst).foldl State.pet s2).noteUpdate u.target 0 3
    { s3 with fwc := { s3.fwc with
        progressKib := (x.totalSize + 1023) / 1024, handover := true, frozen := true,
        upd := some { u with startAt := s3.env.now },
        cores := s3.fwc.cores.map fun (p : Nat × Nat) => (p.1, if p.2 = 1 then 2 else p.2) } }

/-- FW_UPDATE, taken up: presented again it makes step 1, then the erasure of step 2, then the rest of steps 2 to 4, so that other
events fall between them (R324, R325, assumption 36). A second one waits for the first. -/
def State.effFwUpdate (s : State) (q n : Nat) (w : List Word) : State :=
  if s.fwc.upd.isSome then s.setPhase q n .takenUp
  else match s.fwc.prog with
    | none => s.updateCheck q n w
    | some u =>
      if u.q ≠ q ∨ u.seq ≠ n then s.setPhase q n .takenUp
      else if s.fwc.updPhase = 1 then s.updateErase u
      else s.updateProgram u

/-! ## Mailbox (R328, R329) -/

/-- An operation ends with a result. -/
def State.mboxDone (s : State) (result : Nat) : State :=
  { s with fwc := { s.fwc with mboxBusy := false, mboxResult := result, mboxOp := none } }

/-- Role 3 performs a mailbox operation (Table 14.7). -/
def State.mboxServe (s : State) : State := match s.fwc.mboxOp with
  | none => s
  | some x =>
    if !s.fwAlive ∨ !s.roleRuns 3 then s
    else
      let v := s.fwc.mboxData
      let data (s : State) (d : Word) : State := { s with fwc := { s.fwc with mboxData := d } }
      match x.op with
      | 0x00 => s.mboxDone 0
      | 0x01 => if x.arg = 0 then (data s s.imageVer).mboxDone 0 else s.mboxDone 2
      | 0x02 => if x.arg < 480 then (data s (AL.get s.tack.policy x.arg)).mboxDone 0 else s.mboxDone 2
      | 0x03 =>
        if x.arg < 480 then
          ((s.setTack { s.tack with policy := AL.put x.arg v s.tack.policy }).stage 0x07 [4, v, 0, 0]).mboxDone 0
        else s.mboxDone 2
      | 0x04 =>
        if x.arg = 0 ∧ v.toNat < 16 then
          ((s.setTack { s.tack with group := v.toNat }).stage 0x07 [3, v, 0, 0]).mboxDone 0
        else s.mboxDone 2
      | 0x05 =>
        if AL.get s.fwc.cores x.arg = 1 then
          let s1 := (s.mboxDone 0).fwRestart x.arg
          if s1.roleRuns 3 then s1 else { s1 with fwc := { s1.fwc with mboxBusy := true, mboxOp := some {} } }
        else s.mboxDone 2
      | _ => s.mboxDone 1

/-- A write of `FWC_MBOX_CMD`: discarded while BUSY; a non-zero OP starts the operation. -/
def State.mboxCmd (s : State) (op arg : Nat) : State :=
  if s.fwc.mboxBusy ∨ op = 0 ∨ !s.fwAlive then s
  else ({ s with fwc := { s.fwc with mboxBusy := true, mboxOp := some { op := op, arg := arg } } }).mboxServe

/-- A write of `FWC_MBOX_DATA`: discarded while BUSY. -/
def State.mboxWrite (s : State) (v : Word) : State :=
  if s.fwc.mboxBusy ∨ !s.fwAlive then s else { s with fwc := { s.fwc with mboxData := v } }

/-! ## The end of a restart (Table 14.3 step 4, Table 13.6 step 11, Table 14.6 steps 6 and 7) -/

/-- A firmware-only restart is over: the generation marks advance and its record is staged. -/
def State.restartRecord (s : State) : State :=
  if s.fwc.pendingRestart then
    let s1 := ({ s with
      gcs := { s.gcs with step := 11 }
      fwc := { s.fwc with pendingRestart := false } }).advanceMarks
    s1.stage 0x03 [wd (3 + fld 2 8 8), 0, 0, 0]
  else s

/-- What waited for the roles that run again. -/
def State.rolesBack (s : State) : State :=
  let s1 := if s.roleRuns 3 then (s.formHerd.ibiRelease).mboxServe else s
  if s1.roleRuns 2 then s1.wearResume else s1

/-- Once no core is RESTARTING, what waited for that ends and FROZEN clears; then what waited for the roles that run goes on. -/
def State.restartsOver (s : State) : State :=
  let s1 := if !s.fwc.frozen || s.fwc.cores.any (fun p => p.2 = 2) then s
    else
      let s' := (match s.fwc.upd with
        | some u => s.handoverEnd u
        | none => s).restartRecord
      { s' with fwc := { s'.fwc with frozen := false } }
  s1.rolesBack.displace

/-- FW_RESTART_END: core `k` has rebuilt its state; FROZEN clears when no core is RESTARTING. -/
def State.fwRestartEnd (s : State) (k : Nat) : State :=
  if AL.get s.fwc.cores k ≠ 2 ∨ !s.fwAlive then s
  else
    let s0 := match s.fwc.upd with
      | some u => if u.loaded then s else s.handoverCheck u
      | none => s
    let s1 := ({ s0 with fwc := { s0.fwc with cores := AL.put k 1 s0.fwc.cores } }).pet k
    let s2 := if (s1.rolesOf k).contains 1 && !s1.fwc.pendingRestart && s1.fwc.upd.isNone then s1.advanceMarks else s1
    s2.restartsOver

/-! ## I3C and MCTP (R293, R310, R326) -/

/-- Answer the management controller. -/
def State.answer (s : State) (code : Nat) (ws : List Word) : State :=
  { s with out := { s.out with mctp := s.out.mctp ++ [(code, ws)] } }

/-- ENTDAA: the target hardware takes the address; firmware forms the herd address once role 3 runs (R310, R326). -/
def State.entdaa (s0 : State) (da : Nat) : State :=
  let s := { s0 with i3c := { s0.i3c with ranDaa := true } }
  if s.gcs.state = 0 ∨ da = 0 ∨ 128 ≤ da then s
  else
    let s1 := { s with gcs := { s.gcs with herdDa := da }, i3c := { s.i3c with daNoted := false } }
    if s1.up && s1.roleRuns 3 then s1.formHerd else s1

/-- RSTDAA: only `GCS_HERD.DA` changes (R310). -/
def State.rstdaa (s : State) : State := { s with gcs := { s.gcs with herdDa := 0 } }

/-- A common command code (Table 12.15); the codes are those of MIPI I3C Basic (assumption 27). -/
def State.i3cCcc (s : State) (code data : Nat) : State :=
  let open' (v : Nat) : State := s.answer (0x100 + code) [wd v]
  let unstated (n : Nat) : State :=
    let (v, s1) := s.fresh n
    s1.answer (0x100 + code) [wd v.toNat]
  if s.gcs.state = 0 then if code = 0x07 then s.entdaa 0 else s
  else match code with
    | 0x00 | 0x80 => if data.testBit 0 then ({ s with i3c := { s.i3c with ibiEn := true } }).ibiRelease else s
    | 0x01 | 0x81 => if data.testBit 0 then { s with i3c := { s.i3c with ibiEn := false } } else s
    | 0x06 => s.rstdaa
    | 0x07 => s.entdaa data
    | 0x09 | 0x89 => { s with i3c := { s.i3c with mwl := data % 2 ^ 16 } }
    | 0x0A | 0x8A => { s with i3c := { s.i3c with mrl := data % 2 ^ 16 } }
    | 0x8B => open' s.i3c.mwl
    | 0x8C => open' s.i3c.mrl
    | 0x8D => unstated 48
    | 0x8E => open' 0x06
    | 0x8F => unstated 8
    | 0x90 => unstated 16
    | _ => s

/-- The endpoint takes private transfers: role 3's core runs, or the ROM serves it in safe mode (R311, R326). -/
def State.endpointUp (s : State) : Bool := s.gcs.state = 4 || (s.fwAlive && s.roleRuns 3)

/-- HEALTH_GET. -/
def State.healthGet (s : State) : State := if s.endpointUp then s.answer 0x01 [s.healthReg, s.statusReg] else s

/-- STUDBOOK_READ over MCTP: up to 15 records (R351). -/
def State.mctpStudbook (s : State) (first : Nat) : State :=
  if s.endpointUp then
    let s1 := s.flushOrdered
    s1.answer 0x02 ((s1.sbFrom first 15).flatMap fun r => r)
  else s

/-- An MCTP control message, by its DMTF code (assumption 27). -/
def State.mctpControl (s : State) (code data : Nat) : State :=
  if !s.endpointUp then s
  else match code with
    | 0x01 => ({ s with i3c := { s.i3c with eid := data % 256 } }).answer 0x201 [wd (data % 256)]
    | 0x02 => s.answer 0x202 [wd s.i3c.eid]
    | _ =>
      let (v, s1) := s.fresh 64
      s1.answer (0x200 + code) [v]

/-- IBI_ACKNOWLEDGE (R326). -/
def State.ibiAck (s : State) (cause : Nat) : State :=
  { s with i3c := { s.i3c with unacked := s.i3c.unacked.filter fun c => c ≠ cause } }

end Sys2Proof.Machine
end

