-- ==== Sys2Proof/Machine/Registers.lean ====
section
/-!
DEFINITION. The block window (17): what a read of each register returns, and what a write does (R4 to R7, R357 to R359, R364).
-/
namespace Sys2Proof.Machine

/-! ## Values of the registers -/

/-- `GCS_ID` (Table 17.3). -/
def State.gcsId (s : State) : Word := wd (fld (s.env.dev.pick 0x0144 0x0064) 16 32 + fld 0x0D70 16 16 + fld 0x44 8 8 + 0x02)

/-- `GCS_GAIT` (Table 12.7). -/
def State.gaitReg (s : State) : Word :=
  wd (fld s.gcs.lastUs 16 48 + fld s.gcs.changes 32 16 + fld (b2n s.gcs.changing) 1 2 + fld s.gcs.gait 2 0)

/-- `GCS_HERD` (Table 13.14). -/
def State.herdReg (s : State) : Word :=
  wd (fld (b2n s.gcs.herdValid) 1 63 + fld s.gcs.herdGroup 4 24 + fld s.gcs.herdDa 7 16 + fld s.gcs.herdAddr 10 0)

/-- `GCS_EVT_CTL` (Table 12.12). -/
def State.evtCtl (s : State) : Word :=
  let level := (List.range 8).foldl (fun n i => n + if (s.line i).level then 2 ^ i else 0) 0
  wd (fld s.gcs.stuckMs 16 48 + fld level 8 16 + fld s.gcs.evtStuck.toNat 8 8 + fld s.gcs.evtEn.toNat 8 0)

/-- `FWC_STATUS` (Table 14.8). -/
def State.fwcStatus (s : State) : Word :=
  let f := s.fwc
  wd (fld s.env.dev.sramKib 16 48 + fld f.active 4 44 + fld f.spares 4 40 + fld (b2n f.handover) 1 39 + fld (b2n f.frozen) 1 38 +
    fld f.roleMap 16 16 + (List.range 5).foldl (fun n k => n + fld (AL.get f.cores k) 3 (3 * k)) 0)

/-- `FWC_RESTARTS` (Table 14.9). -/
def State.fwcRestarts (s : State) : Word :=
  wd ((List.range 5).foldl (fun n k => n + fld (AL.get s.fwc.restarts k) 8 (8 * k)) 0)

/-- `TTH_MAP` (Table 13.16): a position that no enumeration has reached, or that the device lacks, reads 3. -/
def State.tthMap (s : State) : Word :=
  wd ((List.range 20).foldl (fun n p => n + fld ((AL.get? p s.tth.roles).getD 3) 2 (2 * p)) 0)

/-- `FSU_WEAR` (Table 15.12). -/
def State.wearReg (s : State) : Word :=
  wd (fld s.fsu.wearLimit 8 56 + fld s.fsu.worst 8 40 + fld s.fsu.stage 16 24 + fld s.fsu.events 16 0)

/-- `FSU_STUDBOOK_CTL` (Table 15.13). -/
def State.studbookReg (s : State) : Word :=
  wd (fld s.fsu.lost 24 40 + fld s.fsu.sectors 16 16 + fld s.fsu.sbSpares 8 8 + fld (b2n s.fsu.flushed) 1 1 +
    fld (b2n (decide (s.fsu.staging ≠ []))) 1 0)

/-- States of Table 2.6 as values. -/
def QState.code : QState → Nat
  | .disabled => 0 | .idle => 1 | .pending => 2 | .slotted => 3 | .blocked => 4 | .guilty => 5 | .resetting => 6

/-- States of Table 2.8 as values. -/
def SlotState.code : SlotState → Nat
  | .empty => 0 | .fetching => 1 | .idleCheck => 2 | .idleWait => 3 | .blocked => 4 | .releasing => 5

/-- `CFE_QATTR_STATE` of queue `q` (Table 2.5). -/
def State.qState (s : State) (q : Nat) : Word :=
  let x := s.queue q
  wd (fld (b2n (decide (x.st ≠ .disabled))) 1 63 + fld x.cause 8 32 + fld x.cmds.length 16 16 +
    fld (if x.st = .slotted then (s.slotOf? q).getD 0 else 0) 5 8 + fld x.st.code 3 0)

/-- `DB_STATUS` (Table 2.7). -/
def State.dbStatus (s : State) (q : Nat) : Word :=
  let x := s.queue q
  wd (fld x.st.code 3 61 + fld x.cause 8 32 + fld x.head.toNat 32 0)

/-- `GD_HORIZON` (Table 4.6). -/
def State.horizonReg (s : State) (b : Nat) : Word := match (s.bank b).spill with
  | [] => 0
  | p :: _ => wd (2 ^ 63 + fld p.1 54 0)

/-- `GD_HEAP_DEPTH` (Table 4.7). -/
def State.depthReg (s : State) (b : Nat) : Word :=
  let x := s.bank b
  wd (fld (sat 0xFFFFFF ((x.spill.map fun p => p.2.length).sum)) 24 16 + fld x.on.length 13 0)

/-- `CSQ_ADDR` (Table 13.18). -/
def State.csqAddr (s : State) (p : Nat) : Word :=
  let x := s.seqr p
  wd (fld (b2n x.valid) 1 63 + fld p 8 16 + fld x.role 2 8 + fld x.cluster 5 0)

/-- `CSQ_CORE_MAP` (Table 4.8). -/
def State.coreMap (s : State) (p : Nat) : Word :=
  let x := s.seqr p
  wd (fld x.spare 4 32 + fld x.port 32 0)

/-- `PLU_POOL_STATUS` of a pool (Table 4.10). -/
def State.poolStatus (s : State) (c sl : Nat) : Word :=
  let x := s.pool c sl
  wd (fld x.stalls 24 40 + fld x.free.length 20 20 + fld (x.free.length + x.used.length) 20 0)

/-- `CTU_STORE_STATUS` (Table 5.13). -/
def State.storeStatus (s : State) : Word :=
  wd (fld s.ctu.refused 16 48 + fld s.mappedResident 20 20 + fld (s.physTotal - s.ctu.phys.length) 20 0)

/-- Lanes in use of a GE: full while spares replace what is lost, else a power of two (R208). -/
def State.lanesUsed (s : State) (g : Nat) : Nat :=
  let d := s.env.dev
  let left := d.geLanes + d.geSpares - (s.ge g).lost
  if d.geLanes ≤ left then d.geLanes else 2 ^ Nat.log2 left

/-- `GE_CAP` (Table 9.11). -/
def State.geCap (s : State) (g : Nat) : Word :=
  let n := s.lanesUsed g
  wd (fld 0x1000 16 48 + fld 0x20 8 40 + fld (b2n (decide (g = 18))) 1 39 + fld 4 8 24 +
    fld (s.env.dev.geSpares - (s.ge g).lost) 8 16 + fld (n / 2) 8 8 + fld n 8 0)

/-- `GE_STATUS` (Table 9.15). -/
def State.geStatus (s : State) (g : Nat) : Word :=
  let x := s.ge g
  wd (fld x.ended 32 32 + fld x.queue.length 5 16 + fld (b2n x.run.isSome) 1 0)

/-- FREE sequence slots (Table 10.12). -/
def State.carFreeCount (s : State) : Nat := s.env.dev.carSlots - (s.car.slots.filter fun p => p.2.st ≠ .free).length

/-- `CAR_ACTIVE` (Table 10.12). -/
def State.carActive (s : State) (c : Nat) : Word :=
  let n (st : SeqState) : Nat := (s.carOf c st).length
  wd (fld s.carFreeCount 13 48 + fld (n .leaving) 13 32 + fld (n .joining) 13 16 + fld (n .active) 13 0)

/-- `CAR_STEP` (Table 10.13). -/
def State.carStepReg (s : State) (c : Nat) : Word :=
  let k := s.carCtx c
  wd (fld (b2n k.live.isSome) 1 63 + fld k.epoch 16 32 + fld k.step 32 0)

/-- `RLY_STATUS` (Table 11.7). -/
def State.rlyStatus (s : State) : Word := wd (fld (b2n s.rly.levelHit) 1 63 + fld s.rly.usedRings.length 26 0)

/-- `STAT_CORE_DEPTH` (Table 4.11); a core of an absent cluster reads zero. -/
def State.coreDepth (s : State) (c : Nat) : Word :=
  let x := s.core c
  if !s.present (c / 8) then 0
  else wd (fld (b2n (match x.saddle with | some p => p.stall.isSome | none => false)) 1 7 + fld (b2n x.running.isSome) 1 6 +
    fld (b2n x.saddle.isSome) 1 5 + fld x.lq.length 4 0)

/-- `STAT_CORE_LOAD` (Table 4.11). -/
def State.coreLoad (s : State) (c : Nat) : Word := if s.present (c / 8) then wd (s.busyOf c) else 0

/-- The nine counters of Table 8.11. -/
def State.specStats (s : State) : List Word :=
  let x := s.stat
  [wd x.pruned, wd x.specIssued, wd x.specCommit, wd x.specMismatch, wd x.specGate, wd x.specAccess, wd x.specAbandon,
   wd x.specPruned, wd x.specLead]

/-! ## Reads -/

/-- A bank that the device has, spares included. -/
def State.bankIdx (s : State) (b : Nat) : Bool := decide (b < s.env.dev.banks + s.env.dev.bankSpares)

/-- A GE region that the device has. -/
def State.geIdx (s : State) (g : Nat) : Bool := decide (g < s.env.dev.geRegions) || g = 18

/-- `GCS` (R364). -/
def State.readGcs (s : State) (o : Nat) : Word :=
  if o = 0x00 then s.gcsId else if o = 0x08 then s.cap0 else if o = 0x10 then s.cap1
  else if o = 0x20 then wd (s.gcs.recoverBase * 4096) else if o = 0x28 then s.statusReg else if o = 0x30 then wd s.env.now
  else if o = 0x38 then s.gaitReg else if o = 0x40 then wd s.gcs.irqStatus.toNat else if o = 0x48 then wd s.gcs.irqEnable.toNat
  else if o = 0x50 then s.herdReg else if o = 0x60 then s.evtCtl
  else if 0x68 ≤ o ∧ o < 0xA8 then (s.line ((o - 0x68) / 8)).act
  else if 0xA8 ≤ o ∧ o < 0xE8 then wd (s.line ((o - 0xA8) / 8)).count
  else 0

/-- `FSU` (R364). -/
def State.readFsu (s : State) (o : Nat) : Word :=
  let f := s.fsu
  match o with
  | 0x00 => s.healthReg
  | 0x08 => wd (f.errBase * 4096 + fld (b2n f.errHost) 1 11 + fld (b2n f.errEn) 1 0)
  | 0x10 => wd (fld f.dropped 24 40 + fld f.errLevel 24 16 + fld f.errLog 5 0)
  | 0x18 => wd f.errHead.toNat
  | 0x20 => wd f.errTail.toNat
  | 0x28 => s.spareMap
  | 0x30 => s.wearReg
  | 0x38 => s.studbookReg
  | _ => 0

/-- `FWC` (R364). -/
def State.readFwc (s : State) (o : Nat) : Word := match o with
  | 0x00 => s.fwcStatus
  | 0x08 => s.fwcRestarts
  | 0x10 => s.imageVer
  | 0x18 => s.updateReg
  | 0x20 => wd (fld (b2n s.fwc.mboxBusy) 1 63 + fld s.fwc.mboxResult 4 56)
  | 0x28 => s.fwc.mboxData
  | _ => 0

/-- `TTH` (R364); grooming and enumeration take no time in the model, so GROOM and ENUM read 0. -/
def State.readTth (s : State) (o : Nat) : Word := match o with
  | 0x00 => wd (fld (b2n s.tth.safeCodes) 1 3 + fld (b2n s.tth.groomReq) 1 1 + fld (b2n s.tth.enumReq) 1 0)
  | 0x08 => s.tthMap
  | 0x10 => s.groomReg
  | 0x18 => wd (fld s.tth.reqTarget 2 8 + fld (b2n s.tth.reqDenied) 1 1 + fld (b2n s.tth.req) 1 0)
  | _ => 0

/-- A slot page (Table 2.8). -/
def State.readSlot (s : State) (n o : Nat) : Word :=
  let x := s.slot n
  match o with
  | 0x00 => wd (fld (b2n x.displace) 1 1 + fld (b2n x.enable) 1 0)
  | 0x08 => wd (fld (b2n x.valid) 1 15 + fld x.queue 10 0)
  | 0x10 => wd x.st.code
  | _ => 0

/-- The queue attribute window (R32). -/
def State.readQattr (s : State) (o : Nat) : Word :=
  let q := s.cfe.qsel
  let x := s.queue q
  if o = 0 then wd q
  else if s.env.dev.queues ≤ q then 0
  else match o with
    | 0x08 => x.ring
    | 0x10 => x.cpl
    | 0x18 => x.ctxReg
    | 0x20 => wd x.waitNs
    | 0x28 => s.qState q
    | 0x30 => wd x.graphNs
    | _ => 0

/-- A doorbell page (Table 2.7). -/
def State.readDb (s : State) (q o : Nat) : Word :=
  let x := s.queue q
  match o with
  | 0x00 => wd x.tail.toNat
  | 0x08 => s.dbStatus q
  | 0x10 => wd x.deadline
  | 0x18 => wd x.consumed.toNat
  | _ => 0

/-- `GD` (R364). -/
def State.readGd (s : State) (o : Nat) : Word :=
  let g := s.gd
  if o = 0x00 then wd (fld g.lqDepth 4 8 + fld (b2n g.widen) 1 1 + fld (b2n g.run) 1 0)
  else if o = 0x08 then wd (g.tick % 2 ^ 54) else if o = 0x10 then wd g.quantum else if o = 0x18 then wd g.budgetMax
  else if o = 0x20 then wd (g.spillBase * 2 ^ 20 + fld g.spillLog 6 0)
  else if 0x28 ≤ o ∧ s.bankIdx ((o - 0x28) / 8) then s.horizonReg ((o - 0x28) / 8)
  else if 0x100 ≤ o ∧ s.bankIdx ((o - 0x100) / 8) then s.depthReg ((o - 0x100) / 8)
  else 0

/-- `PLU` (R364). -/
def State.readPlu (s : State) (o : Nat) : Word := match o with
  | 0x00 => wd (fld s.plu.ctlSlice 4 24 + fld s.plu.ctlCtx 12 0)
  | 0x08 => s.poolStatus s.plu.ctlCtx s.plu.ctlSlice
  | 0x10 => wd (fld s.plu.specClass 4 4 + fld (b2n s.plu.specEn) 1 0)
  | 0x18 => s.predStatus
  | _ => 0

/-- `CTU` (R364). -/
def State.readCtu (s : State) (o : Nat) : Word :=
  let c := s.ctu
  match o with
  | 0x00 => wd (fld (b2n c.trailEn) 1 2 + fld (b2n c.dbgEn) 1 1 + fld (b2n c.run) 1 0)
  | 0x08 => wd (fld (b2n (s.ctx c.dbgCtx).halted) 1 63 + fld c.dbgCtx 12 0)
  | 0x10 => wd (fld c.dbgWaiters 16 48 + fld c.dbgFlags 5 32 + fld c.dbgId 24 0)
  | 0x18 => c.dbgValue
  | 0x20 => wd (fld (b2n c.dbgBusy) 1 63 + fld c.dbgResult 3 56)
  | 0x28 => s.storeStatus
  | _ => 0

/-- `CAR` (R364). -/
def State.readCar (s : State) (o : Nat) : Word := match o with
  | 0x00 => wd (fld s.car.ctlCtx 12 32 + fld (b2n s.car.en) 1 0)
  | 0x08 => s.carActive s.car.ctlCtx
  | 0x10 => s.carStepReg s.car.ctlCtx
  | 0x18 => wd s.car.discarded
  | _ => 0

/-- `RLY` (R364). -/
def State.readRly (s : State) (o : Nat) : Word :=
  let r := s.rly
  match o with
  | 0x00 => wd (b2n r.en)
  | 0x08 => wd (fld r.offset 26 32 + fld r.rings 26 0)
  | 0x10 => wd r.level
  | 0x18 => s.rlyStatus
  | 0x20 => wd r.sent
  | 0x28 => wd r.spilled
  | 0x30 => wd r.full
  | 0x38 => wd r.stray
  | _ => 0

/-- `CSQ` at a position (R364). -/
def State.readCsq (s : State) (p o : Nat) : Word := match o with
  | 0x00 => s.csqAddr p
  | 0x08 => s.coreMap p
  | _ => 0

/-- A `GE` region (R364). -/
def State.readGe (s : State) (g o : Nat) : Word := match o with
  | 0x00 => s.geCap g
  | 0x08 => wd (b2n (s.ge g).en)
  | 0x10 => wd (s.ge g).flags
  | 0x18 => wd (s.ge g).trapEn
  | 0x20 => s.geStatus g
  | _ => 0

/-- `STAT` (R364). -/
def State.readStat (s : State) (o : Nat) : Word :=
  let n := 8 * s.env.dev.clusters
  if 0x1000 ≤ o ∧ o < 0x1000 + 8 * n then s.coreDepth ((o - 0x1000) / 8)
  else if 0x2000 ≤ o ∧ o < 0x2000 + 8 * n then s.coreLoad ((o - 0x2000) / 8)
  else if 0x3000 ≤ o ∧ s.bankIdx ((o - 0x3000) / 128) ∧ o < 0x4000 then
    wd (AL.get s.stat.hist ((o - 0x3000) / 128, (o - 0x3000) % 128 / 8))
  else if 0x4000 ≤ o ∧ o ≤ 0x4040 then wordAt s.specStats ((o - 0x4000) / 8)
  else 0

/-- A register read at a 64-bit-aligned offset of the block window (Table 17.1). -/
def State.read64 (s : State) (off : Nat) : Word :=
  let o := off % 0x10000
  let d := s.env.dev
  if s.gcs.state = 0 then 0
  else if off < 0x10000 then s.readGcs o
  else if off < 0x20000 then s.readFsu o
  else if s.gcs.state = 4 then 0
  else if off < 0x30000 then s.readFwc o
  else if off < 0x40000 then s.readTth o
  else if 0x100000 ≤ off ∧ off < 0x100000 + 0x1000 * d.slots then s.readSlot ((off - 0x100000) / 0x1000) (off % 0x1000)
  else if 0x120000 ≤ off ∧ off < 0x121000 then s.readQattr (off % 0x1000)
  else if 0x200000 ≤ off ∧ off < 0x200000 + 0x1000 * d.queues then s.readDb ((off - 0x200000) / 0x1000) (off % 0x1000)
  else if 0x600000 ≤ off ∧ off < 0x610000 then s.readGd o
  else if 0x610000 ≤ off ∧ off < 0x620000 then s.readPlu o
  else if 0x620000 ≤ off ∧ off < 0x630000 then s.readCtu o
  else if 0x630000 ≤ off ∧ off < 0x640000 then s.readCar o
  else if 0x640000 ≤ off ∧ off < 0x650000 then s.readRly o
  else if 0x800000 ≤ off ∧ off < 0x800000 + 0x10000 * d.positions then s.readCsq ((off - 0x800000) / 0x10000) o
  else if 0xA00000 ≤ off ∧ off < 0xB30000 ∧ s.geIdx ((off - 0xA00000) / 0x10000) then s.readGe ((off - 0xA00000) / 0x10000) o
  else if 0xC00000 ≤ off ∧ off < 0xC10000 then s.readStat o
  else 0

/-- A register read of `width` 64 or 32 bits (R5); a misaligned one returns zero, and so does one of another width (DESIGN CHOICE,
assumption 31). -/
def State.windowRead (s : State) (off width : Nat) : Word :=
  if width = 64 ∧ off % 8 = 0 then s.read64 off
  else if width = 32 ∧ off % 4 = 0 then wd (if off % 8 = 0 then bits (s.read64 off) 31 0 else bits (s.read64 (off - 4)) 63 32)
  else 0

/-! ## Register commands -/

/-- The units outside GCS and FSU take accesses (R311). -/
def State.unitsOn (s : State) : Bool := s.gcs.state = 1 || s.up

/-- An access to a unit that takes accesses only while the units are on. -/
def State.onUnits (s : State) (f : State → State) : State := if s.unitsOn then f s else s

/-- An access to a GCS register: none is taken while power is off. -/
def State.powered (s : State) (f : State → State) : State := if s.gcs.state = 0 then s else f s

/-- A write of `GCS_IRQ_ENABLE` (R362). -/
def State.irqEnableWrite (s : State) (v : Word) : State :=
  if s.gcs.state = 0 then s
  else
    let new : BitVec 7 := BitVec.ofNat 7 v.toNat
    let old := s.gcs.irqEnable
    let rise := (List.range 7).filter fun i => s.gcs.irqStatus.getLsbD i && new.getLsbD i && !old.getLsbD i
    rise.foldl (fun s _ => s.msix 0) { s with gcs := { s.gcs with irqEnable := new } }

/-- A W1C write of `GCS_IRQ_STATUS` (R362). -/
def State.irqStatusClear (s : State) (v : Word) : State :=
  { s with gcs := { s.gcs with irqStatus := s.gcs.irqStatus &&& ~~~(BitVec.ofNat 7 v.toNat) } }

/-- A write of `GCS_EVT_CTL` (R290). -/
def State.evtCtlWrite (s : State) (v : Word) : State :=
  let s1 := { s with gcs := { s.gcs with evtEn := BitVec.ofNat 8 v.toNat, stuckMs := bits v 63 48 } }
  ((List.range 8).filter fun i => bit v (8 + i)).foldl State.stuckClear s1

/-- A write of `FSU_ERR_RING_BASE` (R337). -/
def State.errBaseWrite (s : State) (v : Word) : State :=
  let f := s.fsu
  if s.gcs.state = 0 then s
  else if f.errEn then { s with fsu := { f with errEn := bit v 0 } }
  else
    let f1 := { f with errBase := bits v 63 12, errHost := bit v 11 }
    if bit v 0 && decide (12 ≤ f.errLog) && decide (f.errLog ≤ 26) then
      { s with fsu := { f1 with errEn := true, errHead := 0, errTail := 0, errArmed := true } }
    else { s with fsu := f1 }

/-- A write of `FSU_ERR_RING_SIZE` (R337). -/
def State.errSizeWrite (s : State) (v : Word) : State :=
  { s with fsu := { s.fsu with errLevel := bits v 39 16, errLog := if s.fsu.errEn then s.fsu.errLog else bits v 4 0 } }

/-- A write of `FSU_ERR_HEAD` (R337, R271, R272). -/
def State.errHeadWrite (s : State) (v : Word) : State :=
  if s.gcs.state = 0 then s
  else
    let h := BitVec.ofNat 32 v.toNat
    if s.fsu.errEn ∧ s.errCap < (s.fsu.errTail - h).toNat then s.errReset
    else
      let s1 := { s with fsu := { s.fsu with errHead := h } }
      if s1.errFill < s1.fsu.errLevel then { s1 with fsu := { s1.fsu with errArmed := true } } else s1

/-- A write of `DB_DEADLINE` (R36). -/
def State.dbDeadline (s : State) (q : Nat) (v : Word) : State :=
  if (s.queue q).st = .disabled then s else s.updQueue q fun x => { x with deadline := v.toNat }

/-- STAT_CLEAR (Table 4.11). -/
def State.statClear (s : State) : State :=
  if !s.unitsOn then s
  else
    { s with
        stat := { s.stat with hist := [] }
        csq := { s.csq with cores := s.csq.cores.map fun (p : Nat × Core) => (p.1, { p.2 with busyNs := 0, loadAt := s.env.now }) } }

/-- FLUSH (R192). -/
def State.specFlush (s : State) : State := if s.unitsOn then s.flushPreds fun _ => true else s

/-- ICACHE_INV (R230). -/
def State.icacheInv (s : State) (g : Nat) : State :=
  if s.unitsOn && s.geIdx g then s.setGe g { s.ge g with icache := [] } else s

/-! ## The debug window (R145, R146, R148) -/

/-- Report the result of a window command. -/
def State.dbgResult (s : State) (r : Nat) : State := { s with ctu := { s.ctu with dbgResult := r } }

/-- A window command: refused while DBG_EN is clear. -/
def State.dbgCmd (s : State) (f : State → State) : State :=
  if !s.unitsOn || s.ctu.dbgBusy then s
  else if !s.ctu.dbgEn then s.dbgResult 4
  else if !s.defined s.ctu.dbgCtx then s.dbgResult 3
  else f s

/-- READ. -/
def State.dbgRead (s : State) : State := s.dbgCmd fun s =>
  let c := s.ctu.dbgCtx
  let v := s.ctu.dbgId
  if s.idLimit c ≤ v then s.dbgResult 5
  else
    let x := s.ctr c v
    let n := (s.ctu.waiters.filter fun w => w.ctx = c ∧ w.vid = v).length
    let fl := b2n x.mapped + 2 * b2n x.exported + 4 * b2n x.resident + 8 * b2n x.sat + 16 * b2n x.poison
    ({ s with ctu := { s.ctu with dbgValue := wd x.val, dbgFlags := fl, dbgWaiters := sat 0xFFFF n } }).dbgResult 0

/-- SET: BUSY until the CTU applies it (R146). -/
def State.dbgSet (s : State) : State := s.dbgCmd fun s =>
  ({ s with ctu := { s.ctu with dbgBusy := true } }).push [.windowSet s.ctu.dbgCtx s.ctu.dbgId s.ctu.dbgValue.toNat]

/-- The CTU applies a SET of the window. -/
def State.windowSet (s : State) (c v new : Nat) : State :=
  let (r, s1) := s.debugSet c v new
  ({ s1 with ctu := { s1.ctu with dbgBusy := false } }).dbgResult r

/-- HALT (R145, R204): candidates leave, staged speculative tasks are refuted, a context that is halted counts as idle (R171), and
its queues are blocked (R40). -/
def State.dbgHalt (s : State) : State := s.dbgCmd fun s =>
  let c := s.ctu.dbgCtx
  let saddles := s.csq.cores.filterMap fun p => match p.2.saddle with
    | some x => if x.spec.isSome && x.e.ref.ctx = c then some x.e.ref else none
    | none => none
  let staged := saddles ++ s.csq.clusters.flatMap fun (p : Nat × Cluster) =>
    (p.2.hold.map fun h => h.run.p.e.ref).filter fun r => r.ctx = c
  let s1 := (((s.updCtx c fun x => { x with halted := true }).updStop c).dropCands fun e => e.ref.ctx = c).writeHeader c
  (((s1.push (staged.map fun r => .refute r 4)).displace).refreshAll).dbgResult 0

/-- RESUME. -/
def State.dbgResume (s : State) : State := s.dbgCmd fun s =>
  let c := s.ctu.dbgCtx
  ((((s.updCtx c fun x => { x with halted := false }).updStop c).writeHeader c).refreshAll).dbgResult 0

/-! ## Writes -/

/-- `GCS_CTL` (Table 13.12). RECOVER starts a recovery where none is in progress. -/
def State.gcsCtl (s : State) (v : Word) : State :=
  let s1 := { s with gcs := { s.gcs with recoverBase := bits v 63 12 } }
  let s2 := if bit v 8 && !s1.gcs.recoverBusy then s1.recover else s1
  match bits v 2 0 with
  | 1 => s2.resetReq false 2 0
  | 2 => s2.resetReq true 2 0
  | 3 => s2.firmwareRestart
  | _ => s2

/-- A write in the GCS region. -/
def State.writeGcs (s : State) (o : Nat) (v : Word) : State :=
  if o = 0x20 then s.gcsCtl v else if o = 0x40 then s.irqStatusClear v else if o = 0x48 then s.irqEnableWrite v
  else if o = 0x60 then s.evtCtlWrite v
  else if 0x68 ≤ o ∧ o < 0xA8 then s.evtActWrite ((o - 0x68) / 8) v
  else if 0xA8 ≤ o ∧ o < 0xE8 then s.evtCountWrite ((o - 0xA8) / 8) v
  else s

/-- A write in the FSU region. -/
def State.writeFsu (s : State) (o : Nat) (v : Word) : State := match o with
  | 0x08 => s.errBaseWrite v
  | 0x10 => s.errSizeWrite v
  | 0x18 => s.errHeadWrite v
  | 0x30 => { s with fsu := { s.fsu with wearLimit := bits v 63 56 } }
  | _ => s

/-- A write in the TTH region. Grooming and the answer to a gait request are rows of their own. -/
def State.writeTth (s : State) (o : Nat) (v : Word) : State := match o with
  | 0x00 =>
    let s1 := { s with tth := { s.tth with safeCodes := bit v 3, groomReq := s.tth.groomReq || bit v 1 } }
    if bit v 0 then s1.enumSend else s1
  | 0x18 => { s with tth := { s.tth with reqTarget := bits v 9 8, req := s.tth.req || bit v 0 } }
  | _ => s

/-- A write of a slot page. -/
def State.writeSlot' (s : State) (n o : Nat) (v : Word) : State := match o with
  | 0x00 =>
    let s1 := s.slotEnable n (bit v 0)
    if bit v 1 then s1.displaceBit n else s1
  | 0x08 => s.slotQueue n v
  | _ => s

/-- A write of the queue attribute window. -/
def State.writeQattr (s : State) (o : Nat) (v : Word) : State :=
  let q := s.cfe.qsel
  match o with
  | 0x00 => { s with cfe := { s.cfe with qsel := bits v 9 0 } }
  | 0x28 =>
    if s.env.dev.queues ≤ q then s
    else
      if bit v 62 ∧ q = 0 ∧ (s.queue 0).st = .guilty then s.queue0Reset
      else if bit v 63 then s.queueEnable q else s.queueDisable q
  | _ => s.qattr o v

/-- A write of a doorbell page. -/
def State.writeDb (s : State) (q o : Nat) (v : Word) : State := match o with
  | 0x00 => s.dbTail q v
  | 0x10 => s.dbDeadline q v
  | 0x18 => s.dbCplHead q v
  | _ => s

/-- A write in the GD region. -/
def State.writeGd (s : State) (o : Nat) (v : Word) : State := match o with
  | 0x00 => s.setGdCtl v
  | 0x10 => s.setQuantum v
  | 0x18 => s.setBudgetMax v
  | 0x20 => s.setSpillBase v
  | _ => s

/-- A write in the PLU region. -/
def State.writePlu (s : State) (o : Nat) (v : Word) : State := match o with
  | 0x00 => { s with plu := { s.plu with ctlSlice := bits v 27 24, ctlCtx := bits v 11 0 } }
  | 0x10 => if bit v 1 then (s.setSpecCtl v).specFlush else s.setSpecCtl v
  | _ => s

/-- A write in the CTU region. -/
def State.writeCtu (s : State) (o : Nat) (v : Word) : State := match o with
  | 0x00 => { s with ctu := { s.ctu with trailEn := bit v 2, dbgEn := bit v 1, run := bit v 0 } }
  | 0x08 => { s with ctu := { s.ctu with dbgCtx := bits v 11 0 } }
  | 0x10 => { s with ctu := { s.ctu with dbgId := bits v 23 0 } }
  | 0x18 => { s with ctu := { s.ctu with dbgValue := v } }
  | 0x20 => match bits v 3 0 with
    | 1 => s.dbgRead
    | 2 => s.dbgSet
    | 3 => s.dbgHalt
    | 4 => s.dbgResume
    | _ => s
  | _ => s

/-- A write in the CAR region. -/
def State.writeCar (s : State) (o : Nat) (v : Word) : State :=
  if o = 0 then { s with car := { s.car with en := bit v 0, ctlCtx := bits v 43 32 } } else s

/-- A write in the RLY region. -/
def State.writeRly (s : State) (o : Nat) (v : Word) : State := match o with
  | 0x00 =>
    let s1 := { s with rly := { s.rly with en := bit v 0 } }
    if bit v 0 then s1.relayResume else s1
  | 0x08 => s.setRlySpill v
  | 0x10 => s.setRlyLevel v
  | 0x18 => if bit v 63 then { s with rly := { s.rly with levelHit := false } } else s
  | _ => s

/-- A write of a GE region. -/
def State.writeGe (s : State) (g o : Nat) (v : Word) : State :=
  let x := s.ge g
  match o with
  | 0x08 => s.setGe g { x with en := bit v 0, icache := if bit v 1 then [] else x.icache }
  | 0x10 => s.setGe g { x with flags := x.flags &&& (31 ^^^ bits v 4 0) }
  | 0x18 => s.setTrapEn g v
  | _ => s

/-- A register write at a 64-bit-aligned offset of the block window. -/
def State.write64 (s : State) (off : Nat) (v : Word) : State :=
  let o := off % 0x10000
  let d := s.env.dev
  if s.gcs.state = 0 then s
  else if off < 0x10000 then s.writeGcs o v
  else if off < 0x20000 then s.writeFsu o v
  else if s.gcs.state = 4 then s
  else if off = 0x20020 then s.mboxCmd (bits v 7 0) (bits v 23 8)
  else if off = 0x20028 then s.mboxWrite v
  else if 0x30000 ≤ off ∧ off < 0x40000 then s.writeTth o v
  else if 0x100000 ≤ off ∧ off < 0x100000 + 0x1000 * d.slots then s.writeSlot' ((off - 0x100000) / 0x1000) (off % 0x1000) v
  else if 0x120000 ≤ off ∧ off < 0x121000 then s.writeQattr (off % 0x1000) v
  else if 0x200000 ≤ off ∧ off < 0x200000 + 0x1000 * d.queues then s.writeDb ((off - 0x200000) / 0x1000) (off % 0x1000) v
  else if 0x600000 ≤ off ∧ off < 0x610000 then s.writeGd o v
  else if 0x610000 ≤ off ∧ off < 0x620000 then s.writePlu o v
  else if 0x620000 ≤ off ∧ off < 0x630000 then s.writeCtu o v
  else if 0x630000 ≤ off ∧ off < 0x640000 then s.writeCar o v
  else if 0x640000 ≤ off ∧ off < 0x650000 then s.writeRly o v
  else if 0xA00000 ≤ off ∧ off < 0xB30000 ∧ s.geIdx ((off - 0xA00000) / 0x10000) then s.writeGe ((off - 0xA00000) / 0x10000) o v
  else if off = 0xC00000 ∧ bit v 0 then s.statClear
  else s

/-- REGISTER_WRITE: a 64-bit write at an aligned offset; any other is discarded (R5). -/
def State.regWrite (s : State) (off : Nat) (v : Word) (width : Nat) : State :=
  if width = 64 ∧ off % 8 = 0 then s.write64 off v else s

end Sys2Proof.Machine
end

