-- ==== Sys2Proof/Machine/Report.lean ====
section
/-!
DEFINITION. QUERY and STAT_SNAPSHOT (R60, R61), and BLOCK_RESET (13, "Resets").
-/
namespace Sys2Proof.Machine

/-! ## QUERY items (Table 2.18) -/

/-- Item QUEUE: w2 to w9. A queue with no whole command to start has no blocked start (R28), unless its context has FAULTED. w6
to w9 report a WAIT in progress whatever the blocking condition is, else zeros (R60, assumption 31). -/
def State.queryQueue (s : State) (q : Nat) : List Word :=
  let x := s.queue q
  let b := if s.whole q || s.queueFaulted q then s.blocking q (s.headWord q) else 0
  let head := [s.qState q, s.dbStatus q, wd (fld x.written 32 32 + fld x.tail.toNat 32 0), wd b]
  match x.cmds.find? fun p => Op.code p.2.words = 0x04 with
  | none => head ++ [0, 0, 0, 0]
  | some p =>
    let c := Op.ctx p.2.words
    let v := bits (wordAt p.2.words 1) 23 0
    head ++ [wd (fld c 12 24 + fld v 24 0), wordAt p.2.words 2, wd (s.ctr c v).val, wd (b2n (s.ctr c v).poison)]

/-- Item CONTEXT: w2 to w14. -/
def State.queryCtx (s : State) (c : Nat) : List Word :=
  let x := s.ctx c
  let b := s.bank x.bank
  let mine (l : List Entry) : Nat := (l.filter fun e => e.ref.ctx = c).length
  x.header.take 6 ++ [wd (x.place.getD 0x7F), wd (mine b.on), wd ((b.spill.map fun p => mine p.2).sum), wd x.saved.length,
    wd x.slots.length, wd (fld x.insts.length 32 0), wd x.windowAt]

/-- Item BANK: w2 onwards. -/
def State.queryBank (s : State) (b : Nat) : List Word :=
  let cs := s.definedList.filter fun c => (s.ctx c).st.inPlace && decide ((s.ctx c).bank = b)
  [s.depthReg b, s.horizonReg b, wd cs.length] ++ cs.map fun c => wd (fld (s.ctx c).cls 2 12 + fld c 12 0)

/-- Item CLUSTER: w2 to w20. -/
def State.queryCluster (s : State) (n : Nat) : List Word :=
  let cores := (List.range 8).map fun k => 8 * n + k
  [wd (b2n (s.present n))] ++ cores.map s.coreDepth ++ cores.map s.coreLoad ++
    [s.geStatus n, wd (fld (s.cluster n).hold.length 8 8 + fld (s.cluster n).cands.length 8 0)]

/-- Item COUNTER: w2 and w3. -/
def State.queryCounter (s : State) (c v : Nat) : List Word :=
  let x := s.ctr c v
  let n := (s.ctu.waiters.filter fun w => w.ctx = c && w.vid = v).length
  [wd x.val, wd (fld (sat 65535 n) 16 16 + fld (b2n x.exported) 1 4 + fld (b2n x.mapped) 1 3 +
    fld (b2n (s.phys? c v).isSome) 1 2 + fld (b2n x.sat) 1 1 + b2n x.poison)]

/-- The item's words after the header, on an object that the device has; 0: BAD_PARAM, 1: DENIED. -/
def State.queryItem (s : State) (q : Nat) (w : Word) : Nat ⊕ List Word :=
  match bits w 7 0 with
  | 0x01 => if bits w 25 16 < s.env.dev.queues then .inr (s.queryQueue (bits w 25 16)) else .inl 0
  | 0x02 => if s.defined (bits w 27 16) then .inr (s.queryCtx (bits w 27 16)) else .inl 0
  | 0x03 => if q ≠ 0 then .inl 1 else if s.bankIdx (bits w 20 16) then .inr (s.queryBank (bits w 20 16)) else .inl 0
  | 0x04 => if q ≠ 0 then .inl 1 else if bits w 20 16 < s.env.dev.clusters then .inr (s.queryCluster (bits w 20 16)) else .inl 0
  | 0x05 =>
    let c := bits w 27 16
    if s.defined c ∧ bits w 51 28 < s.idLimit c then .inr (s.queryCounter c (bits w 51 28)) else .inl 0
  | _ => .inl 0

/-- QUERY (R60). Item COUNTER probes the counter (Table 5.1), which makes a counter of a resident context resident (R132); where it
cannot, the context faults (R133) and the QUERY completes CTX_FAULT (assumption 31). -/
def State.effQuery (s : State) (q n : Nat) (w : List Word) : State :=
  match s.queryItem q (wordAt w 1) with
  | .inl 0 => s.complete q n .badParam 1
  | .inl _ => s.complete q n .denied 1
  | .inr ws =>
    let len := 16 + 8 * ws.length
    if (wordAt w 3).toNat < len then s.complete q n .noResource len
    else
      let answer (s : State) : State :=
        let body := match s.queryItem q (wordAt w 1) with
          | .inr l => l
          | .inl _ => []
        let h := [wd (fld len 16 16 + bits (wordAt w 1) 7 0), wd s.env.now]
        (s.wrWords false (wordAt w 2).toNat (h ++ body)).complete q n .ok 0
      if bits (wordAt w 1) 7 0 = 0x05 then
        s.withCtrOr (bits (wordAt w 1) 27 16) (bits (wordAt w 1) 51 28) { code := 1, arg := q }
          (fun s => s.complete q n .ctxFault 0x04) answer
      else answer s

/-! ## STAT_SNAPSHOT (Table 2.19) -/

/-- A section's words, filled with zeros up to a multiple of 64 bytes. -/
def padSection (ws : List Word) : List Word := ws ++ List.replicate ((8 - ws.length % 8) % 8) 0

/-- Section `i`. -/
def State.snapSection (s : State) (c i : Nat) : List Word :=
  let banks := List.range (s.env.dev.banks + s.env.dev.bankSpares)
  match i with
  | 0 => (List.range (8 * s.env.dev.clusters)).flatMap fun k => [s.coreDepth k, s.coreLoad k]
  | 1 => banks.flatMap fun b => (List.range 16).map fun k => wd (AL.get s.stat.hist (b, k))
  | 2 => banks.flatMap fun b => [s.depthReg b, s.horizonReg b]
  | 3 => s.specStats ++ [s.predStatus]
  | 4 => [wd s.car.discarded, wd s.carFreeCount]
  | 5 => [wd s.rly.sent, wd s.rly.spilled, wd s.rly.full, wd s.rly.stray, s.rlyStatus]
  | _ => (List.range s.env.dev.slices).map fun sl => s.poolStatus c sl

/-- STAT_SNAPSHOT (R61). -/
def State.effStatSnapshot (s : State) (q n : Nat) (w : List Word) : State :=
  let m := wordAt w 2
  if 128 ≤ m.toNat then s.complete q n .badParam 2
  else if q ≠ 0 ∧ bits m 5 0 ≠ 0 then s.complete q n .denied 2
  else
    let body := ((List.range 7).filter fun i => bit m i).flatMap fun i => padSection (s.snapSection (Op.ctx w) i)
    let len := 64 + 8 * body.length
    let ws := [m, wd s.env.now, wd len, 0, 0, 0, 0, 0] ++ body
    (s.wrWords false (wordAt w 1).toNat ws).complete q n .ok len

/-! ## BLOCK_RESET -/

/-- BLOCK_RESET: its status record is written before the reset begins. -/
def State.effBlockReset (s : State) (q n : Nat) (w : List Word) : State :=
  (s.complete q n .ok 0).push [.reset (if bit (wordAt w 1) 0 then 2 else 1) 1]

end Sys2Proof.Machine
end

