-- ==== Sys2Proof/Machine/Settle.lean ====
section
/-!
DEFINITION. Actions in flight between units (assumption 9): what holds one back, what each does, and settling them in order.
A gait change holds the transfers at its bridges and every counter (R284); `CTU_CTL.RUN` clear holds the counters (Table 5.8).
-/
namespace Sys2Proof.Machine

/-- The context of the task that a core runs. -/
def State.portCtx (s : State) (c : Nat) : Nat := ((s.runningOn c).map fun y => y.p.e.ref.ctx).getD 4096

/-- The counter that a started WAIT names waits. -/
def State.cmdWaits (s : State) (q n : Nat) : Bool := match s.cmd? q n with
  | some x => s.ctrWaits (Op.ctx x.words) (bits (wordAt x.words 1) 23 0)
  | none => s.counterHold

/-- The counter that a started DEBUG_SET_COUNTER names waits (R146). -/
def State.debugWaits (s : State) (q n : Nat) : Bool := match s.cmd? q n with
  | some x => s.setWaits (bits (wordAt x.words 1) 11 0) (bits (wordAt x.words 2) 23 0)
  | none => s.counterHold

/-- The sequencer of a core's cluster is paused (R284). -/
def State.seqPaused (s : State) (c : Nat) : Bool := s.pausedUnit 2 (s.seqPos (c / 8))

/-- A retiring task's signal to a counter of its context is in flight and waits: the decrements that follow it wait too (R187, Table
8.4). -/
def State.signalWaits (s : State) (ctx vid : Nat) : Bool := s.ctrWaits ctx vid && s.work.any fun w => match w with
  | .signal c v .. => decide (c = ctx) && decide (v = vid)
  | .poison c v => decide (c = ctx) && decide (v = vid)
  | _ => false

/-- A queue's containment is not complete: a counter to be poisoned, or a command to be completed, waits (R63). -/
def State.containing (s : State) (q : Nat) : Bool := s.containWaits q || s.work.any fun w => match w with
  | .complete p .. => decide (p = q)
  | _ => false

/-- An action that must wait: a transfer or a tick during a gait change, a counter operation then or while `RUN` is clear, and what a
paused unit would do (R284). A reset waits for the status record of the BLOCK_RESET that asked for it (R295). -/
def State.holds (s : State) : Work → Bool
  | .done c _ => s.gcs.changing || s.holdFull c || s.seqPaused c
  | .yield c => s.gcs.changing || s.seqPaused c
  | .sig c .. => s.gcs.changing || s.seqPaused c
  | .relay x => s.gcs.changing || s.relayPaused x.core || s.relayPaused (hdrCore x.hdr)
  | .trailIn .. | .ackIn .. | .evtAct .. | .tick .. | .confirm .. | .commit .. | .refute .. | .carEnd .. => s.gcs.changing
  | .wait c _ vid _ => s.ctrWaits (s.portCtx c) vid || s.seqPaused c || decide (8 ≤ s.coreWaits c)
  | .probe c _ vid => s.ctrWaits (s.portCtx c) vid || s.seqPaused c
  | .signal ctx vid .. | .poison ctx vid => s.ctrWaits ctx vid
  | .windowSet ctx vid _ => s.setWaits ctx vid
  | .trailAct x .. => s.ctrWaits (handleCtr x.handle).1 (handleCtr x.handle).2
  | .contained q .. => s.containing q
  | .waitCtl r _ vid _ => s.ctrWaits r.ctx vid
  | .waitCmd q n => s.cmdWaits q n
  | .debugSet q n => s.debugWaits q n
  | .decr o ctx _ _ _ after _ => after.any (s.signalWaits ctx) || s.pausedUnit 2 (s.seqPos o)
  | .regroom kind inst _ => s.gcs.changing || !s.roleRuns 2 || !s.drained kind inst
  | .reset .. => s.work.any fun w => match w with
    | .complete q n .. => (s.cmd? q n).any fun x => decide (Op.code x.words = 0x1B)
    | _ => false
  | .complete q n _ _ => (s.cmd? q n).any (s.completionWaits q)
  | _ => false

/-- A waiter is released (R125): the command, the CONTROL WAIT or the core that waits. -/
def State.released (s : State) (who : Who) (poisoned : Bool) : State := match who with
  | .cmd q n => s.waitReleased q n poisoned
  | .control r cluster => s.retireTask r (if poisoned then .failed else .normal) (some cluster) none
  | .core c tag => s.reply c tag (b2n poisoned) 0

/-- The CTU applies a trailing signal; then it is acknowledged to its source, or settled on this chip (R142, R144). One that the tests
of R142 no longer pass, having waited, is refused. A counter that cannot become resident faults its context with no effect (R133); the
manual gives that signal no result of its own, and the model acknowledges it APPLIED (assumption 31). -/
def State.trailActed (s : State) (x : Trail) (source : Nat) (ack : List Word) : State :=
  match s.trailTest x.handle with
  | 0 =>
    let p := handleCtr x.handle
    let s1 := if x.poison then s.doPoison p.1 p.2 else s.doSignal p.1 p.2 x.inc { code := 4, arg := source } none
    if ack = [] then s1.trailSettled x none else s1.trailAck ack
  | r => s.trailRefused x r ack

/-- A task retires in an action of its own; one that was dispatched speculatively loses its staging (R187, R202). -/
def State.retireNow (s : State) (r : TaskRef) (how : How) : State :=
  let at_ := s.specAt? r
  let s1 := match s.task? r with
    | some t => if decide (t.st = TaskState.spec) then s.dropSpec r else s
    | none => s
  s1.retireTask r how (at_.map Prod.fst) (at_.map Prod.snd)

/-- A reset that a command or an error asked for: triggers from 0x300 on are UNCONTAINED errors, less that sum their code. -/
def State.resetWork (s : State) (kind trigger : Nat) : State :=
  s.resetReq (decide (kind = 2)) (if 0x300 ≤ trigger then 3 else trigger) (trigger - 0x300)

/-- Perform one action. -/
def State.doWork (s : State) : Work → State
  | .done c occ => s.coreDone c occ
  | .yield c => s.coreYield c
  | .sig c who vid inc => (s.xferOpen c 7).portSig c who vid inc
  | .wait c tag vid expected => (s.xferOpen c 7).portWait c tag vid expected
  | .probe c tag vid => (s.xferOpen c 7).portProbe c tag vid
  | .relay x => (s.xferOpen x.core 7).relaySend x
  | .trailIn w0 w1 w2 => s.trailIn w0 w1 w2
  | .ackIn w0 _ w2 w3 => s.ackIn w0 w2 w3
  | .evtAct n => s.evtAct n
  | .tick k => s.tick k
  | .signal ctx vid inc src cmd => s.doSignal ctx vid inc src cmd
  | .poison ctx vid => s.doPoison ctx vid
  | .contained q cause un tag a b k => s.contained q cause un tag a b k
  | .trailAct x source ack => s.trailActed x source ack
  | .trail x => s.trailPost x
  | .release who poisoned => s.released who poisoned
  | .retire r how => s.retireNow r how
  | .confirm r => s.confirm r
  | .commit n h => s.commit n h
  | .refute r cause => s.refute r cause
  | .decr _ ctx inst pred failed _ idxs => s.applyDecrements ctx inst pred failed idxs
  | .instEnd ctx inst => s.instEnd ctx inst
  | .carEnd q seq => s.rootCheck q seq
  | .complete q seq st detail => (s.complete q seq st detail).resetStep q
  | .faultCtx ctx code a b k => s.faultCtx ctx code a b k
  | .faultQuiet ctx code => s.faultCtx ctx code 0 0 0 false
  | .coreFree ctx => ((s.coreFree ctx).resetAll).refillAll
  | .retryWait r => s.retryStall r
  | .waitCmd q seq => s.waitCmd q seq
  | .waitCtl r cluster vid expected => s.waitCtl r cluster vid expected
  | .debugSet q seq => if (s.cmd? q seq).isSome then s.effDebugSet q seq else s
  | .windowSet ctx vid new => s.windowSet ctx vid new
  | .fwRoles => s.restartsOver.refillAll
  | .regroom _ _ stage => s.regroom stage
  | .startFail => s.startFailed
  | .reset kind trigger => s.resetWork kind trigger

/-- The first action that nothing holds back, and the others in order. -/
def takeWork (held : Work → Bool) : List Work → Option (Work × List Work)
  | [] => none
  | w :: ws => if held w then (takeWork held ws).map fun p => (p.1, w :: p.2) else some (w, ws)

/-- Perform up to `n` actions. -/
def settleN : Nat → State → State
  | 0, s => s
  | n + 1, s => match takeWork s.holds s.work with
    | none => s
    | some (w, ws) => settleN n (({ s with work := ws }).doWork w)

/-- Perform every action that nothing holds back, in order. -/
def settle (s : State) : State := settleN Config.settleFuel s

end Sys2Proof.Machine
end

