-- ==== Sys2Proof/Machine/Dispatching.lean ====
section
/-!
DEFINITION. Meanings of the dispatch, core-port, core-counter, delay-list and context rows (04, 05, 07, 08).
-/
namespace Sys2Proof.Machine

/-! ## Popping, offering and cores -/

/-- GD_POP (R100). -/
def execGdPop (t : Nat) (s : State) : Out' := .next (settle ((s.at t).gdPop))

/-- SPEC_OFFER (R196). -/
def execSpecOffer (n : Nat) (t : Nat) (s : State) : Out' := .next (settle ((s.at t).specOffer n))

/-- SPUR (R110): the credits of its core's context may refill (R265). -/
def execSpur (c : Nat) (t : Nat) (s : State) : Out' := .next (settle (((s.at t).spurCore c).refillAll))

/-- DESC_FILL (R91). -/
def execDescFill (lane : Nat) (s : State) : Out' := .next (settle (s.dcFill lane))

/-- CORE_DONE (R113): its bridge holds it during a gait change. -/
def execCoreDone (c : Nat) (occ : Word) (t : Nat) (s : State) : Out' := .next (settle ((s.at t).push [.done c occ]))

/-- CORE_YIELD (R174). -/
def execCoreYield (c : Nat) (t : Nat) (s : State) : Out' := .next (settle ((s.at t).push [.yield c]))

/-! ## Core port and core counters -/

/-- CORE_SIG (R138). -/
def execCoreSig (c : Nat) (vid : Nat) (inc : Nat) (s : State) : Out' := .next (settle (s.latchSig c vid inc))

/-- CORE_WAIT (R125). -/
def execCoreWait (c : Nat) (tag : Nat) (vid : Nat) (expected : Word) (s : State) : Out' := .next (settle (s.push [.wait c tag vid expected.toNat]))

/-- CORE_PROBE (R138). -/
def execCoreProbe (c : Nat) (tag : Nat) (vid : Nat) (s : State) : Out' := .next (settle (s.push [.probe c tag vid]))

/-- CC_SIGNAL (R137, Table 5.6). -/
def execCcSignal (c : Nat) (k : CcReq) (inc : Nat) (s : State) : Out' := .next (settle (s.ccSignal c k.tag k.k inc))

/-- CC_WAIT (R137, Table 5.6). -/
def execCcWait (c : Nat) (tag : Nat) (k : Nat) (s : State) : Out' := .next (settle (s.ccWait c tag k))

/-- CC_TAKE, and an undefined port OP (R136, Table 5.6). -/
def execCcTake (c : Nat) (tag : Nat) (k : Nat) (op : Nat) (s : State) : Out' := .next (settle (s.ccTake c tag k op))

/-- CC_READ (R136, Table 5.6). -/
def execCcRead (c : Nat) (tag : Nat) (k : Nat) (s : State) : Out' := .next (settle (s.ccRead c tag k))

/-! ## Refused beats and expiries -/

/-- STAGE_BEAT_REFUSED (R277). -/
def execStageBeatRefused (c : Nat) (s : State) : Out' := .next (settle (s.stageBeat c))

/-- SPEC_ACCESS_ATTEMPT (R198). -/
def execSpecAccessAttempt (c : Nat) (s : State) : Out' := .next (settle (s.specAccess c))

/-- BUDGET_EXPIRY (R175). -/
def execBudgetExpiry (c : Nat) (t : Nat) (s : State) : Out' := .next (settle ((s.at t).budgetExpiry c))

/-- TILE_STALL_TIMEOUT (R121). -/
def execTileStallTimeout (c : Nat) (t : Nat) (s : State) : Out' := .next (settle ((s.at t).stallTimeout c))

/-- PORT_FAULT (R279). -/
def execPortFault (c : Nat) (channel : Nat) (t : Nat) (s : State) : Out' := .next (settle ((s.at t).portFault c channel))

/-! ## Delay list and contexts -/

/-- DELAY_TICK (R109): held during a gait change. -/
def execDelayTick (k : Nat) (s : State) : Out' := .next (settle (s.push [.tick k]))

/-- DELAY_TASK_WAKE (R82). -/
def execDelayTaskWake (t : Nat) (s : State) : Out' := .next (settle ((s.at t).wakeHead fun a => match a with
    | .task _ => true
    | _ => false))

/-- POSTED_SIGNAL_WAKE (R53). -/
def execPostedSignalWake (t : Nat) (s : State) : Out' := .next (settle ((s.at t).wakeHead fun a => match a with
    | .signal _ _ => true
    | _ => false))

/-- POSTED_LAUNCH_WAKE (R53). -/
def execPostedLaunchWake (t : Nat) (s : State) : Out' := .next (settle ((s.at t).wakeHead fun a => match a with
    | .launch _ _ _ _ => true
    | _ => false))

/-- QUANTUM_WINDOW_END (R172). -/
def execQuantumWindowEnd (ctx : Nat) (t : Nat) (s : State) : Out' := .next (settle ((s.at t).windowEnd ctx))

/-- SUSPEND_COMPLETE (R174, Table 7.6). -/
def execSuspendComplete (ctx : Nat) (t : Nat) (s : State) : Out' := .next (settle (((s.at t).suspendFinish ctx).refillAll))

/-- MAKE_RESIDENT (R179). -/
def execMakeResident (t : Nat) (s : State) : Out' := .next (settle ((s.at t).makeResident))

/-- SUSPEND_DRAIN_LIMIT (R178). -/
def execSuspendDrainLimit (ctx : Nat) (t : Nat) (s : State) : Out' := .next (settle ((s.at t).drainLimit ctx))

end Sys2Proof.Machine
end

