-- ==== Sys2Proof/Machine/FirmwareRows.lean ====
section
/-!
DEFINITION. Meanings of the firmware-core, mailbox, I3C and MCTP rows (12, 14).
-/
namespace Sys2Proof.Machine

/-! ## Firmware cores -/

/-- FW_CORE_TRAP (R322). -/
def execFwCoreTrap (k : Nat) (mcause : Word) (t : Nat) (s : State) : Out' := .next (settle ((s.at t).fwCrash k 1 mcause.toNat))

/-- FW_WATCHDOG (R322). -/
def execFwWatchdog (k : Nat) (t : Nat) (s : State) : Out' := .next (settle ((s.at t).fwCrash k 2 0))

/-- FW_RESTART_END (R322). -/
def execFwRestartEnd (k : Nat) (t : Nat) (s : State) : Out' := .next (settle (((s.at t).fwRestartEnd k).refillAll))

/-! ## Mailbox (R328, R329) -/

/-- PING (R329). -/
def execPing (arg : Nat) (s : State) : Out' := .next (settle (s.onUnits fun s => s.mboxCmd 1 arg))

/-- POLICY_READ (R329). -/
def execPolicyRead (arg : Nat) (s : State) : Out' := .next (settle (s.onUnits fun s => s.mboxCmd 2 arg))

/-- POLICY_WRITE (R329). -/
def execPolicyWrite (arg : Nat) (v : Word) (s : State) : Out' := .next (settle (s.onUnits fun s => (s.mboxWrite v).mboxCmd 3 arg))

/-- SET_HERD_GROUP (R329). -/
def execSetHerdGroup (arg : Nat) (v : Word) (s : State) : Out' := .next (settle (s.onUnits fun s => (s.mboxWrite v).mboxCmd 4 arg))

/-- RESTART_CORE (R329). -/
def execRestartCore (k : Nat) (t : Nat) (s : State) : Out' := .next (settle ((s.at t).onUnits fun s => s.mboxCmd 5 k))

/-! ## I3C and MCTP (R293, R326, R327) -/

/-- ENTDAA (R310). -/
def execEntdaa (da : Nat) (s : State) : Out' := .next (settle (s.entdaa da))

/-- RSTDAA (R310). -/
def execRstdaa (s : State) : Out' := .next (settle (s.rstdaa))

/-- I3C_CCC (R293). -/
def execI3cCcc (code : Nat) (data : Nat) (s : State) : Out' := .next (settle (s.i3cCcc code data))

/-- HEALTH_GET (R326). -/
def execHealthGet (s : State) : Out' := .next (settle (s.healthGet))

/-- MCTP_STUDBOOK_READ (R326). -/
def execMctpStudbookRead (first : Nat) (s : State) : Out' := .next (settle (s.mctpStudbook first))

/-- MCTP_CONTROL (R326). -/
def execMctpControl (code : Nat) (data : Nat) (s : State) : Out' := .next (settle (s.mctpControl code data))

/-- IBI_ACKNOWLEDGE (R326). -/
def execIbiAcknowledge (cause : Nat) (s : State) : Out' := .next (settle (s.ibiAck cause))

end Sys2Proof.Machine
end

