-- ==== Sys2Proof/Machine/FrontEnd.lean ====
section
/-!
DEFINITION. Meanings of the opcodes of Table 2.11 and of the queue, slot and take-up rows (02, 14). A packet is eight words;
`w` holds a command's packets in order.
-/
namespace Sys2Proof.Machine

/-! ## Opcodes (Table 2.11) -/

/-- NOP: completes at its start (R47, Table 2.11). -/
def execNop (q : Nat) (w : List Word) (s : State) : Out' := .next (settle (s.hwCmd 0x00 q w fun n s => s.complete q n .ok 0))

/-- GRAPH_LOAD (R72). -/
def execGraphLoad (q : Nat) (w : List Word) (s : State) : Out' := .next (settle (s.hwCmd 0x01 q w fun n s => s.effGraphLoad q n w))

/-- GRAPH_LAUNCH (R86). -/
def execGraphLaunch (q : Nat) (w : List Word) (s : State) : Out' := .next (settle (s.hwCmd 0x02 q w fun n s => s.effGraphLaunch q n w))

/-- SIGNAL (R124). -/
def execSignal (q : Nat) (w : List Word) (s : State) : Out' := .next (settle (s.hwCmd 0x03 q w fun n s => s.effSignal q n w))

/-- WAIT (R52). -/
def execWait (q : Nat) (w : List Word) (s : State) : Out' := .next (settle (s.hwCmd 0x04 q w fun n s => s.effWait q n))

/-- SIGNAL_REMOTE (R141). -/
def execSignalRemote (q : Nat) (w : List Word) (s : State) : Out' := .next (settle (s.hwCmd 0x05 q w fun n s => s.effSignalRemote q n w))

/-- PEER_WRITE (R47). -/
def execPeerWrite (q : Nat) (w : List Word) (s : State) : Out' := .next (settle (s.hwCmd 0x06 q w fun n s => s.effPeerWrite q n w))

/-- CANCEL (R59, Table 2.20). -/
def execCancel (q : Nat) (w : List Word) (s : State) : Out' := .next (settle (s.hwCmd 0x07 q w fun n s => s.effCancel q n w))

/-- CTX_CREATE (R165). -/
def execCtxCreate (q : Nat) (w : List Word) (s : State) : Out' := .next (settle (s.fwCmd 0x08 q w fun n s => s.effCtxCreate q n w))

/-- CTX_DESTROY (R180). -/
def execCtxDestroy (q : Nat) (w : List Word) (s : State) : Out' := .next (settle (s.fwCmd 0x09 q w fun n s => s.effCtxDestroy q n w))

/-- CTX_SUSPEND (R174). -/
def execCtxSuspend (q : Nat) (w : List Word) (s : State) : Out' := .next (settle (s.fwCmd 0x0A q w fun n s => s.effCtxSuspend q n w))

/-- CTX_RESUME (R181). -/
def execCtxResume (q : Nat) (w : List Word) (s : State) : Out' := .next (settle (s.fwCmd 0x0B q w fun n s => s.effCtxResume q n w))

/-- COUNTER_MAP (R134). -/
def execCounterMap (q : Nat) (w : List Word) (s : State) : Out' := .next (settle (s.fwCmd 0x0C q w fun n s => s.effCounterMap q n w))

/-- TILE_POOL (R120). -/
def execTilePool (q : Nat) (w : List Word) (s : State) : Out' := .next (settle (s.fwCmd 0x0D q w fun n s => s.effTilePool q n w))

/-- GE_PROGRAM_LOAD (R226). -/
def execGeProgramLoad (q : Nat) (w : List Word) (s : State) : Out' := .next (settle (s.fwCmd 0x0E q w fun n s => s.effGeProgramLoad q n w))

/-- FLOW_CONFIG (R107). -/
def execFlowConfig (q : Nat) (w : List Word) (s : State) : Out' := .next (settle (s.fwCmd 0x0F q w fun n s => s.effFlowConfig q n w))

/-- CAR_JOIN (R245). -/
def execCarJoin (q : Nat) (w : List Word) (s : State) : Out' := .next (settle (s.carCmd 0x10 q w fun n s => s.effCarJoin q n w))

/-- CAR_LEAVE (R246). -/
def execCarLeave (q : Nat) (w : List Word) (s : State) : Out' := .next (settle (s.carCmd 0x11 q w fun n s => s.effCarLeave q n w))

/-- CAR_STEP (R248). -/
def execCarStep (q : Nat) (w : List Word) (s : State) : Out' := .next (settle (s.carCmd 0x12 q w fun n s => s.effCarStep q n w))

/-- DELAY_POST (R53). -/
def execDelayPost (q : Nat) (w : List Word) (s : State) : Out' := .next (settle (s.hwCmd 0x13 q w fun n s => s.effDelayPost q n w))

/-- QUERY (R60). -/
def execQuery (q : Nat) (w : List Word) (s : State) : Out' := .next (settle (s.fwCmd 0x14 q w fun n s => s.effQuery q n w))

/-- STAT_SNAPSHOT (R61). -/
def execStatSnapshot (q : Nat) (w : List Word) (s : State) : Out' := .next (settle (s.fwCmd 0x15 q w fun n s => s.effStatSnapshot q n w))

/-- QUEUE_RESET (R66). -/
def execQueueReset (q : Nat) (w : List Word) (s : State) : Out' := .next (settle (s.fwCmd 0x16 q w fun n s => s.effQueueReset q n w))

/-- DEBUG_SET_COUNTER (R146). -/
def execDebugSetCounter (q : Nat) (w : List Word) (s : State) : Out' := .next (settle (s.fwCmd 0x17 q w fun n s => s.push [.debugSet q n]))

/-- FW_UPDATE (R324). -/
def execFwUpdate (q : Nat) (w : List Word) (s : State) : Out' := .next (settle (s.fwCmd 0x18 q w fun n s => s.effFwUpdate q n w))

/-- STUDBOOK_READ (R351). -/
def execStudbookRead (q : Nat) (w : List Word) (s : State) : Out' := .next (settle (s.fwCmd 0x19 q w fun n s => s.effStudbookRead q n w))

/-- HEALTH_ACK (R345). -/
def execHealthAck (q : Nat) (w : List Word) (s : State) : Out' := .next (settle (s.fwCmd 0x1A q w fun n s => s.effHealthAck q n w))

/-- BLOCK_RESET (R295). -/
def execBlockReset (q : Nat) (w : List Word) (s : State) : Out' := .next (settle (s.fwCmd 0x1B q w fun n s => s.effBlockReset q n w))

/-! ## Packet checks and take-up -/

/-- CFE_PACKET_CHECK (R45). -/
def execCfePacketCheck (q : Nat) (t : Nat) (s : State) : Out' := .next (settle ((s.at t).packetCheck q))

/-- FW_TAKE_UP (R317). -/
def execFwTakeUp (role : Nat) (t : Nat) (s : State) : Out' := .next (settle ((s.at t).takeUp role))

/-- FW_BUSY_EXPIRY (R317). -/
def execFwBusyExpiry (q : Nat) (seq : Nat) (t : Nat) (s : State) : Out' := .next (settle ((s.at t).fwBusy q seq))

/-! ## Doorbells, attributes and slots -/

/-- DB_TAIL_WRITE (R34). -/
def execDbTailWrite (q : Nat) (v : Word) (s : State) : Out' := .next (settle (s.onUnits fun s => s.dbTail q v))

/-- DB_CPL_HEAD_WRITE (R30). -/
def execDbCplHeadWrite (q : Nat) (v : Word) (s : State) : Out' := .next (settle (s.onUnits fun s => s.dbCplHead q v))

/-- QUEUE_ENABLE (R32, Table 2.5). -/
def execQueueEnable (q : Nat) (s : State) : Out' := .next (settle (s.onUnits fun s => s.queueEnable q))

/-- QUEUE_DISABLE (R32, Table 2.5). -/
def execQueueDisable (q : Nat) (s : State) : Out' := .next (settle (s.onUnits fun s => s.queueDisable q))

/-- QUEUE0_RESET (R66, Table 2.5). -/
def execQueue0Reset (s : State) : Out' := .next (settle (s.onUnits State.queue0Reset))

/-- QATTR_WRITE (R31). -/
def execQattrWrite (off : Nat) (v : Word) (s : State) : Out' := .next (settle (s.onUnits fun s => s.qattr off v))

/-- CFE_SLOT_QUEUE_WRITE (R37). -/
def execCfeSlotQueueWrite (n : Nat) (v : Word) (s : State) : Out' := .next (settle (s.onUnits fun s => s.slotQueue n v))

/-- DISPLACE (R37, Table 2.8). -/
def execDisplace (n : Nat) (s : State) : Out' := .next (settle (s.onUnits fun s => s.displaceBit n))

/-- SLOT_ENABLE_WRITE (R37, Table 2.8). -/
def execSlotEnableWrite (n : Nat) (enable : Bool) (s : State) : Out' := .next (settle (s.onUnits fun s => s.slotEnable n enable))

/-- SLOT_GRANT (R39). -/
def execSlotGrant (n : Nat) (t : Nat) (s : State) : Out' := .next (settle ((s.at t).slotGrant n))

/-- SLOT_DISPLACE (R40). -/
def execSlotDisplace (t : Nat) (s : State) : Out' := .next (settle ((s.at t).slotDisplace))

/-- SLOT_IDLE_RELEASE (R40). -/
def execSlotIdleRelease (n : Nat) (t : Nat) (s : State) : Out' := .next (settle ((s.at t).slotIdle n))

/-- SLOT_BLOCKED_RELEASE (R40). -/
def execSlotBlockedRelease (n : Nat) (t : Nat) (s : State) : Out' := .next (settle ((s.at t).slotBlocked n))

/-- WAIT_TIMEOUT (R52). -/
def execWaitTimeout (q : Nat) (t : Nat) (s : State) : Out' := .next (settle ((s.at t).waitTimeout q))

/-- GRAPH_WATCHDOG (R62). -/
def execGraphWatchdog (q : Nat) (seq : Nat) (t : Nat) (s : State) : Out' := .next (settle ((s.at t).graphWatchdog q seq))

end Sys2Proof.Machine
end

