-- ==== Sys2Proof/Machine/GateCore.lean ====
section
/-!
DEFINITION. Meanings of the Gating Engine rows and of the control core's instructions (09, Table 9.6). `g` names the engine;
the operands are the instruction's at the program counter of the task that it runs (assumption 29).
-/
namespace Sys2Proof.Machine

/-! ## Tasks and passes -/

/-- GE_TASK_START (R207). -/
def execGeTaskStart (g : Nat) (t : Nat) (s : State) : Out' := .next (settle ((s.at t).geStart g))

/-- GE_PASS_END (R209). -/
def execGePassEnd (g : Nat) (t : Nat) (s : State) : Out' := .next (settle ((s.at t).gePassEnd g))

/-- GATE_BUDGET_EXPIRY (R227). -/
def execGateBudgetExpiry (g : Nat) (t : Nat) (s : State) : Out' := .next (settle ((s.at t).geBudget g))

/-! ## Integer instructions -/

/-- NOP (R223). -/
def execGeNop (g : Nat) (s : State) : Out' := .next (settle (s.geOp (.geNop g) g fun y => s.geNext g y (y.pc + 1)))

/-- LI (R223). -/
def execLi (g : Nat) (d : Nat) (imm : BitVec 32) (s : State) : Out' := .next (settle (s.geSet (.li g d imm) g d (immS imm)))

/-- LIH (R223). -/
def execLih (g : Nat) (d : Nat) (imm : BitVec 32) (s : State) : Out' := .next (settle (s.geAlu (.lih g d imm) g d d d fun x _ => (imm.zeroExtend 64 <<< 32) ||| (x &&& 0xFFFFFFFF#64)))

/-- ADD (R223). -/
def execAdd (g : Nat) (d : Nat) (a : Nat) (b : Nat) (s : State) : Out' := .next (settle (s.geAlu (.add g d a b) g d a b fun x y => x + y))

/-- SUB (R223). -/
def execSub (g : Nat) (d : Nat) (a : Nat) (b : Nat) (s : State) : Out' := .next (settle (s.geAlu (.sub g d a b) g d a b fun x y => x - y))

/-- AND (R223). -/
def execAnd (g : Nat) (d : Nat) (a : Nat) (b : Nat) (s : State) : Out' := .next (settle (s.geAlu (.and g d a b) g d a b fun x y => x &&& y))

/-- OR (R223). -/
def execOr (g : Nat) (d : Nat) (a : Nat) (b : Nat) (s : State) : Out' := .next (settle (s.geAlu (.or g d a b) g d a b fun x y => x ||| y))

/-- XOR (R223). -/
def execXor (g : Nat) (d : Nat) (a : Nat) (b : Nat) (s : State) : Out' := .next (settle (s.geAlu (.xor g d a b) g d a b fun x y => x ^^^ y))

/-- SHL (R223). -/
def execShl (g : Nat) (d : Nat) (a : Nat) (b : Nat) (s : State) : Out' := .next (settle (s.geAlu (.shl g d a b) g d a b fun x y => x <<< (y.toNat % 64)))

/-- SHR (R223). -/
def execShr (g : Nat) (d : Nat) (a : Nat) (b : Nat) (s : State) : Out' := .next (settle (s.geAlu (.shr g d a b) g d a b fun x y => x >>> (y.toNat % 64)))

/-- MUL (R223). -/
def execMul (g : Nat) (d : Nat) (a : Nat) (b : Nat) (s : State) : Out' := .next (settle (s.geAlu (.mul g d a b) g d a b fun x y => x * y))

/-- ADDI (R223). -/
def execAddi (g : Nat) (d : Nat) (a : Nat) (imm : BitVec 32) (s : State) : Out' := .next (settle (s.geAlu (.addi g d a imm) g d a a fun x _ => x + immS imm))

/-- CTZ (R223). -/
def execCtz (g : Nat) (d : Nat) (a : Nat) (s : State) : Out' := .next (settle (s.geAlu (.ctz g d a) g d a a fun x _ => wd (((List.range 64).find? fun i => bit x i).getD 64)))

/-! ## Binary64 instructions (R220) -/

/-- FADD (R223). -/
def execFadd (g : Nat) (d : Nat) (a : Nat) (b : Nat) (s : State) : Out' := .next (settle (s.geF2 (.fadd g d a b) g d a b FFmt.addV))

/-- FSUB (R223). -/
def execFsub (g : Nat) (d : Nat) (a : Nat) (b : Nat) (s : State) : Out' := .next (settle (s.geF2 (.fsub g d a b) g d a b fun f r x y => f.addV r x y.neg))

/-- FMUL (R223). -/
def execFmul (g : Nat) (d : Nat) (a : Nat) (b : Nat) (s : State) : Out' := .next (settle (s.geF2 (.fmul g d a b) g d a b FFmt.mulV))

/-- FDIV (R223). -/
def execFdiv (g : Nat) (d : Nat) (a : Nat) (b : Nat) (s : State) : Out' := .next (settle (s.geF2 (.fdiv g d a b) g d a b FFmt.divV))

/-- FSQRT (R223). -/
def execFsqrt (g : Nat) (d : Nat) (a : Nat) (s : State) : Out' := .next (settle (s.geFp (.fsqrt g d a) g d fun y => let r := fp64.sqrtV {} (f64 (y.reg a)); (wd r.1, r.2)))

/-- FLT (R223). -/
def execFlt (g : Nat) (d : Nat) (a : Nat) (b : Nat) (s : State) : Out' := .next (settle (s.geFcmp (.flt g d a b) g d a b fun o => decide (o = .lt)))

/-- FLE (R223). -/
def execFle (g : Nat) (d : Nat) (a : Nat) (b : Nat) (s : State) : Out' := .next (settle (s.geFcmp (.fle g d a b) g d a b fun o => decide (o ≠ .gt)))

/-- FCVT (R223). -/
def execFcvt (g : Nat) (d : Nat) (a : Nat) (s : State) : Out' := .next (settle (s.geFp (.fcvt g d a) g d fun y => let r := fp64.ofInt {} (y.reg a).toInt; (wd r.1, r.2)))

/-- ICVT (R223). -/
def execIcvt (g : Nat) (d : Nat) (a : Nat) (s : State) : Out' := .next (settle (s.geIcvt g d a))

/-! ## Memory, branches and passes -/

/-- LD (R224). -/
def execLd (g : Nat) (d : Nat) (a : Nat) (imm : BitVec 32) (s : State) : Out' := .next (settle (s.geLd g d a imm))

/-- ST (R224). -/
def execSt (g : Nat) (a : Nat) (b : Nat) (imm : BitVec 32) (s : State) : Out' := .next (settle (s.geSt g a b imm))

/-- BIND (R223). -/
def execBind (g : Nat) (d : Nat) (imm : BitVec 32) (s : State) : Out' := .next (settle (s.geBind g d imm))

/-- BEQ (R223). -/
def execBeq (g : Nat) (a : Nat) (b : Nat) (imm : BitVec 32) (s : State) : Out' := .next (settle (s.geBranch (.beq g a b imm) g a b imm fun x y => decide (x = y)))

/-- BNE (R223). -/
def execBne (g : Nat) (a : Nat) (b : Nat) (imm : BitVec 32) (s : State) : Out' := .next (settle (s.geBranch (.bne g a b imm) g a b imm fun x y => decide (x ≠ y)))

/-- BLT (R223): signed. -/
def execBlt (g : Nat) (a : Nat) (b : Nat) (imm : BitVec 32) (s : State) : Out' := .next (settle (s.geBranch (.blt g a b imm) g a b imm fun x y => x.slt y))

/-- BGE (R223): signed. -/
def execBge (g : Nat) (a : Nat) (b : Nat) (imm : BitVec 32) (s : State) : Out' := .next (settle (s.geBranch (.bge g a b imm) g a b imm fun x y => !x.slt y))

/-- BLTU (R223): unsigned. -/
def execBltu (g : Nat) (a : Nat) (b : Nat) (imm : BitVec 32) (s : State) : Out' := .next (settle (s.geBranch (.bltu g a b imm) g a b imm fun x y => x.ult y))

/-- JMP (R223). -/
def execJmp (g : Nat) (imm : BitVec 32) (s : State) : Out' := .next (settle (s.geBranch (.jmp g imm) g 0 0 imm fun _ _ => true))

/-- RUN (R209). -/
def execRun (g : Nat) (a : Nat) (b : Nat) (s : State) : Out' := .next (settle (s.geRun g a b))

/-- SUM (R223, Table 9.7). -/
def execSum (g : Nat) (d : Nat) (imm : BitVec 32) (s : State) : Out' := .next (settle (s.geSum g d imm))

/-! ## Effects outside the task (R224, R225) -/

/-- SIG (R225). -/
def execGeSig (g : Nat) (a : Nat) (b : Nat) (s : State) : Out' := .next (settle (s.geSig g a b))

/-- LAUNCH (R225). -/
def execGeLaunch (g : Nat) (d : Nat) (a : Nat) (b : Nat) (t : Nat) (s : State) : Out' := .next (settle ((s.at t).geLaunch g d a b))

/-- SHAPE (R225). -/
def execShape (g : Nat) (d : Nat) (a : Nat) (b : Nat) (s : State) : Out' := .next (settle (s.geShape g d a b))

/-- SKIP (R225). -/
def execSkip (g : Nat) (d : Nat) (a : Nat) (s : State) : Out' := .next (settle (s.geSkip g d a))

/-- END (R227, Table 9.8). -/
def execEndTask (g : Nat) (imm : BitVec 32) (t : Nat) (s : State) : Out' := .next (settle ((s.at t).geEnd g imm))

end Sys2Proof.Machine
end

