-- ==== Sys2Proof/Machine/PinsPower.lean ====
section
/-!
DEFINITION. Meanings of the event-line, gait, power, reset and start rows (12, 13).
-/
namespace Sys2Proof.Machine

/-! ## Event lines -/

/-- EVT_EDGE (R288). -/
def execEvtEdge (n : Nat) (t : Nat) (s : State) : Out' := .next (settle ((s.at t).evtEdge n))

/-- EVT_LINE_FALL (R290). -/
def execEvtLineFall (n : Nat) (t : Nat) (s : State) : Out' := .next (settle ((s.at t).evtFall n))

/-- EVT_STUCK (R290). -/
def execEvtStuck (n : Nat) (t : Nat) (s : State) : Out' := .next (settle ((s.at t).evtStuckLine n))

/-- STUCK_REARM (R290). -/
def execStuckRearm (n : Nat) (s : State) : Out' := .next (settle (s.powered fun s => s.stuckRearm n))

/-- EVT_ACT_WRITE (R290). -/
def execEvtActWrite (n : Nat) (v : Word) (s : State) : Out' := .next (settle (s.powered fun s => s.evtActWrite n v))

/-- EVT_COUNT_WRITE (R288). -/
def execEvtCountWrite (n : Nat) (v : Word) (s : State) : Out' := .next (settle (s.powered fun s => s.evtCountWrite n v))

/-! ## Gaits -/

/-- GAIT_REQ (R284). -/
def execGaitReq (sel : Nat) (t : Nat) (s : State) : Out' := .next (settle ((s.at t).gaitReq sel))

/-- GAIT_ACK (R284). -/
def execGaitAck (t : Nat) (s : State) : Out' := .next (settle ((s.at t).gaitAcked))

/-- GAIT_DONE (R284); what the change held is performed, then a waiting request is taken up (R285). -/
def execGaitDone (bad : List Wear) (t : Nat) (s : State) : Out' := .next (settle ((settle ((s.at t).gaitDone bad)).gaitFollow))

/-- TTH_GAIT_REQ (R285). -/
def execTthGaitReq (target : Nat) (s : State) : Out' := .next (settle (s.onUnits fun s => s.tthGaitReq target))

/-- GAIT_REQUEST_ANSWER (R285). -/
def execGaitRequestAnswer (denied : Bool) (s : State) : Out' := .next (settle (s.gaitAnswer denied))

/-! ## Power, resets and starts -/

/-- POWER_ON (R295). -/
def execPowerOn (t : Nat) (s : State) : Out' := .next (settle ((s.at t).powerOn))

/-- POWER_FALL (R291). -/
def execPowerFall (s : State) : Out' := .next (settle (s.powerFall))

/-- PWR_FAIL (R291). -/
def execPwrFail (t : Nat) (s : State) : Out' := .next (settle ((s.at t).pwrFail))

/-- PWR_FAIL_RELEASE (R291). -/
def execPwrFailRelease (t : Nat) (s : State) : Out' := .next (settle ((s.at t).pwrFailRelease))

/-- RESERVE_DRAIN (R350). -/
def execReserveDrain (t : Nat) (s : State) : Out' := .next (settle ((s.at t).reserveDrain))

/-- WARM_RESET: `GCS_CTL.RESET` = 1 (R295). -/
def execWarmReset (t : Nat) (s : State) : Out' := .next (settle ((s.at t).resetReq false 2 0))

/-- COLD_RESET: `GCS_CTL.RESET` = 2 (R295). -/
def execColdReset (t : Nat) (s : State) : Out' := .next (settle ((s.at t).resetReq true 2 0))

/-- FIRMWARE_RESTART (R304): `GCS_CTL.RESET` = 3. -/
def execFirmwareRestart (t : Nat) (s : State) : Out' := .next (settle ((s.at t).firmwareRestart))

/-- RECOVER (R312). -/
def execRecover (t : Nat) (s : State) : Out' := .next (settle ((s.at t).recover))

/-- START_END (R307). -/
def execStartEnd (t : Nat) (s : State) : Out' := .next (settle ((s.at t).startEnd))

/-- START_WATCHDOG (R307). -/
def execStartWatchdog (t : Nat) (s : State) : Out' := .next (settle ((s.at t).startWatchdog))

/-- ENUM (R299). -/
def execEnum (s : State) : Out' := .next (settle (s.onUnits State.enumRow))

/-- TETHER_NO_ANSWER (R299). -/
def execTetherNoAnswer (p : Nat) (s : State) : Out' := .next (settle (s.noAnswer p))

/-- GROOM (R302). -/
def execGroom (temp : Int) (failed : List Wear) (s : State) : Out' := .next (settle (s.groom temp failed))

end Sys2Proof.Machine
end

