-- ==== Sys2Proof/Machine/RegisterRows.lean ====
section
/-!
DEFINITION. Meanings of the debug-window, register and fault rows (05, 15, 17).
-/
namespace Sys2Proof.Machine

/-! ## Debug window (R145, R146, R148) -/

/-- CTU_DBG_READ (R146). -/
def execCtuDbgRead (s : State) : Out' := .next (settle (s.dbgRead))

/-- CTU_DBG_SET (R146). -/
def execCtuDbgSet (s : State) : Out' := .next (settle (s.dbgSet))

/-- CTU_DBG_HALT (R145). -/
def execCtuDbgHalt (s : State) : Out' := .next (settle (s.dbgHalt))

/-- CTU_DBG_RESUME (R145). -/
def execCtuDbgResume (s : State) : Out' := .next (settle (s.dbgResume))

/-! ## Register commands -/

/-- FLUSH (R192). -/
def execFlush (s : State) : Out' := .next (settle (s.specFlush))

/-- ICACHE_INV (R230). -/
def execIcacheInv (g : Nat) (s : State) : Out' := .next (settle (s.icacheInv g))

/-- STAT_CLEAR (R122, Table 4.11). -/
def execStatClear (s : State) : Out' := .next (settle (s.statClear))

/-- IRQ_ENABLE_WRITE (R362). -/
def execIrqEnableWrite (v : Word) (s : State) : Out' := .next (settle (s.irqEnableWrite v))

/-- IRQ_STATUS_CLEAR (R362). -/
def execIrqStatusClear (v : Word) (s : State) : Out' := .next (settle (s.powered fun s => s.irqStatusClear v))

/-- ERR_RING_ENABLE (R337). -/
def execErrRingEnable (v : Word) (s : State) : Out' := .next (settle (s.errBaseWrite v))

/-- ERR_HEAD_WRITE (R337). -/
def execErrHeadWrite (v : Word) (s : State) : Out' := .next (settle (s.errHeadWrite v))

/-- REGISTER_WRITE (R7). -/
def execRegisterWrite (off : Nat) (v : Word) (width : Nat) (s : State) : Out' := .next (settle (s.regWrite off v width))

/-! ## Faults and service -/

/-- SRAM_ERROR (R335). -/
def execSramError (storage : Nat) (inst : Nat) (row : Nat) (uncorrectable : Bool) (t : Nat) (s : State) : Out' := .next (settle ((s.at t).sramError storage inst row uncorrectable))

/-- WEAR_DETECT (R339). -/
def execWearDetect (x : Wear) (t : Nat) (s : State) : Out' := .next (settle ((s.at t).wearDetect x))

/-- REMOUNT (R342); a Relay port that was paused takes what waits for its credits. -/
def execRemount (kind : Nat) (inst : Nat) (cause : Nat) (t : Nat) (s : State) : Out' := .next (settle (((s.at t).remountRow kind inst cause).refillAll))

/-- STUDBOOK_FLUSH (R349). -/
def execStudbookFlush (s : State) : Out' := .next (settle (s.flushRow))

/-- PTR_MISMATCH (R271, Table 11.3). -/
def execPtrMismatch (kind : Nat) (inst : Nat) (ctx : Nat) (t : Nat) (s : State) : Out' := .next (settle ((s.at t).ptrMismatch kind inst ctx))

end Sys2Proof.Machine
end

