-- ==== Sys2Proof/Machine/RelayTrail.lean ====
section
/-!
DEFINITION. Meanings of the Relay rows (11) and of the trailing-signal and herd-link rows (05, 12).
-/
namespace Sys2Proof.Machine

/-! ## Relay -/

/-- RELAY_SEND (R255): its bridge holds it during a gait change. -/
def execRelaySend (c : Nat) (tag : Nat) (hdr : Word) (payload : List Word) (s : State) : Out' := .next (settle (s.latchSend c tag hdr payload))

/-- RELAY_DELIVER (R258). -/
def execRelayDeliver (c : Nat) (ch : Nat) (s : State) : Out' := .next (settle (s.relayDeliver c ch))

/-- OPERAND_PORT_READ (R258). -/
def execOperandPortRead (c : Nat) (slot : Nat) (port : Nat) (s : State) : Out' := .next (settle (s.portRead c slot port))

/-! ## Trailing signals and the herd link -/

/-- TRAIL_SEND (R141, Table 12.5). -/
def execTrailSend (t : Nat) (s : State) : Out' := .next (settle ((s.at t).trailSend))

/-- TRAIL_RECEIVE (R142). -/
def execTrailReceive (w0 : Word) (w1 : Word) (w2 : Word) (s : State) : Out' := .next (settle (s.push [.trailIn w0 w1 w2]))

/-- TRAIL_ACK_RECEIVE (R282, Table 12.5). -/
def execTrailAckReceive (w0 : Word) (w1 : Word) (w2 : Word) (w3 : Word) (s : State) : Out' := .next (settle (s.push [.ackIn w0 w1 w2 w3]))

/-- TRAIL_TIMEOUT (R283). -/
def execTrailTimeout (dest : Nat) (seq : Nat) (t : Nat) (s : State) : Out' := .next (settle ((s.at t).trailTimeout dest seq))

/-- LINK_RESET (R283). -/
def execLinkReset (herd : Nat) (s : State) : Out' := .next (settle (s.linkReset herd))

/-- LINK_UNREACHABLE (R283). -/
def execLinkUnreachable (herd : Nat) (s : State) : Out' := .next (settle (s.linkDown herd))

end Sys2Proof.Machine
end

