-- ==== Sys2Proof/Machine/Dispatch.lean ====
section
/-!
DEFINITION. The dispatch: one arm per command, each one direct call of its meaning.
-/
namespace Sys2Proof.Machine

def exec (i : Instr) (s : State) : Host.Outcome State Fault Refusal :=
  match i with
  | .nop q w => Sys2Proof.Machine.execNop q w s
  | .graphLoad q w => Sys2Proof.Machine.execGraphLoad q w s
  | .graphLaunch q w => Sys2Proof.Machine.execGraphLaunch q w s
  | .signal q w => Sys2Proof.Machine.execSignal q w s
  | .wait q w => Sys2Proof.Machine.execWait q w s
  | .signalRemote q w => Sys2Proof.Machine.execSignalRemote q w s
  | .peerWrite q w => Sys2Proof.Machine.execPeerWrite q w s
  | .cancel q w => Sys2Proof.Machine.execCancel q w s
  | .ctxCreate q w => Sys2Proof.Machine.execCtxCreate q w s
  | .ctxDestroy q w => Sys2Proof.Machine.execCtxDestroy q w s
  | .ctxSuspend q w => Sys2Proof.Machine.execCtxSuspend q w s
  | .ctxResume q w => Sys2Proof.Machine.execCtxResume q w s
  | .counterMap q w => Sys2Proof.Machine.execCounterMap q w s
  | .tilePool q w => Sys2Proof.Machine.execTilePool q w s
  | .geProgramLoad q w => Sys2Proof.Machine.execGeProgramLoad q w s
  | .flowConfig q w => Sys2Proof.Machine.execFlowConfig q w s
  | .carJoin q w => Sys2Proof.Machine.execCarJoin q w s
  | .carLeave q w => Sys2Proof.Machine.execCarLeave q w s
  | .carStep q w => Sys2Proof.Machine.execCarStep q w s
  | .delayPost q w => Sys2Proof.Machine.execDelayPost q w s
  | .query q w => Sys2Proof.Machine.execQuery q w s
  | .statSnapshot q w => Sys2Proof.Machine.execStatSnapshot q w s
  | .queueReset q w => Sys2Proof.Machine.execQueueReset q w s
  | .debugSetCounter q w => Sys2Proof.Machine.execDebugSetCounter q w s
  | .fwUpdate q w => Sys2Proof.Machine.execFwUpdate q w s
  | .studbookRead q w => Sys2Proof.Machine.execStudbookRead q w s
  | .healthAck q w => Sys2Proof.Machine.execHealthAck q w s
  | .blockReset q w => Sys2Proof.Machine.execBlockReset q w s
  | .cfePacketCheck q t => Sys2Proof.Machine.execCfePacketCheck q t s
  | .fwTakeUp role t => Sys2Proof.Machine.execFwTakeUp role t s
  | .fwBusyExpiry q seq t => Sys2Proof.Machine.execFwBusyExpiry q seq t s
  | .dbTailWrite q v => Sys2Proof.Machine.execDbTailWrite q v s
  | .dbCplHeadWrite q v => Sys2Proof.Machine.execDbCplHeadWrite q v s
  | .queueEnable q => Sys2Proof.Machine.execQueueEnable q s
  | .queueDisable q => Sys2Proof.Machine.execQueueDisable q s
  | .queue0Reset => Sys2Proof.Machine.execQueue0Reset s
  | .qattrWrite off v => Sys2Proof.Machine.execQattrWrite off v s
  | .cfeSlotQueueWrite n v => Sys2Proof.Machine.execCfeSlotQueueWrite n v s
  | .displace n => Sys2Proof.Machine.execDisplace n s
  | .slotEnableWrite n enable => Sys2Proof.Machine.execSlotEnableWrite n enable s
  | .slotGrant n t => Sys2Proof.Machine.execSlotGrant n t s
  | .slotDisplace t => Sys2Proof.Machine.execSlotDisplace t s
  | .slotIdleRelease n t => Sys2Proof.Machine.execSlotIdleRelease n t s
  | .slotBlockedRelease n t => Sys2Proof.Machine.execSlotBlockedRelease n t s
  | .waitTimeout q t => Sys2Proof.Machine.execWaitTimeout q t s
  | .graphWatchdog q seq t => Sys2Proof.Machine.execGraphWatchdog q seq t s
  | .gdPop t => Sys2Proof.Machine.execGdPop t s
  | .specOffer n t => Sys2Proof.Machine.execSpecOffer n t s
  | .spur c t => Sys2Proof.Machine.execSpur c t s
  | .descFill lane => Sys2Proof.Machine.execDescFill lane s
  | .coreDone c occ t => Sys2Proof.Machine.execCoreDone c occ t s
  | .coreYield c t => Sys2Proof.Machine.execCoreYield c t s
  | .coreSig c vid inc => Sys2Proof.Machine.execCoreSig c vid inc s
  | .coreWait c tag vid expected => Sys2Proof.Machine.execCoreWait c tag vid expected s
  | .coreProbe c tag vid => Sys2Proof.Machine.execCoreProbe c tag vid s
  | .ccSignal c k inc => Sys2Proof.Machine.execCcSignal c k inc s
  | .ccWait c tag k => Sys2Proof.Machine.execCcWait c tag k s
  | .ccTake c tag k op => Sys2Proof.Machine.execCcTake c tag k op s
  | .ccRead c tag k => Sys2Proof.Machine.execCcRead c tag k s
  | .stageBeatRefused c => Sys2Proof.Machine.execStageBeatRefused c s
  | .specAccessAttempt c => Sys2Proof.Machine.execSpecAccessAttempt c s
  | .budgetExpiry c t => Sys2Proof.Machine.execBudgetExpiry c t s
  | .tileStallTimeout c t => Sys2Proof.Machine.execTileStallTimeout c t s
  | .portFault c channel t => Sys2Proof.Machine.execPortFault c channel t s
  | .delayTick k => Sys2Proof.Machine.execDelayTick k s
  | .delayTaskWake t => Sys2Proof.Machine.execDelayTaskWake t s
  | .postedSignalWake t => Sys2Proof.Machine.execPostedSignalWake t s
  | .postedLaunchWake t => Sys2Proof.Machine.execPostedLaunchWake t s
  | .quantumWindowEnd ctx t => Sys2Proof.Machine.execQuantumWindowEnd ctx t s
  | .suspendComplete ctx t => Sys2Proof.Machine.execSuspendComplete ctx t s
  | .makeResident t => Sys2Proof.Machine.execMakeResident t s
  | .geTaskStart g t => Sys2Proof.Machine.execGeTaskStart g t s
  | .gePassEnd g t => Sys2Proof.Machine.execGePassEnd g t s
  | .gateBudgetExpiry g t => Sys2Proof.Machine.execGateBudgetExpiry g t s
  | .geNop g => Sys2Proof.Machine.execGeNop g s
  | .li g d imm => Sys2Proof.Machine.execLi g d imm s
  | .lih g d imm => Sys2Proof.Machine.execLih g d imm s
  | .add g d a b => Sys2Proof.Machine.execAdd g d a b s
  | .addi g d a imm => Sys2Proof.Machine.execAddi g d a imm s
  | .sub g d a b => Sys2Proof.Machine.execSub g d a b s
  | .and g d a b => Sys2Proof.Machine.execAnd g d a b s
  | .or g d a b => Sys2Proof.Machine.execOr g d a b s
  | .xor g d a b => Sys2Proof.Machine.execXor g d a b s
  | .shl g d a b => Sys2Proof.Machine.execShl g d a b s
  | .shr g d a b => Sys2Proof.Machine.execShr g d a b s
  | .mul g d a b => Sys2Proof.Machine.execMul g d a b s
  | .ctz g d a => Sys2Proof.Machine.execCtz g d a s
  | .fadd g d a b => Sys2Proof.Machine.execFadd g d a b s
  | .fsub g d a b => Sys2Proof.Machine.execFsub g d a b s
  | .fmul g d a b => Sys2Proof.Machine.execFmul g d a b s
  | .fdiv g d a b => Sys2Proof.Machine.execFdiv g d a b s
  | .fsqrt g d a => Sys2Proof.Machine.execFsqrt g d a s
  | .flt g d a b => Sys2Proof.Machine.execFlt g d a b s
  | .fle g d a b => Sys2Proof.Machine.execFle g d a b s
  | .fcvt g d a => Sys2Proof.Machine.execFcvt g d a s
  | .icvt g d a => Sys2Proof.Machine.execIcvt g d a s
  | .ld g d a imm => Sys2Proof.Machine.execLd g d a imm s
  | .st g a b imm => Sys2Proof.Machine.execSt g a b imm s
  | .bind g d imm => Sys2Proof.Machine.execBind g d imm s
  | .beq g a b imm => Sys2Proof.Machine.execBeq g a b imm s
  | .bne g a b imm => Sys2Proof.Machine.execBne g a b imm s
  | .blt g a b imm => Sys2Proof.Machine.execBlt g a b imm s
  | .bge g a b imm => Sys2Proof.Machine.execBge g a b imm s
  | .bltu g a b imm => Sys2Proof.Machine.execBltu g a b imm s
  | .jmp g imm => Sys2Proof.Machine.execJmp g imm s
  | .run g a b => Sys2Proof.Machine.execRun g a b s
  | .sum g d imm => Sys2Proof.Machine.execSum g d imm s
  | .geSig g a b => Sys2Proof.Machine.execGeSig g a b s
  | .geLaunch g d a b t => Sys2Proof.Machine.execGeLaunch g d a b t s
  | .shape g d a b => Sys2Proof.Machine.execShape g d a b s
  | .skip g d a => Sys2Proof.Machine.execSkip g d a s
  | .endTask g imm t => Sys2Proof.Machine.execEndTask g imm t s
  | .relaySend c tag hdr payload => Sys2Proof.Machine.execRelaySend c tag hdr payload s
  | .relayDeliver c ch => Sys2Proof.Machine.execRelayDeliver c ch s
  | .operandPortRead c slot port => Sys2Proof.Machine.execOperandPortRead c slot port s
  | .trailSend t => Sys2Proof.Machine.execTrailSend t s
  | .trailReceive w0 w1 w2 => Sys2Proof.Machine.execTrailReceive w0 w1 w2 s
  | .trailAckReceive w0 w1 w2 w3 => Sys2Proof.Machine.execTrailAckReceive w0 w1 w2 w3 s
  | .trailTimeout dest seq t => Sys2Proof.Machine.execTrailTimeout dest seq t s
  | .linkReset herd => Sys2Proof.Machine.execLinkReset herd s
  | .linkUnreachable herd => Sys2Proof.Machine.execLinkUnreachable herd s
  | .evtEdge n t => Sys2Proof.Machine.execEvtEdge n t s
  | .evtStuck n t => Sys2Proof.Machine.execEvtStuck n t s
  | .stuckRearm n => Sys2Proof.Machine.execStuckRearm n s
  | .evtActWrite n v => Sys2Proof.Machine.execEvtActWrite n v s
  | .evtCountWrite n v => Sys2Proof.Machine.execEvtCountWrite n v s
  | .gaitReq sel t => Sys2Proof.Machine.execGaitReq sel t s
  | .gaitAck t => Sys2Proof.Machine.execGaitAck t s
  | .gaitDone bad t => Sys2Proof.Machine.execGaitDone bad t s
  | .tthGaitReq target => Sys2Proof.Machine.execTthGaitReq target s
  | .powerOn t => Sys2Proof.Machine.execPowerOn t s
  | .pwrFail t => Sys2Proof.Machine.execPwrFail t s
  | .reserveDrain t => Sys2Proof.Machine.execReserveDrain t s
  | .warmReset t => Sys2Proof.Machine.execWarmReset t s
  | .coldReset t => Sys2Proof.Machine.execColdReset t s
  | .firmwareRestart t => Sys2Proof.Machine.execFirmwareRestart t s
  | .recover t => Sys2Proof.Machine.execRecover t s
  | .startEnd t => Sys2Proof.Machine.execStartEnd t s
  | .startWatchdog t => Sys2Proof.Machine.execStartWatchdog t s
  | .enum => Sys2Proof.Machine.execEnum s
  | .tetherNoAnswer p => Sys2Proof.Machine.execTetherNoAnswer p s
  | .groom temp failed => Sys2Proof.Machine.execGroom temp failed s
  | .fwCoreTrap k mcause t => Sys2Proof.Machine.execFwCoreTrap k mcause t s
  | .fwWatchdog k t => Sys2Proof.Machine.execFwWatchdog k t s
  | .fwRestartEnd k t => Sys2Proof.Machine.execFwRestartEnd k t s
  | .ping arg => Sys2Proof.Machine.execPing arg s
  | .policyRead arg => Sys2Proof.Machine.execPolicyRead arg s
  | .policyWrite arg v => Sys2Proof.Machine.execPolicyWrite arg v s
  | .setHerdGroup arg v => Sys2Proof.Machine.execSetHerdGroup arg v s
  | .restartCore k t => Sys2Proof.Machine.execRestartCore k t s
  | .entdaa da => Sys2Proof.Machine.execEntdaa da s
  | .rstdaa => Sys2Proof.Machine.execRstdaa s
  | .i3cCcc code data => Sys2Proof.Machine.execI3cCcc code data s
  | .healthGet => Sys2Proof.Machine.execHealthGet s
  | .mctpStudbookRead first => Sys2Proof.Machine.execMctpStudbookRead first s
  | .mctpControl code data => Sys2Proof.Machine.execMctpControl code data s
  | .ctuDbgRead => Sys2Proof.Machine.execCtuDbgRead s
  | .ctuDbgSet => Sys2Proof.Machine.execCtuDbgSet s
  | .ctuDbgHalt => Sys2Proof.Machine.execCtuDbgHalt s
  | .ctuDbgResume => Sys2Proof.Machine.execCtuDbgResume s
  | .flush => Sys2Proof.Machine.execFlush s
  | .icacheInv g => Sys2Proof.Machine.execIcacheInv g s
  | .statClear => Sys2Proof.Machine.execStatClear s
  | .irqEnableWrite v => Sys2Proof.Machine.execIrqEnableWrite v s
  | .irqStatusClear v => Sys2Proof.Machine.execIrqStatusClear v s
  | .errRingEnable v => Sys2Proof.Machine.execErrRingEnable v s
  | .errHeadWrite v => Sys2Proof.Machine.execErrHeadWrite v s
  | .registerWrite off v width => Sys2Proof.Machine.execRegisterWrite off v width s
  | .sramError storage inst row uncorrectable t => Sys2Proof.Machine.execSramError storage inst row uncorrectable t s
  | .wearDetect x t => Sys2Proof.Machine.execWearDetect x t s
  | .remount kind inst cause t => Sys2Proof.Machine.execRemount kind inst cause t s
  | .studbookFlush => Sys2Proof.Machine.execStudbookFlush s
  | .gaitRequestAnswer denied => Sys2Proof.Machine.execGaitRequestAnswer denied s
  | .suspendDrainLimit ctx t => Sys2Proof.Machine.execSuspendDrainLimit ctx t s
  | .ptrMismatch kind inst ctx t => Sys2Proof.Machine.execPtrMismatch kind inst ctx t s
  | .evtLineFall n t => Sys2Proof.Machine.execEvtLineFall n t s
  | .powerFall => Sys2Proof.Machine.execPowerFall s
  | .pwrFailRelease t => Sys2Proof.Machine.execPwrFailRelease t s
  | .ibiAcknowledge cause => Sys2Proof.Machine.execIbiAcknowledge cause s

end Sys2Proof.Machine
end

