-- ==== Sys2Proof/Safety.lean ====
section
/-!
DEFINITION. What counts as a safe run: no step ends in a fault or a refusal, and every state on the way is sound. The
conditions and results that the statements share.
-/
namespace Sys2Proof.Machine

/-- A step that goes on. -/
def Outcome.goesOn (o : Out') : Prop := ∃ t, o = .next t

/-- The byte that an address names: which memory, and the address in it (R365). -/
def State.place (s : State) (host : Bool) (a : Nat) : Bool × Nat :=
  if host then (true, addr a)
  else if s.inWindow (addr a) then (true, addr (s.env.winPcie + (addr a - s.env.winBase)))
  else (false, addr a)

/-- Both memories are in canonical form. -/
def State.sound (s : State) : Prop := Memory.wf s.mem = true ∧ Memory.wf s.hostMem = true

/-- What a step never takes back: the device stays, the timebase and the rollback floor never fall (R3, R287, R309). -/
def State.after (s t : State) : Prop :=
  t.env.dev = s.env.dev ∧ s.env.now ≤ t.env.now ∧ s.flash.otp ≤ t.flash.otp

/-- A run of steps from a state to a state. -/
inductive Run : State → State → Prop where
  | here (s : State) : Run s s
  | step {s t u : State} : Machine.step s = .next t → Run t u → Run s u

/-- From a state by internal actions alone, each the first that nothing holds back (assumption 9). -/
inductive Acts : State → State → Prop where
  | here (s : State) : Acts s s
  | act {s t : State} {w : Work} {ws : List Work} : takeWork s.holds s.work = some (w, ws) →
      Acts (({ s with work := ws }).doWork w) t → Acts s t

/-- No action is in flight between units, and no gait change is under way. -/
def State.steady (s : State) : Prop := s.work = [] ∧ s.gcs.changing = false

/-- Engine `g` runs the task `y` and no pass; the steady block may execute its next instruction (R222). -/
def State.atInsn (s : State) (g : Nat) (y : GeRun) : Prop :=
  s.steady ∧ (s.ge g).run = some y ∧ y.pass = none

/-- Engine `g`'s task is left as `y`, at the instruction `pc`; nothing else changes. -/
def State.geAt (s : State) (g : Nat) (y : GeRun) (pc : Nat) : State :=
  s.setGe g { s.ge g with run := some { y with pc := pc } }

/-- The same, with the line of that instruction in the instruction cache (R226). -/
def State.geGo (s : State) (g : Nat) (y : GeRun) (pc : Nat) : State :=
  s.setGe g ({ s.ge g with run := some { y with pc := pc } : Ge }.fetch (y.line pc))

/-- The instruction `pc` lies in the program of `y`, and its line is cached or can be read (R222, R226). -/
def State.mayGo (s : State) (g : Nat) (y : GeRun) (pc : Nat) : Prop :=
  pc < y.count ∧ ((s.ge g).icache.contains (y.line pc) = true ∨ s.refuses (y.line pc).2.2 64 = false)

/-- A command leads to `v`, and then to what the actions that `v` hands on do. -/
def Leads (i : Instr) (s v : State) : Prop := ∃ t, exec i s = .next t ∧ Acts v t

/-- The opcode, queue and packets of a command of Table 2.11. -/
def packetsOf? : Instr → Option (Nat × Nat × List Word)
  | .nop q w => some (0x00, q, w) | .graphLoad q w => some (0x01, q, w) | .graphLaunch q w => some (0x02, q, w)
  | .signal q w => some (0x03, q, w) | .wait q w => some (0x04, q, w) | .signalRemote q w => some (0x05, q, w)
  | .peerWrite q w => some (0x06, q, w) | .cancel q w => some (0x07, q, w) | .ctxCreate q w => some (0x08, q, w)
  | .ctxDestroy q w => some (0x09, q, w) | .ctxSuspend q w => some (0x0A, q, w) | .ctxResume q w => some (0x0B, q, w)
  | .counterMap q w => some (0x0C, q, w) | .tilePool q w => some (0x0D, q, w) | .geProgramLoad q w => some (0x0E, q, w)
  | .flowConfig q w => some (0x0F, q, w) | .carJoin q w => some (0x10, q, w) | .carLeave q w => some (0x11, q, w)
  | .carStep q w => some (0x12, q, w) | .delayPost q w => some (0x13, q, w) | .query q w => some (0x14, q, w)
  | .statSnapshot q w => some (0x15, q, w) | .queueReset q w => some (0x16, q, w) | .debugSetCounter q w => some (0x17, q, w)
  | .fwUpdate q w => some (0x18, q, w) | .studbookRead q w => some (0x19, q, w) | .healthAck q w => some (0x1A, q, w)
  | .blockReset q w => some (0x1B, q, w)
  | _ => none

/-- The command `w` is at the head of queue `q` and may start, and no started command waits for its effect (R28, R51, R317). -/
def State.atHead (s : State) (q code : Nat) (w : List Word) : Prop :=
  Op.code w = code ∧ s.waiting? q w = none ∧ s.canStart q w = true

/-- It passes the checks made at its start: R45, R46, R131 and those of its context (R366, Table 2.17). -/
def State.passes (s : State) (q code : Nat) (w : List Word) : Prop :=
  s.outside? q w = none ∧ badWord? s.env.dev w = none ∧ (opManaged code = true → q = 0) ∧
  (q = 0 → needsCtx w = true → (s.ctx (Op.ctx w)).st ≠ .faulted ∧ (s.ctx (Op.ctx w)).st ≠ .destroying)

/-- A hardware-path command starts and passes. -/
def State.startsAs (s : State) (q code : Nat) (w : List Word) : Prop := s.atHead q code w ∧ s.passes q code w

/-- The state in which it has started, as number `s.cfe.nextSeq` (R26, R30). -/
def State.entered (s : State) (q : Nat) (w : List Word) : State := (s.enter q w).2

/-- A firmware-path command, taken up as number `n`, may take effect: its role's core runs, and one that moves contexts does so
while firmware acts on residence (R173, R317, R318). -/
def State.takenAs (s : State) (q code n : Nat) (w : List Word) : Prop :=
  Op.code w = code ∧ s.waiting? q w = some n ∧ s.up = true ∧ s.roleRuns (opRole code) = true ∧
    (opResidence code = true → s.fwActs = true)

/-- A Carousel command takes effect as number `n` in `e`: it starts while `CAR_CTL.EN` is set, or it has waited for that (R254). -/
def State.carTakes (s : State) (q code n : Nat) (w : List Word) (e : State) : Prop :=
  s.car.en = true ∧ Op.code w = code ∧
  (s.startsAs q code w ∧ n = s.cfe.nextSeq ∧ e = s.entered q w ∧ (code = 0x12 → s.gcs.changing = false) ∨
    s.waiting? q w = some n ∧ e = s.setPhase q n .running ∧
      (code = 0x12 → (s.carCtx (Op.ctx w)).live = none ∧ (s.ctx (Op.ctx w)).halted = false ∧ s.gcs.changing = false))

/-- The state `m` in which an operation on a counter takes place: a counter of a resident context is on chip (R132). -/
def State.counterAt (s : State) (c v : Nat) (m : State) : Prop :=
  if (s.ctx c).st.inPlace then (s.makeCtrResident c v).map (fun r => r.touchCtr c v) = some m else m = s

/-- A run is safe: whatever state it reaches is sound, and the next step goes on. -/
def State.safe (s : State) : Prop := ∀ t, Run s t → t.sound ∧ Outcome.goesOn (step t)

end Sys2Proof.Machine
end

