-- ==== Sys2Proof/Certificates/Slice0/Obligations.lean ====
section
/-!
DEFINITION. The statements, for the provers.
-/
open Sys2Proof Sys2Proof.Machine

/-! ## The whole block -/

/-- A step takes the command at the front of the queue and leaves the rest; with no command the block idles (assumption 3). -/
def Obligations.StepTakesFrontCommand : Prop :=
  (∀ (c : Instr) (r : List Instr) (s : State), step { s with pending := c :: r } = exec c { s with pending := r }) ∧
  ∀ s : State, s.pending = [] → step s = .next s

/-- Every command, in every state, answers a next state: the block has no command that stops it. That a row whose event cannot happen
where the block stands, or that comes while power is off, answers one too is the model's choice (log entry 5). -/
def Obligations.EveryCommandGoesOn : Prop := ∀ (i : Instr) (s : State), Outcome.goesOn (exec i s)

/-- At reset both memories are in canonical form, nothing waits, and registers hold the values of their Reset columns (Tables 2.5,
4.3, 7.9, 7.10, 8.9, 12.12, 13.15, 15.12, 15.13, 17.6); every queue is DISABLED and every context FREE. That the block is off then
is the model's choice (assumption 8). -/
def Obligations.ResetIsSound : Prop :=
  ∀ d : Device,
    let s := State.resetOn d
    s.sound ∧ s.pending = [] ∧ s.gcs.state = 0 ∧ s.gcs.irqStatus = 0 ∧ s.gcs.irqEnable = 0x0F ∧ s.gcs.stuckMs = 10 ∧ s.gcs.evtEn = 0 ∧
    s.gd.lqDepth = 2 ∧ s.gd.widen = true ∧ s.gd.run = false ∧ s.gd.quantum = 1000000 ∧ s.gd.budgetMax = 1000 ∧
    s.plu.specEn = false ∧ s.plu.specClass = 0xF ∧ s.tth.safeCodes = true ∧ s.fsu.wearLimit = 16 ∧ s.fsu.worst = 0xFF ∧
    s.fsu.sectors = 2032 ∧ s.fsu.sbSpares = 16 ∧ (∀ q, (s.queue q).st = .disabled) ∧ (∀ c, (s.ctx c).st = .free) ∧
    ∀ c v, s.phys? c v = none

/-- Every step keeps both memories in canonical form. -/
def Obligations.StepKeepsMemoryForm : Prop := ∀ s t : State, s.sound → step s = .next t → t.sound

/-- R309, R287, R3: no step lowers the rollback floor or the timebase or changes the device; the waiting commands stay. -/
def Obligations.StepKeepsFloorTimeAndQueue : Prop :=
  ∀ s t : State, step s = .next t → s.after t ∧ t.pending = s.pending.tail

/-- Every run from a sound state is safe. -/
def Obligations.SoundRunsAreSafe : Prop := ∀ s : State, s.sound → s.safe

/-- R5, R224: a byte, or an aligned word, stored is read back at its address, in host memory or in the chip's memory map, and no
other byte of either changes. -/
def Obligations.StoredBytesAreReadBack : Prop :=
  (∀ (s : State) (host : Bool) (a : Nat) (b : Byte), s.sound →
    (s.wr8 host a b).rd8 host a = b ∧
    ∀ (host' : Bool) (a' : Nat), s.place host' a' ≠ s.place host a → (s.wr8 host a b).rd8 host' a' = s.rd8 host' a') ∧
  ∀ (s : State) (p : Nat) (w : Word), s.sound → p % 8 = 0 →
    (s.wr64 p w).rd64 p = w ∧
    ∀ (host : Bool) (a : Nat), (∀ k < 8, s.place host a ≠ s.place false (p + k)) → (s.wr64 p w).rd8 host a = s.rd8 host a

/-! ## The control core (09) -/

/-- R222: s0 reads as zero and discards writes; another register holds what is written, and the rest keep their values. -/
def Obligations.ScalarRegisterZeroIsHardwired : Prop :=
  ∀ (y : GeRun) (n : Nat) (v : Word), y.reg 0 = 0 ∧ y.setReg 0 v = y ∧
    (n ≠ 0 → (y.setReg n v).reg n = v) ∧ ∀ m, m ≠ n → (y.setReg n v).reg m = y.reg m

/-- R223: the integer instructions that the program's word encodes write sD with the result of Table 9.6 and go on to the next
instruction; nothing else changes. CTZ writes the number of zeros below the lowest set bit, 64 for zero. -/
def Obligations.GateIntegerInstructions : Prop :=
  ∀ (s : State) (g d a b : Nat) (imm : BitVec 32) (y : GeRun), s.atInsn g y → s.mayGo g y (y.pc + 1) →
    let runs (i : Instr) (u : State) : Prop := s.geRow g = some i → exec i s = .next u
    let go (v : Word) : State := s.geGo g (y.setReg d v) (y.pc + 1)
    runs (.geNop g) (s.geGo g y (y.pc + 1)) ∧
    runs (.li g d imm) (go (imm.signExtend 64)) ∧
    runs (.lih g d imm) (go (imm ++ (y.reg d).setWidth 32)) ∧
    runs (.add g d a b) (go (y.reg a + y.reg b)) ∧
    runs (.addi g d a imm) (go (y.reg a + imm.signExtend 64)) ∧
    runs (.sub g d a b) (go (y.reg a - y.reg b)) ∧
    runs (.and g d a b) (go (y.reg a &&& y.reg b)) ∧
    runs (.or g d a b) (go (y.reg a ||| y.reg b)) ∧
    runs (.xor g d a b) (go (y.reg a ^^^ y.reg b)) ∧
    runs (.shl g d a b) (go (y.reg a <<< ((y.reg b).toNat % 64))) ∧
    runs (.shr g d a b) (go (y.reg a >>> ((y.reg b).toNat % 64))) ∧
    runs (.mul g d a b) (go (y.reg a * y.reg b)) ∧
    ∃ n : Nat, runs (.ctz g d a) (go (BitVec.ofNat 64 n)) ∧ (y.reg a = 0 → n = 64) ∧
      (y.reg a ≠ 0 → (y.reg a).getLsbD n = true ∧ ∀ i < n, (y.reg a).getLsbD i = false)

/-- R223, R220: the binary64 instructions and conversions write their rounded result, or the comparison's 1 or 0, and gather
the flags, when no flag of the result is trapped. ICVT rounds toward zero and saturates; on NaN its result is a value that the
manual does not state (free value, assumption 13). -/
def Obligations.GateFloatInstructions : Prop :=
  (∀ (s : State) (g d a b : Nat) (y : GeRun), s.atInsn g y → s.mayGo g y (y.pc + 1) →
    let p := f64 (y.reg a)
    let q := f64 (y.reg b)
    let ok (r : Flagged) : Prop := r.2 &&& (s.ge g).trapEn = 0
    let runs (i : Instr) (r : Flagged) : Prop := s.geRow g = some i →
      exec i s = .next (s.geGo g ({ y with flags := y.flags ||| r.2 }.setReg d (BitVec.ofNat 64 r.1)) (y.pc + 1))
    (ok (fp64.addV {} p q) → runs (.fadd g d a b) (fp64.addV {} p q)) ∧
    (ok (fp64.addV {} p q.neg) → runs (.fsub g d a b) (fp64.addV {} p q.neg)) ∧
    (ok (fp64.mulV {} p q) → runs (.fmul g d a b) (fp64.mulV {} p q)) ∧
    (ok (fp64.divV {} p q) → runs (.fdiv g d a b) (fp64.divV {} p q)) ∧
    (ok (fp64.sqrtV {} p) → runs (.fsqrt g d a) (fp64.sqrtV {} p)) ∧
    (∀ o, p.cmp? q = some o → runs (.flt g d a b) (if o = .lt then 1 else 0, 0) ∧
      runs (.fle g d a b) (if o = .gt then 0 else 1, 0)) ∧
    (p.cmp? q = none → ok (0, 1) → runs (.flt g d a b) (0, 1) ∧ runs (.fle g d a b) (0, 1)) ∧
    (ok (fp64.ofInt {} (y.reg a).toInt) → runs (.fcvt g d a) (fp64.ofInt {} (y.reg a).toInt))) ∧
  (∀ (s : State) (g d a : Nat) (y : GeRun), s.atInsn g y → s.mayGo g y (y.pc + 1) →
    let r := (f64 (y.reg a)).toInt 1 (-(2 ^ 63)) (2 ^ 63 - 1)
    s.geRow g = some (.icvt g d a) →
    ((f64 (y.reg a)).isNan = false → r.2 &&& (s.ge g).trapEn = 0 →
      exec (.icvt g d a) s =
        .next (s.geGo g ({ y with flags := y.flags ||| r.2 }.setReg d (BitVec.ofInt 64 r.1)) (y.pc + 1))) ∧
    ((f64 (y.reg a)).isNan = true → 1 &&& (s.ge g).trapEn = 0 →
      exec (.icvt g d a) s = .next ({ s with freeCount := s.freeCount + 1 }.geGo g
        ({ y with flags := y.flags ||| 1 }.setReg d (Config.freeValue 64 s.freeCount)) (y.pc + 1))))

/-- R220, Table 9.8: a flag that `GE_TRAP_EN` traps, the flag of a conversion too, stops the task before its result is written, and
so does an access that the memory system refuses: a GE_TRAP record with its cause, then the context's fault. -/
def Obligations.GateTrapsFaultContext : Prop :=
  (∀ (s : State) (g d a b : Nat) (y : GeRun), s.atInsn g y →
    let p := f64 (y.reg a)
    let q := f64 (y.reg b)
    let traps (i : Instr) (fl : Nat) : Prop := s.geRow g = some i → fl &&& (s.ge g).trapEn ≠ 0 →
      ∃ t, exec i s = .next t ∧ Acts (((s.geAt g { y with flags := y.flags ||| fl } y.pc).geRecord g
        { y with flags := y.flags ||| fl } 1).push [.faultQuiet y.e.ref.ctx 0x0F]) t
    traps (.fadd g d a b) (fp64.addV {} p q).2 ∧ traps (.fsub g d a b) (fp64.addV {} p q.neg).2 ∧
    traps (.fmul g d a b) (fp64.mulV {} p q).2 ∧ traps (.fdiv g d a b) (fp64.divV {} p q).2 ∧
    traps (.fsqrt g d a) (fp64.sqrtV {} p).2 ∧ traps (.fcvt g d a) (fp64.ofInt {} (y.reg a).toInt).2 ∧
    (p.cmp? q = none → traps (.flt g d a b) 1 ∧ traps (.fle g d a b) 1)) ∧
  (∀ (s : State) (g d a : Nat) (y : GeRun), s.atInsn g y → s.geRow g = some (.icvt g d a) →
    let p := f64 (y.reg a)
    let fl := if p.isNan then 1 else (p.toInt 1 (-(2 ^ 63)) (2 ^ 63 - 1)).2
    let u : State := if p.isNan then { s with freeCount := s.freeCount + 1 } else s
    fl &&& (s.ge g).trapEn ≠ 0 → ∃ t, exec (.icvt g d a) s = .next t ∧ Acts (((u.geAt g { y with flags := y.flags ||| fl } y.pc).geRecord g
      { y with flags := y.flags ||| fl } 1).push [.faultQuiet y.e.ref.ctx 0x0F]) t) ∧
  (∀ (s : State) (g d a b : Nat) (imm : BitVec 32) (y : GeRun), s.atInsn g y →
    let p := (y.reg a + imm.signExtend 64).toNat
    let stops (i : Instr) : Prop := s.geRow g = some i →
      ∃ t, exec i s = .next t ∧ Acts ((s.geRecord g y 2).push [.faultQuiet y.e.ref.ctx 0x0F]) t
    (p % 8 = 0 → s.refuses p 8 = true → stops (.ld g d a imm) ∧ stops (.st g a b imm)) ∧
    (s.refuses (y.reg a).toNat 256 = true → stops (.run g a b)))

/-- R223: a branch goes to its own index plus IMM when its condition holds, and to the next instruction otherwise. -/
def Obligations.GateBranches : Prop :=
  ∀ (s : State) (g a b : Nat) (imm : BitVec 32) (y : GeRun), s.atInsn g y →
    let target := (BitVec.ofNat 64 y.pc + imm.signExtend 64).toNat
    s.mayGo g y (y.pc + 1) → s.mayGo g y target →
    let runs (i : Instr) (taken : Prop) [Decidable taken] : Prop := s.geRow g = some i →
      exec i s = .next (s.geGo g y (if taken then target else y.pc + 1))
    runs (.beq g a b imm) (y.reg a = y.reg b) ∧
    runs (.bne g a b imm) (y.reg a ≠ y.reg b) ∧
    runs (.blt g a b imm) ((y.reg a).toInt < (y.reg b).toInt) ∧
    runs (.bge g a b imm) ((y.reg b).toInt ≤ (y.reg a).toInt) ∧
    runs (.bltu g a b imm) ((y.reg a).toNat < (y.reg b).toNat) ∧
    runs (.jmp g imm) True

/-- R222, R223: a word of the program whose OP Table 9.6 does not list, or whose reserved field is not zero, ends the task as failed
with an ILLEGAL record; so does an instruction outside the program (the model's reading: the check falls when the program counter
reaches it, assumption 29), and a row that the word does not encode does nothing. R226: a line that is not in the instruction cache
is fetched, and a refused fetch stops the task. -/
def Obligations.GateFetchOutsideProgramFails : Prop :=
  ∀ (s : State) (g : Nat) (imm : BitVec 32) (y : GeRun), s.atInsn g y →
    let target := (BitVec.ofNat 64 y.pc + imm.signExtend 64).toNat
    let w := s.rd64 (y.prog + 8 * y.pc)
    (s.geRow g = geInstr g s.env.now w) ∧
    (w.extractLsb' 32 9 ≠ 0 → s.geRow g = none) ∧
    (s.geRow g = none → ∃ t, exec (.geNop g) s = .next t ∧ Acts ((((s.geRecord g y 4).geLeave g).retireTask y.e.ref .failed (some g) none)) t) ∧
    (∀ j, s.geRow g = some j → j ≠ .geNop g → exec (.geNop g) s = .next s) ∧
    (s.geRow g = some (.geNop g) → y.count ≤ y.pc + 1 →
      ∃ t, exec (.geNop g) s = .next t ∧ Acts ((s.geAt g y (y.pc + 1)).geFail g 4) t) ∧
    (s.geRow g = some (.jmp g imm) → y.count ≤ target →
      ∃ t, exec (.jmp g imm) s = .next t ∧ Acts ((s.geAt g y target).geFail g 4) t) ∧
    (s.geRow g = some (.geNop g) → y.pc + 1 < y.count → (s.ge g).icache.contains (y.line (y.pc + 1)) = false → s.refuses (y.line (y.pc + 1)).2.2 64 = true →
      ∃ t, exec (.geNop g) s = .next t ∧ Acts (((s.geAt g y (y.pc + 1)).geRecord g { y with pc := y.pc + 1 } 2).push
        [.faultQuiet y.e.ref.ctx 0x0F]) t)

/-- R223, R218: LD and ST move the word at sA + IMM; ST marks the outputs whose tiles hold it as written; BIND reads a binding
entry. Nothing else changes. A misaligned address ends the task as failed, with an ILLEGAL record (the model's reading, assumption
29). -/
def Obligations.GateLoadStoreBind : Prop :=
  ∀ (s : State) (g d a b : Nat) (imm : BitVec 32) (y : GeRun), s.atInsn g y → s.mayGo g y (y.pc + 1) →
    let p := (y.reg a + imm.signExtend 64).toNat
    let l := if imm.getLsbD 8 then y.outB else y.inB
    let runs (i : Instr) (u : State) : Prop := s.geRow g = some i → exec i s = .next u
    (p % 8 = 0 → s.refuses p 8 = false →
      runs (.ld g d a imm) (s.geGo g (y.setReg d (s.rd64 p)) (y.pc + 1)) ∧
      runs (.st g a b imm) ((s.wr64 p (y.reg b)).geGo g
        { y with outs := ((s.geIo y).outsAt p).foldl (fun o i => AL.put i true o) y.outs } (y.pc + 1))) ∧
    (p % 8 ≠ 0 → ∀ i, i = .ld g d a imm ∨ i = .st g a b imm → s.geRow g = some i → Leads i s
      (((s.geRecord g y 4).geLeave g).retireTask y.e.ref .failed (some g) none)) ∧
    (imm.toNat % 256 < l.length →
      runs (.bind g d imm) (s.geGo g (y.setReg d (l.getD (imm.toNat % 256) 0)) (y.pc + 1)))

/-- R209, R221: RUN starts a pass with the block at sA, operand A's input replaced by sB[7:0] where sB[8] is set; a block that the
rules of the configuration refuse ends the task as failed with cause 3, CONFIG (Table 9.8). That a misaligned block is such a block,
and that RUN only checks and starts the pass, which acts at GE_PASS_END, are the model's readings (log entry 29). -/
def Obligations.GateRunStartsPass : Prop :=
  ∀ (s : State) (g a b : Nat) (y : GeRun), s.atInsn g y →
    let p := (y.reg a).toNat
    let cfg := s.geCfg p (y.reg b)
    s.geRow g = some (.run g a b) → s.refuses p 256 = false →
    (p % 64 = 0 → cfgOk cfg (s.geIo y) = true →
      exec (.run g a b) s = .next (s.setGe g { s.ge g with run := some { y with pass := some cfg } })) ∧
    (p % 64 ≠ 0 ∨ cfgOk cfg (s.geIo y) = false → Leads (.run g a b) s
      (((s.geRecord g y 3).geLeave g).retireTask y.e.ref .failed (some g) none))

/-- R209 to R221: at its end (a row of the model, log entry 29) a pass writes its ports' bytes, gathers its flags into the task's and
leaves its summary items. Where nothing stops it, the control core goes on; a trapped flag or a refused access ends the task under
FLAG or ACCESS and faults its context, and a configuration error that depends on the data ends it under CONFIG, as failed; how far a
stopped pass had written is a free value (assumption 13). SUM reads an item, and item 3 the task's flags; an item that no pass has
left is a free value (assumption 13). -/
def Obligations.GatePassEndsAndSums : Prop :=
  ∀ (s : State) (g d t : Nat) (imm : BitVec 32) (y : GeRun) (cfg : List Word),
    (s.steady → (s.ge g).run = some y → y.pass = some cfg →
      let s1 := s.at t
      let io := s1.geIo y
      let o := s1.pass cfg io (s1.ge g).trapEn y.outs 8 []
      let ws := if o.partly then o.writes.take (Config.freeValue 64 (s1.freeCount + o.free)).toNat else o.writes
      let outs := passOuts cfg y.outs ws
      let zs := if o.access || o.config || o.partly then [] else zeroTiles io ws outs
      let trapped : Prop := o.flags &&& ((s1.ge g).trapEn ||| Cfg.trap cfg) ≠ 0
      let refused : Prop := o.access = true ∨ ∃ z ∈ zs, s1.refuses z.1 z.2 = true
      let wrote := ((({ s1 with freeCount := s1.freeCount + o.free + 1 }).emitAll io ws).streamsWrite g ws).zeroRest
        (zs.takeWhile fun z => !s1.refuses z.1 z.2)
      let z : GeRun := { y with flags := y.flags ||| o.flags, sums := o.sums, outs := outs, pass := none }
      let left := wrote.setGe g { wrote.ge g with run := some z }
      let ends (v : State) : Prop := Leads (.gePassEnd g t) s v
      (¬ trapped → ¬ refused → o.config = false → s.mayGo g y (y.pc + 1) →
        exec (.gePassEnd g t) s = .next (wrote.geGo g z (y.pc + 1))) ∧
      (trapped → ends ((left.geRecord g z 1).push [.faultQuiet y.e.ref.ctx 0x0F])) ∧
      (¬ trapped → refused → ends ((left.geRecord g z 2).push [.faultQuiet y.e.ref.ctx 0x0F])) ∧
      (¬ trapped → ¬ refused → o.config = true →
        ends (((left.geRecord g z 3).geLeave g).retireTask y.e.ref .failed (some g) none))) ∧
    (s.atInsn g y → s.mayGo g y (y.pc + 1) →
      (s.geRow g = some (.sum g d 3) →
        exec (.sum g d 3) s = .next (s.geGo g (y.setReg d (BitVec.ofNat 64 y.flags)) (y.pc + 1))) ∧
      (∀ v, s.geRow g = some (.sum g d imm) → imm ≠ 3 → AL.get? imm.toNat y.sums = some v →
        exec (.sum g d imm) s = .next (s.geGo g (y.setReg d v) (y.pc + 1))) ∧
      (s.geRow g = some (.sum g d imm) → imm ≠ 3 → AL.get? imm.toNat y.sums = none →
        exec (.sum g d imm) s = .next ({ s with freeCount := s.freeCount + 1 }.geGo g
          (y.setReg d (Config.freeValue 64 s.freeCount)) (y.pc + 1))))

/-- R225, R131: SIG completes: it signals the counter sA[23:0] of the task's context by sB[31:0] and goes on; a counter on chip
that is not poisoned and that no waiter awaits rises by that much; 0 signals nothing; an id at or above the limit faults the
context. R225, R85, R86: LAUNCH completes: it creates sD[31:0] instances of a template on the task's root command, none for a
count of 0, and goes on; one that fails R86 ends the task as failed with cause 6. -/
def Obligations.GateSignalAndLaunch : Prop :=
  (∀ (s : State) (g a b : Nat) (y : GeRun), s.atInsn g y → s.mayGo g y (y.pc + 1) →
    let c := y.e.ref.ctx
    let v := bits (y.reg a) 23 0
    let inc := bits (y.reg b) 31 0
    let go := s.geGo g y (y.pc + 1)
    let src : SigSrc := { code := 6, arg := s.effOf y.e.ref }
    s.geRow g = some (.geSig g a b) →
    (inc = 0 → exec (.geSig g a b) s = .next go) ∧
    (inc ≠ 0 → v < s.idLimit c → exec (.geSig g a b) s = .next (settle (go.push [.signal c v inc src none]))) ∧
    (inc ≠ 0 → v < s.idLimit c → ∀ p, s.phys? c v = some p → p.poison = false → s.defined c = true →
      s.holds (.signal c v inc src none) = false → (s.ctx c).st.inPlace = true → (∀ w ∈ s.ctu.waiters, ¬ (w.ctx = c ∧ w.vid = v)) →
      p.val + inc < 2 ^ 64 →
      ∃ t, exec (.geSig g a b) s = .next t ∧ (t.phys? c v).map Phys.val = some (p.val + inc) ∧
        (t.ge g).run = some { y with pc := y.pc + 1 }) ∧
    (inc ≠ 0 → s.idLimit c ≤ v → exec (.geSig g a b) s =
      .next (settle (go.push [.faultCtx c 0x04 v 1 (s.effOf y.e.ref)])))) ∧
  (∀ (s : State) (g d a b t : Nat) (y : GeRun), s.atInsn g y →
    let s1 := s.at t
    let c := y.e.ref.ctx
    let n := bits (y.reg d) 31 0
    let gid := bits (y.reg a) 15 0
    let own := ((s1.inst? c y.e.ref.inst).map Inst.base).getD 0
    let base := if bit (y.reg a) 17 then (own + bits (y.reg b) 31 0) % 2 ^ 32 else bits (y.reg b) 31 0
    let root := s1.ownerOf y.e.ref
    s1.geRow g = some (.geLaunch g d a b s1.env.now) →
    (s1.launchCheck c gid true base n = 0 → exec (.geLaunch g d a b t) s = .next (settle
      ((s1.launch c gid base n { owner := root, step := s1.rootStep c root, at_ := s1.env.now }).2.geNext g y (y.pc + 1)))) ∧
    (s1.launchCheck c gid true base n ≠ 0 → exec (.geLaunch g d a b t) s = .next (settle (s1.geFail g 6))))

/-- R225, R241: SHAPE writes a slot that meets R240 with sB's M, N and K and sD's count; any other slot is illegal, and a refused
access stops the task. SHAPE's slot is the low half of sA (the model's reading, assumption 29). SKIP marks a COMPUTE or GATE task of
its own instance that has not become ready, and writes 1; 0 where it is too late; an absent target, or one of another kind, is
illegal. -/
def Obligations.GateShapeAndSkip : Prop :=
  (∀ (s : State) (g d a b : Nat) (y : GeRun), s.atInsn g y → s.mayGo g y (y.pc + 1) →
    let c := y.e.ref.ctx
    let i := bits (y.reg a) 31 0
    let w := y.reg b
    let x : Shape := { m := bits w 15 0, n := bits w 31 16, k := bits w 47 32, count := bits (y.reg d) 31 0 }
    s.geRow g = some (.shape g d a b) →
    (s.slotOk c i = true → s.refuses (s.tile c i).addr 16 = false →
      exec (.shape g d a b) s = .next ((s.writeShape c i x).geGo g y (y.pc + 1))) ∧
    (s.slotOk c i = true → s.refuses (s.tile c i).addr 16 = true → ∃ t, exec (.shape g d a b) s = .next t ∧
      Acts ((s.geRecord g y 2).push [.faultQuiet c 0x0F]) t) ∧
    (s.slotOk c i = false → ∃ t, exec (.shape g d a b) s = .next t ∧ Acts (s.geFail g 4) t)) ∧
  (∀ (s : State) (g d a : Nat) (y : GeRun), s.atInsn g y → s.mayGo g y (y.pc + 1) →
    let r : TaskRef := { y.e.ref with idx := (y.reg a).toNat }
    let go (s : State) (v : Word) : Out' := .next (s.geGo g (y.setReg d v) (y.pc + 1))
    s.geRow g = some (.skip g d a) →
    (∀ x t, s.inst? r.ctx r.inst = some x → s.task? r = some t → x.span ≤ r.idx ∨ Desc.kind t.desc ≠ 1 ∧ Desc.kind t.desc ≠ 2 →
      ∃ u, exec (.skip g d a) s = .next u ∧ Acts (s.geFail g 4) u) ∧
    (∀ x t, s.inst? r.ctx r.inst = some x → s.task? r = some t → r.idx < x.span → Desc.kind t.desc = 1 ∨ Desc.kind t.desc = 2 →
      ((t.st = .waiting ∨ t.st = .spec) ∧ t.count ≠ 0 → exec (.skip g d a) s = go (s.updTask r fun t => { t with skip := true }) 1) ∧
      (¬ ((t.st = .waiting ∨ t.st = .spec) ∧ t.count ≠ 0) → exec (.skip g d a) s = go s 0)) ∧
    (s.task? r = none → ∃ t, exec (.skip g d a) s = .next t ∧ Acts (s.geFail g 4) t))

/-- R207, R226: a free enabled engine starts the queued task of earliest key whose context is not halted; without a program it
retires failed with cause 5, which `GE_STATUS` counts as an end, with its outputs allocated it enters its program; while none can
be, it waits (that the outputs are allocated then is the model's reading, log entry 29). R222: on entry s1 to s5 hold the operand
block, the instance's base and number, the step and the effective index, the other registers zero. -/
def Obligations.GateTaskStarts : Prop :=
  (∀ (s : State) (g t : Nat) (e : Entry) (x : Inst) (k : Task),
    let s1 := s.at t
    let z := s1.ge g
    let r := e.ref
    z.en = true → z.run = none → s.steady → s.up = true →
    s.fsu.paused.any (fun p => p.1 = 5 && p.2 / (s.env.dev.geLanes + s.env.dev.geSpares) = g) = false →
    s.fsu.remounts.any (fun p => p.1 = 5 && p.2.1 / (s.env.dev.geLanes + s.env.dev.geSpares) = g) = false →
    z.queue.find? (fun e => !(s1.ctx e.ref.ctx).halted) = some e → s1.inst? r.ctx r.inst = some x → s1.task? r = some k →
    (AL.get? (bits (Desc.entry k.desc) 7 0) (s1.ctx r.ctx).progs = none → ∃ u, exec (.geTaskStart g t) s = .next u ∧
      Acts (((s1.setGe g { z with
        queue := z.queue.filter fun q => q.ref ≠ r, ended := (z.ended + 1) % 2 ^ 32 }).geRecord g { e := e } 5).retireTask r .failed
        (some g) none) u) ∧
    (∀ p, AL.get? (bits (Desc.entry k.desc) 7 0) (s1.ctx r.ctx).progs = some p →
      let s2 := s1.descRead r
      let m := s2.allocAll r (s2.sliceOrder r.ctx (Desc.sliceHint k.desc) (s2.homeOf e)) (s2.outputs k.desc x.base)
      (m.1 = true → ∃ u, exec (.geTaskStart g t) s = .next u ∧ Acts (m.2.geEnter g e x k p) u) ∧
      (m.1 = false → ∃ u, exec (.geTaskStart g t) s = .next u ∧ Acts m.2 u))) ∧
  (∀ (s : State) (g : Nat) (e : Entry) (x : Inst) (k : Task) (p : Nat × Nat), 0 < p.2 → Desc.trace k.desc = false →
    s.inst? e.ref.ctx e.ref.inst = some x → s.task? e.ref = some k →
    ∃ y, ((s.geEnter g e x k p).ge g).run = some y ∧ y.e = e ∧ y.pc = 0 ∧ y.prog = p.1 ∧ y.count = p.2 ∧ y.flags = 0 ∧
      y.startAt = s.env.now ∧ y.reg 1 = wordAt k.desc 2 ∧ y.reg 2 = BitVec.ofNat 64 x.base ∧
      y.reg 3 = BitVec.ofNat 64 x.num ∧ y.reg 4 = BitVec.ofNat 64 (x.step.getD (2 ^ 64 - 1)) ∧
      y.reg 5 = BitVec.ofNat 64 ((x.base + e.ref.idx) % 2 ^ 32) ∧ ∀ n, 5 < n → y.reg n = 0)

/-- R227, R218, Table 9.8: END 0 sets the occupancy bit of every output that the task's ports reached in the output's tile-map entry
(Table 8.1): 1 where a byte of it was written, but 0 where ports with ZERO_FILL alone wrote it and every byte was zero; the engine
is free, and the task retires normal; END 1 retires it failed. A budget that has run out stops it, and it retires failed. The engine
that is left has no task, and gathers the task's flags. -/
def Obligations.GateTaskEnds : Prop :=
  ∀ (s : State) (g t : Nat) (imm : BitVec 32) (y : GeRun),
    let s1 := s.at t
    let r := y.e.ref
    let row : Prop := s1.geRow g = some (.endTask g imm s1.env.now)
    (s.atInsn g y → row → imm.getLsbD 0 = false → ∀ x k, s1.inst? r.ctx r.inst = some x → s1.task? r = some k →
      let hs := s1.outputs k.desc x.base
      let wrote (h : Nat) : Bool := y.outs.any fun p => decide (hs.getD p.1 0 = h) && p.2
      let done := ((y.outs.map fun p => hs.getD p.1 0).eraseDups).foldl (fun m h =>
        m.setTile r.ctx h { m.tile r.ctx h with occ := wrote h }) s1
      Leads (.endTask g imm t) s ((done.geLeave g).retireTask r .normal (some g) none)) ∧
    (s.atInsn g y → row → imm.getLsbD 0 = true → ∃ u, exec (.endTask g imm t) s = .next u ∧
      Acts ((s1.geLeave g).retireTask r .failed (some g) none) u) ∧
    (s.steady → (s.ge g).run = some y → y.startAt + s1.budgetNs (s1.descOf y.e) ≤ s1.env.now →
      ∃ u, exec (.gateBudgetExpiry g t) s = .next u ∧
        Acts (((s1.geLeave g).retireTask r .failed (some g) none).overrun r (s1.effOf r) (g + 2 ^ 63) 6 g) u) ∧
    (∀ z : GeRun, (s.ge g).run = some z → ((s.geLeave g).ge g).run = none ∧
      ((s.geLeave g).ge g).flags = (s.ge g).flags ||| z.flags ∧ ((s.geLeave g).ge g).ended = ((s.ge g).ended + 1) % 2 ^ 32)

/-! ## Pins, gaits, power and starts (12, 13) -/

/-- R288: an enabled line's rising edge is accepted unless it falls within 50 ns of the last accepted one: it is counted, its
action becomes pending and is then performed, or waits for the end of a gait change; an edge of a disabled or masked line, or of a
block that is off, only raises the line, and one too early also counts as held for EVT_STUCK (the model's reading, assumption 25); a
high line has no rising edge. R290: the fall lowers the line. R289: signals of one action merge, at most 16 launches of a line wait,
and an action is discarded whose context is not defined or faulted, whose id is at or above the limit, or whose launch fails R86. -/
def Obligations.EventLineEdges : Prop :=
  ∀ (s : State) (n t : Nat), s.work = [] → n < 8 →
    let s1 := s.at t
    let x := s.line n
    let live : Prop := s.gcs.state ≠ 0 ∧ s.gcs.evtEn.getLsbD n = true ∧ s.gcs.evtStuck.getLsbD n = false
    let early : Prop := ∃ p, x.lastEdge = some p ∧ s1.env.now < p + 50
    let y : EvtLine := { x with level := true, held := true, lastEdge := some s1.env.now, count := min (x.count + 1) (2 ^ 32 - 1) }
    (x.level = true → exec (.evtEdge n t) s = .next s1) ∧
    (x.level = false → ¬ live → exec (.evtEdge n t) s = .next (s1.setLine n { x with level := true })) ∧
    (x.level = false → live → early → exec (.evtEdge n t) s = .next (s1.setLine n { x with level := true, held := true })) ∧
    (x.level = false → live → ¬ early → ∃ u, exec (.evtEdge n t) s = .next u ∧
      Acts ((s1.setLine n (y.addAction s1.env.now)).push [.evtAct n]) u) ∧
    (x.level = false → live → ¬ early → s.gcs.changing = true → exec (.evtEdge n t) s =
      .next ((s1.setLine n (y.addAction s1.env.now)).push [.evtAct n])) ∧
    exec (.evtLineFall n t) s = .next (s1.setLine n { x with level := false, held := false }) ∧
    (∀ (z : EvtLine) (now : Nat),
      let waiting := (z.pend.filter fun p => bit p.1 62).length
      (bit z.act 63 = false → z.addAction now = z) ∧
      (bit z.act 63 = true → bit z.act 62 = true →
        z.addAction now = if waiting < 16 then { z with pend := z.pend ++ [(z.act, now, 1)] } else z) ∧
      (bit z.act 63 = true → bit z.act 62 = false → (∀ p ∈ z.pend, p.1 ≠ z.act) →
        z.addAction now = { z with pend := z.pend ++ [(z.act, now, 1)] }) ∧
      (∀ l r e k, z.pend = l ++ (z.act, e, k) :: r → (∀ p ∈ l ++ r, p.1 ≠ z.act) → bit z.act 63 = true → bit z.act 62 = false →
        z.addAction now = { z with pend := l ++ (z.act, e, k + 1) :: r })) ∧
    (∀ (u : State) (a : Word) (at' k : Nat), (u.line n).pend = [(a, at', k)] →
      let c := bits a 59 48
      let v := bits a 47 24
      let d := u.setLine n { u.line n with pend := [] }
      let after := u.doWork (.evtAct n)
      (u.defined c = false ∨ (u.ctx c).st = .faulted → after = d) ∧
      (u.defined c = true → (u.ctx c).st ≠ .faulted →
        (bit a 62 = false → u.idLimit c ≤ v → after = d) ∧
        (bit a 62 = false → v < u.idLimit c → after = d.push [.signal c v k { code := 5, arg := 0 } none]) ∧
        (bit a 62 = true → AL.get? (bits a 15 0) (u.ctx c).graphs = none → after = d) ∧
        (∀ x, bit a 62 = true → AL.get? (bits a 15 0) (u.ctx c).graphs = some x →
          let base := x.seq * x.span % 2 ^ 32
          (d.launchCheck c (bits a 15 0) true base 1 ≠ 0 → after = d) ∧
          (d.launchCheck c (bits a 15 0) true base 1 = 0 → after = (d.launch c (bits a 15 0) base 1 { at_ := at' }).2))))

/-- R289, R290: the action register takes a write only while its line is disabled, and reserved bits read zero; a count takes any
write; STUCK is cleared only while the line is low and role 2 runs. A line high for longer than STUCK_MS after an accepted edge
is masked, with an EVT_STUCK record and firmware's interrupt (the record's unit is a free value, assumption 13). -/
def Obligations.EventLineRegisters : Prop :=
  ∀ (s : State) (n t : Nat) (v : Word), s.work = [] → n < 8 → s.gcs.state ≠ 0 →
    let x := s.line n
    let s1 := s.at t
    (s.gcs.evtEn.getLsbD n = false →
      exec (.evtActWrite n v) s = .next (s.setLine n { x with act := v &&& 0xCFFFFFFFFF00FFFF#64 })) ∧
    (s.gcs.evtEn.getLsbD n = true → exec (.evtActWrite n v) s = .next s) ∧
    exec (.evtCountWrite n v) s = .next (s.setLine n { x with count := v.toNat % 2 ^ 32 }) ∧
    (s.up = true → s.roleRuns 2 = true → x.level = false → exec (.stuckRearm n) s =
      .next { s with gcs := { s.gcs with evtStuck := s.gcs.evtStuck &&& ~~~(1#8 <<< n) } }) ∧
    (x.level = true → exec (.stuckRearm n) s = .next s) ∧
    (∀ e, x.lastEdge = some e → x.held = true → x.level = true → s.gcs.stuckMs ≠ 0 → s.gcs.evtStuck.getLsbD n = false →
      e + 1000000 * s.gcs.stuckMs < s1.env.now →
      let m : State := { s1 with freeCount := s.freeCount + 1, gcs := { s.gcs with evtStuck := s.gcs.evtStuck ||| (1#8 <<< n) } }
      let r : Err := { unit := (Config.freeValue 8 s.freeCount).toNat, cls := 1, code := 0x0B, a := n, b := x.count, c := e }
      exec (.evtStuck n t) s = .next ((m.err r).irq 4))

/-- R284: a request for gait 0 to 2 starts a change, and is acknowledged at once where nothing drains (R285); the acknowledgement
raises `gait_ack`; the end takes the new gait, counts the change, adds its length to the bound of each suspension under way (R178)
and raises GAIT_CHANGED; a stage that fails verification at it is worn at code 63 too, acted on while role 2 runs and noted for
later otherwise, its unit paused. What the change held is then performed, first the first action that nothing else holds; only then
a request that was raised during the change starts the next one (R285). Firmware's own request stands until it is answered (Table
12.8). -/
def Obligations.GaitChanges : Prop :=
  ∀ (s : State) (t sel : Nat),
    let s1 := s.at t
    let begun : State := { s1 with gcs := { s.gcs with changing := true, gaitSel := sel, gaitStart := s1.env.now, gaitAck := false } }
    let acked (s : State) : State :=
      { s with gcs := { s.gcs with gaitAck := true }, out := { s.out with gaitAcks := s.out.gaitAcks + 1 } }
    let g : Gcs := { s.gcs with
      changing := false, gaitAck := false, gait := s.gcs.gaitSel, changes := (s.gcs.changes + 1) % 2 ^ 32,
      lastUs := min ((s1.env.now - s.gcs.gaitStart) / 1000) 0xFFFF }
    let ended : State := { s1.stretchSusp s.gcs.gaitStart with gcs := g }
    (sel < 3 → s.gcs.changing = false →
      (s.gcs.state = 2 ∨ s.gcs.state = 3 → Leads (.gaitReq sel t) s begun) ∧
      (s.gcs.state = 0 ∨ s.gcs.state = 1 ∨ s.gcs.state = 4 → Leads (.gaitReq sel t) s (acked begun)) ∧
      (s.work = [] → s.gcs.state = 2 ∨ s.gcs.state = 3 → exec (.gaitReq sel t) s = .next begun)) ∧
    (sel < 3 → s.gcs.changing = true → Leads (.gaitReq sel t) s { s1 with gcs := { s.gcs with gaitNext := some sel } }) ∧
    (s.gcs.changing = true → s.gcs.gaitAck = false → Leads (.gaitAck t) s (acked s1)) ∧
    (s.gcs.changing = true → s.gcs.gaitAck = true →
      (∀ bad, ∃ u v, exec (.gaitDone bad t) s = .next v ∧ Acts ((bad.foldl State.wearVerify ended).irq 6) u ∧
        (u.gcs.gaitNext = none → v = settle u) ∧
        (∀ k, u.gcs.gaitNext = some k → k < 3 → u.gcs.changing = false → u.gcs.state = 2 ∨ u.gcs.state = 3 →
          Acts { u with gcs := { u.gcs with
            gaitNext := none, changing := true, gaitSel := k, gaitStart := u.env.now, gaitAck := false } } v)) ∧
      (∀ w ws, takeWork (ended.irq 6).holds s.work = some (w, ws) → ∃ u v, exec (.gaitDone [] t) s = .next v ∧
        Acts (State.doWork { ended.irq 6 with work := ws } w) u ∧ (u.gcs.gaitNext = none → v = settle u)) ∧
      (s.work = [] → s.gcs.gaitNext = none → exec (.gaitDone [] t) s = .next (ended.irq 6))) ∧
    (∀ (u : State) (x : Wear),
      (u.up = true → u.roleRuns 2 = true → u.wearVerify x = u.wearAct x true) ∧
      (u.gcs.state = 0 → u.wearVerify x = u) ∧
      (u.gcs.state ≠ 0 → u.up = false ∨ u.roleRuns 2 = false →
        (u.wearVerify x).fsu.heldWear = u.fsu.heldWear ++ [(x, true)] ∧ (u.wearVerify x).fsu.worst = min x.margin u.fsu.worst ∧
          (x.kind, x.inst) ∈ (u.wearVerify x).fsu.paused)) ∧
    (∀ c, (ended.ctx c).suspBound =
      (s.ctx c).suspBound + if (s.ctx c).st = .suspending then s1.env.now - s.gcs.gaitStart else 0) ∧
    (s.work = [] → ∀ k, k < 4 → s.up = true → s.roleRuns 3 = true →
      exec (.tthGaitReq k) s = .next { s with tth := { s.tth with reqTarget := k, req := true } }) ∧
    (s.work = [] → ∀ d, s.tth.req = true →
      exec (.gaitRequestAnswer d) s = .next { s with tth := { s.tth with req := false, reqDenied := d } })

/-- R291, R297: power clears every register, keeps the flash and the memories (assumption 1) and starts the block; its fall clears
them again; the levels of the event lines (assumption 25) and that the bus has run ENTDAA (assumption 27) outlive it. An assertion of
`pwr_fail_n` is counted, recorded and announced, and the staging queue reaches the reserve where it has room; 1 s after its
release role 2 moves the reserve into the ring (R349, R350); STUDBOOK_FLUSH writes the staged records, but not before the reserve's
while the block boots. R346: a record goes to the next position of the ring, and one whose sector is full first frees the oldest 64; a
sector that has failed is retired before it is written, and the lowest spare takes its place, itself retired where it has failed too;
without a spare the ring loses the sector. -/
def Obligations.PowerAndStudbook : Prop :=
  ∀ (s : State) (t : Nat),
    let s1 := s.at t
    let off : State := { State.resetOn s.env.dev with
      env := s.env, mem := s.mem, hostMem := s.hostMem, freeCount := s.freeCount, pending := s.pending, out := s.out,
      flash := s.flash }
    let lines := s.gcs.lines.map fun (p : Nat × EvtLine) => (p.1, ({ level := p.2.level } : EvtLine))
    let i3c : I3c := { off.i3c with ranDaa := s.i3c.ranDaa }
    exec .powerFall s = .next { off with gcs := { off.gcs with lines := lines }, i3c := i3c } ∧
    (s.fsu.power = false → ∃ u, exec (.powerOn t) s = .next u ∧ Acts (State.startSteps { off with
      env := s1.env, gcs := { off.gcs with lines := lines }, i3c := i3c, fsu := { off.fsu with power := true, pfHighAt := some s1.env.now } } 1) u) ∧
    (s.fsu.power = true → s.fsu.pfAsserted = false → ∃ u, exec (.pwrFail t) s = .next u ∧
      let n := s.fsu.powerFails + 1
      let a : State := { s1 with fsu := { s.fsu with powerFails := n, pfAsserted := true, pfHighAt := none } }
      let b := (a.err { unit := 0x0A, cls := 1, code := 0x16, a := n, b := min 16 (s.fsu.staging.length + 1) }).flushReserve
      Acts (({ b with fsu := { b.fsu with flushed := true } }.healthNew 19).ibi 4) u) ∧
    (s.work = [] → s.fsu.pfAsserted = true → exec (.pwrFailRelease t) s =
      .next { s1 with fsu := { s.fsu with pfAsserted := false, pfHighAt := some s1.env.now } }) ∧
    (∀ u : State, u.flash.reserve.length + u.fsu.staging.length ≤ 1024 → u.fsu.lostPend = 0 → u.flushReserve = { u with
      flash := { u.flash with reserve := u.flash.reserve ++ u.fsu.staging }, fsu := { u.fsu with staging := [] } }) ∧
    (∀ p, s.fsu.pfHighAt = some p → s.up = true → s.roleRuns 2 = true → p + 1000000000 ≤ s1.env.now → Leads (.reserveDrain t) s
      (s.flash.reserve.foldl State.sbWrite { s1 with flash := { s.flash with reserve := [] } })) ∧
    (s.gcs.state ≠ 0 → s.env.sfdpOk = true → s.up = true ∨ s.flash.reserve = [] → Leads .studbookFlush s
      (s.fsu.staging.foldl State.sbWrite { s with fsu := { s.fsu with staging := [] } }).stageLost) ∧
    (s.gcs.state = 1 → s.flash.reserve ≠ [] → Leads .studbookFlush s s) ∧
    (∀ (u : State) (x : List Word),
      let i := u.flash.ringPos / 64 % 2032
      u.fsu.lostUnits.contains (8, i) = false →
        (u.env.defects.contains (8, u.physOf 8 i) = false ∨ u.fsu.retired.contains (8, u.physOf 8 i) = true → u.sbWrite x = { u with
          flash := { u.flash with ring := sbTrim u.fsu.sectors (u.flash.ring ++ [x]), ringPos := u.flash.ringPos + 1 } }) ∧
        (u.env.defects.contains (8, u.physOf 8 i) = true → u.fsu.retired.contains (8, u.physOf 8 i) = false →
          let v := u.sbRetire i (u.physOf 8 i)
          let free (j : Nat) : Prop := 2032 ≤ j ∧ j < 2048 ∧ (8, j) ∉ u.fsu.retired ∧ ∀ m ∈ u.fsu.map, ¬ (m.1.1 = 8 ∧ m.2 = j)
          let k := v.sbSector v.flash.ringPos
          (∃ l, (u.sbWrite x).fsu.retired = u.fsu.retired ++ (8, u.physOf 8 i) :: l) ∧
          v.fsu.retired = u.fsu.retired ++ [(8, u.physOf 8 i)] ∧
          (∀ j, free j → (∀ n < j, ¬ free n) → v.fsu.map = AL.put (8, i) j u.fsu.map ∧ v.fsu.sbSpares = u.fsu.sbSpares - 1) ∧
          ((∀ j, ¬ free j) → v.fsu.lostUnits = u.fsu.lostUnits ++ [(8, i)] ∧ v.fsu.sectors = u.fsu.sectors - 1) ∧
          (v.env.defects.contains (8, v.physOf 8 k) = false ∨ v.fsu.retired.contains (8, v.physOf 8 k) = true →
            u.sbWrite x = v.sbWrite x)))

/-- R8, R295, R296, R297, R307, R311, Table 13.3: `GCS_CTL.RESET` = 1 is a warm reset, but a cold one while the block boots; = 2 is
a cold reset; neither acts without power, and in safe mode only the cold one does. The start watchdog resets a start that has lasted
10 s. RECOVER, in safe mode, checks the image at its address and sets RECOVER_BUSY; presented again it programs the image as image A
and cold-resets. An image that fails a check of R308, or that the flash does not take, ends it with its RECOVER_RESULT, the slot
erased if the programming had begun (the two presentations are the model's form, log 36). How the block quiesces first is the
model's choice (log entry 6), and so is what of the pins' state outlives a reset (log entries 25 and 27). A reset clears queues,
contexts, counters, heaps, flows, the delay list, Carousel slots, Relay channels, predictions, cached descriptors and the tasks on
cores, and keeps the memories and the flash; a cold one clears the sticky fields too, which a warm one keeps: the tether's and the
cores' addresses, the remount map and spare states, `GCS_HERD`, the grooming results and the retained digest. -/
def Obligations.ResetsAndRecovery : Prop :=
  ∀ (s : State) (t : Nat),
    let s1 := s.at t
    let does (i : Instr) (v : State) : Prop := ∃ u, exec i s = .next u ∧ Acts v u
    let drained (cold : Bool) : State :=
      (State.stage ((s.csq.cores.map Prod.fst).foldl (State.quiesceCore s1.env.now) s1) 0x03
        [wd (0x200 + if cold then 1 else 2), 0, 0, 0]).flushOrdered
    let cold (o : State) : State := o.cleared.keepPins o
    let warm (o : State) : State := (cold o).keepSticky o
    (s.gcs.state = 2 ∨ s.gcs.state = 3 → does (.warmReset t) ((warm (drained false)).startSteps 3) ∧
      does (.coldReset t) ((cold (drained true)).startSteps 2)) ∧
    (s.gcs.state = 1 → does (.warmReset t) ((cold (drained true)).startSteps 2) ∧
      does (.coldReset t) ((cold (drained true)).startSteps 2)) ∧
    (s.gcs.state = 4 → does (.coldReset t) ((cold (drained true)).startSteps 2) ∧
      does (.warmReset t) { s1 with fsu := { s.fsu with resetPending := false } }) ∧
    (s.gcs.state = 0 → does (.warmReset t) s1 ∧ does (.coldReset t) s1) ∧
    (∀ o : State,
      let z := State.resetOn o.env.dev
      (∀ v, v = cold o ∨ v = warm o →
        v.cfe = z.cfe ∧ v.ctxs = [] ∧ v.ctu = z.ctu ∧ v.gd = z.gd ∧ v.car = z.car ∧ v.rly = z.rly ∧ v.plu = z.plu ∧
        v.dcache = z.dcache ∧ v.stat = z.stat ∧ (∀ k, (v.core k).running = none ∧ (v.core k).saddle = none ∧ (v.core k).lq = []) ∧
        v.work = [] ∧ v.mem = o.mem ∧ v.hostMem = o.hostMem ∧ v.flash = o.flash ∧ v.gcs.gait = o.gcs.gait ∧ v.gcs.irqStatus = 0) ∧
      (cold o).csq = z.csq ∧ (cold o).tth = z.tth ∧ (cold o).fwc = z.fwc ∧ (cold o).gcs.herdValid = false ∧ (cold o).fsu.map = [] ∧
      (warm o).csq.seqrs = o.csq.seqrs ∧ (warm o).tth.roles = o.tth.roles ∧ (warm o).fsu.map = o.fsu.map ∧
      (warm o).fsu.spares = o.fsu.spares ∧ (∀ k, (o.core k).withdrawn = true → ((warm o).core k).withdrawn = true) ∧
      (warm o).gcs.herdValid = o.gcs.herdValid ∧ (warm o).gcs.herdAddr = o.gcs.herdAddr ∧ (warm o).tth.groomValid = o.tth.groomValid ∧
      (warm o).tth.train = o.tth.train ∧ (warm o).fwc.digest = o.fwc.digest) ∧
    (∀ p, s.fwc.watchdog = some p → p + 10000000000 ≤ s1.env.now → s.gcs.state ≠ 0 → s.gcs.state ≠ 4 →
      does (.startWatchdog t) (s1.resetNow false 4 0)) ∧
    (s.gcs.state = 4 →
      let x := s1.readImage (s.gcs.recoverBase * 4096)
      let m := s1.setImage false x
      let erased := s1.setImage false {}
      (s1.imageFail? x = none → s.gcs.recoverBusy = false →
        does (.recover t) { s1 with gcs := { s.gcs with recoverBusy := true } }) ∧
      (s1.imageFail? x = none → s.gcs.recoverBusy = true → s.env.flashOk = true →
        does (.recover t) ((m.setTack { m.tack with failA := 0, prefB := false }).resetNow true 5 0)) ∧
      (s1.imageFail? x = none → s.gcs.recoverBusy = true → s.env.flashOk = false →
        does (.recover t) { erased.imageBad false 6 x with
          gcs := { (erased.imageBad false 6 x).gcs with recoverResult := 2, recoverBusy := false } }) ∧
      (∀ k, s1.imageFail? x = some k →
        let e := if s.gcs.recoverBusy then erased else s1
        does (.recover t) { e.imageBad false k x with
          gcs := { (e.imageBad false k x).gcs with recoverResult := (if k = 5 then 3 else 2), recoverBusy := false } }))

/-- R298, R306, R311, Table 13.4: a start reads SFDP and the tack store and chooses an image: PREFERRED with fewer than three failed
attempts, else the other, else safe mode; the attempt is counted, an image that fails a check of R308 counts as failed three times
and the choice is made again, and a warm start takes the image whose retained digest still holds as it is. Then the cores start, the
watchdog is armed, a cold start applies the repair map and its own findings, and step 7 begins, unless a warm start keeps its codes
(R303) or an essential unit has no usable instance. Safe mode is SAFE with REPLACE and its interrupts. R307, R349: the end of a start
that is ready, with a usable instance of every essential unit, leaves the block READY or DEGRADED, firmware's enable bits set, every
queue DISABLED, the start watchdog disarmed, FROZEN only while a core restarts, and the power-loss reserve empty; without one the start
fails into a warm reset (its RESET record's trigger is a free value, log entry 13). -/
def Obligations.StartEndsReady : Prop :=
  (∀ (s : State) (t : Nat), s.work = [] → s.fsu.heldWear = [] → s.startReady = true →
    let m := if s.tth.enumReq then (s.at t).enumEnd else s.at t
    (m.startFails = false → m.fsu.remounts = [] → ∃ u, exec (.startEnd t) s = .next u ∧ (u.gcs.state = 2 ∨ u.gcs.state = 3) ∧ u.gcs.step = 11 ∧
      u.gd.run = true ∧ u.ctu.run = true ∧ u.car.en = true ∧ u.rly.en = true ∧ u.fwc.watchdog = none ∧
      u.fwc.frozen = (m.fwc.cores.any fun p => decide (p.2 = 2)) ∧ (∀ q, (u.queue q).st = .disabled) ∧ u.flash.reserve = [] ∧
      u.flash.imgA = s.flash.imgA ∧ u.flash.imgB = s.flash.imgB) ∧
    (m.startFails = true → ∃ u, exec (.startEnd t) s = .next u ∧
      Acts ({ m with freeCount := m.freeCount + 1 }.resetNow false (Config.freeValue 8 m.freeCount).toNat 0) u)) ∧
  (∀ (s : State) (kind : Nat),
    let warm : Bool := decide (kind = 3)
    let begun := State.hotJoin { s with
      gcs := { s.gcs with state := 1, kind := kind, step := 1 }, fsu := { s.fsu with nextSeq := s.nextSbSeq } }
    let read := (if begun.tack? = none then begun.stage 0x07 [1, 0, 0, 0] else begun).setStep 3
    let k := read.tack
    let policy : State := { read with fwc := { read.fwc with resetCold := bit (AL.get k.policy 479) 0 } }
    let counted := policy.setTack (if warm then { k with warm := (k.warm + 1) % 2 ^ 32 } else { k with cold := (k.cold + 1) % 2 ^ 32 })
    (s.env.sfdpOk = false → s.startSteps kind = begun.safeMode) ∧
    (s.env.sfdpOk = true → ∀ v,
      (counted.bootImage warm 7 = (false, v) → s.startSteps kind = v) ∧
      (counted.bootImage warm 7 = (true, v) →
        let cores : State := if warm then v else { v.startCores with fwc := { v.startCores.fwc with group := v.startCores.tack.group } }
        let pet := (List.range s.env.dev.fwCores).foldl State.pet cores
        let armed := State.setStep { pet with fwc := { pet.fwc with watchdog := some pet.env.now } } 6
        let d := if warm then armed else armed.applyRepair
        (d.storesMissing = true → s.startSteps kind = d.push [.startFail]) ∧
        (d.storesMissing = false → d.gcs.kind = 3 → d.groomKept = true → s.startSteps kind = d) ∧
        (d.storesMissing = false → d.gcs.kind ≠ 3 ∨ d.groomKept = false →
          s.startSteps kind = { d with gcs := { d.gcs with step := 7 }, tth := { d.tth with groomReq := true } })))) ∧
  (∀ (s : State) (warm : Bool) (n : Nat),
    (s.tack.choose = none → s.bootImage warm (n + 1) = (false, s.safeMode)) ∧
    (∀ b, s.tack.choose = some b →
      let x := s.imageSlot b
      let u := s.setTack (s.tack.setFails b (s.tack.fails b + 1))
      let same : Prop := warm = true ∧ u.fwc.digest = some x.digest ∧ u.fwc.sramOk = true
      (same → s.bootImage warm (n + 1) = (true, u.noteImage b)) ∧
      (¬ same → u.imageFail? x = none → s.bootImage warm (n + 1) =
        (true, State.noteImage { u with fwc := { u.fwc with digest := some x.digest, sramOk := true } } b)) ∧
      (¬ same → ∀ k, u.imageFail? x = some k → s.bootImage warm (n + 1) =
        ((u.imageBad b k x).setTack (u.tack.setFails b 3)).bootImage warm n)) ∧
    (∀ k : Tack, (k.fails k.prefB < 3 → k.choose = some k.prefB) ∧
      (3 ≤ k.fails k.prefB → k.fails (!k.prefB) < 3 → k.choose = some !k.prefB) ∧
      (3 ≤ k.fails k.prefB → 3 ≤ k.fails (!k.prefB) → k.choose = none)) ∧
    (s.safeMode = ((State.health { s with gcs := { s.gcs with state := 4 } }).ibi 3).ibi 1 ∧ s.safeMode.gcs.state = 4 ∧
      s.safeMode.fsu.replace = true) ∧
    (∀ new p,
      (s.logicalOf p.1 p.2 = none → s.repairUnit new p = if s.freeSpare p.1 p.2 then s.retireSpare p.1 p.2 else s) ∧
      (∀ l, s.logicalOf p.1 p.2 = some l →
        (∀ k, s.spareFor p.1 p.2 = some k →
          let v := ((s.moveUnit p.1 l p.2 k).useSpare p.1).markRetired p.1 p.2
          s.repairUnit new p = { v with fsu := { v.fsu with remounted := true } }) ∧
        (s.spareFor p.1 p.2 = none →
          let v := (s.loseUnit p.1 l p.2).markRetired p.1 p.2
          let e : Err := { unit := kindUnit p.1, inst := v.kindInst p.1 p.2, cls := 1, code := 0x15, a := p.1, b := p.2, c := v.unitsActive p.1 }
          s.repairUnit new p = if new then v.err e else v))) ∧
    (let found := (s.env.defects.filter fun p => (p.1 = 3 || p.1 = 4) && !s.tack.repair.contains p).eraseDups
      let mapped := (s.tack.repair.filter fun p => p.1 ≠ 2 && p.1 ≠ 6).foldl (State.repairUnit false) s
      (found = [] → s.applyRepair = mapped.mergeFindings) ∧
      s.applyRepair = found.foldl (State.repairUnit true) mapped.mergeFindings))

/-- R299, R300, R302: enumeration, once a cold start's step 7 has groomed, sends its token and goes on to step 8; a position without an
answer 20 µs later counts as failed; presented again it assigns the roles (the two presentations are the model's form, log entry 36),
records a cluster newly lost and a remount that grooming asked for, and fails the start where no cluster has a sequencer. An active
place serves its
cluster unless it has failed, which makes it RETIRED; a row's spare serves the row's lowest cluster without a sequencer, and is SPARE
where none lacks one; a failed spare is RETIRED; a cluster left over has no sequencer (the cluster number of a position that serves
none is the model's, assumption 30). A grooming is performed when a start's step 7 asks for it, at the temperature of this row, or while
role 2 runs in a running block or for a write of TTH_CTL.GROOM (the row is the model's, assumption 11; that such a write is answered so
is assumption 35); it notes the gait, the temperature and the codes, and leaves the safe codes. -/
def Obligations.TetherAndGrooming : Prop :=
  ∀ (s : State),
    (s.gcs.state = 1 → s.tth.enumReq = false → s.gcs.kind ≠ 3 → s.gcs.step = 7 → s.tth.groomReq = false →
      Leads .enum s (State.setStep { s with tth := { s.tth with enumReq := true, enumAt := s.env.now } } 8)) ∧
    (s.gcs.state = 1 → s.tth.enumReq = true → Leads .enum s s.enumEnd) ∧
    (s.gcs.state ≠ 1 ∨ s.tth.enumReq = false ∧ (s.gcs.kind = 3 ∨ s.gcs.step ≠ 7 ∨ s.tth.groomReq = true) → Leads .enum s s) ∧
    (s.gcs.state = 1 → s.tth.enumReq = true → s.tth.enumAt + 20000 ≤ s.env.now → ∀ p, p < s.env.dev.positions →
      p ∉ s.tth.noAnswer → Leads (.tetherNoAnswer p) s { s with tth := { s.tth with noAnswer := s.tth.noAnswer ++ [p] } }) ∧
    (s.gcs.state ≠ 1 ∨ s.tth.enumReq = false ∨ s.env.now < s.tth.enumAt + 20000 → ∀ p, Leads (.tetherNoAnswer p) s s) ∧
    (let d := s.env.dev
     let e := s.enumEnd
     let bad (p : Nat) : Bool :=
       s.tack.repair.contains (2, p) || s.remounting 2 p || s.unreached p || s.env.defects.contains (2, p)
     let lost := (s.absentBy bad).filter fun n => !(s.absentBy fun p => s.tack.repair.contains (2, p)).contains n
     let gone (v : State) (n : Nat) : Err := { unit := kindUnit 2, inst := v.kindInst 2 (homePos n), cls := 1, code := 0x15, a := 2,
                                               b := homePos n, c := v.unitsActive 2 }
     let told := lost.foldl (fun (v : State) n => v.err (gone v n)) s.enumerate
     let noted := (told.fsu.remounts.filter fun p => p.1 = 2).foldl State.noteSeq told
     let replaced (p : Nat × Nat × Nat) (n : Nat) : Prop := s.rowSpare p.2.1 ≠ p.2.1 ∧
       (s.csq.seqrs.find? fun x => x.2.valid && decide (x.2.role = 0) && decide (homePos x.2.cluster = p.2.1)).map Prod.fst = some n
     (∀ p n, s.roleRuns 2 = true → replaced p n → s.noteSeq p = (s.dropRemount p).noteRemount 2 p.2.1 n p.2.2) ∧
     (e = if noted.presentList = [] then noted.push [.startFail] else noted) ∧
     let serves (p n : Nat) : Prop := (e.seqr p).valid = true ∧ (e.seqr p).role = 0 ∧ (e.seqr p).cluster = n ∧ AL.get e.tth.roles p = 0
     let is (p role : Nat) : Prop := (e.seqr p).valid = true ∧ (e.seqr p).role = role ∧ AL.get e.tth.roles p = role
     (∀ r i, r < d.rows → i < d.rowLen →
        let n := r * d.rowLen + i
        (bad (homePos n) = false → serves (homePos n) n) ∧ (bad (homePos n) = true → is (homePos n) 2)) ∧
     (∀ r, r < d.rows →
        let row := (List.range d.rowLen).map fun i => r * d.rowLen + i
        let spare := s.rowSpare (homePos (r * d.rowLen))
        (bad spare = true → is spare 2) ∧
        (bad spare = false → (row.find? fun n => bad (homePos n)) = none → is spare 1) ∧
        (∀ n, bad spare = false → (row.find? fun n => bad (homePos n)) = some n → serves spare n)) ∧
     e.tth.enumReq = false) ∧
    (∀ temp,
      let m : State := { s with env := { s.env with temp := temp } }
      (m.groomDue = false → s.roleRuns 2 = false ∨ s.up = false ∧ s.tth.groomReq = false → Leads (.groom temp []) s m) ∧
      (m.groomDue = true ∨ (s.up = true ∨ s.tth.groomReq = true) ∧ s.roleRuns 2 = true → s.work = [] → s.fsu.remounts = [] →
        (m.groomDue = true → s.storesMissing = false) → ∃ u, exec (.groom temp []) s = .next u ∧ u.env.temp = temp ∧ u.tth.safeCodes = false ∧ u.tth.groomValid = true ∧
          u.tth.groomGait = s.gcs.gait ∧ u.tth.groomTemp = temp ∧ u.tth.groomFailed = 0 ∧
          u.tth.groomTrained = min s.env.dev.stages 0xFFFF ∧ u.tth.groomReq = false ∧
          u.tth.train = some { gait := s.gcs.gait, temp := temp, first := s.freeCount } ∧ u.tack.training = u.tth.train ∧
          u.freeCount = s.freeCount + 3 * s.env.dev.stages ∧ u.gcs.step = s.gcs.step ∧ u.fsu.remounts = []))

/-- R322, R323: a trap of a running or restarting firmware core, or its watchdog 50 ms after it was last served, writes FW_CRASH
and restarts the core, by a warm reset where the retained SRAM does not match; the third crash of a core within 600 s retires it.
When a core has restarted, it runs, and the mapping is frozen only while another one restarts. R304: a firmware-only restart
restarts every running core and leaves the hardware as it is. -/
def Obligations.FirmwareCoreRestarts : Prop :=
  ∀ (s : State) (k t : Nat) (mcause : Word), s.fwAlive = true →
    let s1 := s.at t
    let recent := (s.fwc.crashes.filter fun p => decide (s1.env.now < p.2 + 600000000000)) ++ [(k, s1.env.now)]
    let crashed (cause c : Nat) : State := State.err { s1 with fwc := { s.fwc with crashes := recent } }
      { unit := 9, inst := k, cls := 1, code := 0x10, a := k, b := cause, c := c }
    let restarting (v : State) : State := { v with fwc := { v.fwc with
      cores := AL.put k 2 v.fwc.cores, frozen := true, restarts := AL.upd v.fwc.restarts k fun n => sat 255 (n + 1)
      petAt := AL.put k v.env.now v.fwc.petAt } }
    let runs : Prop := AL.get s.fwc.cores k = 1 ∨ AL.get s.fwc.cores k = 2
    let late : Prop := AL.get s.fwc.petAt k + 50000000 ≤ s1.env.now
    let does (i : Instr) (v : State) : Prop := ∃ u, exec i s = .next u ∧ Acts v u
    (runs → (recent.filter fun p => p.1 = k).length < 3 → s.fwc.sramOk = true →
      does (.fwCoreTrap k mcause t) (restarting (crashed 1 mcause.toNat)) ∧
      (late → does (.fwWatchdog k t) (restarting (crashed 2 0)))) ∧
    (runs → (recent.filter fun p => p.1 = k).length < 3 → s.fwc.sramOk = false →
      does (.fwCoreTrap k mcause t) ((restarting (crashed 1 mcause.toNat)).resetNow false 7 0)) ∧
    (runs → 3 ≤ (recent.filter fun p => p.1 = k).length →
      does (.fwCoreTrap k mcause t) ((crashed 1 mcause.toNat).fwThird k) ∧
      (late → does (.fwWatchdog k t) ((crashed 2 0).fwThird k))) ∧
    (AL.get s.fwc.cores k = 2 → s.fwc.upd = none → s.fwc.pendingRestart = false →
      let a : State := { s1 with fwc := { s.fwc with
        cores := AL.put k 1 s.fwc.cores, petAt := AL.put k s1.env.now s.fwc.petAt } }
      let b := if (a.rolesOf k).contains 1 then a.advanceMarks else a
      let c := if s.fwc.frozen = false ∨ (b.fwc.cores.any fun p => p.2 = 2) = true then b
        else { b with fwc := { b.fwc with frozen := false } }
      does (.fwRestartEnd k t) c.rolesBack.displace.refillAll) ∧
    (s.work = [] → s.up = true → s.fwc.sramOk = true →
      let p := (s.fwc.cores.map Prod.fst).foldl State.pet s1
      let f : Fwc := { p.fwc with
        pendingRestart := true, frozen := true, cores := s.fwc.cores.map fun (p : Nat × Nat) => (p.1, if p.2 = 1 then 2 else p.2) }
      exec (.firmwareRestart t) s = .next { p with gcs := { s.gcs with kind := 4, step := 4 }, fwc := f })

/-- R328, R329, Table 14.7: an idle mailbox's operation, served while role 3 runs: PING 0 answers the image version; POLICY_READ and
POLICY_WRITE reach words below 480; SET_HERD_GROUP 0 takes a group below 16; RESTART_CORE restarts a running core; a value out
of range gives RESULT 2 and no other effect. -/
def Obligations.MailboxOperations : Prop :=
  ∀ (s : State) (arg t : Nat) (v : Word), s.work = [] → s.unitsOn = true → s.roleRuns 3 = true → s.fwc.mboxBusy = false →
    let s1 := s.at t
    let done (s : State) (r : Nat) : State := { s with fwc := { s.fwc with mboxBusy := false, mboxResult := r, mboxOp := none } }
    let data (s : State) (v : Word) : State := { s with fwc := { s.fwc with mboxData := v } }
    (exec (.ping arg) s = .next (if arg = 0 then done (data s s.imageVer) 0 else done s 2)) ∧
    (exec (.policyRead arg) s = .next (if arg < 480 then done (data s (AL.get s.tack.policy arg)) 0 else done s 2)) ∧
    (arg < 480 → ∃ u, exec (.policyWrite arg v) s = .next u ∧ AL.get u.tack.policy arg = v ∧ u.fwc.mboxResult = 0 ∧
      u.fwc.mboxBusy = false ∧ ∀ j, j ≠ arg → AL.get u.tack.policy j = AL.get s.tack.policy j) ∧
    (480 ≤ arg → exec (.policyWrite arg v) s = .next (done (data s v) 2)) ∧
    (arg = 0 → v.toNat < 16 → ∃ u, exec (.setHerdGroup arg v) s = .next u ∧ u.tack.group = v.toNat ∧ u.fwc.mboxResult = 0 ∧
      u.gcs.herdAddr = s.gcs.herdAddr) ∧
    (arg ≠ 0 ∨ 16 ≤ v.toNat → exec (.setHerdGroup arg v) s = .next (done (data s v) 2)) ∧
    (AL.get s.fwc.cores arg = 1 → s.fwc.sramOk = true → ∃ u, exec (.restartCore arg t) s = .next u ∧
      AL.get u.fwc.cores arg = 2 ∧ u.fwc.frozen = true ∧ u.fwc.mboxResult = 0 ∧
      AL.get u.fwc.restarts arg = min (AL.get s.fwc.restarts arg + 1) 255) ∧
    (AL.get s.fwc.cores arg ≠ 1 → exec (.restartCore arg t) s = .next (done s1 2))

/-- R293, R310, R326: ENTDAA gives the dynamic address, from which role 3 forms the herd address once, group × 64 + address − 8,
with the group in force since the last cold start; a block that is off takes no address, and the bus has run ENTDAA all the same;
RSTDAA clears the address alone; the common commands read and set the target's limits (codes of the standard, assumption 27). -/
def Obligations.ManagementTarget : Prop :=
  ∀ (s : State) (da data : Nat), s.work = [] →
    let open' (s : State) (code : Nat) (w : Word) : State := { s with out := { s.out with mctp := s.out.mctp ++ [(code, [w])] } }
    (s.up = true → s.roleRuns 3 = true → s.gcs.herdValid = false → 0x08 ≤ da → da ≤ 0x47 →
      exec (.entdaa da) s = .next { s with
        gcs := { s.gcs with herdDa := da, herdValid := true, herdGroup := s.fwc.group, herdAddr := 64 * s.fwc.group + (da - 8) }
        ctu := { s.ctu with trailEn := true }, i3c := { s.i3c with ranDaa := true, daNoted := false } }) ∧
    (s.gcs.state ≠ 0 → s.gcs.herdValid = true → 0 < da → da < 128 →
      exec (.entdaa da) s = .next { s with
        gcs := { s.gcs with herdDa := da }, i3c := { s.i3c with ranDaa := true, daNoted := false } }) ∧
    (s.gcs.state = 0 → exec (.entdaa da) s = .next { s with i3c := { s.i3c with ranDaa := true } }) ∧
    exec .rstdaa s = .next { s with gcs := { s.gcs with herdDa := 0 } } ∧
    (s.gcs.state ≠ 0 →
      exec (.i3cCcc 0x09 data) s = .next { s with i3c := { s.i3c with mwl := data % 65536 } } ∧
      exec (.i3cCcc 0x0A data) s = .next { s with i3c := { s.i3c with mrl := data % 65536 } } ∧
      exec (.i3cCcc 0x8B data) s = .next (open' s 0x18B (BitVec.ofNat 64 s.i3c.mwl)) ∧
      exec (.i3cCcc 0x8C data) s = .next (open' s 0x18C (BitVec.ofNat 64 s.i3c.mrl)) ∧
      (data % 2 = 1 → exec (.i3cCcc 0x01 data) s = .next { s with i3c := { s.i3c with ibiEn := false } })) ∧
    (∀ c, exec (.ibiAcknowledge c) s = .next { s with i3c := { s.i3c with unacked := s.i3c.unacked.filter fun x => x ≠ c } })

/-- R326, R351: while role 3 runs, or the ROM serves in safe mode, HEALTH_GET answers `FSU_HEALTH` and `GCS_STATUS`; STUDBOOK_READ
writes the staged records, after those of the power-loss reserve in safe mode (R349), and answers up to 15 records; the endpoint id
is set and read (codes of the standard, assumption 27). Nothing else changes. -/
def Obligations.ManagementEndpoint : Prop :=
  ∀ (s : State) (first data : Nat), s.work = [] → s.endpointUp = true →
    let answer (s : State) (code : Nat) (ws : List Word) : State :=
      { s with out := { s.out with mctp := s.out.mctp ++ [(code, ws)] } }
    exec .healthGet s = .next (answer s 0x01 [s.healthReg, s.statusReg]) ∧
    (let f := (if s.up then s else s.emptyReserve).flushStudbook
     Leads (.mctpStudbookRead first) s (answer f 0x02 ((f.sbFrom first 15).flatMap fun r => r))) ∧
    exec (.mctpControl 0x01 data) s =
      .next (answer { s with i3c := { s.i3c with eid := data % 256 } } 0x201 [BitVec.ofNat 64 (data % 256)]) ∧
    exec (.mctpControl 0x02 data) s = .next (answer s 0x202 [BitVec.ofNat 64 s.i3c.eid])

/-! ## Commands (02) -/

/-- R28, R45, R46, R131, R317: a command at the head of its queue that may start and names an object outside its context makes the
queue guilty with OUT_OF_CONTEXT; a word out of range, of its packets or of the list that it names, completes it BAD_PARAM with the
first such word's number; a managed opcode off queue 0 completes DENIED; a firmware-path command that passes waits in its role's
queue, and every queue sees how full that is. That BAD_PARAM comes before DENIED is the model's choice (log entry 31). -/
def Obligations.CommandsStartOrAreRefused : Prop :=
  ∀ (i : Instr) (s : State) (q code : Nat) (w : List Word), packetsOf? i = some (code, q, w) → s.atHead q code w →
    let e := s.entered q w
    let n := s.cfe.nextSeq
    let c := s.ctx (Op.ctx w)
    (∀ k, s.outside? q w = some k → Leads i s (s.guilty q 5 none w k 5 (((s.queue q).head.toNat + k / 8) % 2 ^ 32) 0)) ∧
    (s.outside? q w = none → (∀ k, s.firstBad? w = some k → Leads i s (e.complete q n .badParam k)) ∧
      (s.firstBad? w = none → opManaged code = true → q ≠ 0 → Leads i s (e.complete q n .denied 0)) ∧
      (s.firstBad? w = none → q = 0 → needsCtx w = true → c.st = .faulted →
        Leads i s (e.complete q n .ctxFault c.faultCode)) ∧
      (s.firstBad? w = none → q = 0 → needsCtx w = true → c.st = .destroying → Leads i s (e.complete q n .cancelled 0)) ∧
      (s.passes q code w → opFw code = true →
        let p := e.setPhase q n .fwQueued
        let f : Fwc := { p.fwc with roleQ := AL.upd p.fwc.roleQ (opRole code) fun l => l ++ [(q, n)] }
        Leads i s (State.refreshAll { p with fwc := f })))

/-- R26, R29, R30, R54 to R57: a command that starts moves the head past its packets and reserves a record. One that completes waits
for its local signal, and for what its queue's containment is to poison, while its queue follows Table 2.6; then its due counters
are signalled, or poisoned, it leaves its queue and gives the reservation back, its record goes to the next place of the completion
ring with the phase of that lap (none for an OK with NO_STATUS), its peer write follows and then the queue's vector, which a status
other than OK raises always. A peer write that the context may not make turns OK into DENIED. A live step that it ends is over,
CANCELs that reached it complete, and a held record goes out once the ring has room. That w2 holds the part mask whatever the status
is the model's choice (log entry 31). -/
def Obligations.CommandEntersAndCompletes : Prop :=
  ∀ (s : State) (q n : Nat) (w : List Word) (x : Cmd) (st : Status) (detail : Nat),
    let y := s.queue q
    let z := (s.entered q w).queue q
    (z.head = y.head + BitVec.ofNat 32 (cmdPackets w) ∧ z.reserved = y.reserved + 1 ∧ z.fetched = y.fetched.drop w.length ∧
      z.cmds = y.cmds ++ [(s.cfe.nextSeq, { words := w, start := s.env.now, stop0 := s.stopped (Op.ctx w) })]) ∧
    (s.cmd? q n = some x → s.completionWaits q x = true →
      let held := s.push [.complete q n st detail]
      s.complete q n st detail = if Op.code x.words = 0x12 then held.refreshAll else held.refresh q) ∧
    (s.cmd? q n = some x → s.completionWaits q x = false →
      let p := x.words
      let c := Op.ctx p
      let l := Op.cpl p 1
      let r := Op.cpl p 2
      let a := (Op.cpl p 4).toNat
      let wide := bit (Op.cpl p 0) 4
      let may := s.peerOk q c a (if wide then 8 else 4)
      let turned : Bool := Op.peer p && !may && decide (st = .ok)
      let f : Status := if turned then .denied else st
      let fd := if turned then 8 * opPackets (Op.code p) + 4 else detail
      let good : Bool := decide (f = .ok) || decide (f = .partialOk ∨ f = .cancelled) && !Op.allOrPoison p
      let own : List Work := if Op.local p then
        [if good then .signal c (bits l 23 0) (bits l 55 24) { code := 1, arg := q } none else .poison c (bits l 23 0)] else []
      let far : List Work := if Op.remote p then
        [.trail { dest := bits r 9 0, inc := bits r 63 32, handle := Op.cpl p 3, poison := !good, sender := .completion c }] else []
      let left := (((s.push (own ++ far)).updQueue q fun y => { y with cmds := AL.del y.cmds n, reserved := y.reserved - 1 }).stepOver
        q n p).progOver q n
      let rec4 := recordWords (Op.code p) f (Op.tag p) fd s.env.now (if x.failed ≠ [] then partMask x.failed else x.result) x.launch
      let noted := if f = .ok ∧ Op.noStatus p = true then left else left.putRecord q rec4
      let sent : State := if Op.peer p = true ∧ may = true ∧ (f = .ok ∨ f = .partialOk ∨ f = .cancelled) then
        { noted with out := { noted.out with peer := noted.out.peer ++ [(a, Op.cpl p 5, wide)] } } else noted
      let told := if f ≠ .ok ∨ Op.msix p = true then sent.queueMsix q else sent
      let done := (told.cancelCheck q n (f = .cancelled)).flushHeld q
      s.complete q n st detail = if Op.code p = 0x12 then done.refreshAll else done.refresh q) ∧
    (∀ l : List Word,
      let m := max y.records 1
      s.putRecord q l = (s.wrWords (bit y.cpl 11) (ringBase y.cpl + 32 * (y.written % m))
        [wordAt l 0, wordAt l 1, wordAt l 2, wd ((wordAt l 3).toNat + (if y.written / m % 2 = 0 then 1 else 0))]).setQueue q
          { y with written := y.written + 1 }) ∧
    (y.heldRec = none ∨ y.cplRoom = false → s.flushHeld q = s) ∧
    (∀ l, y.heldRec = some l → y.cplRoom = true →
      let v := (s.setQueue q { y with heldRec := none, pendingMsix := false }).putRecord q l
      s.flushHeld q = if y.pendingMsix then v.queueMsix q else v) ∧
    ((∀ p ∈ y.cmds, n ∉ p.2.targets) → ∀ hit, s.cancelCheck q n hit = s) ∧
    (∀ k hit, (y.cmds.map Prod.fst).Nodup → s.cmd? q k = some x → x.targets = [n] → (∀ p ∈ y.cmds, p.1 ≠ k → n ∉ p.2.targets) →
      s.cancelCheck q n hit = (s.updCmd q k fun x => { x with targets := [], hits := x.hits + b2n hit }).push
        [.complete q k .ok (x.hits + b2n hit)]) ∧
    (∀ k, s.carCtx (Op.ctx w) = k → ∀ v, k.live = some v → Op.code w = 0x12 → v.q = q → v.seq = n →
      s.stepOver q n w = (s.setCarCtx (Op.ctx w) { k with live := none }).push (v.cancels.map fun p => .complete p.1 p.2 .ok 1))

/-- R47, R52, R54, R124, R125, R141: NOP completes at once; PEER_WRITE issues its write, or is denied outside the granted window;
SIGNAL hands its increment to the counter unit, and WAIT its condition, actions that wait while the unit does not run. A SIGNAL once
applied completes OK, with 1 where the counter saturated, or POISONED. A WAIT is released at once when the value is at least the
expected one or the counter is poisoned, and recorded as a waiter otherwise; released, it completes OK, or POISONED, or with
ON_POISON_FAULT makes its queue guilty with POISON_WAIT. SIGNAL_REMOTE hands on every target as a part, or none when one is bad. -/
def Obligations.SignalAndWriteCommands : Prop :=
  ∀ (s m r : State) (q : Nat) (w : List Word),
    let e := s.entered q w
    let n := s.cfe.nextSeq
    let c := Op.ctx w
    let a := (wordAt w 1).toNat
    let v := bits (wordAt w 1) 23 0
    let wide := bit (wordAt w 3) 0
    (s.startsAs q 0x00 w → Leads (.nop q w) s ((e.complete q n .ok 0).refresh q)) ∧
    (s.startsAs q 0x06 w → (e.peerOk q c a (if wide then 8 else 4) = true → Leads (.peerWrite q w) s
        ((State.complete { e with out := { e.out with
          peer := e.out.peer ++ [(a, if wide then wordAt w 2 else wd (bits (wordAt w 2) 31 0), wide)] } } q n .ok 0).refresh q)) ∧
      (e.peerOk q c a (if wide then 8 else 4) = false → Leads (.peerWrite q w) s ((e.complete q n .denied 1).refresh q))) ∧
    (s.startsAs q 0x03 w → Leads (.signal q w) s
      ((e.push [.signal c v (bits (wordAt w 1) 55 24) { code := 1, arg := q } (some (q, n))]).refresh q)) ∧
    (s.startsAs q 0x04 w → Leads (.wait q w) s ((e.push [.waitCmd q n]).refresh q)) ∧
    (∀ x j, r.cmd? q j = some x → x.words = w → r.counterAt c v m →
      let k := m.ctr c v
      let d := (wordAt w 2).toNat
      let after := r.doWork (.waitCmd q j)
      (k.poison = true ∨ d ≤ k.val → after = m.push [.release (.cmd q j) k.poison]) ∧
      (k.poison = false → k.val < d → after = m.addWaiter c v d (.cmd q j) ∧ ∃ y, after.ctu.waiters = m.ctu.waiters ++ [y] ∧
        y.ctx = c ∧ y.vid = v ∧ y.expected = d ∧ y.who = .cmd q j)) ∧
    (∀ inc src j, r.counterAt c v m → v < r.idLimit c → r.defined c = true →
      let k := m.ctr c v
      let after := r.doWork (.signal c v inc src (some (q, j)))
      (k.poison = true → after = m.complete q j .poisoned 0) ∧
      (k.poison = false → after = (m.applySignal c v inc src).complete q j .ok (if 2 ^ 64 - 1 < k.val + inc then 1 else 0))) ∧
    (∀ x j, r.cmd? q j = some x →
      let released (poisoned : Bool) : State := r.doWork (.release (.cmd q j) poisoned)
      released false = r.complete q j .ok 0 ∧
      (Op.onPoison x.words = false → released true = r.complete q j .poisoned 0) ∧
      (Op.onPoison x.words = true → released true =
        r.guilty q 8 (some j) [] 0 8 (bits (wordAt x.words 1) 23 0) (wordAt x.words 2).toNat)) ∧
    (s.startsAs q 0x05 w →
      let ts := e.remoteTargets w
      let bad (p : Word × Word) : Bool := bits p.1 63 32 = 0 || bits p.1 31 10 ≠ 0
      (ts.any bad = true → Leads (.signalRemote q w) s ((e.complete q n .badParam 1).refresh q)) ∧
      (ts.any bad = false → Leads (.signalRemote q w) s (((e.updCmd q n fun x => { x with parts := List.range ts.length }).push
        (ts.zipIdx.map fun p => .trail
          { dest := bits p.1.1 9 0, inc := bits p.1.1 63 32, handle := p.1.2, sender := .part q n p.2 })).refresh q)))

/-- R124, R126: a signal adds its increment to an unpoisoned counter, saturating at 2^64 − 1; the waiters that the sum satisfies
leave the list and no other; no other counter on chip changes but in its armed level, the lowest value that its waiters expect
(R128). R127: a poisoned counter is left as it is. -/
def Obligations.SignalAddsToCounter : Prop :=
  ∀ (s : State) (c v inc : Nat) (src : SigSrc) (p : Phys), s.phys? c v = some p →
    let t := s.applySignal c v inc src
    let sum := min (p.val + inc) (2 ^ 64 - 1)
    (p.poison = true → t = s) ∧
    (p.poison = false → inc ≠ 0 → (t.phys? c v).map Phys.val = some sum ∧
      t.ctu.waiters = s.ctu.waiters.filter (fun w => !(w.ctx = c && w.vid = v && decide (w.expected ≤ sum))) ∧
      (∀ y ∈ t.ctu.phys, y.armed = armedOf t.ctu.waiters y) ∧
      ∀ c' v', ¬ (c' = c ∧ v' = v) → (t.phys? c' v').map (fun y => { y with armed := none }) =
        (s.phys? c' v').map fun y => { y with armed := none })

/-- R70, R72, R89, R92: GRAPH_LOAD stores its descriptors as a graph, drops the cached lines of the descriptors that it loads or
replaces (their places: log entry 15) and completes; with APPEND they join the graph, and a live one-shot instance. A live graph not
appended to, a range already loaded, a descriptor that fails R72, or a graph store or frames without room end it with no effect. R86:
GRAPH_LAUNCH launches its instances, or answers the first check that fails: an unknown graph, one of the other kind, or a one-shot that
is live or asked for twice; positions beyond 2^32 or that meet a live instance's; frames. R83, R85: a launch advances the graph's
sequence; its instance j has base + j × span and sequence + j, a task for each descriptor, counted from DEP_INIT, none at an absent
position, and its roots are ready. The order in which failing checks answer is the model's choice (log entry 31). -/
def Obligations.GraphLoadAndLaunch : Prop :=
  (∀ (s : State) (c gid base count : Nat) (template : Bool),
    let x := s.ctx c
    let check := s.launchCheck c gid template base count
    (AL.get? gid x.graphs = none → check = 1) ∧
    (∀ g, AL.get? gid x.graphs = some g →
      let n := count * g.span
      let kind : Prop := g.template = template ∧ (template = false → x.liveOf gid = 0 ∧ count ≤ 1)
      let fits : Prop := n ≤ 2 ^ 32 ∧ ∀ p ∈ x.insts, rangesMeet base n p.2.base p.2.span = false
      (¬ kind → check = 1) ∧ (kind → ¬ fits → check = 2) ∧
      (kind → fits → x.frames < x.framesUsed + n → check = 3) ∧ (kind → fits → x.framesUsed + n ≤ x.frames → check = 0))) ∧
  (∀ (s : State) (c gid base count : Nat) (l : Launch) (g : Graph), AL.get? gid (s.ctx c).graphs = some g → base < 2 ^ 32 → g.seq < 2 ^ 32 →
    let x := s.ctx c
    let put := s.setCtx c { x with graphs := AL.put gid { g with seq := (g.seq + count) % 2 ^ 32 } x.graphs }
    s.launch c gid base count l = (g.seq, (List.range count).foldl (fun (v : State) j =>
      v.createInst c gid g ((base + j * g.span) % 2 ^ 32) ((g.seq + j) % 2 ^ 32) l) put)) ∧
  (∀ (s : State) (c gid base num : Nat) (l : Launch) (g : Graph), (g.descs.map Prod.fst).Nodup →
    let v := s.createInst c gid g base num l
    v.gd.nextInst = s.gd.nextInst + 1 ∧ ∃ y, v.inst? c s.gd.nextInst = some y ∧ y.gid = gid ∧ y.base = base ∧ y.num = num ∧
      y.span = g.span ∧ y.step = l.step ∧ y.owner = l.owner ∧ y.launchAt = l.at_ ∧ y.stepDl = l.stepDl ∧ y.cancelled = false ∧
      (∀ j, AL.get? j g.descs = none → AL.get? j y.tasks = none) ∧
      (∀ j d, AL.get? j g.descs = some d → ∃ k, AL.get? j y.tasks = some k ∧ k.desc = d ∧ k.count = Desc.depInit d ∧
        k.st = if Desc.depInit d = 0 then .ready else .waiting)) ∧
  ∀ (s : State) (q : Nat) (w : List Word),
    let e := s.entered q w
    let n := s.cfe.nextSeq
    let c := Op.ctx w
    let x := e.ctx c
    let ends (i : Instr) (v : State) : Prop := Leads i s (v.refresh q)
    (s.startsAs q 0x01 w →
      let load := Instr.graphLoad q w
      let gid := bits (wordAt w 3) 15 0
      let template := bit (wordAt w 3) 16
      let first := bits (wordAt w 2) 31 0
      let count := bits (wordAt w 2) 63 32
      let ds := (List.range count).map fun i => e.rdWords false ((wordAt w 1).toNat + 128 * i) 16
      let new := ds.zipIdx.map fun p => (first + p.2, p.1)
      let others := ((x.graphs.filter fun p => p.1 ≠ gid).map fun p => p.2.span).sum
      let append := bit (wordAt w 3) 17
      let store (g : Graph) : State :=
        let h := x.placeGraph gid g
        let old := AL.get x.graphs gid
        let gone (l : Nat) : Bool := ((List.range count).any fun i => x.descLine? h (first + i) = some l) ||
          (!append && (List.range old.span).any fun i => x.descLine? old i = some l)
        State.setCtx { e with dcache := { e.dcache with
          lines := e.dcache.lines.filter fun p => !gone p.2
          lanes := e.dcache.lanes.map fun (p : Nat × List Nat) => (p.1, p.2.filter fun l => !gone l) } } c
          { x with graphs := AL.put gid h x.graphs }
      (∀ g, ∃ r, x.placeGraph gid g = { g with runs := r }) ∧
      (append = false →
        (x.liveOf gid ≠ 0 → ends load (e.complete q n .badParam 3)) ∧
        (x.liveOf gid = 0 → ∀ d, loadBad? first 0 ds = some d → ends load (e.complete q n .badParam d)) ∧
        (x.liveOf gid = 0 → loadBad? first 0 ds = none →
          let g : Graph := { template := template, descs := new }
          (x.descRoom (others + g.span) = true → x.framesUsed ≤ x.frames → ends load ((store g).complete q n .ok 0)) ∧
          (x.descRoom (others + g.span) = false ∨ x.frames < x.framesUsed → ends load (e.complete q n .noResource 0)))) ∧
      (append = true →
        (AL.get? gid x.graphs = none → ends load (e.complete q n .badParam 3)) ∧
        (∀ o, AL.get? gid x.graphs = some o →
          (o.template ≠ template → ends load (e.complete q n .badParam 3)) ∧
          (o.template = template →
            let dup := o.descs.any fun p => decide (first ≤ p.1) && decide (p.1 < first + count)
            let g : Graph := { o with descs := putDescs first ds o.descs }
            (dup = true → ends load (e.complete q n .badParam 2)) ∧
            (dup = false → ∀ d, loadBad? first 0 ds = some d → ends load (e.complete q n .badParam d)) ∧
            (dup = false → loadBad? first 0 ds = none → x.descRoom (others + g.span) = false →
              ends load (e.complete q n .noResource 0)) ∧
            (dup = false → loadBad? first 0 ds = none → x.descRoom (others + g.span) = true →
              let still : Prop := template = true ∨ (x.insts.find? fun p => p.2.gid = gid) = none
              (still → x.frames < x.framesUsed → ends load (e.complete q n .noResource 0)) ∧
              (still → x.framesUsed ≤ x.frames → ends load ((store g).complete q n .ok 0)) ∧
              (template = false → ∀ p, (x.insts.find? fun p => p.2.gid = gid) = some p →
                let growth := g.span - p.2.span
                (x.frames < x.framesUsed + growth → ends load (e.complete q n .noResource 0)) ∧
                (x.framesUsed + growth ≤ x.frames →
                  ends load (((store g).extendInst c p.1 first g.span ds).complete q n .ok 0)))))))) ∧
    (s.startsAs q 0x02 w →
      let launch := Instr.graphLaunch q w
      let gid := bits (wordAt w 1) 15 0
      let base := bits (wordAt w 2) 31 0
      let count := if bit (wordAt w 1) 17 then (e.shape? c (bits (wordAt w 4) 31 0)).map Shape.count
        else some (bits (wordAt w 3) 31 0)
      (count = none → ends launch (e.complete q n .badParam 4)) ∧
      (∀ k, count = some k →
        let check := e.launchCheck c gid (bit (wordAt w 1) 16) base k
        (check = 0 → ends launch (e.rootLaunch q n c gid base k e.env.now)) ∧
        (check = 1 → ends launch (e.complete q n .badParam 1)) ∧ (check = 2 → ends launch (e.complete q n .badParam 2)) ∧
        (check = 3 → ends launch (e.complete q n .noResource 0))))

/-- R53, R108: DELAY_POST posts its action, and completes NO_RESOURCE when no instance-frame entry is free. R59, R250, R251:
CANCEL by tag or graph cancels every target that Table 2.20 lists: a command that its role has not taken up, or a posted action, completes
CANCELLED and has no effect; a root command's instances are cancelled, their tasks not yet on cores discarded, its posted actions
removed, and it completes CANCELLED when its tasks on cores have ended; a CAR_STEP's step is marked cancelled too. By sequence it frees
the slot, or marks it LEAVING while a step runs; by epoch it cancels the live step, as by tag, until its instance has retired; without a
target it completes BAD_PARAM. -/
def Obligations.DelayPostAndCancel : Prop :=
  ∀ (s : State) (q : Nat) (w : List Word),
    let e := s.entered q w
    let n := s.cfe.nextSeq
    let c := Op.ctx w
    let x := e.ctx c
    let ends (i : Instr) (v : State) : Prop := Leads i s (v.refresh q)
    (s.startsAs q 0x13 w →
      let act : Action := if bit (wordAt w 2) 0 then
          .launch (bits (wordAt w 3) 15 0) (bits (wordAt w 4) 31 0) (bits (wordAt w 5) 31 0)
            (if bit (wordAt w 3) 16 then some (bits (wordAt w 5) 31 0) else none)
        else .signal (bits (wordAt w 3) 23 0) (bits (wordAt w 3) 55 24)
      let d : Delay := { wake := (wordAt w 1).toNat, arr := e.gd.arrival, at_ := e.env.now, ctx := c, act := act, cmd := some (q, n),
                         frame := (((e.takeFrames c 1).head?).map Prod.fst).getD 0 }
      let drawn : State := { e with gd := { e.gd with arrival := e.gd.arrival + 1 } }
      (x.framesUsed + 1 ≤ x.frames → ends (.delayPost q w)
        (((drawn.updCtx c fun k => { k with posted := k.posted + 1 }).delayAdd d).updCmd q n fun y => { y with posted := true })) ∧
      (x.frames < x.framesUsed + 1 → ends (.delayPost q w) (e.complete q n .noResource 0))) ∧
    (s.startsAs q 0x07 w →
      let cancel := Instr.cancel q w
      let scope := bits (wordAt w 1) 1 0
      let ts := e.cancelTargets q n scope (bits (wordAt w 2) 15 0)
      (scope = 0 ∨ scope = 1 →
        (ts = [] → ends cancel (e.complete q n .badParam 2)) ∧
        (ts ≠ [] → ends cancel (ts.foldl (fun s m => s.cancelOne q m) (e.updCmd q n fun y => { y with targets := ts })))) ∧
      (scope = 2 →
        (e.carFind c (wordAt w 2) = none → ends cancel (e.complete q n .badParam 2)) ∧
        (∀ i, e.carFind c (wordAt w 2) = some i → e.inStep i = false → ends cancel ((e.carFree i).complete q n .ok 1)) ∧
        (∀ i l, e.carFind c (wordAt w 2) = some i → e.inStep i = true → (e.carCtx (e.carSlot i).ctx).live = some l →
          let y := e.carSlot i
          let m := e.setCarSlot i { y with st := .leaving, cancelled := true, cancels := y.cancels ++ [(q, n)] }
          let a := batchEntry l.list (l.members.idxOf i) + 16
          ends cancel (m.wr64 a (m.rd64 a ||| wd (2 ^ 62))))) ∧
      (scope = 3 →
        (∀ l, (e.carCtx c).live = some l → (e.carCtx c).epoch = bits (wordAt w 2) 15 0 → l.ended = false →
          let k : CarCtx := { e.carCtx c with live := some { l with cancelled := true, cancels := l.cancels ++ [(q, n)] } }
          ends cancel ((e.setCarCtx c k).cancelRoot l.q l.seq)) ∧
        ((e.carCtx c).live = none ∨ (e.carCtx c).epoch ≠ bits (wordAt w 2) 15 0 → ends cancel (e.complete q n .badParam 2)) ∧
        (∀ l, (e.carCtx c).live = some l → l.ended = true → ends cancel (e.complete q n .badParam 2)))) ∧
    (∀ (m : Nat) (y : Cmd),
      let can : Prop := s.cancellable q (m, y) = true
      (Op.code y.words = 0x02 → can) ∧
      (Op.code y.words = 0x13 → (can ↔ y.posted = true ∨ bit (wordAt y.words 2) 0 = true)) ∧
      (Op.code y.words = 0x12 → (can ↔ ∃ l, (s.carCtx (Op.ctx y.words)).live = some l ∧ l.q = q ∧ l.seq = m ∧ l.ended = false)) ∧
      (Op.code y.words ≠ 0x02 → Op.code y.words ≠ 0x13 → Op.code y.words ≠ 0x12 → (can ↔ y.phase = .fwQueued)) ∧
      (∀ j v, (m ∈ s.cancelTargets q j 0 v ↔ ∃ z, (m, z) ∈ (s.queue q).cmds ∧ m ≠ j ∧ s.cancellable q (m, z) = true ∧ Op.tag z.words = v) ∧
        (m ∈ s.cancelTargets q j 1 v ↔ ∃ z, (m, z) ∈ (s.queue q).cmds ∧ m ≠ j ∧ s.cancellable q (m, z) = true ∧
          (Op.code z.words = 0x02 ∨ Op.code z.words = 0x13 ∧ bit (wordAt z.words 2) 0 = true) ∧ rootGraph z.words = v)) ∧
      (s.cmd? q m = some y →
        let k := s.carCtx (Op.ctx y.words)
        (y.phase = .fwQueued ∨ y.posted = true → s.cancelOne q m = s.abortCmd q m .cancelled 0) ∧
        (y.phase ≠ .fwQueued → y.posted = false →
          (Op.code y.words ≠ 0x12 → s.cancelOne q m = s.cancelRoot q m) ∧
          (Op.code y.words = 0x12 → s.cancelOne q m = (s.setCarCtx (Op.ctx y.words)
            { k with live := k.live.map fun l => { l with cancelled := true } }).cancelRoot q m))) ∧
      (let mine (x : Inst) : Bool := decide (x.owner = some (q, m))
        let marked := s.updCmd q m fun x => { x with cancelled := true }
        let refs := marked.definedList.flatMap fun c => marked.tasksOf c mine
        let noted : State := { marked with ctxs := marked.ctxs.map fun (p : Nat × Ctx) => (p.1, { p.2 with
          insts := p.2.insts.map fun x => (x.1, if mine x.2 then { x.2 with cancelled := true } else x.2) }) }
        let out := refs.foldl (fun (v : State) r => match v.onGe? r with
          | some g => (v.geLeave g).taskGone r .discarded
          | none => State.discardTask false v r) noted
        s.cancelRoot q m = (out.removeActions fun d => decide (d.owner = some (q, m))).rootCheck q m) ∧
      (s.cmd? q m = some y → y.insts ≠ 0 ∨ y.actions ≠ 0 ∨ y.posted = true → s.rootCheck q m = s) ∧
      (s.cmd? q m = some y → y.insts = 0 → y.actions = 0 → y.posted = false → Op.code y.words ≠ 0x12 → y.cancelled = true →
        s.rootCheck q m = s.complete q m .cancelled 0))

/-- R245, R246, R248, R254: while the Carousel is enabled, CAR_JOIN takes the lowest free slot, CAR_LEAVE frees a sequence's slot
or marks it LEAVING in a live step, and CAR_STEP begins a step: it takes in the joining slots, writes the list's header and
entries and the shape slot that it names, with deadlines from its acceptance, and launches the step's instance, or completes at
once when no slot is active. The step is live to its completion. That a launch that fails R86 answers BAD_PARAM with word 1 is read
from Table 10.9 (log entry 23), as is the row of a command that waits (log entry 6). -/
def Obligations.CarouselCommands : Prop :=
  ∀ (s e : State) (q n : Nat) (w : List Word),
    let c := Op.ctx w
    let ends (i : Instr) (v : State) : Prop := Leads i s (v.refresh q)
    let at' := e.carFind c (wordAt w 1)
    (s.carTakes q 0x10 n w e →
      let free := lowestFree e.env.dev.carSlots (e.car.slots.map Prod.fst)
      let y : SeqSlot := { st := .joining, ctx := c, id := wordAt w 1, dlOff := (wordAt w 2).toNat, kv := wordAt w 3 }
      (at' ≠ none → ends (.carJoin q w) (e.complete q n .badParam 1)) ∧
      (at' = none → free = none → ends (.carJoin q w) (e.complete q n .noResource 0)) ∧
      (at' = none → ∀ i, free = some i → ends (.carJoin q w) ((e.setCarSlot i y).complete q n .ok i))) ∧
    (s.carTakes q 0x11 n w e →
      (at' = none → ends (.carLeave q w) (e.complete q n .badParam 1)) ∧
      (∀ i, at' = some i → (e.inStep i = false → ends (.carLeave q w) ((e.carFree i).complete q n .ok 0)) ∧
        (e.inStep i = true → ends (.carLeave q w) ((e.setCarSlot i { e.carSlot i with st := .leaving }).complete q n .ok 0)))) ∧
    (s.carTakes q 0x12 n w e →
      let step' := Instr.carStep q w
      let gid := bits (wordAt w 1) 15 0
      let list := (wordAt w 2).toNat
      let h := e.rdWords false list 8
      let t := ((e.cmd? q n).map Cmd.start).getD e.env.now
      let slot := bits (wordAt h 1) 31 0
      let k := e.carCtx c
      let step := (k.step + 1) % 2 ^ 32
      let span := ((AL.get? gid (e.ctx c).graphs).map Graph.span).getD 0
      let base := (bits (wordAt h 1) 63 32 + step * span) % 2 ^ 32
      let joining := e.carOf c .joining
      let members := (joining ++ e.carOf c .active).foldl (fun l i => insertNat i l) []
      let epoch := step % 2 ^ 16
      (e.batchOk c h = false → ends step' (e.complete q n .badParam 2)) ∧
      (e.batchOk c h = true → e.launchCheck c gid true base 1 ≠ 0 → ends step' (e.complete q n .badParam 1)) ∧
      (e.batchOk c h = true → e.launchCheck c gid true base 1 = 0 →
        (bits (wordAt h 0) 31 0 < members.length → ends step' (e.complete q n .noResource 0)) ∧
        (members.length ≤ bits (wordAt h 0) 31 0 →
          let taken := joining.foldl (fun s i => s.setCarSlot i { s.carSlot i with st := .active, epoch := epoch }) e
          let dl := match argMin (fun i => (taken.carSlot i).dlOff) members with
            | some i => min (2 ^ 64 - 1) (t + (taken.carSlot i).dlOff)
            | none => 2 ^ 64 - 1
          let head := taken.wrWords false (list + 24) [wd (fld epoch 16 32 + fld members.length 32 0), wd step, wd dl]
          let listed := members.zipIdx.foldl (fun s p => s.wrWords false (batchEntry list p.2) (s.batchWords t p.1)) head
          let w0 := listed.rd64 (listed.tile c slot).addr
          let shaped := if slot = 0xFFFFFFFF then listed else
            listed.writeShape c slot { m := members.length, n := bits w0 31 16, k := bits w0 47 32, count := members.length }
          let noted := shaped.updCmd q n fun x => { x with launch := members.length }
          let live : LiveStep := { q := q, seq := n, list := list, inst := if members = [] then none else some noted.gd.nextInst,
                                   members := members, limit := bits (wordAt h 2) 31 0, ended := decide (members = []) }
          let go := noted.setCarCtx c { step := step, epoch := epoch, live := some live }
          (members = [] → ends step' (go.complete q n .ok 0)) ∧
          (members ≠ [] → ends step' ((go.updCmd q n fun x => { x with watched := true }).refreshAll.launch c gid base 1
            { owner := some (q, n), step := some step, stepDl := some dl, at_ := t }).2))))

/-- R165, R168, R139, R140, R99: CTX_CREATE defines a FREE context as WAITING, with the next generation of its id, when the paddock
has room for its frames. R181: CTX_DESTROY, CTX_SUSPEND and CTX_RESUME refuse a context in a state that they do not take; the
others start a destruction or a suspension, put a WAITING context aside, or make it wait for residence. -/
def Obligations.ContextCommands : Prop :=
  ∀ (s : State) (q n : Nat) (w : List Word),
    let r := s.setPhase q n .running
    let c := bits (wordAt w 1) 11 0
    let st := (r.ctx c).st
    let ends (i : Instr) (v : State) : Prop := Leads i s (v.refresh q)
    let refused (i : Instr) : Prop := ends i (r.complete q n .badParam 1)
    (s.takenAs q 0x08 n w →
      (st ≠ .free → refused (.ctxCreate q w)) ∧
      (st = .free → r.paddockRoom = none → ends (.ctxCreate q w) (r.complete q n .noResource 0)) ∧
      (st = .free → ∀ room, r.paddockRoom = some room →
        (room < 48 * bits (wordAt w 4) 31 0 → ends (.ctxCreate q w) (r.complete q n .noResource 0)) ∧
        (48 * bits (wordAt w 4) 31 0 ≤ room →
          let g := r.nextGen c
          let x : Ctx := { g.2.newCtx q g.1 w with pad := g.2.takePad (bits (wordAt w 4) 31 0) }
          ends (.ctxCreate q w) (((g.2.setCtx c x).writeHeader c).complete q n .ok g.1)))) ∧
    (s.takenAs q 0x09 n w →
      (st = .free ∨ st = .destroying → refused (.ctxDestroy q w)) ∧
      (st ≠ .free → st ≠ .destroying → ends (.ctxDestroy q w) (r.destroyStart c q n))) ∧
    (s.takenAs q 0x0A n w →
      let noted := r.updCtx c fun x => { x with suspCmd := x.suspCmd ++ [(q, n)], suspHold := true }
      (st = .free ∨ st = .faulted ∨ st = .destroying → refused (.ctxSuspend q w)) ∧
      (st = .waiting → ends (.ctxSuspend q w) (((r.setCtxState c .suspended).updStop c).complete q n .ok 0)) ∧
      (st = .suspended → ends (.ctxSuspend q w) (r.complete q n .ok 0)) ∧
      (st = .suspending → ends (.ctxSuspend q w) noted) ∧
      (st = .resident → ends (.ctxSuspend q w) (noted.suspendStart c))) ∧
    (s.takenAs q 0x0B n w →
      let ask (s : State) : State := s.updCtx c fun x => { x with resumeCmd := x.resumeCmd ++ [(q, n)], noResume := false }
      (st = .free ∨ st = .faulted ∨ st = .destroying → refused (.ctxResume q w)) ∧
      (st = .resident → ends (.ctxResume q w) (r.complete q n .ok 0)) ∧
      (st = .waiting → ends (.ctxResume q w) (ask r).displace) ∧
      (st = .suspending → ends (.ctxResume q w) ((ask r).updCtx c fun x => { x with suspHold := false })) ∧
      (st = .suspended →
        let back := ((r.updCtx c fun x => { x with waitingAt := s.env.now }).setCtxState c .waiting).updStop c
        ends (.ctxResume q w) (ask back).displace))

/-- R134, R133: COUNTER_MAP marks its counters MAPPED, with EXPORT exported with a handle, and makes those of a resident context
resident, unless the mapping limit would be passed, or unmaps them, which may make room for a context that waits (R171); where
nothing can be evicted for one, it changes nothing and the context takes NO_COUNTER. That w2 holds the handle also when UNMAP is set
is read from Table 2.11 (log entry 23). R120, R57: TILE_POOL sets the reservation on every slice of its mask, each slice a part.
R226: GE_PROGRAM_LOAD stores a program that passes R226 and drops its lines from every engine's cache; it waits for the tasks that
run the old one. R107: FLOW_CONFIG pins a flow, which it holds on chip, or unpins it, 32,768 pinned at most. -/
def Obligations.ResourceCommands : Prop :=
  ∀ (s : State) (q n : Nat) (w : List Word),
    let r := s.setPhase q n .running
    let c := Op.ctx w
    let ends (i : Instr) (v : State) : Prop := Leads i s (v.refresh q)
    (s.takenAs q 0x0C n w →
      let first := bits (wordAt w 1) 23 0
      let ids := (List.range (bits (wordAt w 2) 16 0)).map fun i => first + i
      let exports := bit (wordAt w 1) 24
      let noted (s : State) : State := s.updCmd q n fun x => { x with result := if exports then mkHandle c first (s.ctx c).gen else 0 }
      (bit (wordAt w 1) 25 = true → ends (.counterMap q w)
        ((noted (ids.foldl (fun s v => s.setMapped c v false false) r)).displace.complete q n .ok 0)) ∧
      (bit (wordAt w 1) 25 = false →
        let full : Prop := (r.ctx c).st.inPlace = true ∧ r.mapLimit < r.mappedResident + (ids.filter fun v => !(r.ctr c v).mapped).length
        (full → ends (.counterMap q w) (r.complete q n .noResource 0)) ∧
        (¬ full →
          let marked := ids.foldl (fun s v => s.setMapped c v true (exports || (s.ctr c v).exported)) r
          ((r.ctx c).st.inPlace = false → ends (.counterMap q w) ((noted marked).complete q n .ok 0)) ∧
          ((r.ctx c).st.inPlace = true →
            (∀ t, marked.residentAll c ids = .inl t → ends (.counterMap q w) ((noted t).complete q n .ok 0)) ∧
            (∀ v, marked.residentAll c ids = .inr v → ends (.counterMap q w) (r.push [.faultCtx c 0x04 v 2 ctrMax])))))) ∧
    (s.takenAs q 0x0D n w →
      let slices := (List.range r.env.dev.slices).filter fun i => bit (wordAt w 1) i
      let p := slices.foldl (fun (p : State × List Nat) sl =>
        let k := p.1.reserve c sl ((wordAt w 2).toNat / 32768)
        (k.2, if k.1 then p.2 else p.2 ++ [sl])) (r, [])
      let v := p.1.updCmd q n fun x => { x with failed := p.2 }
      (p.2 = [] → ends (.tilePool q w) (v.complete q n .ok 0)) ∧
      (p.2 ≠ [] → p.2.length = slices.length → ends (.tilePool q w) (v.complete q n .noResource 0)) ∧
      (p.2 ≠ [] → p.2.length ≠ slices.length → ends (.tilePool q w) (v.complete q n .partialOk p.2.length))) ∧
    (s.takenAs q 0x0E n w →
      let a := (wordAt w 1).toNat
      let count := bits (wordAt w 2) 12 0
      let pid := bits (wordAt w 2) 23 16
      let good := (r.rdWords false a count).zipIdx.all fun p => geInsnOk count p.2 p.1
      (good = false → ends (.geProgramLoad q w) (r.complete q n .badParam 1)) ∧
      (good = true →
        let put := (r.wrWords false ((r.ctx c).gsBase + 16 * pid) [wd a, wd (2 ^ 63 + count)]).updCtx c fun x =>
          { x with progs := AL.put pid (a, count) x.progs }
        let mine (y : GeRun) : Bool := y.e.ref.ctx = c && y.pid = pid && !y.old
        let note (y : GeRun) : GeRun := if mine y then { y with old := true, waiters := y.waiters ++ [(q, n)] } else y
        let v : State := { put with ges := put.ges.map fun p =>
          (p.1, { p.2 with run := p.2.run.map note, icache := p.2.icache.filter fun t => !(decide (t.1 = c) && decide (t.2.1 = pid)) }) }
        ((∀ p ∈ put.ges, ∀ y, p.2.run = some y → mine y = false) → ends (.geProgramLoad q w) (v.complete q n .ok 0)) ∧
        ((∃ p ∈ put.ges, ∃ y, p.2.run = some y ∧ mine y = true) → ends (.geProgramLoad q w) v))) ∧
    (s.takenAs q 0x0F n w →
      let k := (c, bits (wordAt w 1) 23 0)
      let f := r.flow k
      (bit (wordAt w 1) 24 = true → ends (.flowConfig q w) ((r.setFlow k { f with pinned := false }).complete q n .ok 0)) ∧
      (bit (wordAt w 1) 24 = false →
        let full : Prop := f.pinned = false ∧ 32768 ≤ (r.gd.flows.filter fun p => p.2.pinned).length
        (full → ends (.flowConfig q w) (r.complete q n .noResource 0)) ∧
        (¬ full → ends (.flowConfig q w) (((r.setFlow k { f with pinned := true }).flowOnChip k).complete q n .ok 0))))

/-- R60, R132, R61, R351: QUERY writes its item with a header at w2, or answers the length that it needs; a counter of a resident
context is made resident first, and one that cannot be faults its context, which completes the QUERY CTX_FAULT (the model's choice,
log entry 31); STAT_SNAPSHOT writes the sections of its mask; STUDBOOK_READ flushes the stud book and writes the records from SEQ
on. Each completes with what it wrote. The words that BAD_PARAM and DENIED of a QUERY name are read from Table 2.21 (log entry
23). -/
def Obligations.ReportCommands : Prop :=
  ∀ (s m : State) (q n : Nat) (w : List Word),
    let r := s.setPhase q n .running
    let ends (i : Instr) (v : State) : Prop := Leads i s (v.refresh q)
    (s.takenAs q 0x14 n w →
      let counter : Prop := bits (wordAt w 1) 7 0 = 5
      let c := bits (wordAt w 1) 27 16
      let v := bits (wordAt w 1) 51 28
      let written (m : State) (len : Nat) (ws : List Word) : State := (m.wrWords false (wordAt w 2).toNat
        ([wd (fld len 16 16 + bits (wordAt w 1) 7 0), wd m.env.now] ++ ws)).complete q n .ok 0
      (r.queryItem q (wordAt w 1) = .inl 0 → ends (.query q w) (r.complete q n .badParam 1)) ∧
      (r.queryItem q (wordAt w 1) = .inl 1 → ends (.query q w) (r.complete q n .denied 1)) ∧
      (∀ ws, r.queryItem q (wordAt w 1) = .inr ws →
        let len := 16 + 8 * ws.length
        ((wordAt w 3).toNat < len → ends (.query q w) (r.complete q n .noResource len)) ∧
        (len ≤ (wordAt w 3).toNat →
          (¬ counter → ends (.query q w) (written r len ws)) ∧
          (counter → ∀ ws', r.counterAt c v m → m.queryItem q (wordAt w 1) = .inr ws' → ends (.query q w) (written m len ws')) ∧
          (counter → (r.ctx c).st.inPlace = true → r.makeCtrResident c v = none →
            ends (.query q w) ((r.push [.faultCtx c 0x04 v 2 ctrMax]).complete q n .ctxFault 0x04))))) ∧
    (s.takenAs q 0x15 n w →
      let mask := wordAt w 2
      (128 ≤ mask.toNat → ends (.statSnapshot q w) (r.complete q n .badParam 2)) ∧
      (mask.toNat < 128 → q ≠ 0 → bits mask 5 0 ≠ 0 → ends (.statSnapshot q w) (r.complete q n .denied 2)) ∧
      (mask.toNat < 128 → q = 0 ∨ bits mask 5 0 = 0 →
        let body := ((List.range 7).filter fun i => bit mask i).flatMap fun i => padSection (r.snapSection (Op.ctx w) i)
        let len := 64 + 8 * body.length
        ends (.statSnapshot q w) ((r.wrWords false (wordAt w 1).toNat
          ([mask, wd s.env.now, wd len, 0, 0, 0, 0, 0] ++ body)).complete q n .ok len))) ∧
    (s.takenAs q 0x19 n w →
      let f := r.flushStudbook
      let rs := f.sbFrom (wordAt w 1).toNat (wordAt w 2).toNat
      ends (.studbookRead q w) ((f.wrWords false (wordAt w 3).toNat (rs.flatMap fun r => r)).complete q n .ok rs.length))

/-- R345: HEALTH_ACK clears the NEW bits that w1 sets and completes OK; STATE and REPLACE stay. -/
def Obligations.HealthAckClearsNew : Prop :=
  ∀ (s : State) (q n : Nat) (w : List Word), s.takenAs q 0x1A n w →
    let r := s.setPhase q n .running
    ∃ v : State, Leads (.healthAck q w) s ((v.complete q n .ok 0).refresh q) ∧
      v = { r with fsu := { r.fsu with newBits := v.fsu.newBits } } ∧
      (∀ i < 5, v.fsu.newBits.getLsbD i = (s.fsu.newBits.getLsbD i && !bit (wordAt w 1) (16 + i))) ∧
      ((v.complete q n .ok 0).refresh q).fsu.state = s.fsu.state ∧
      ((v.complete q n .ok 0).refresh q).fsu.replace = s.fsu.replace

/-- R66, R146, R324, R295: QUEUE_RESET resets a GUILTY queue of an unfaulted context to a head between its head and its tail;
DEBUG_SET_COUNTER raises a counter of a halted context, when the engine applies it; FW_UPDATE checks its image, erases the other
slot, programs and reads it back, and begins the handover, a presentation of its row for each of those steps (log entry 36), one
update at a time; BLOCK_RESET completes and then resets. Each names the word of what it refuses: which, for a RESETTING queue and an
FW_UPDATE, is read from Table 2.21 (log entry 23). -/
def Obligations.ManagementCommands : Prop :=
  ∀ (s m : State) (q n : Nat) (w : List Word),
    let r := s.setPhase q n .running
    let ends (i : Instr) (v : State) : Prop := Leads i s (v.refresh q)
    (s.takenAs q 0x16 n w →
      let k := bits (wordAt w 1) 9 0
      let y := r.queue k
      let h : BitVec 32 := if bit (wordAt w 1) 16 then BitVec.ofNat 32 (wordAt w 2).toNat else y.tail
      let fit : Prop := k ≠ 0 ∧ k < r.env.dev.queues ∧ y.st = .guilty ∧ y.ctxStopped = false
      (¬ fit → ends (.queueReset q w) (r.complete q n .badParam 1)) ∧
      (fit → (y.tail - y.head).toNat < (h - y.head).toNat → ends (.queueReset q w) (r.complete q n .badParam 2)) ∧
      (fit → (h - y.head).toNat ≤ (y.tail - y.head).toNat → ends (.queueReset q w) (r.resetStart k h (some n)))) ∧
    (s.takenAs q 0x17 n w → ends (.debugSetCounter q w) (r.push [.debugSet q n])) ∧
    (∀ x, m.cmd? q n = some x → x.words = w →
      let c := bits (wordAt w 1) 11 0
      let v := bits (wordAt w 2) 23 0
      let new := (wordAt w 3).toNat
      let after := m.doWork (.debugSet q n)
      (m.defined c = false → after = m.complete q n .badParam 1) ∧
      (m.defined c = true →
        (m.idLimit c ≤ v → after = m.complete q n .badParam 2) ∧
        (v < m.idLimit c → (m.ctx c).halted = false → after = m.complete q n .denied 1) ∧
        (v < m.idLimit c → (m.ctx c).halted = true →
          (new < (m.ctr c v).val → after = m.complete q n .denied 3) ∧
          ((m.ctr c v).val ≤ new →
            after = ((m.setCtr c v { m.ctr c v with val := new }).releaseWaiters c v).complete q n .ok 0)))) ∧
    (s.takenAs q 0x18 n w →
      let target := bit (wordAt w 3) 0
      let x := r.readImage (wordAt w 1).toNat
      let note (s : State) (target : Bool) (result phase : Nat) : State :=
        { s with fwc := { s.fwc with updTarget := target, updResult := result, updPhase := phase } }
      (s.fwc.upd ≠ none → ends (.fwUpdate q w) (r.setPhase q n .takenUp)) ∧
      (s.fwc.upd = none → s.fwc.prog = none →
        (target = s.gcs.image → ends (.fwUpdate q w) (r.complete q n .badParam 3)) ∧
        (target ≠ s.gcs.image →
          (∀ k, r.imageFail? x = some k → ends (.fwUpdate q w) (((note r target 2 5).imageBad target k x).complete q n .denied 1)) ∧
          (r.imageFail? x = none → (wordAt w 2).toNat ≠ x.totalSize →
            ends (.fwUpdate q w) ((note r target 2 5).complete q n .badParam 2)) ∧
          (r.imageFail? x = none → (wordAt w 2).toNat = x.totalSize →
            let u : Handover := { q := q, seq := n, base := (wordAt w 1).toNat, target := target }
            let t := note r target 0 1
            ends (.fwUpdate q w) (State.setPhase
              { t with fwc := { t.fwc with progressKib := 0, prog := some u } } q n .takenUp)))) ∧
      (s.fwc.upd = none → ∀ u, s.fwc.prog = some u →
        let x := r.readImage u.base
        let o : State := { r with fwc := { r.fwc with prog := none } }
        (u.q ≠ q ∨ u.seq ≠ n → ends (.fwUpdate q w) (r.setPhase q n .takenUp)) ∧
        (u.q = q → u.seq = n → s.fwc.updPhase = 1 →
          ends (.fwUpdate q w) ((note (r.setImage u.target {}) u.target 0 2).setPhase q n .takenUp)) ∧
        (u.q = q → u.seq = n → s.fwc.updPhase ≠ 1 → s.env.flashOk = false ∨ r.imageFail? x ≠ none →
          ends (.fwUpdate q w) (((note o u.target 3 5).imageBad u.target 6 x).complete q n .denied 1)) ∧
        (u.q = q → u.seq = n → s.fwc.updPhase ≠ 1 → s.env.flashOk = true → r.imageFail? x = none →
          let p := o.setImage u.target x
          let t := p.setTack { p.tack.setFails u.target 0 with prefB := u.target }
          let y := note ((t.fwc.cores.map Prod.fst).foldl State.pet t) u.target 0 3
          let f : Fwc := { y.fwc with
            progressKib := (x.totalSize + 1023) / 1024, handover := true, frozen := true, upd := some { u with startAt := y.env.now },
            cores := y.fwc.cores.map fun (p : Nat × Nat) => (p.1, if p.2 = 1 then 2 else p.2) }
          ends (.fwUpdate q w) { y with fwc := f }))) ∧
    (s.takenAs q 0x1B n w →
      ends (.blockReset q w) ((r.complete q n .ok 0).push [.reset (if bit (wordAt w 1) 0 then 2 else 1) 1]))

/-- R28, R45: CFE_PACKET_CHECK fetches the next packet before the tail; one that fails its CRC, opcode, length or context check, in
that order, makes the queue guilty with that cause; a bad CRC of a later packet of the command, already before the tail, comes before
the other three. R317: a role's core takes up the oldest command of its queue; one not taken up within WAIT_NS completes FW_BUSY. R52,
R62: a WAIT that has waited WAIT_NS and is not released, and a root command or step that has run GRAPH_NS, make the queue guilty, and so
does a poisoned WAIT with ON_POISON_FAULT. R63, Table 2.15: a guilty queue stops fetching; its undispatched tasks are discarded and its
posted actions removed, its running tasks suppressed and their waits answered POISONED; the signals of all of them, and what its unfetched
commands name, are poisoned; its waits and waiting commands go, which makes room for other queues, its commands complete QUEUE_GUILTY,
the offending one with its cause's status, one whose completion was still to come too; and when nothing of that waits, the record of
one that had not started, the error record, which names the queue and no context (the model's reading, log entry 23), the state GUILTY
with its cause and the vector follow. -/
def Obligations.PacketChecksAndTimers : Prop :=
  (∀ (s : State) (q t : Nat),
    let u := s.at t
    let x := u.queue q
    let i := x.fetched.length / 8
    let p := u.packetAt q i
    let part := fetchTail x.fetched (x.fetched.length + 1)
    let count := (x.head.toNat + i) % 2 ^ 32
    let leads (v : State) : Prop := Leads (.cfePacketCheck q t) s v
    let fetched := (u.updQueue q fun x => { x with fetched := x.fetched ++ p }).refresh q
    let own : Prop := q = 0 ∨ (Op.ctx p = x.ctxId ∧ u.defined (Op.ctx p) = true)
    x.st = .slotted → i < x.have → u.up = true → x.contain = none →
      (part = [] →
        (packetCrcOk true p = false → leads (u.guilty q 1 none p 1 1 count 0)) ∧
        (packetCrcOk true p = true →
          let fits : Prop := Op.code p < opcodes ∧ Op.extra p + 1 = cmdPackets p
          let later (j : Nat) : Prop := 0 < j ∧ j ≤ Op.extra p ∧ i + j < x.have ∧ packetCrcOk false (u.packetAt q (i + j)) = false
          (∀ j, u.laterCrcBad q i p = some j → later j) ∧ (u.laterCrcBad q i p = none → ∀ j, ¬ later j) ∧
          (∀ j, u.laterCrcBad q i p = some j → ¬ (fits ∧ own) → leads (u.guilty q 1 none p 1 1 ((count + j) % 2 ^ 32) 0)) ∧
          (u.laterCrcBad q i p = none →
            (opcodes ≤ Op.code p → leads (u.guilty q 2 none p 2 2 count 0)) ∧
            (Op.code p < opcodes → Op.extra p + 1 ≠ cmdPackets p → leads (u.guilty q 3 none p 3 3 count 0)) ∧
            (fits → ¬ own → leads (u.guilty q 5 none p 0 5 count 0))) ∧
          (fits → own → leads fetched))) ∧
      (part ≠ [] →
        (packetCrcOk false p = false → leads (u.guilty q 1 none (part ++ p) 1 1 count 0)) ∧
        (packetCrcOk false p = true →
          let w := part ++ p
          let outside : Prop := w.length = 8 * cmdPackets w ∧ Op.local w = true ∧
            (u.defined (Op.ctx w) = false ∨ u.idLimit (Op.ctx w) ≤ bits (Op.cpl w 1) 23 0)
          (outside → leads (u.guilty q 5 none w (8 * opPackets (Op.code w) + 1) 5 count 0)) ∧ (¬ outside → leads fetched)))) ∧
  (∀ (s : State) (q cause : Nat) (off : Option Nat) (un : List Word) (detail a b c : Nat),
    let x := s.queue q
    (x.contain ≠ none → s.guilty q cause off un detail a b c = s) ∧
    (x.contain = none →
      let back : State := { s with work := s.work.filter fun w => match w with
        | .complete p .. => decide (p ≠ q)
        | _ => true }
      let s1 := back.setQueue q { x with fetched := [], contain := some [] }
      let refs := s1.definedList.flatMap fun c => s1.tasksOf c fun x => ownedBy q x.owner
      let sigs := refs.flatMap fun r => ((s1.task? r).map fun t => (s1.signals t.desc).map fun p => (r.ctx, p)).getD []
      let idle := ((refs.foldl (State.discardTask false) s1).removeActions fun d => d.ofQueue q).suppress q fun r => refs.contains r
      let out := refs.foldl (fun s r => match s.onGe? r with
        | some g => (s.geLeave g).retireTask r .suppressed (some g) none
        | none => s) idle
      let poisoned := (s1.delayList.filter fun d => d.ofQueue q).foldl (fun s d => match d.act with
        | .signal v _ => if v < s.idLimit d.ctx then s.push [.poison d.ctx v] else s
        | _ => s) (sigs.foldl (fun s p => s.poisonSignal p.1 p.2) out)
      let scanned := (poisoned.scanRing q (poisoned.queue q).packets 0).dropWaiters fun w => match w.who with
        | .cmd p _ => p = q
        | _ => false
      let noted := scanned.updQueue q fun x => { x with contain := some (scanned.work.filterMap poisonTarget?) }
      let left := State.refreshAll { noted with fwc := { noted.fwc with
        roleQ := noted.fwc.roleQ.map fun p => (p.1, p.2.filter fun x => x.1 ≠ q) } }
      let ended := (left.queue q).cmds.foldl (fun s p =>
        let live := (s.carCtx (Op.ctx p.2.words)).live
        let s' := if Op.code p.2.words = 0x12 ∧ (live.any fun st => decide (st.q = q) && decide (st.seq = p.1)) = true then
          s.stepRelease (Op.ctx p.2.words) else s
        if off = some p.1 then s'.complete q p.1 (causeStatus cause) 0 else s'.complete q p.1 .queueGuilty cause) left
      s.guilty q cause off un detail a b c = ended.push [.contained q cause
        (if un = [] then [] else recordWords (Op.code un) (causeStatus cause) (Op.tag un) detail 0 0 0)
        (match off with
          | some n => Op.tag ((left.cmd? q n).getD {}).words
          | none => Op.tag un) a b c]) ∧
    (∀ tag,
      let m := if un = [] then s else s.putUnstarted q [wordAt un 0, wd s.env.now, wordAt un 2, wordAt un 3]
      let e := m.err { unit := 1, cls := 2, code := causeCode cause, qt := some (q, tag), a := a, b := b, c := c }
      let y := e.queue q
      let last := e.setQueue q { y with contain := none }
      (y.contain = none ∨ y.ctxStopped = true → s.doWork (.contained q cause un tag a b c) = last) ∧
      (y.contain ≠ none → y.ctxStopped = false → s.doWork (.contained q cause un tag a b c) =
        (((last.updQueue q fun z => { z with cause := cause }).unslot q .guilty).queueMsix q).refreshAll)) ∧
    (∀ (f : TaskRef → Bool) (k : Nat) (y : Running), (s.core k).running = some y → f y.p.e.ref = true → y.suppressed = false →
      ((s.suppress q f).core k).running = some { y with suppressed := true, supQ := some q } ∧
      ∀ w ∈ (s.suppress q f).ctu.waiters, ∀ tag, w.who ≠ .core k tag)) ∧
  (∀ (s : State) (role q n t : Nat) (r : List (Nat × Nat)),
    let u := s.at t
    u.fwActs = true → u.roleRuns role = true → AL.get u.fwc.roleQ role = (q, n) :: r →
      let f : Fwc := { u.fwc with roleQ := AL.put role r u.fwc.roleQ }
      Leads (.fwTakeUp role t) s (State.refreshAll (State.updCmd { u with fwc := f } q n fun x =>
        { x with phase := .takenUp, core := some (u.roleCore role) }))) ∧
  (∀ (s : State) (q n t : Nat) (x : Cmd),
    let u := s.at t
    u.cmd? q n = some x → x.phase = .fwQueued → (u.queue q).waitNs ≠ 0 → x.start + (u.queue q).waitNs ≤ u.env.now →
      Leads (.fwBusyExpiry q n t) s ((u.abortCmd q n .fwBusy 0).refreshAll)) ∧
  (∀ (s : State) (q n t : Nat) (x : Cmd),
    let u := s.at t
    let freed (m : Nat) : Prop := ∃ w ∈ u.work, (∃ p, w = .release (.cmd q m) p) ∨ ∃ st d, w = .complete q m st d
    (((u.queue q).cmds.find? fun p => Op.code p.2.words = 0x04) = some (n, x) → ¬ freed n → (u.queue q).waitNs ≠ 0 →
      (u.queue q).waitNs ≤ u.runTime x → Leads (.waitTimeout q t) s
        (u.guilty q 6 (some n) [] 0 6 (bits (wordAt x.words 1) 23 0) (wordAt x.words 2).toNat)) ∧
    ((∀ p ∈ (u.queue q).cmds, Op.code p.2.words = 0x04 → freed p.1) → Leads (.waitTimeout q t) s u) ∧
    (u.cmd? q n = some x → Op.onPoison x.words = true → u.doWork (.release (.cmd q n) true) =
      u.guilty q 8 (some n) [] 0 8 (bits (wordAt x.words 1) 23 0) (wordAt x.words 2).toNat) ∧
    (u.cmd? q n = some x → x.watched = true → (u.queue q).graphNs ≠ 0 → (u.queue q).graphNs ≤ u.runTime x →
      let c := Op.ctx x.words
      let leads (no : Nat) : Prop := Leads (.graphWatchdog q n t) s (u.guilty q 7 (some n) [] 0 (rootGraph x.words) no (u.queue q).graphNs)
      (Op.code x.words ≠ 0x12 → leads x.launch) ∧
      (∀ l i y, Op.code x.words = 0x12 → (u.carCtx c).live = some l → l.inst = some i → u.inst? c i = some y → leads y.num)))

/-- R31, R34, R36, Tables 2.5, 2.7: a DISABLED queue discards its doorbell writes; otherwise a tail is recorded, one too far makes
the queue guilty, and a queue that is GUILTY, RESETTING or stopped starts no fetch from it; a completion head lets held records out.
Enabling sets the doorbell registers and counts, where both ring sizes are in range; an IDLE queue is disabled, and queue 0 that has
no command; in any other state both bits do nothing. Queue 0's reset bit resets it to its tail. R66, Table 2.16: a reset waits for
the queue's suppressed tasks, its commands and a held record, then sets the head, clears the count and the cause, and the queue is
IDLE, or PENDING where a command lies before the tail, and queue 0 SLOTTED; its QUEUE_RESET completes then. The attribute registers
take writes only while the selected queue is DISABLED. That enabling clears the mark of a stopped context is the model's choice (log
entry 31), as is a pending deadline of all ones after it (log entry 8). -/
def Obligations.DoorbellsAndQueues : Prop :=
  ∀ (s : State) (q : Nat) (v : Word), s.unitsOn = true → q < s.env.dev.queues →
    let x := s.queue q
    let tail := BitVec.ofNat 32 v.toNat
    let noted := s.setQueue q { x with tail := tail, pendDl := x.deadline }
    let idle : Prop := x.st = .guilty ∨ x.st = .resetting ∨ x.ctxStopped = true
    (x.st = .disabled → Leads (.dbTailWrite q v) s s ∧ Leads (.dbCplHeadWrite q v) s s) ∧
    (x.st ≠ .disabled →
      (idle → Leads (.dbTailWrite q v) s noted) ∧
      (¬ idle → x.packets < (tail - x.head).toNat → Leads (.dbTailWrite q v) s (noted.guilty q 4 none [] 0 4 tail.toNat 0)) ∧
      (¬ idle → (tail - x.head).toNat ≤ x.packets → Leads (.dbTailWrite q v) s (noted.refresh q)) ∧
      Leads (.dbCplHeadWrite q v) s (((s.setQueue q { x with consumed := tail }).flushHeld q).resetRefresh q)) ∧
    (x.st = .disabled → ringSizeOk x.ring = true → ringSizeOk x.cpl = true →
      let y : Queue := { x with
        written := 0, reserved := 0, consumed := 0, deadline := 2 ^ 64 - 1, pendDl := 2 ^ 64 - 1, tail := x.head, fetched := [],
        idleAt := none, blockAt := none, slotAt := s.env.now, ctxStopped := false }
      (q ≠ 0 → Leads (.queueEnable q) s (s.setQueue q { y with st := .idle })) ∧
      (q = 0 → Leads (.queueEnable q) s ((s.setQueue q { y with st := .slotted }).slotState 0 .idleWait))) ∧
    (x.st ≠ .disabled ∨ ringSizeOk x.ring = false ∨ ringSizeOk x.cpl = false → Leads (.queueEnable q) s s) ∧
    (let may : Prop := x.contain = none ∧ (x.st = .idle ∨ q = 0 ∧ x.st = .slotted ∧ x.cmds = []);
      (may → Leads (.queueDisable q) s (s.unslot q .disabled)) ∧ (¬ may → Leads (.queueDisable q) s s)) ∧
    (∀ w : Word, ringSizeOk w = true ↔ 12 ≤ bits w 4 0 ∧ bits w 4 0 ≤ 26) ∧
    (∀ h by', s.resetStart q h by' = (s.setQueue q { x with st := .resetting, resetTo := some h, resetBy := by' }).resetStep q) ∧
    (∀ h, x.st = .resetting → x.resetTo = some h →
      let waits : Prop := s.suppressedOn q = true ∨ x.heldRec ≠ none ∨ x.cmds ≠ []
      let v := s.setQueue q { x with
        head := h, fetched := [], reserved := 0, cause := 0, resetTo := none, resetBy := none, st := if q = 0 then .slotted else .idle }
      (waits → s.resetStep q = s) ∧
      (¬ waits → x.resetBy = none → s.resetStep q = v.refresh q) ∧
      (¬ waits → ∀ n, x.resetBy = some n → s.resetStep q = (v.refresh q).complete 0 n .ok 0) ∧
      (x.contain = none → ((v.refresh q).queue q).head = h ∧ ((v.refresh q).queue q).cause = 0 ∧
        ((v.refresh q).queue q).st = if q = 0 then .slotted else if v.whole q = true then .pending else .idle)) ∧
    ((s.queue 0).st = .guilty → Leads .queue0Reset s (s.resetStart 0 (s.queue 0).tail none)) ∧
    (s.cfe.qsel = q →
      (x.st ≠ .disabled → ∀ off, Leads (.qattrWrite off v) s s) ∧
      (x.st = .disabled →
        Leads (.qattrWrite 0x08 v) s (s.setQueue q { x with ring := v &&& 0xFFFFFFFFFFFFF81F#64 }) ∧
        Leads (.qattrWrite 0x10 v) s (s.setQueue q { x with cpl := v &&& 0xFFFFFFFFFFFFF81F#64 }) ∧
        Leads (.qattrWrite 0x18 v) s (s.setQueue q { x with ctxReg := v &&& 0xFF0FFF#64 }) ∧
        Leads (.qattrWrite 0x20 v) s (s.setQueue q { x with waitNs := v.toNat }) ∧
        Leads (.qattrWrite 0x30 v) s (s.setQueue q { x with graphNs := v.toNat })))

/-- R37 to R40, Table 2.8: a write of `CFE_SLOT_QUEUE` displaces and may grant; DISPLACE and a cleared ENABLE take the queue's slot
and leave it PENDING. While firmware acts, a free slot goes to the first PENDING queue: the earliest pending deadline, then the
lower class, then the next in turn within it, queues whose context is not defined after all others; when none is free, an earlier
PENDING queue displaces, of those that have held a slot for 100 µs and whose pending deadline is later, the one with the latest,
then of the higher class, then the longest there. A slot idle, or blocked, for 50 µs is released. That a write to a slot without
ENABLE leaves it empty, and that these writes act in the freeze, are the model's choices (log entry 31), as is that the row names
the slot granted (log entry 22). -/
def Obligations.SlotCommands : Prop :=
  ∀ (s : State) (n t : Nat),
    let u := s.at t
    let y := s.slot n
    (s.unitsOn = true → n < s.env.dev.slots →
      (∀ v, n ≠ 0 →
        let r := s.release n .pending
        let k := bits v 9 0
        let takes : Prop := bit v 15 = true ∧ k ≠ 0 ∧ (r.queue k).st = .pending ∧ r.slotOf? k = none ∧ (r.slot n).enable = true
        (takes → Leads (.cfeSlotQueueWrite n v) s (r.grant n k)) ∧ (¬ takes → Leads (.cfeSlotQueueWrite n v) s r)) ∧
      (n ≠ 0 → y.valid = true → Leads (.displace n) s (s.release n .pending)) ∧
      Leads (.slotEnableWrite n true) s (s.setSlot n { y with enable := true }) ∧
      (n ≠ 0 → y.valid = true →
        let r := s.release n .pending
        Leads (.slotEnableWrite n false) s (r.setSlot n { r.slot n with enable := false })) ∧
      (n = 0 ∨ y.valid = false → Leads (.slotEnableWrite n false) s (s.setSlot n { y with enable := false }))) ∧
    (u.fwActs = true →
      (∀ k r, u.roleRuns 0 = true → n < s.env.dev.slots → n ≠ 0 → y.enable = true → y.valid = false → u.pendingQueues = k :: r →
        Leads (.slotGrant n t) s (u.give n k)) ∧
      (∀ k r m, u.roleRuns 0 = true → u.freeSlots' = [] → u.pendingQueues = k :: r → u.displaceSlot? k = some m →
        Leads (.slotDisplace t) s (u.release m .pending)) ∧
      (n ≠ 0 → y.valid = true → (u.queue y.queue).st = .slotted →
        (∀ a, (u.queue y.queue).idleAt = some a → u.whole y.queue = false → a + 50000 ≤ u.env.now →
          Leads (.slotIdleRelease n t) s (u.release n .idle)) ∧
        (∀ a, (u.queue y.queue).blockAt = some a → u.blocking y.queue (u.headWord y.queue) ≠ 0 → a + 50000 ≤ u.env.now →
          Leads (.slotBlockedRelease n t) s (u.release n .blocked)))) ∧
    (let pend (q : Nat) : Prop := q ≠ 0 ∧ (s.queue q).st = .pending ∧ (s.queue q).contain = none
      let last (c : Nat) : Nat := (AL.get? c s.cfe.rr).getD (s.env.dev.queues - 1)
      let turn (c q : Nat) : Nat := (q + s.env.dev.queues - last c - 1) % s.env.dev.queues
      let cls (q : Nat) : Nat := if s.defined (s.queue q).ctxId = true then (s.ctx (s.queue q).ctxId).cls else 4
      let earlier (a b : Nat) : Prop := (s.queue a).pendDl < (s.queue b).pendDl ∨ (s.queue a).pendDl = (s.queue b).pendDl ∧
        (cls a < cls b ∨ cls a = cls b ∧ turn (cls a) a < turn (cls b) b)
      let before (a b : Nat) : Prop := cls a ≠ 4 ∧ cls b = 4 ∨ (cls a = 4 ↔ cls b = 4) ∧ earlier a b
      let held (k m : Nat) : Prop := m ≠ 0 ∧ m < s.env.dev.slots ∧ (s.slot m).valid = true ∧
        (s.queue (s.slot m).queue).slotAt + 100000 ≤ s.env.now ∧ (s.queue k).pendDl < (s.queue (s.slot m).queue).pendDl
      let worse (a b : Nat) : Prop := (s.queue b).pendDl < (s.queue a).pendDl ∨ (s.queue a).pendDl = (s.queue b).pendDl ∧
        (cls b < cls a ∨ cls a = cls b ∧ (s.queue a).slotAt < (s.queue b).slotAt)
      ((s.cfe.queues.map Prod.fst).Nodup →
        (s.pendingQueues = [] ↔ ∀ q, ¬ pend q) ∧
        ∀ k r, s.pendingQueues = k :: r → pend k ∧ ∀ q, pend q → ¬ before q k) ∧
      (∀ k, (∀ m < s.env.dev.slots, (s.queue (s.slot m).queue).pendDl < 2 ^ 64 ∧ (s.queue (s.slot m).queue).slotAt < 2 ^ 64 ∧
          cls (s.slot m).queue < 8) →
        (s.displaceSlot? k = none ↔ ∀ m, ¬ held k m) ∧
        ∀ m, s.displaceSlot? k = some m → held k m ∧ ∀ a, held k a → ¬ worse (s.slot a).queue (s.slot m).queue))

/-- R145, R146, R148, Table 5.12: the debug window answers 4 while it is disabled, 3 for a context that is not defined and 5 for
an id at or above the limit. READ reports the counter; SET is BUSY until the engine applies it, which raises the counter or
answers 1 or 2; a command written while it is BUSY does nothing. HALT and RESUME set and clear the context's halt and write its
header; HALT refutes the context's staged and held speculative tasks (read from R204 beside R203, log entry 23). That READ acts while
`CTU_CTL.RUN` is clear is the model's choice (log entry 31). -/
def Obligations.DebugWindow : Prop :=
  ∀ s m : State, s.unitsOn = true →
    let c := s.ctu.dbgCtx
    let v := s.ctu.dbgId
    let x := s.ctr c v
    let result (s : State) (r : Nat) : State := { s with ctu := { s.ctu with dbgResult := r } }
    let all (f : Instr → Prop) : Prop := f .ctuDbgRead ∧ f .ctuDbgSet ∧ f .ctuDbgHalt ∧ f .ctuDbgResume
    (s.ctu.dbgBusy = true → all fun i => Leads i s s) ∧
    (s.ctu.dbgBusy = false → s.ctu.dbgEn = false → all fun i => Leads i s (result s 4)) ∧
    (s.ctu.dbgBusy = false → s.ctu.dbgEn = true → s.defined c = false → all fun i => Leads i s (result s 3)) ∧
    (∀ c v new,
      let done (s : State) (r : Nat) : State := { s with ctu := { s.ctu with dbgBusy := false, dbgResult := r } }
      let y := m.ctr c v
      let after := m.doWork (.windowSet c v new)
      (m.defined c = false → after = done m 3) ∧
      (m.defined c = true → m.idLimit c ≤ v → after = done m 5) ∧
      (m.defined c = true → v < m.idLimit c → (m.ctx c).halted = false → after = done m 1) ∧
      (m.defined c = true → v < m.idLimit c → (m.ctx c).halted = true →
        (new < y.val → after = done m 2) ∧
        (y.val ≤ new → after = done ((m.setCtr c v { y with val := new }).releaseWaiters c v) 0))) ∧
    (s.ctu.dbgBusy = false → s.ctu.dbgEn = true → s.defined c = true →
      Leads .ctuDbgSet s (State.push { s with ctu := { s.ctu with dbgBusy := true } } [.windowSet c v s.ctu.dbgValue.toNat]) ∧
      (s.idLimit c ≤ v → Leads .ctuDbgRead s (result s 5)) ∧
      (v < s.idLimit c →
        let count := (s.ctu.waiters.filter fun w => w.ctx = c && w.vid = v).length
        let k : Ctu := { s.ctu with
          dbgValue := BitVec.ofNat 64 x.val, dbgWaiters := min count 0xFFFF, dbgResult := 0,
          dbgFlags := x.mapped.toNat + 2 * x.exported.toNat + 4 * x.resident.toNat + 8 * x.sat.toNat + 16 * x.poison.toNat }
        Leads .ctuDbgRead s { s with ctu := k }) ∧
      (let saddles := s.csq.cores.filterMap fun p => match p.2.saddle with
          | some y => if y.spec.isSome && y.e.ref.ctx = c then some y.e.ref else none
          | none => none
        let staged := saddles ++ s.csq.clusters.flatMap fun (p : Nat × Cluster) =>
          (p.2.hold.map fun h => h.run.p.e.ref).filter fun r => r.ctx = c
        let h := (((s.updCtx c fun k => { k with halted := true }).updStop c).dropCands fun e => e.ref.ctx = c).writeHeader c
        Leads .ctuDbgHalt s (result (((h.push (staged.map fun r => .refute r 4)).displace).refreshAll) 0)) ∧
      Leads .ctuDbgResume s
        (result ((((s.updCtx c fun k => { k with halted := false }).updStop c).writeHeader c).refreshAll) 0))

/-- R192, R230, R362, R337, R338, R271, Table 4.11: FLUSH empties the prediction table, ICACHE_INV an engine's instruction cache,
STAT_CLEAR the histograms and loads. Enabling a set interrupt bit sends vector 0; a cleared bit stays clear. EN of the error
ring is set only with a size in range, and zeroes its pointers; a head that the ring cannot have resets it. R5: a 64-bit write at
an aligned offset has its register's effect, as in Tables 13.12, 13.15, 4.3, 8.9, 5.8, 9.12 and 15.13 and for `DB_DEADLINE`, or a
value that reads back; any other write changes nothing, which for 8 and 16 bits is the model's choice (log entry 31); a 32-bit read
gives a half of the register. -/
def Obligations.RegisterCommands : Prop :=
  ∀ (s : State) (v : Word), s.work = [] → s.unitsOn = true →
    (∀ off width, width ≠ 64 ∨ off % 8 ≠ 0 → exec (.registerWrite off v width) s = .next s) ∧
    (∀ r ∈ [(0x120000, 0x3FF#64), (0x610000, 0xF000FFF#64), (0x620018, 0xFFFFFFFFFFFFFFFF#64), (0x640010, 0x3FFFFFF#64)],
      ∃ u, exec (.registerWrite r.1 v 64) s = .next u ∧ u.windowRead r.1 64 = v &&& r.2 ∧ u.mem = s.mem ∧ u.hostMem = s.hostMem ∧
        u.out = s.out ∧ u.ctxs = s.ctxs) ∧
    (let wrote (off : Nat) (u : State) : Prop := Leads (.registerWrite off v 64) s u
      let based : State := { s with gcs := { s.gcs with recoverBase := bits v 63 12 } }
      let begun := if bit v 8 = true ∧ s.gcs.recoverBusy = false then based.recover else based
      let tth : State := { s with tth := { s.tth with safeCodes := bit v 3, groomReq := s.tth.groomReq || bit v 1 } }
      let spec : State := { s with plu := { s.plu with specEn := bit v 0, specClass := bits v 7 4 } }
      (bits v 2 0 = 1 → wrote 0x20 (begun.resetReq false 2 0)) ∧ (bits v 2 0 = 2 → wrote 0x20 (begun.resetReq true 2 0)) ∧
      (bits v 2 0 = 3 → wrote 0x20 begun.firmwareRestart) ∧ (bits v 2 0 = 0 ∨ 3 < bits v 2 0 → wrote 0x20 begun) ∧
      (bit v 0 = false → wrote 0x30000 tth) ∧ (bit v 0 = true → wrote 0x30000 tth.enumSend) ∧
      wrote 0x600000 { s with gd := { s.gd with lqDepth := bits v 11 8, widen := bit v 1, run := bit v 0 } } ∧
      (bit v 1 = false → wrote 0x610010 spec) ∧ (bit v 1 = true → wrote 0x610010 (spec.flushPreds fun _ => true)) ∧
      wrote 0x620000 { s with ctu := { s.ctu with trailEn := bit v 2, dbgEn := bit v 1, run := bit v 0 } } ∧
      (∀ g, g < s.env.dev.geRegions ∨ g = 18 → wrote (0xA00008 + 0x10000 * g)
        (s.setGe g { s.ge g with en := bit v 0, icache := if bit v 1 then [] else (s.ge g).icache })) ∧
      wrote 0x10010 { s with fsu := { s.fsu with
        errLevel := bits v 39 16, errLog := if s.fsu.errEn then s.fsu.errLog else bits v 4 0 } } ∧
      ∀ q < s.env.dev.queues,
        ((s.queue q).st = .disabled → wrote (0x200010 + 0x1000 * q) s) ∧
        ((s.queue q).st ≠ .disabled → wrote (0x200010 + 0x1000 * q) (s.setQueue q { s.queue q with deadline := v.toNat }))) ∧
    (∀ off, (off % 4 ≠ 0 → s.windowRead off 32 = 0) ∧ (off % 8 ≠ 0 → s.windowRead off 64 = 0) ∧
      (off % 8 = 0 → s.windowRead off 32 = s.windowRead off 64 &&& 0xFFFFFFFF#64 ∧
        s.windowRead (off + 4) 32 = s.windowRead off 64 >>> 32)) ∧
    Leads .flush s (s.flushPreds fun _ => true) ∧ (s.flushPreds fun _ => true).plu.preds = [] ∧
    (∀ g, g < s.env.dev.geRegions ∨ g = 18 → exec (.icacheInv g) s = .next (s.setGe g { s.ge g with icache := [] })) ∧
    (∃ u, exec .statClear s = .next u ∧ u.stat = { s.stat with hist := [] } ∧ (∀ c, (u.core c).busyNs = 0) ∧
      (∀ c, u.core c = { s.core c with busyNs := (u.core c).busyNs, loadAt := (u.core c).loadAt }) ∧
      (∀ p ∈ u.csq.cores, p.2.loadAt = s.env.now) ∧ u.mem = s.mem ∧ u.gd = s.gd ∧ u.ctxs = s.ctxs) ∧
    (let new : BitVec 7 := BitVec.ofNat 7 v.toNat
      let rise := (List.range 7).filter fun i => s.gcs.irqStatus.getLsbD i && new.getLsbD i && !s.gcs.irqEnable.getLsbD i
      let o : Out := { s.out with msix := s.out.msix ++ rise.map fun _ => 0 }
      exec (.irqEnableWrite v) s = .next { s with gcs := { s.gcs with irqEnable := new }, out := o } ∧
      exec (.irqStatusClear v) s = .next { s with gcs := { s.gcs with irqStatus := s.gcs.irqStatus &&& ~~~new } }) ∧
    (s.fsu.errEn = true → exec (.errRingEnable v) s = .next { s with fsu := { s.fsu with errEn := v.getLsbD 0 } }) ∧
    (s.fsu.errEn = false →
      let f : Fsu := { s.fsu with errBase := bits v 63 12, errHost := v.getLsbD 11 }
      (v.getLsbD 0 = true → 12 ≤ s.fsu.errLog → s.fsu.errLog ≤ 26 → exec (.errRingEnable v) s =
        .next { s with fsu := { f with errEn := true, errHead := 0, errTail := 0, errArmed := true } }) ∧
      (v.getLsbD 0 = false ∨ s.fsu.errLog < 12 ∨ 26 < s.fsu.errLog → exec (.errRingEnable v) s = .next { s with fsu := f })) ∧
    (let h := BitVec.ofNat 32 v.toNat
      let fill := (s.fsu.errTail - h).toNat
      let m : Fsu := { s.fsu with errHead := h, errArmed := s.fsu.errArmed || decide (fill < s.fsu.errLevel) }
      (s.fsu.errEn = false ∨ fill ≤ 2 ^ s.fsu.errLog / 64 → exec (.errHeadWrite v) s = .next { s with fsu := m }) ∧
      (s.fsu.errEn = true → 2 ^ s.fsu.errLog / 64 < fill → Leads (.errHeadWrite v) s
        (State.err { s with fsu := { s.fsu with errHead := s.fsu.errTail, errArmed := true } }
          { unit := 0x0A, cls := 2, code := 0x08, a := 6, c := s.fsu.errTail.toNat })))

/-- R4: a register region or doorbell page without an instance on the device reads as zero, and a write to it changes nothing. -/
def Obligations.AbsentRegisters : Prop :=
  ∀ (s : State), s.work = [] →
    let d := s.env.dev
    (∀ (off width : Nat) (v : Word),
      0x100000 + 0x1000 * d.slots ≤ off ∧ off < 0x120000 ∨ 0x200000 + 0x1000 * d.queues ≤ off ∧ off < 0x600000 ∨
        0x800000 + 0x10000 * d.positions ≤ off ∧ off < 0xA00000 ∨
        (∃ g, d.geRegions ≤ g ∧ g < 18 ∧ 0xA00000 + 0x10000 * g ≤ off ∧ off < 0xA10000 + 0x10000 * g) →
      s.windowRead off width = 0 ∧ exec (.registerWrite off v width) s = .next s) ∧
    (∀ (q : Nat) (v : Word), d.queues ≤ q → exec (.dbTailWrite q v) s = .next s ∧ exec (.dbCplHeadWrite q v) s = .next s) ∧
    (∀ (n : Nat) (v : Word) (b : Bool), d.slots ≤ n → exec (.cfeSlotQueueWrite n v) s = .next s ∧ exec (.displace n) s = .next s ∧
      exec (.slotEnableWrite n b) s = .next s) ∧
    (∀ g, d.geRegions ≤ g → g < 18 → exec (.icacheInv g) s = .next s)

/-! ## Dispatch, cores and core ports (04, 05, 07, 08) -/

/-- R98, R101, R102, R100: GD_POP takes the on-chip top of least key. R186, R87: a task that its first offer finds prunable, or of
a shape that counts zero, is pruned, and one whose shape slot is invalid fails; the test is made once between two starts on a
core. A GATE task joins its engine's queue and a CONTROL task executes, unless their cluster's sequencer is paused (R284); a
COMPUTE task is placed, with its slot's shape at a resume too (the model's choice, log entry 31), or declined when no cluster takes it.
R196, R197: an idle cluster with no other work stages its first eligible candidate. R80, R81: a CONTROL task retires at once, waits for
its counter's value, launches, or posts its action; one whose launch or posting fails, or whose operation is none of Table 3.5, fails
and counts as a failed part of its root command. -/
def Obligations.TasksAreDispatched : Prop :=
  ∀ (s : State) (n t : Nat),
    let u := s.at t
    let v := u.settleBanks
    (u.dispatching = true →
      (∀ b e, v.bestTop? = some (b, e) →
        (∀ b' ∈ v.bankList, v.pausedUnit 3 (v.physOf 3 b') = false → ∀ e', (v.bank b').on.find? v.eligible = some e' →
          Key.lt e'.key e.key = false) ∧
        (v.poppable e = true →
          let p := v.setBank b { v.bank b with on := (v.bank b).on.filter fun x => x.ref ≠ e.ref }
          let r := e.ref
          ∀ x k, p.inst? r.ctx r.inst = some x → p.task? r = some k →
            let d := k.desc
            let h := p.homeOf e
            let first := decide (e.slot = 0) && !k.tested
            let o := if first then p.updTask r fun t => { t with tested := true } else p
            let z := o.countWait b e
            let dyn := Desc.shapeDyn d
            let shape := p.shape? r.ctx (Desc.shapeSlot d)
            let pruned : Prop := first = true ∧ (p.prunable r.ctx d x.base = true ∨ dyn = true ∧ shape.map Shape.count = some 0)
            (pruned → Leads (.gdPop t) s (z.retireTask r .pruned (some h) none)) ∧
            (¬ pruned → dyn = true → shape = none → Leads (.gdPop t) s (z.retireTask r .failed (some h) none)) ∧
            (¬ pruned → dyn = false ∨ shape ≠ none →
              let g := o.gateRegion e
              let paused (n : Nat) : Bool := decide (n < o.env.dev.clusters) && o.fsu.paused.contains (2, o.seqPos n)
              let l := insertBy (fun a b => Key.lt a.key b.key) { e with held := false } (o.ge g).queue
              let w7 := if dyn then (shape.getD {}).w7.toNat else (wordAt d 7).toNat
              let room : Prop := (o.ge g).queue.length < 16 ∧ (2, o.seqPos g) ∉ o.fsu.leaving ∧ paused g = false
              (Desc.kind d = 2 → room →
                Leads (.gdPop t) s ((z.updTask r fun t => { t with st := .placed }).setGe g { o.ge g with queue := l })) ∧
              (Desc.kind d = 2 → ¬ room → Leads (.gdPop t) s (o.decline b e)) ∧
              (Desc.kind d = 3 → paused h = false → Leads (.gdPop t) s (z.execControl r h)) ∧
              (Desc.kind d = 3 → paused h = true → Leads (.gdPop t) s (o.decline b e)) ∧
              (Desc.kind d ≠ 2 → Desc.kind d ≠ 3 →
                (∀ y, z.placeTask e h w7 = some y → Leads (.gdPop t) s y) ∧
                (z.placeTask e h w7 = none → Leads (.gdPop t) s (o.decline b e))))) ∧
        (v.poppable e = false → Leads (.gdPop t) s v)) ∧
      (∀ e c y, u.present n = true → u.clusterIdle n = true → u.workFor n = false → (u.cluster n).hold.length < 16 →
        ((u.cluster n).cands.find? fun e => u.specEligible e.ref && !u.slotsFull e.ref.ctx) = some e →
        (u.coresOf n).find? u.coreIdle = some c → u.stageSpec n c e = some y →
        Leads (.specOffer n t) s (y.dropCands fun x => x.ref = e.ref))) ∧
    (∀ r h x k, s.inst? r.ctx r.inst = some x → s.task? r = some k →
      let w := wordAt (s.rdWords false (Desc.operands k.desc) 8)
      let eff := effIdx x r.idx
      let v := bits (w 1) 23 0
      let based (i b : Nat) : Nat := if bit (w i) 17 then (x.base + b) % 2 ^ 32 else b
      let failed := (s.failPart x.owner h).retireTask r .failed (some h) none
      let wake := if bit (w 1) 63 then bits (w 1) 62 0 else s.env.now + bits (w 1) 62 0
      let act : Action := if bit (w 2) 0 then
          .launch (bits (w 3) 15 0) (based 3 (bits (w 4) 31 0)) (bits (w 5) 31 0)
            (if bit (w 3) 16 then some (bits (w 5) 31 0) else none)
        else .signal (bits (w 3) 23 0) (bits (w 3) 55 24)
      let post := s.postAction r.ctx { wake := wake, act := act, owner := x.owner, inst := r.inst, cluster := h, eff := eff }
      let gid := bits (w 1) 15 0
      let base := based 1 (bits (w 2) 31 0)
      let count := if bit (w 1) 16 then (s.shape? r.ctx (bits (w 3) 31 0)).map Shape.count else some (bits (w 3) 31 0)
      (bits (w 0) 7 0 = 0 → s.execControl r h = s.retireTask r .normal (some h) none) ∧
      (bits (w 0) 7 0 = 1 → s.idLimit r.ctx ≤ v → s.execControl r h = s.push [.faultCtx r.ctx 0x04 v 1 eff]) ∧
      (bits (w 0) 7 0 = 1 → v < s.idLimit r.ctx → s.execControl r h = State.testPlace
        ((s.updTask r fun t => { t with st := .ctlWait }).push
          [.waitCtl r h v (((w 2).toNat + x.num * (w 3).toNat) % 2 ^ 64)]) r.ctx) ∧
      (bits (w 0) 7 0 = 2 →
        (count = none ∨ (∃ n, count = some n ∧ s.launchCheck r.ctx gid true base n ≠ 0) → s.execControl r h = failed) ∧
        (∀ n, count = some n → s.launchCheck r.ctx gid true base n = 0 → s.execControl r h =
          (s.launch r.ctx gid base n { owner := x.owner, step := s.rootStep r.ctx x.owner, at_ := s.env.now }).2.retireTask r .normal
            (some h) none)) ∧
      (bits (w 0) 7 0 = 3 → (post = none → s.execControl r h = failed) ∧
        ∀ y, post = some y → s.execControl r h = y.retireTask r .normal (some h) none) ∧
      (3 < bits (w 0) 7 0 → s.execControl r h = failed))

/-- R110, R136, R175, R276: a spur moves a staged task from its saddle to its idle core, with its budget in force, and clears the
core's counters unless the task resumes; the port carries the SPUR, with the slot's address for a resumed task, and then the beats
of the task that the saddle takes next. R91: a descriptor fill puts its lane's oldest line into a way of the line's set. R193, R199
to R202, R205, Tables 8.4 and 8.6: a gating decision is resolved into its site's prediction, whose confidence rises while the digest
stays; a speculative task whose count reaches zero is refuted where its gate did not retire normally or the decision differs,
commits as pruned where SKIP marked it or it is prunable, and else is confirmed, and a held one commits: its shadow granules become
the outputs, its held signals go, its commit is counted and traced and it retires. A refute drops all that, counts its cause, and the
task runs as any other. -/
def Obligations.SpursAndFills : Prop :=
  (∀ (s : State) (c t : Nat) (p : Placed),
    let u := s.at t
    (u.core c).saddle = some p → (u.core c).running = none → p.staged = true → s.gcs.changing = false →
      (u.coresOf (c / 8)).contains c = true → ∃ v, Leads (.spur c t) s v ∧
        let y : Running := { p := { p with spec := p.spec.map fun z => { z with spurAt := u.env.now } }, spurAt := u.env.now,
                             budget := u.budgetNs (u.descOf p.e), resume := decide (p.e.slot ≠ 0) }
        let saved := AL.get (u.ctx p.e.ref.ctx).slots p.rslot
        let mark := if p.e.slot = 0 then none else some (u.slotAddr p.e.ref.ctx p.rslot)
        (v.core c).running = some y ∧ (v.core c).ccWaits = [] ∧ (v.core c).cc = (if p.e.slot = 0 then [] else saved.cc) ∧
          ∃ l, v.out.port = s.out.port ++ (c, .spur mark) :: l ∧ ∀ o ∈ l, ∃ n w, o = (c, .stage n w)) ∧
  (∀ (s : State) (lane l : Nat) (r : List Nat), s.work = [] → AL.get s.dcache.lanes lane = l :: r →
    ∃ u w, exec (.descFill lane) s = .next u ∧ w < 16 ∧ AL.get? (s.dcSet l, w) u.dcache.lines = some l ∧
      AL.get u.dcache.lanes lane = r ∧ (∀ k, k ≠ lane → AL.get u.dcache.lanes k = AL.get s.dcache.lanes k) ∧
      (∀ k, k ≠ (s.dcSet l, w) → AL.get? k u.dcache.lines = AL.get? k s.dcache.lines) ∧ u = { s with dcache := u.dcache }) ∧
  (∀ (s : State) (r : TaskRef) (x : Inst) (k : Task) (sp : Spec), s.inst? r.ctx r.inst = some x → s.task? r = some k →
    let d := k.desc
    let site := Desc.gateSite d
    let tile := s.tile r.ctx ((s.inputs d x.base).headD 0)
    let dig := s.digest tile
    let past := s.pred? r.ctx site
    let step := x.step.getD 0
    let entry : Pred := { ctx := r.ctx, gen := (s.ctx r.ctx).gen, site := site, step := step, digest := dig,
                          conf := match past with
                            | some p => if p.digest = dig then min (p.conf + 1) 3 else 0
                            | none => 0
                          gran := s.heldGranule tile
                          shape := if Desc.shapeDyn d then s.shape? r.ctx (Desc.shapeSlot d) else none }
    let v := match past.bind Pred.gran with
      | some g => (s.putPred entry).endRetention r.ctx g
      | none => s.putPred entry
    s.resolve r.ctx d x.base step = (dig, v) ∧
    (s.spec? r = some sp →
      let gate := AL.get? (Desc.gatePred d) x.tasks
      let shape := v.shape? r.ctx (Desc.shapeSlot d)
      let same : Prop := dig = sp.digest ∧ (Desc.shapeDyn d = true → shape ≠ none ∧ shape = sp.shape)
      let normal : Prop := gate.map Task.st = some (.gone .normal)
      let prunes : Prop := v.prunable r.ctx d x.base = true ∨ Desc.shapeDyn d = true ∧ (shape.getD {}).count = 0
      (¬ normal → s.confirm r = s.refute r 2) ∧
      (normal → k.skip = true → s.confirm r = v.commitPruned r) ∧
      (normal → k.skip = false → ¬ same → s.confirm r = v.refute r 1) ∧
      (normal → k.skip = false → same → prunes → s.confirm r = v.commitPruned r) ∧
      (normal → k.skip = false → same → ¬ prunes → s.confirm r = v.markConfirmed r) ∧
      (let at' := s.specAt? r
        let dropped := s.dropSpec r
        s.commitPruned r = State.retireTask { dropped with stat := { dropped.stat with specPruned := dropped.stat.specPruned + 1 } } r
          .pruned (at'.map Prod.fst) (at'.map Prod.snd)) ∧
      (∀ cause,
        let at' := s.specAt? r
        let m := (s.dropSpec r).trace r 9 (at'.map Prod.fst) (at'.map Prod.snd) cause
        let counted : Stat := if cause = 1 then { m.stat with specMismatch := m.stat.specMismatch + 1 }
          else if cause = 2 then { m.stat with specGate := m.stat.specGate + 1 }
          else if cause = 3 then { m.stat with specAccess := m.stat.specAccess + 1 }
          else { m.stat with specAbandon := m.stat.specAbandon + 1 }
        let back := State.updTask { m with stat := counted } r fun t => { t with st := .waiting, stamped := decide (t.count = 0) }
        (k.count = 0 → k.skip = true → s.refute r cause = back.push [.retire r .pruned]) ∧
        (k.count = 0 → k.skip = false → s.refute r cause = (back.becomeReady r).testPlace r.ctx) ∧
        (k.count ≠ 0 → s.refute r cause = back.testPlace r.ctx)))) ∧
  (∀ (s : State) (n : Nat) (h : Held) (x : Inst) (k : Task) (sp : Spec),
    let r := h.run.p.e.ref
    s.inst? r.ctx r.inst = some x → s.task? r = some k → h.run.p.spec = some sp →
      let hs := s.outputs k.desc x.base
      let eff := effIdx x r.idx
      let lead := ((AL.get? (Desc.gatePred k.desc) x.tasks).map fun g => g.goneAt - sp.spurAt).getD 0
      let out := s.setCluster n { s.cluster n with hold := (s.cluster n).hold.filter fun y => y.run.p.e.ref ≠ r }
      let renamed := sp.shadows.foldl (fun s g =>
        let u := s.tile r.ctx g.1
        let occ := (List.range hs.length).any fun i => hs.getD i 0 = g.1 && bit h.occ i
        let freed := match s.heldGranule u with
          | some old => (s.setTile r.ctx g.1 { u with valid := false }).returnGranule r.ctx old
          | none => s
        freed.setTile r.ctx g.1 { pooled := true, occ := occ, valid := true, slice := g.2.1, addr := s.granAddr g.2.1 g.2.2,
                                  version := (u.version + 1) % 2 ^ 32, size := 32768 }) out
      let told := renamed.push (sp.sigs.map fun p => if renamed.idLimit r.ctx ≤ p.1 then .faultCtx r.ctx 0x04 p.1 1 eff
        else .signal r.ctx p.1 p.2 { code := 3, arg := eff } none)
      let counted : State := { told with stat := { told.stat with
        specCommit := told.stat.specCommit + 1, specLead := told.stat.specLead + lead } }
      s.commit n h = State.endRetention ((counted.trace r 8 (some n) (some h.core)).retireTask r .normal (some n) none false
        (sp.sigs.map Prod.fst)) r.ctx sp.gran)

/-- R113, R174, R175, R200: a completion frees the core and retires its task, records the occupancies of a normal one, or holds a
speculative one for its commit, and waits while the cluster's hold is full (read from R196, log entry 33); the time that the core
has run counts into its load (R122), and none comes from a port that has failed (R279). A yield answers a rein or a trap: the task
is saved, a trapped one with an overrun; a suppressed one, or one of a cancelled step, is not saved. A budget that runs out traps
the task at its port. R21, R58, R76, R83, R186, R187: a task that retires, normal, pruned or failed, is traced, gives its outputs
empty tiles where it is pruned, signals its targets, or poisons them where it failed, is gone, and then sends each successor one
decrement (that its signals come before its decrements is the model's choice, log entry 9); one suppressed, discarded or late does
none of that but is gone. A decrement of a count that is zero faults the context with DEP_UNDERFLOW; the last one makes the task
ready, or fails, prunes or confirms it. -/
def Obligations.CoresEndTasks : Prop :=
  (∀ (s : State) (c t : Nat) (occ : Word) (y : Running), s.steady → s.seqPaused c = false → (s.core c).running = some y →
    let u := s.at t
    let r := y.p.e.ref
    let off := ((u.xferClose c [2, 4, 5, 8]).xferOpen c 3).coreOff c r.ctx
    let leads (v : State) : Prop := Leads (.coreDone c occ t) s v
    ((off.core c).busyNs = ((s.core c).busyNs + (u.env.now - (s.core c).loadAt)) % 2 ^ 64 ∧ (off.core c).running = none) ∧
    (s.holdFull c = true → exec (.coreDone c occ t) s = .next (u.push [.done c occ])) ∧
    (s.holdFull c = false → y.lost = true → leads u) ∧
    (s.holdFull c = false → y.lost = false →
      (y.discard = true → leads off) ∧
      (y.discard = false → y.p.spec = none → ∀ x k, off.inst? r.ctx r.inst = some x → off.task? r = some k →
        (y.suppressed = true → leads (off.retireTask r .suppressed (some (c / 8)) (some (c % 8)))) ∧
        (y.suppressed = false → x.cancelled = true → leads (off.lateResult r)) ∧
        (y.suppressed = false → x.cancelled = false → leads ((off.recordOcc r.ctx (off.outputs k.desc x.base) (bit occ)).retireTask
          r .normal (some (c / 8)) (some (c % 8))))) ∧
      (y.discard = false → ∀ z, y.p.spec = some z →
        let h : Held := { run := y, occ := occ, core := c % 8 }
        (y.suppressed = true → leads (off.retireTask r .suppressed (some (c / 8)) (some (c % 8)))) ∧
        (y.suppressed = false → z.confirmed = true → leads (off.push [.commit (c / 8) h])) ∧
        (y.suppressed = false → z.confirmed = false →
          leads (off.setCluster (c / 8) { off.cluster (c / 8) with hold := (off.cluster (c / 8)).hold ++ [h] }))))) ∧
  (∀ (s : State) (c t : Nat) (y : Running), s.steady → s.seqPaused c = false → (s.core c).running = some y →
    let u := s.at t
    let r := y.p.e.ref
    let o := (u.xferClose c [2, 4, 5, 8]).xferOpen c 6
    let gone := (o.coreOff c r.ctx).taskGone r .discarded
    let leads (v : State) : Prop := Leads (.coreYield c t) s v
    (y.lost = true ∨ y.rein = false ∧ y.trap = false → leads u) ∧
    (y.lost = false → y.rein = true ∨ y.trap = true →
      (y.discard = true → leads (o.coreOff c r.ctx)) ∧
      (y.discard = false → y.trap = false → o.unsaved y = false → leads (o.saveTask c y)) ∧
      (y.discard = false → y.trap = false → o.unsaved y = true → leads gone) ∧
      (y.discard = false → y.trap = true → ∀ x, o.inst? r.ctx r.inst = some x →
        let eff := effIdx x r.idx
        (o.unsaved y = true → leads (gone.overrun r eff c 3 (o.seqPos (c / 8)))) ∧
        (o.unsaved y = false →
          leads (((o.updTask r fun t => { t with overruns := min (t.overruns + 1) 0xFFFF }).saveTask c y).overrun r eff c 3
            (o.seqPos (c / 8))))))) ∧
  (∀ (s : State) (c t : Nat) (y : Running), s.work = [] → s.runningOn c = some y → y.trap = false →
    let u := s.at t
    (u.env.now < y.spurAt + y.budget → exec (.budgetExpiry c t) s = .next u) ∧
    (y.spurAt + y.budget ≤ u.env.now →
      (y.p.spec = none → exec (.budgetExpiry c t) s =
        .next ((u.updCore c fun k => { k with running := some { y with trap := true } }).toPort c [.trap (u.runSlot y) false])) ∧
      (y.p.spec ≠ none → Leads (.budgetExpiry c t) s (u.push [.refute y.p.e.ref 4])))) ∧
  (∀ (s : State) (r : TaskRef) (how : How) (cl co : Option Nat) (x : Inst) (k : Task),
    s.inst? r.ctx r.inst = some x → s.task? r = some k →
    let eff := effIdx x r.idx
    let failed : Bool := decide (how = .failed)
    let ends (v : State) (after : List Nat) : State :=
      ((((v.signals k.desc).foldl (fun u p => u.taskSignal r.ctx eff failed p) v).markGone r how).sendDecrements r k.desc eff failed
        after).instCheck r
    (k.isGone = true → s.retireTask r how cl co = s ∧ s.markGone r how = s) ∧
    (k.isGone = false →
      (how = .normal → s.retireTask r how cl co = ends (s.trace r 3 cl co) []) ∧
      (how = .failed → s.retireTask r how cl co = ends (s.trace r 5 cl co) []) ∧
      (how = .pruned →
        let v := s.trace r 4 cl co
        let e := v.emptyOutputs r.ctx (v.outputs k.desc x.base)
        let m : State := { e with stat := { v.stat with pruned := v.stat.pruned + 1 } }
        s.retireTask r how cl co = ends m (((m.signals k.desc).filter fun p => !bit p.1 56).map fun p => bits p.1 23 0)) ∧
      (how = .suppressed → s.retireTask r how cl co = ((s.trace r 6 cl co).markGone r how).instCheck r) ∧
      (how = .discarded ∨ how = .late → s.retireTask r how cl co = (s.markGone r how).instCheck r) ∧
      s.markGone r how = ((((((s.updTask r fun t => { t with st := .gone how, goneAt := s.env.now }).freeSlots r).nearDrop r).dropCands
        fun e => e.ref = r).flowNext r k.desc).testPlace r.ctx)) ∧
    (∀ p : Word × Word,
      (bit p.1 56 = true → s.taskSignal r.ctx eff failed p = s.push
        [.trail { dest := bits p.1 9 0, inc := bits p.1 55 24, handle := p.2, poison := failed, sender := .task r.ctx }]) ∧
      (bit p.1 56 = false → s.idLimit r.ctx ≤ bits p.1 23 0 →
        s.taskSignal r.ctx eff failed p = s.push [.faultCtx r.ctx 0x04 (bits p.1 23 0) 1 eff]) ∧
      (bit p.1 56 = false → bits p.1 23 0 < s.idLimit r.ctx → s.taskSignal r.ctx eff failed p = s.push
        [if failed then .poison r.ctx (bits p.1 23 0) else .signal r.ctx (bits p.1 23 0) (bits p.1 55 24) { code := 2, arg := eff } none])) ∧
    (∀ after, ∃ l, s.sendDecrements r k.desc eff failed after = s.push l ∧
      (∀ w ∈ l, ∃ o is, w = .decr o r.ctx r.inst eff failed after is) ∧
      ∀ i ∈ s.successors k.desc, ∀ o, (s.owner? r.ctx r.inst i).getD (s.presentList.headD 0) = o → o < s.env.dev.clusters →
        ∃ is, i ∈ is ∧ .decr o r.ctx r.inst eff failed after is ∈ l)) ∧
  (∀ (s : State) (c i idx pred : Nat) (failed : Bool) (x : Inst), s.inst? c i = some x →
    let r : TaskRef := { ctx := c, inst := i, idx := idx }
    let one := s.updTask r fun t => { t with count := t.count - 1, fail := t.fail || failed }
    let after := s.decrement c i idx pred failed
    (∀ k, AL.get? idx x.tasks = k → (k.map Task.count).getD 0 = 0 →
      after = s.push [.faultCtx c 0x01 ((x.base + idx) % 2 ^ 32) (fld x.num 32 32 + fld x.gid 16 0) pred]) ∧
    (∀ k, AL.get? idx x.tasks = some k → k.count ≠ 0 →
      (k.isGone = true ∨ 2 < k.count → after = one) ∧
      (k.isGone = false → k.count = 2 → after = (one.nearAdd r).addCandidate r) ∧
      (k.isGone = false → k.count = 1 →
        let gate := AL.get? (Desc.gatePred k.desc) x.tasks
        let m := one.dropCands fun e => e.ref = r
        let resolves : Prop := Desc.specOk k.desc = true ∧ gate.map Task.st = some (.gone .normal) ∧ k.st ≠ .spec
        let v := match x.step with
          | some n => (m.resolve c k.desc x.base n).2
          | none => m
        ∀ o, (resolves → o = v) → (¬ resolves → o = m) →
          (k.fail = true ∨ failed = true → after = o.push [.retire r .failed]) ∧
          (k.fail = false → failed = false →
            (k.st = .spec → after = o.push [.confirm r]) ∧
            (k.st ≠ .spec → after = if k.skip then o.push [.retire r .pruned] else o.becomeReady r)))))

/-- R198, R277, R58, R121, R279: an access that a speculative task may not make refutes it; a refused staging beat loses the
saddle's task with an SRAM_UE record, whose row is the model's numbering (log entry 30); a task that stays stalled for tiles faults
its context; a transfer that has stood at a port for 1 ms records PORT_HANDSHAKE, takes the core's task off with what its port has
latched, a task that is ready again, to run from its start where it had not yielded, or refuted where it was speculative, and
remounts the core, or notes the remount while role 2 restarts. R177, R180, R65: a context fault notes its cause, makes the context
FAULTED, takes its tasks off cores and engines, discards the others with their granules as R119 says, removes its posted actions,
poisons its tasks' remote targets, drops its Relay messages, writes its record unless another stands for it, ends its commands
CTX_FAULT and stops its queues; a context that is FAULTED or DESTROYING only has its record written. -/
def Obligations.CoreFaults : Prop :=
  ∀ (s : State) (c t : Nat),
    let u := s.at t
    (∀ y, s.runningOn c = some y → y.p.spec ≠ none → Leads (.specAccessAttempt c) s (s.push [.refute y.p.e.ref 3])) ∧
    (∀ y, s.runningOn c = some y → y.p.spec = none → Leads (.specAccessAttempt c) s s) ∧
    (∀ p, (s.core c).saddle = some p → Leads (.stageBeatRefused c) s
      ((s.err { unit := 3, inst := s.seqPos (c / 8), cls := 2, code := 0x13, a := 2, b := 16 * (c % 8), c := 0 }).loseTask (c / 8) p.e.ref)) ∧
    (∀ p a, (s.core c).saddle = some p → p.stall = some a →
      let limit := (s.ctx p.e.ref.ctx).stallLimit
      (u.env.now < a + limit → Leads (.tileStallTimeout c t) s u) ∧
      (a + limit ≤ u.env.now → ∀ k, u.task? p.e.ref = some k →
        Leads (.tileStallTimeout c t) s (u.push [.faultCtx p.e.ref.ctx 0x0A (u.effOf p.e.ref) k.slice a]))) ∧
    (∀ channel, u.up = true → u.coreOk c = true →
      let port := u.globalPort c
      let run := (u.core c).running
      let a := u.err { unit := 0x0C, inst := port, cls := 1, code := 0x0C, ctx := run.map fun y => y.p.e.ref.ctx, a := port, b := channel,
                       c := (run.map fun y => u.effOf y.p.e.ref).getD (2 ^ 64 - 1) }
      let fault (b : State) : Prop :=
        let k := b.updCore c fun x => { x with xfer := [] }
        let held : State := { k with fsu := { k.fsu with paused := k.fsu.paused ++ [(1, port)] } }
        let noted : State := { held with fsu := { held.fsu with remounts := held.fsu.remounts ++ [(1, port, 0x0C)] } }
        let spare : Prop := held.freeSpare 1 port = true
        (k.roleRuns 2 = true → Leads (.portFault c channel t) s (k.remountNow 1 port 0x0C)) ∧
        (k.roleRuns 2 = false → held.remounting 1 port = true → Leads (.portFault c channel t) s held) ∧
        (k.roleRuns 2 = false → held.remounting 1 port = false → ¬ spare → Leads (.portFault c channel t) s noted)
      (u.xferLate c channel = false → Leads (.portFault c channel t) s u) ∧
      (∀ at', AL.get? channel (u.core c).xfer = some at' → at' + 1000000 ≤ u.env.now →
        (run = none → fault a) ∧
        (∀ y, run = some y →
          let r := y.p.e.ref
          let deaf : State := { a with work := a.work.filter fun w => match w with
            | .done k _ | .yield k => decide (k ≠ c)
            | _ => true }
          let off := deaf.coreOff c r.ctx
          let dead := deaf.updCore c fun k => { k with running := some { y with discard := true, lost := true } }
          (y.discard = true → fault off) ∧
          (y.discard = false → y.p.spec ≠ none → fault (dead.push [.refute r 4])) ∧
          (y.discard = false → y.p.spec = none → a.unsaved y = true → fault (off.taskGone r .discarded)) ∧
          (y.discard = false → y.p.spec = none → a.unsaved y = false →
            let kept := if y.p.e.slot = 0 then off.freeSlots r else
              off.updCtx r.ctx fun x => { x with slots := AL.upd x.slots y.p.rslot fun v => { v with saved := true } }
            fault ((kept.updTask r fun t => { t with st := .ready, ran := t.ran && decide (y.p.e.slot ≠ 0) }).toHeap y.p.e))))) ∧
    (∀ x code a b k,
      let z := s.ctx x
      let after := s.doWork (.faultCtx x code a b k)
      let quiet := s.doWork (.faultQuiet x code)
      let noted (v : State) : State :=
        let p := v.faultInst x code a b k
        p.2.err { unit := faultUnit code, inst := p.1, cls := 2, code := code, ctx := some x, a := a, b := b, c := k }
      let closed (v : State) : State := (((v.abortAll x .ctxFault code).stopQueues x).endSubject x .ctxFault code).push [.coreFree x]
      (z.st = .free → after = s ∧ quiet = s) ∧
      (z.st = .faulted ∨ z.st = .destroying → after = noted s ∧ quiet = s) ∧
      (z.st ≠ .free → z.st ≠ .faulted → z.st ≠ .destroying →
        let set := ((s.setCtx x { z with faultCode := code, faultAt := s.env.now }).setCtxState x .faulted).updStop x
        let off := (set.coresHolding x).foldl State.forceOff set
        let left := off.ges.foldl (fun v p => if p.2.run.any fun y => decide (y.e.ref.ctx = x) then v.geLeave p.1 else v) off
        let bare := (((left.tasksOf x fun _ => true).foldl (State.discardTask true) left).removeActions fun d => d.ctx = x).setSaved x []
        let poisoned := (s.remoteSignals x).foldl (fun v p => v.poisonSignal x p) bare
        let quieted := (poisoned.stray fun _ y => y = x).writeHeader x
        after = closed (noted quieted) ∧ quiet = closed quieted)) ∧
    (∀ fault r k, s.task? r = some k →
      let kept : Prop := k.isGone = true ∨ s.onCore r = true ∧ s.spec? r = none ∨ s.onGe? r ≠ none
      (kept → s.discardTask fault r = s) ∧
      (¬ kept →
        let v := (s.dropSpec r).removeEntry r
        let gs := ((v.task? r).map Task.granules).getD []
        (k.ran = false ∨ fault = true ∧ s.savedTask r = true →
          s.discardTask fault r = (v.freeOutputs r.ctx gs).taskGone r .discarded) ∧
        (k.ran = true → fault = false ∨ s.savedTask r = false →
          s.discardTask fault r = (v.freeOutputs r.ctx []).taskGone r .discarded)))

/-- R131, R125, R128, R138, R63, R198: at the port of a running task, SIG hands its increment to the counter unit, WAIT is
answered or recorded, and PROBE answers the value and the poison; an id at or above the limit faults the context, as does a
counter for which the store has no room (R133); a suppressed task signals nothing and waits POISONED; a speculative one holds its
signals; a faulted context is answered 2. A ninth WAIT of a core stands at its port. -/
def Obligations.CorePortRequests : Prop :=
  ∀ (s m : State) (c tag vid inc : Nat) (d : Word) (y : Running), s.steady → s.seqPaused c = false →
    s.ctrWaits y.p.e.ref.ctx vid = false → s.runningOn c = some y →
    let r := y.p.e.ref
    let p := s.xferOpen c 7
    let faulted : Prop := (s.ctx r.ctx).st = .faulted
    let quiet : Prop := s.reqSuppressed c { ref := r, spec := y.p.spec.isSome, suppressed := y.suppressed } = true
    let bad := p.push [.faultCtx r.ctx 0x04 vid 1 (s.effOf r)]
    let full := p.push [.faultCtx r.ctx 0x04 vid 2 (s.effOf r)]
    let answer (s : State) (result : Nat) (v : Word) : State :=
      State.xferOpen { s with out := { s.out with rsp := s.out.rsp ++ [(c, tag, result, v)] } } c 8
    (8 ≤ s.coreWaits c → exec (.coreWait c tag vid d) s = .next (s.push [.wait c tag vid d.toNat])) ∧
    (faulted → exec (.coreSig c vid inc) s = .next p ∧ exec (.coreProbe c tag vid) s = .next (answer p 2 0) ∧
      (s.coreWaits c < 8 → exec (.coreWait c tag vid d) s = .next (answer p 2 0))) ∧
    (¬ faulted →
      (quiet ∨ inc % 2 ^ 32 = 0 → exec (.coreSig c vid inc) s = .next p) ∧
      (y.suppressed = true → s.coreWaits c < 8 → exec (.coreWait c tag vid d) s = .next (answer p 1 0)) ∧
      (¬ quiet → inc % 2 ^ 32 ≠ 0 →
        (∀ z, y.p.spec = some z → z.sigs.length < 16 → exec (.coreSig c vid inc) s = .next (p.updCore c fun k =>
          { k with running := some { y with p := { y.p with spec := some { z with sigs := z.sigs ++ [(vid, inc % 2 ^ 32)] } } } })) ∧
        (∀ z, y.p.spec = some z → 16 ≤ z.sigs.length → Leads (.coreSig c vid inc) s (p.push [.refute r 3])) ∧
        (y.p.spec = none → s.idLimit r.ctx ≤ vid → Leads (.coreSig c vid inc) s bad) ∧
        (y.p.spec = none → vid < s.idLimit r.ctx → Leads (.coreSig c vid inc) s
          (p.push [.signal r.ctx vid (inc % 2 ^ 32) { code := 3, arg := s.effOf r } none]))) ∧
      (s.idLimit r.ctx ≤ vid → Leads (.coreProbe c tag vid) s (answer bad 2 0) ∧
        (y.suppressed = false → s.coreWaits c < 8 → Leads (.coreWait c tag vid d) s (answer bad 2 0))) ∧
      (vid < s.idLimit r.ctx → (p.ctx r.ctx).st.inPlace = true → p.makeCtrResident r.ctx vid = none →
        Leads (.coreProbe c tag vid) s (answer full 2 0) ∧
        (y.suppressed = false → s.coreWaits c < 8 → Leads (.coreWait c tag vid d) s (answer full 2 0))) ∧
      (vid < s.idLimit r.ctx → p.counterAt r.ctx vid m →
        let k := m.ctr r.ctx vid
        Leads (.coreProbe c tag vid) s (answer m k.poison.toNat (BitVec.ofNat 64 k.val)) ∧
        (y.suppressed = false → s.coreWaits c < 8 →
          (k.poison = true ∨ d.toNat ≤ k.val → Leads (.coreWait c tag vid d) s (m.push [.release (.core c tag) k.poison])) ∧
          (k.poison = false → k.val < d.toNat →
            let after := m.addWaiter r.ctx vid d.toNat (.core c tag)
            Leads (.coreWait c tag vid d) s after ∧ ∃ w, after.ctu.waiters = m.ctu.waiters ++ [w] ∧
              w.ctx = r.ctx ∧ w.vid = vid ∧ w.expected = d.toNat ∧ w.who = .core c tag))))

/-- R136, R137, Table 5.3: CC_SIGNAL raises a core counter, saturating, with one CTR_OVERFLOW record a task, answers, and releases
the first min(n, waiting) of its waits, each of which takes 1; CC_WAIT and CC_TAKE take 1 from a counter above zero; at zero
CC_WAIT waits and CC_TAKE faults the context, as does an operation that is not defined; CC_READ answers the value; each answers 2
in a faulted context. UNIT 3 and the sequencer's position as INSTANCE of the record are read from Table 15.2 (log entry 23). -/
def Obligations.CoreCounterRequests : Prop :=
  ∀ (s : State) (c tag k inc : Nat) (y : Running), s.work = [] → s.runningOn c = some y →
    let r := y.p.e.ref
    let faulted : Prop := (s.ctx r.ctx).st = .faulted
    let v := s.cc c k
    let i := inc % 2 ^ 32
    let top := min (v + i) (2 ^ 32 - 1)
    let put (s : State) (v : Nat) : State := s.updCore c fun x => { x with cc := AL.put k v x.cc }
    let answer (s : State) (result : Nat) (v : Word) : State :=
      { s with out := { s.out with rsp := s.out.rsp ++ [(c, tag, result, v)] } }
    let under := answer (s.push [.faultCtx r.ctx 0x02 (s.effOf r) k c]) 2 0
    let full : Err := { unit := 3, inst := s.seqPos (c / 8), cls := 1, code := 0x03, ctx := some r.ctx, a := k + 2 ^ 63, b := 3,
                        c := s.effOf r }
    (faulted → exec (.ccSignal c ⟨tag, k⟩ inc) s = .next (answer s 2 0) ∧ exec (.ccWait c tag k) s = .next (answer s 2 0) ∧
      (∀ op, exec (.ccTake c tag k op) s = .next (answer s 2 0)) ∧ exec (.ccRead c tag k) s = .next (answer s 2 0)) ∧
    (¬ faulted → i = 0 → exec (.ccSignal c ⟨tag, k⟩ inc) s = .next (answer s 0 0)) ∧
    (¬ faulted → i ≠ 0 → v + i < 2 ^ 32 ∨ (s.task? r).map Task.ccOver = some true →
      exec (.ccSignal c ⟨tag, k⟩ inc) s = .next ((answer (put s top) 0 0).ccRelease c k (top - v))) ∧
    (¬ faulted → i ≠ 0 → 2 ^ 32 ≤ v + i → (s.task? r).map Task.ccOver ≠ some true → Leads (.ccSignal c ⟨tag, k⟩ inc) s
      ((answer (((put s top).updTask r fun t => { t with ccOver := true }).err full) 0 0).ccRelease c k (top - v))) ∧
    (∀ n,
      let waits := (s.core c).ccWaits.filter fun p => p.1 = k
      let t := s.ccRelease c k n
      ((t.core c).ccWaits.filter fun p => p.1 = k) = waits.drop n ∧
        t.out.rsp = s.out.rsp ++ (waits.take n).map (fun p => (c, p.2, 0, 0)) ∧ t.cc c k = v - min n waits.length) ∧
    (¬ faulted → v ≠ 0 → exec (.ccWait c tag k) s = .next (answer (put s (v - 1)) 0 0) ∧
      exec (.ccTake c tag k 6) s = .next (answer (put s (v - 1)) 0 0)) ∧
    (¬ faulted → v = 0 → exec (.ccWait c tag k) s = .next (s.updCore c fun x => { x with ccWaits := x.ccWaits ++ [(k, tag)] }) ∧
      Leads (.ccTake c tag k 6) s under) ∧
    (∀ op, ¬ faulted → op = 0 ∨ 7 < op → Leads (.ccTake c tag k op) s under) ∧
    (¬ faulted → exec (.ccRead c tag k) s = .next (answer s 0 (BitVec.ofNat 64 v)))

/-! ## Delay list and context timers (04, 07) -/

/-- R109, R82, R53, R108: a tick brings in the spilled entries of its boundary, performs in order every entry due at it, which was
added before it, and `GD_TICK` reports it; the timebase has reached it. At its wake a DELAY task retires,
a posted signal is handed to the counter unit and a posted launch launches, each leaving the list. -/
def Obligations.DelayListActs : Prop :=
  ∀ (s : State) (t : Nat),
    (s.steady → ∀ k, ∃ v, Leads (.delayTick k) s v ∧ v.gd.tick = max s.gd.tick k ∧
      let at' := (s.at (k * 1024)).delayRefill k
      let w := (at'.delayList.filter fun d => decide (d.wake ≤ k * 1024) && decide (d.at_ < k * 1024)).foldl State.perform at'
      v = { w with gd := { w.gd with tick := v.gd.tick } }) ∧
    (∀ d l, s.gcs.changing = false → s.up = true → s.delayList = d :: l →
      let u := s.at t
      d.wake ≤ u.env.now / 1024 * 1024 → d.at_ < u.env.now / 1024 * 1024 →
      let out := (u.delayRefill (u.env.now / 1024)).delayDrop fun x => x = d
      let freed := out.updCtx d.ctx fun x => { x with posted := x.posted - 1 }
      (∀ r, d.act = .task r → Leads (.delayTaskWake t) s (out.retireTask r .normal none none)) ∧
      (∀ v inc q n, d.act = .signal v inc → d.cmd = some (q, n) → Leads (.postedSignalWake t) s
        ((freed.updCmd q n fun x => { x with posted := false }).push [.signal d.ctx v inc { code := 1, arg := q } (some (q, n))])) ∧
      (∀ v inc, d.act = .signal v inc → d.cmd = none → d.owner = none → v < s.idLimit d.ctx → Leads (.postedSignalWake t) s
        (freed.push [.signal d.ctx v inc { code := 2, arg := d.eff } none])) ∧
      (∀ gid base count q n, d.act = .launch gid base count none → d.cmd = some (q, n) → d.owner = none →
        let f := freed.updCmd q n fun x => { x with posted := false }
        (f.launchCheck d.ctx gid true base count = 0 →
          Leads (.postedLaunchWake t) s (f.rootLaunch q n d.ctx gid base count d.wake)) ∧
        (f.launchCheck d.ctx gid true base count = 1 → Leads (.postedLaunchWake t) s (f.complete q n .badParam 3))) ∧
      (∀ gid base count, d.act = .launch gid base count none → d.cmd = none → d.owner = none →
        freed.launchCheck d.ctx gid true base count = 0 → Leads (.postedLaunchWake t) s
          (freed.launch d.ctx gid base count { owner := none, at_ := d.wake }).2))

/-- R172, R171, R174, R178, R179: a quantum window ends and the next begins, and displacement is tested; a suspension completes
once no core holds a task of the context and none of its tasks is speculative, its cached waiters written back, WAITING or SUSPENDED,
PARTIAL where clusters failed; a
freed place goes to the context that displaced for it, or to one that waits, and displacement is tested again; a core that has not
drained by its limit is taken from its task and fails its cluster in a CTX_SUSPEND. -/
def Obligations.ContextTimers : Prop :=
  ∀ (s : State) (c t : Nat),
    let u := s.at t
    let x := u.ctx c
    (x.st = .resident → x.windowAt + x.windowLen ≤ u.env.now →
      let y : Ctx := { x with windowAt := x.windowAt + x.windowLen, windowLen := u.quantumNs c, windowEnded := true, overruns := 0 }
      Leads (.quantumWindowEnd c t) s (u.setCtx c y).displace) ∧
    (x.st = .suspending → (∀ k ∈ u.coresHolding c, k / 8 ∈ x.suspFailed) → u.onGes c = false → (∀ p ∈ u.specTasks, p.1.ctx ≠ c) →
      let y : Ctx := { x with place := none, suspCmd := [], suspHold := false, waitingAt := u.env.now }
      let left := ((((u.writeBackWaiters c).setCtx c y).setCtxState c (if x.suspHold then .suspended else .waiting)).updStop c).stray fun _ y => y = c
      Leads (.suspendComplete c t) s (State.refillAll (State.testPlace (x.suspCmd.foldl (fun s p =>
        let v := s.updCmd p.1 p.2 fun y => { y with failed := x.suspFailed }
        if x.suspFailed = [] then v.complete p.1 p.2 .ok 0 else v.complete p.1 p.2 .partialOk x.suspFailed.length) left) c))) ∧
    (u.fwActs = true → u.gd.heirs = [] →
      (∀ p r k l, u.freePlaces = p :: r → u.candidates = k :: l → Leads (.makeResident t) s (u.enterPlace k p).displace) ∧
      (u.freePlaces = [] ∨ u.candidates = [] → Leads (.makeResident t) s u)) ∧
    (u.fwActs = true → ∀ h p r, u.gd.heirs = [h] → u.wantsPlace h.2 = true → (u.ctx h.1).place = none → u.freePlaces = p :: r →
      Leads (.makeResident t) s (State.enterPlace { u with gd := { u.gd with heirs := [] } } h.2 p).displace) ∧
    (∀ k y, x.st = .suspending → x.suspCmd ≠ [] → s.gcs.changing = false → x.suspBound + 1000000 ≤ u.env.now →
      u.coresHolding c = [k] → (u.core k).running = some y →
      let r := y.p.e.ref
      let fails (v : State) : State := v.updCtx c fun z =>
        { z with suspFailed := if z.suspFailed.contains (k / 8) then z.suspFailed else z.suspFailed ++ [k / 8] }
      let off := fails ((u.forceOff k).dropCoreWaits k)
      let kept := if y.p.e.slot = 0 then off.freeSlots r else
        off.updCtx c fun z => { z with slots := AL.upd z.slots y.p.rslot fun v => { v with saved := true } }
      (y.discard = true → Leads (.suspendDrainLimit c t) s (fails u)) ∧
      (y.discard = false → u.unsaved y = true → Leads (.suspendDrainLimit c t) s (off.taskGone r .discarded)) ∧
      (y.discard = false → u.unsaved y = false → Leads (.suspendDrainLimit c t) s
        ((kept.updTask r fun t => { t with st := .ready, ran := t.ran && decide (y.p.e.slot ≠ 0) }).saveEntry y.p.e)))

/-! ## Relay, herd link and unit faults (11, 12, 15) -/

/-- R255, R256, R260 to R264: a send takes a free credit of its channel, or spills when none is free or its context's messages are
spilled already; one without a ring completes RELAY_FULL, one to a wrong target BAD_TARGET; one to a core of another context is
discarded, as is one of a speculative task, which it refutes and whose answer, ACCEPTED or RELAY_FULL, the spec leaves open (log
entry 13), and one of a suppressed task, ACCEPTED whatever its header (log entry 31); one made while `RLY_CTL.EN` is clear waits at
its port. R258: a delivery moves a channel's oldest message into an empty operand port of a core that runs its context; a read
empties the port, and the credit goes to the oldest spilled message. -/
def Obligations.RelayMessages : Prop :=
  ∀ (s : State) (c : Nat), s.steady →
    (∀ y tag h payload, s.runningOn c = some y → s.rly.en = true → s.relayPaused c = false → s.relayPaused (bits h 7 0) = false →
      let send := Instr.relaySend c tag h payload
      let p := s.xferOpen c 7
      let stray (s : State) : State := { s with rly := { s.rly with stray := s.rly.stray + 1 } }
      let x := y.p.e.ref.ctx
      let t := bits h 7 0
      let k := 16 * t + bits h 11 8
      let m : Msg := { ctx := x, slot := bits h 17 12, port := bits h 19 18, chan := bits h 11 8,
                       data := (List.range (bits h 21 20 + 1)).map fun i => wordAt payload i }
      let answer (s : State) (result : Nat) : State :=
        State.xferOpen { s with out := { s.out with rsp := s.out.rsp ++ [(c, tag, result, 0)] } } c 8
      let sent (s : State) : State := answer { s with rly := { s.rly with sent := s.rly.sent + 1 } } 0
      let quiet : Prop := s.reqSuppressed c { ref := y.p.e.ref, spec := y.p.spec.isSome, suppressed := y.suppressed } = true
      let free : State := { p with freeCount := s.freeCount + 1 }
      let bad : Prop := bits h 63 22 ≠ 0 ∨ s.present (t / 8) = false
      (quiet → exec send s = .next (sent (stray p))) ∧
      (y.p.spec ≠ none → ¬ quiet →
        let v := (stray free).push [.refute y.p.e.ref 3]
        let n := Config.freeValue 1 s.freeCount
        (bad → Leads send s (answer (p.push [.refute y.p.e.ref 3]) 2)) ∧
        (¬ bad → n = 0 → Leads send s (sent v)) ∧
        (¬ bad → n ≠ 0 → Leads send s (answer { v with rly := { v.rly with full := v.rly.full + 1 } } 1))) ∧
      (y.p.spec = none → ¬ quiet →
        (bad → exec send s = .next (answer p 2)) ∧
        (¬ bad →
          (∀ z, s.curCtx t = some z → z ≠ x → exec send s = .next (sent (stray p))) ∧
          (s.curCtx t = none ∨ s.curCtx t = some x →
            let f := p.refill k 8
            let room : Prop := f.creditsUsed k < 8 ∧ (f.chan k).spilled x = []
            (room → exec send s = .next (sent (f.setChan k { f.chan k with
              credits := (f.chan k).credits ++ [m], wr := (f.chan k).wr + m.data.length + 1 }))) ∧
            (¬ room → ∀ v, f.spill k m = some v →
              Leads send s (sent { v with rly := { v.rly with spilled := v.rly.spilled + 1 } })) ∧
            (¬ room → f.spill k m = none → Leads send s (f.relayFull c tag h x)))))) ∧
    (∀ y tag h payload, s.runningOn c = some y → s.rly.en = false → s.relayPaused c = false → s.relayPaused (bits h 7 0) = false →
      let z : Send := { core := c, who := { ref := y.p.e.ref, spec := y.p.spec.isSome, suppressed := y.suppressed }, tag := tag,
                        hdr := h, payload := payload }
      let p := s.xferOpen c 7
      exec (.relaySend c tag h payload) s = .next { p with rly := { p.rly with held := p.rly.held ++ [z] } }) ∧
    (∀ ch m l y, ch < 16 → s.relayPaused c = false →
      let f := s.refill (16 * c + ch) 8
      (f.chan (16 * c + ch)).credits = m :: l → f.runningOn c = some y →
      y.p.e.ref.ctx = m.ctx → AL.has f.rly.ports (256 * c + 4 * m.slot + m.port) = false →
      let v := f.setChan (16 * c + ch) { f.chan (16 * c + ch) with credits := l }
      let r : Rly := { v.rly with ports := AL.put (256 * c + 4 * m.slot + m.port) m v.rly.ports }
      exec (.relayDeliver c ch) s = .next { v with rly := r }) ∧
    (∀ slot port m, AL.get? (256 * c + 4 * slot + port) s.rly.ports = some m →
      let v : State := { s with rly := { s.rly with ports := AL.del s.rly.ports (256 * c + 4 * slot + port) } }
      exec (.operandPortRead c slot port) s = .next (v.refill (16 * c + m.chan) 8) ∧
      ((s.chan (16 * c + m.chan)).chains = [] → v.refill (16 * c + m.chan) 8 = v))

/-- R141, R142, R143, R282, R283, Table 12.5: a queued trailing signal goes onto its channel with the next SEQ; a record that
arrives is tested, and refused, or applied when the counter takes it, if it still passes the tests then, and only then acknowledged (so
too where its counter cannot become resident, the model's choice, log entry 31); an acknowledgement, or 1 ms
without one, settles its record; a link that restarts or cannot be reached fails its records. -/
def Obligations.TrailingSignals : Prop :=
  ∀ s : State, s.steady →
    (∀ t x l, s.up = true → s.ctu.toSend = x :: l →
      let u := s.at t
      let n := AL.get s.ctu.seqOut x.dest
      let words : List Word := [wd (fld x.inc 32 32 + fld (b2n x.poison) 1 28 + fld s.gcs.herdAddr 10 18 + fld x.dest 10 8 + 1),
        x.handle, wd (fld n 48 0), 0]
      let k : Ctu := { s.ctu with toSend := l, seqOut := AL.put x.dest (n + 1) s.ctu.seqOut,
                                  sent := s.ctu.sent ++ [{ x with seq := n, sentAt := u.env.now }] }
      exec (.trailSend t) s = .next { u with ctu := k, out := { s.out with link := s.out.link ++ [words] } }) ∧
    (∀ w0 w1 w2, bits w0 7 0 = 1 →
      let key := (bits w0 27 18, bits w2 47 0)
      let r := s.trailTest w1
      let ack : List Word := [wd (fld (bits w0 63 32) 32 32 + fld (bits w0 17 8) 10 18 + fld key.1 10 8 + 2), w1, wd (fld key.2 48 0), wd r]
      let o : Out := { s.out with link := s.out.link ++ [ack] }
      let x : Trail := { inc := bits w0 63 32, handle := w1, poison := bit w0 28 }
      (key ∈ s.ctu.seen → exec (.trailReceive w0 w1 w2) s = .next s) ∧
      (key ∉ s.ctu.seen →
        (r = 0 → Leads (.trailReceive w0 w1 w2) s
          ({ s with ctu := { s.ctu with seen := s.ctu.seen ++ [key] } }.push [.trailAct x key.1 ack])) ∧
        (r ≠ 0 → exec (.trailReceive w0 w1 w2) s = .next
          { s with ctu := { s.ctu with seen := s.ctu.seen ++ [key], refused := min (s.ctu.refused + 1) 0xFFFF }, out := o }))) ∧
    (∀ (m : State) (x : Trail) (source : Nat) (ack : List Word),
      let c := bits x.handle 59 48
      let v := bits x.handle 47 24
      let r := m.trailTest x.handle
      let k := if x.poison then m.doWork (.poison c v) else m.doWork (.signal c v x.inc { code := 4, arg := source } none)
      let late : State := { m with ctu := { m.ctu with refused := min (m.ctu.refused + 1) 0xFFFF } }
      (r = 0 → ack = [] → m.doWork (.trailAct x source ack) = k.trailSettled x none) ∧
      (r = 0 → ack ≠ [] → m.doWork (.trailAct x source ack) = { k with out := { k.out with link := k.out.link ++ [ack] } }) ∧
      (r ≠ 0 → ack = [] → m.doWork (.trailAct x source ack) = late.trailSettled x (some r)) ∧
      (r ≠ 0 → ack ≠ [] → m.doWork (.trailAct x source ack) =
        { late with out := { m.out with link := m.out.link ++ [ack.take 3 ++ [wd r]] } }) ∧
      (let h := x.handle
        let good : Prop := bits h 63 60 = 1 ∧ bits h 7 0 = handleCheck h ∧ m.defined c = true ∧ (m.ctx c).gen = bits h 23 8 ∧
          v < m.idLimit c ∧ (m.ctr c v).exported = true
        (m.ctu.trailEn = false → r = 2) ∧ (m.ctu.trailEn = true → ¬ good → r = 1) ∧ (m.ctu.trailEn = true → good → r = 0))) ∧
    (let closed (u : State) (x : Trail) : State :=
        { u with ctu := { u.ctu with sent := u.ctu.sent.filter fun y => !(decide (y.dest = x.dest) && decide (y.seq = x.seq)) } };
      (∀ w0 w1 w2 w3 x, s.ctu.sent.find? (fun x => decide (x.dest = bits w0 27 18) && decide (x.seq = bits w2 47 0)) = some x →
        Leads (.trailAckReceive w0 w1 w2 w3) s
          ((closed s x).trailSettled x (if bits w3 1 0 = 0 then none else some (bits w3 1 0)))) ∧
      (∀ dest seq t x, s.ctu.sent.find? (fun x => decide (x.dest = dest) && decide (x.seq = seq)) = some x →
        (∀ y ∈ s.ctu.sent, y.dest = dest → y.seq = seq → y = x) →
        (x.sentAt + 1000000 ≤ (s.at t).env.now →
          Leads (.trailTimeout dest seq t) s ((closed (s.at t) x).trailSettled x (some 0))) ∧
        ((s.at t).env.now < x.sentAt + 1000000 → exec (.trailTimeout dest seq t) s = .next (s.at t)))) ∧
    (∀ herd,
      let f := s.trailFailAll herd 3
      Leads (.linkReset herd) s { f with ctu := { f.ctu with
        seqOut := AL.del f.ctu.seqOut herd, seen := f.ctu.seen.filter fun p => p.1 ≠ herd,
        down := f.ctu.down.filter fun d => d ≠ herd } } ∧
      Leads (.linkUnreachable herd) s ((f.ctu.toSend.filter fun x => x.dest = herd).foldl (fun s x => s.trailSettled x (some 3))
        { f with ctu := { f.ctu with
          toSend := f.ctu.toSend.filter fun x => x.dest ≠ herd,
          down := if f.ctu.down.contains herd then f.ctu.down else f.ctu.down ++ [herd] } }))

/-- R335, R336, R271, R338, R339, R340, R342, R343, Tables 15.3 to 15.6: the first correction of a row, and one a second after, writes
SRAM_CE; the 64th of a heap bank or a counter-store row within an hour treats it as worn; an uncorrectable error of a storage is
corrected, loses a task, remounts a unit, or faults what it names, with SRAM_UE, as Table 15.4 says, rows and entries numbered as
log entry 30 says; a pointer mismatch empties its queue with a PTR_MISMATCH record and faults the contexts concerned; a margin is
noted, and a worn stage of a running block is recorded and, at the drained point of its unit, regroomed, or remounted, kept or withdrawn
while role 2 runs, and waits for it otherwise; a
remount noted before takes place at its drained point, its record waiting for role 2. -/
def Obligations.UnitFaults : Prop :=
  ∀ (s : State) (inst row t : Nat), s.work = [] → s.gcs.state ≠ 0 →
    let u := s.at t
    let err (storage : Nat) : Instr := .sramError storage inst row true t
    let used (v : State) (kind phys : Nat) : Prop := v.logicalOf kind phys ≠ none ∨ v.freeSpare kind phys = true
    (∀ storage, 1 ≤ storage → storage ≤ 16 →
      let key := (storage, inst * 2 ^ 32 + row)
      let row' := if storage = 3 then (3, inst) else (4, row)
      let total := min (AL.get s.fsu.ceTotal storage + 1) (2 ^ 64 - 1)
      let f : Fsu := { s.fsu with ceTotal := AL.put storage total s.fsu.ceTotal }
      let e : Err := { unit := storageUnit storage, inst := storageInst storage inst, cls := 1, code := 0x12, a := storage, b := row,
                       c := total }
      let counted (v : State) : Prop :=
        let now := u.env.now
        let hour := ((AL.get v.fsu.ceHour key).filter fun t => now < t + 3600000000000) ++ [now]
        let k : State := { v with fsu := { v.fsu with ceHour := AL.put key (if 64 ≤ hour.length then [] else hour) v.fsu.ceHour } }
        (storage ≠ 3 → storage ≠ 4 → exec (.sramError storage inst row false t) s = .next v) ∧
        (storage = 3 ∨ storage = 4 →
          (hour.length < 64 ∨ ¬ used v row'.1 row'.2 → exec (.sramError storage inst row false t) s = .next k) ∧
          (64 ≤ hour.length → used v row'.1 row'.2 →
            Leads (.sramError storage inst row false t) s (k.decideRemount row'.1 row'.2 0x12)))
      (AL.get? key s.fsu.ces = none → counted (State.err { u with fsu := { f with ces := AL.put key (1, u.env.now) s.fsu.ces } } e)) ∧
      (∀ p, AL.get? key s.fsu.ces = some p →
        (p.2 + 1000000000 ≤ u.env.now →
          counted (State.err { u with fsu := { f with ces := AL.put key (p.1 + 1, u.env.now) s.fsu.ces } } e)) ∧
        (u.env.now < p.2 + 1000000000 → counted { u with fsu := { f with ces := AL.put key (p.1 + 1, p.2) s.fsu.ces } }))) ∧
    (let ue (s : State) (storage cls : Nat) (cs : List Nat) : State :=
        (s.err { unit := storageUnit storage, inst := storageInst storage inst, cls := cls, code := 0x13,
                 ctx := if cs.length = 1 then cs.head? else none, a := storage, b := row, c := cs.length }).push
          (cs.map fun c => .faultQuiet c 0x13)
      let corrected (storage : Nat) : Prop :=
        ∀ v, exec (.sramError storage inst row false t) s = .next v → Leads (err storage) s v
      let faults (storage : Nat) (cs : List Nat) : Prop := Leads (err storage) s (ue u storage 2 cs.eraseDups)
      let failed (storage kind phys : Nat) (v : State) : Prop :=
        (used v kind phys → Leads (err storage) s (v.decideRemount kind phys 0x13)) ∧ (¬ used v kind phys → Leads (err storage) s v)
      let line := AL.get? (row / 16, row % 16) u.dcache.lines
      let task := (u.logicalOf 2 inst).bind fun n => (u.entryTask (8 * n + row / 16) (row % 16)).map fun r => (n, r)
      let cached := u.ctu.waiters.filter Waiter.cached
      let flows := u.gd.flows.filter fun p => !p.2.spilled
      let slots := u.car.slots.filter fun p => p.2.st ≠ .free
      let ch := row / 8
      (line = none → corrected 1) ∧
      (∀ l v, line = some l → exec (.sramError 1 inst row false t) s = .next v →
        Leads (err 1) s ((v.dcDrop fun x => x = l).dcRead l)) ∧
      (task = none → corrected 2) ∧ (∀ n r, task = some (n, r) → Leads (err 2) s ((ue u 2 2 []).loseTask n r)) ∧
      failed 3 3 inst (ue u 3 2 (u.definedList.filter fun c =>
        (u.ctx c).place.isSome && decide (some (u.ctx c).bank = u.logicalOf 3 inst)).eraseDups) ∧
      failed 4 4 row (ue u 4 2
        ((u.ctu.phys.filter fun p => some (p.idx / 1024) = u.logicalOf 4 row).map Phys.ctx).eraseDups) ∧
      corrected 5 ∧ corrected 12 ∧
      (∀ x l, cached.drop row = x :: l → faults 6 [x.ctx]) ∧ (cached.drop row = [] → faults 6 (cached.map Waiter.ctx)) ∧
      (s.defined row = true → faults 7 [row]) ∧
      (s.defined row = false → faults 7 (u.definedList.filter fun c => (u.ctx c).insts ≠ [])) ∧
      (∀ x l, flows.drop row = x :: l → faults 8 [x.1.1]) ∧ (flows.drop row = [] → faults 8 (flows.map fun p => p.1.1)) ∧
      ((u.carSlot row).st ≠ .free → faults 9 [(u.carSlot row).ctx]) ∧
      ((u.carSlot row).st = .free → faults 9 (slots.map fun p => p.2.ctx).eraseDups) ∧
      (u.plu.preds.drop row = [] → corrected 10) ∧
      (∀ p l v, u.plu.preds.drop row = p :: l → exec (.sramError 10 inst row false t) s = .next v →
        Leads (err 10) s (v.flushPreds fun x => x = p)) ∧
      (2 ^ 63 ≤ row → Leads (err 11) s ((ue u 11 2 [row / 4096 % 4096]).ringRewind (row % 4096) (row / 4096 % 4096))) ∧
      (row < 2 ^ 63 → ∀ m l, (AL.get u.rly.chans ch).credits.drop (row % 8) = m :: l → faults 11 [m.ctx]) ∧
      (row < 2 ^ 63 → (AL.get u.rly.chans ch).credits.drop (row % 8) = [] →
        faults 11 (u.rly.chans.flatMap fun p => p.2.credits.map Msg.ctx).eraseDups) ∧
      (2 ^ 63 ≤ row → Leads (err 13) s ((ue u 13 2 []).geTrap inst 2)) ∧
      (row < 2 ^ 63 → Leads (err 13) s ((ue u 13 2 []).geFail inst 0)) ∧
      Leads (err 14) s (ue u 14 3 []) ∧
      Leads (err 15) s (ue { u with fwc := { s.fwc with sramOk := false } } 15 3 []) ∧
      Leads (err 16) s (ue u 16 3 [])) ∧
    (let record (s : State) (unit kind wr : Nat) (ctx : Option Nat) : State :=
        s.err { unit := unit, inst := 0, cls := 2, code := 0x08, ctx := ctx, a := kind, b := if kind = 1 then inst else 0, c := wr };
      (∀ ctx,
        let ch := 16 * (inst % 256) + inst / 256 % 16
        let r : Rly := { s.rly with chans := AL.put ch { AL.get s.rly.chans ch with credits := [] } s.rly.chans }
        Leads (.ptrMismatch 1 inst ctx t) s ((record { u with rly := r } 8 1 (AL.get s.rly.chans ch).wr (some ctx)).push
          [.faultQuiet ctx 0x08])) ∧
      Leads (.ptrMismatch 6 inst row t) s (record { u with fsu := { s.fsu with errHead := s.fsu.errTail, errArmed := true } } 0x0A 6
        s.fsu.errTail.toNat none) ∧
      Leads (.ptrMismatch 8 inst row t) s (record { u with fsu := { s.fsu with staging := [] } } 0x0A 8 s.fsu.stageWr none).stageLost) ∧
    (∀ x : Wear,
      let lower := x.margin < s.fsu.worst
      let f : Fsu := { s.fsu with worst := if lower then x.margin else s.fsu.worst, stage := if lower then x.stage else s.fsu.stage }
      let unit := (x.kind, x.inst)
      let noted : State := { u with fsu := { f with margins := AL.put unit (x.margin63, x.stage) f.margins } }
      let acted (c : Nat) : State :=
        let e := noted.err { unit := kindUnit x.kind, inst := u.kindInst x.kind x.inst, cls := 1, code := 0x14, a := x.stage,
                             b := x.margin, c := c }
        { e with fsu := { e.fsu with events := min (e.fsu.events + 1) 0xFFFF } }
      (s.up = false ∨ s.fsu.wearLimit ≤ x.margin → exec (.wearDetect x t) s = .next { u with fsu := f }) ∧
      (s.up = true → x.margin < s.fsu.wearLimit → s.roleRuns 2 = false →
        exec (.wearDetect x t) s = .next { u with fsu := { f with heldWear := f.heldWear ++ [(x, false)] } }) ∧
      (s.up = true → x.margin < s.fsu.wearLimit → s.roleRuns 2 = true → u.remounting x.kind x.inst = false →
        x.kind ≠ 2 ∨ (u.seqr x.inst).valid = true →
        ∀ l, u.logicalOf x.kind x.inst = some l →
          let spare : Prop := u.spareFor x.kind x.inst ≠ none ∨ u.freeSpare x.kind x.inst = true
          (s.fsu.wearLimit ≤ x.margin63 → Leads (.wearDetect x t) s ((acted 1).push [.regroom x.kind x.inst x.stage])) ∧
          (x.margin63 < s.fsu.wearLimit → spare → Leads (.wearDetect x t) s ((acted 2).decideRemount x.kind x.inst 0x14)) ∧
          (x.margin63 < s.fsu.wearLimit → ¬ spare → noted.keeps x.kind x.inst 0x14 = true →
            Leads (.wearDetect x t) s ((acted 3).keepUnit x.kind x.inst)) ∧
          (x.margin63 < s.fsu.wearLimit → ¬ spare → noted.keeps x.kind x.inst 0x14 = false →
            Leads (.wearDetect x t) s ((acted 4).startLeaving x.kind l x.inst 0x14)))) ∧
    (∀ kind cause, (kind, inst, cause) ∈ s.fsu.remounts → u.drained kind inst = true → s.up = true → s.gcs.changing = false →
      (kind, inst) ∉ s.fsu.leaving →
      let d : State := { u with fsu := { s.fsu with remounts := s.fsu.remounts.filter fun p => p ≠ (kind, inst, cause) } }
      let cmd : Instr := .remount kind inst cause t
      s.roleRuns 2 = true ∨ (∃ new, AL.get? (kind, inst) s.fsu.chosen = some new ∧ u.freeSpare kind new = true) →
        ∀ l, d.logicalOf kind inst = some l →
          (∀ new, d.spareOf? kind inst = some new →
            let m := ((d.moveUnit kind l inst new).useSpare kind).markRetired kind inst
            let o : State := { m with fsu := { m.fsu with remounted := true } }
            (o.roleRuns 2 = true → Leads cmd s (State.refillAll (((o.setTack { o.tack with
              repair := o.tack.repair ++ [(kind, inst)] }).stage 0x04 [wd kind, wd inst, wd new, wd cause]).health))) ∧
            (o.roleRuns 2 = false → Leads cmd s (State.refillAll
              { o with fsu := { o.fsu with unrecorded := o.fsu.unrecorded ++ [(kind, inst, new, cause)] } }))) ∧
          (d.spareOf? kind inst = none → Leads cmd s (d.lastResort kind l inst cause).refillAll))
end

