-- ==== Sys2Proof/Laws/Settle.lean ====
section
/-!
SUPPORT. Laws of settling: nothing waits, nothing can be taken, one action, and the rest.
-/
namespace Sys2Proof.Machine

theorem settleN_none {n : Nat} {s : State} (h : takeWork s.holds s.work = none) : settleN n s = s := by
  cases n with
  | zero => rfl
  | succ n => rw [settleN, h]

theorem settleN_some {n : Nat} {s : State} {w : Work} {ws : List Work} (h : takeWork s.holds s.work = some (w, ws)) :
    settleN (n + 1) s = settleN n (({ s with work := ws }).doWork w) := by
  rw [settleN, h]

/-- Nothing waits: nothing happens. -/
theorem settle_nil {s : State} (h : s.work = []) : settle s = s := settleN_none (by rw [h]; rfl)

/-- Everything that waits is held back: nothing happens. -/
theorem settle_none {s : State} (h : takeWork s.holds s.work = none) : settle s = s := settleN_none h

/-- The first action that can be taken is performed; the others follow. -/
theorem settle_some {s : State} {w : Work} {ws : List Work} (h : takeWork s.holds s.work = some (w, ws)) :
    settle s = settleN 999999 (({ s with work := ws }).doWork w) := settleN_some h

/-- One action that pushes nothing. -/
theorem settle_one {s : State} {w : Work} (h : s.work = [w]) (hw : s.holds w = false)
    (hn : (({ s with work := [] }).doWork w).work = []) : settle s = ({ s with work := [] }).doWork w := by
  rw [settle_some (w := w) (ws := []) (by rw [h]; simp [takeWork, hw])]
  exact settleN_none (by rw [hn]; rfl)

theorem takeWork_cons {held : Work → Bool} {w : Work} {ws : List Work} (h : held w = false) :
    takeWork held (w :: ws) = some (w, ws) := by
  simp [takeWork, h]

theorem takeWork_all_held {held : Work → Bool} {l : List Work} (h : ∀ w ∈ l, held w = true) : takeWork held l = none := by
  induction l with
  | nil => rfl
  | cons w r ih => simp [takeWork, h w (by simp), ih fun x hx => h x (by simp [hx])]

end Sys2Proof.Machine
end

