-- ==== Sys2Proof/Laws/Acts.lean ====
section
/-!
SUPPORT. Laws of internal actions: settling performs nothing else.
-/
namespace Sys2Proof.Machine

theorem acts_settleN (n : Nat) (s : State) : Acts s (settleN n s) := by
  induction n generalizing s with
  | zero => exact .here s
  | succ n ih =>
    cases h : takeWork s.holds s.work with
    | none => rw [settleN_none h]; exact .here s
    | some p =>
      obtain ⟨w, ws⟩ := p
      rw [settleN_some h]
      exact .act h (ih _)

/-- A settled state follows by actions alone. -/
theorem acts_settle (s : State) : Acts s (settle s) := acts_settleN _ s

/-- After the first action, the rest. -/
theorem acts_settle_cons {s : State} {w : Work} {ws : List Work} (h : takeWork s.holds s.work = some (w, ws)) :
    Acts (({ s with work := ws }).doWork w) (settle s) := by
  rw [settle_some h]
  exact acts_settleN _ _

theorem Acts.trans {s t u : State} (h : Acts s t) (k : Acts t u) : Acts s u := by
  induction h with
  | here => exact k
  | act e _ ih => exact .act e (ih k)

/-- The only action in flight is taken first. -/
theorem takeWork_single {held : Work → Bool} {w : Work} (h : held w = false) : takeWork held [w] = some (w, []) :=
  takeWork_cons h

end Sys2Proof.Machine
end

