-- ==== Sys2Proof/Laws/State.lean ====
section
/-!
SUPPORT. Laws of keyed lists and of the named updates of the state: what an update leaves, field by field, and what an
accessor reads after it.
-/
namespace Sys2Proof.Machine

/-! ## Keyed lists -/

section
variable {κ α : Type} [DecidableEq κ]

@[simp] theorem AL.get?_nil (k : κ) : AL.get? k ([] : List (κ × α)) = none := rfl

@[simp] theorem AL.get?_put_self (k : κ) (v : α) (m : List (κ × α)) : AL.get? k (AL.put k v m) = some v := by
  induction m with
  | nil => simp [AL.put, AL.get?]
  | cons p r ih =>
    obtain ⟨k', v'⟩ := p
    unfold AL.put
    by_cases h : k' = k
    · simp [h, AL.get?]
    · simp [h, AL.get?, ih]

theorem AL.get?_put_ne {k j : κ} (h : j ≠ k) (v : α) (m : List (κ × α)) : AL.get? j (AL.put k v m) = AL.get? j m := by
  induction m with
  | nil => simp [AL.put, AL.get?, Ne.symm h]
  | cons p r ih =>
    obtain ⟨k', v'⟩ := p
    unfold AL.put
    by_cases e : k' = k
    · subst e
      simp [AL.get?, Ne.symm h]
    · simp only [e, if_false, AL.get?, ih]

variable [Inhabited α]

@[simp] theorem AL.get_nil (k : κ) : AL.get ([] : List (κ × α)) k = default := rfl

@[simp] theorem AL.get_put_self (k : κ) (v : α) (m : List (κ × α)) : AL.get (AL.put k v m) k = v := by
  simp [AL.get]

theorem AL.get_put_ne {k j : κ} (h : j ≠ k) (v : α) (m : List (κ × α)) : AL.get (AL.put k v m) j = AL.get m j := by
  simp [AL.get, AL.get?_put_ne h]

@[simp] theorem AL.get_upd_self (m : List (κ × α)) (k : κ) (f : α → α) : AL.get (AL.upd m k f) k = f (AL.get m k) := by
  simp [AL.upd]

theorem AL.get_upd_ne {k j : κ} (h : j ≠ k) (m : List (κ × α)) (f : α → α) : AL.get (AL.upd m k f) j = AL.get m j := by
  simp [AL.upd, AL.get_put_ne h]

end

/-! ## `State.at` -/

@[simp] theorem State.at_mem (s : State) (t : Nat) : (s.at t).mem = s.mem := rfl
@[simp] theorem State.at_hostMem (s : State) (t : Nat) : (s.at t).hostMem = s.hostMem := rfl
@[simp] theorem State.at_freeCount (s : State) (t : Nat) : (s.at t).freeCount = s.freeCount := rfl
@[simp] theorem State.at_pending (s : State) (t : Nat) : (s.at t).pending = s.pending := rfl
@[simp] theorem State.at_work (s : State) (t : Nat) : (s.at t).work = s.work := rfl
@[simp] theorem State.at_out (s : State) (t : Nat) : (s.at t).out = s.out := rfl
@[simp] theorem State.at_gcs (s : State) (t : Nat) : (s.at t).gcs = s.gcs := rfl
@[simp] theorem State.at_cfe (s : State) (t : Nat) : (s.at t).cfe = s.cfe := rfl
@[simp] theorem State.at_ctxs (s : State) (t : Nat) : (s.at t).ctxs = s.ctxs := rfl
@[simp] theorem State.at_gd (s : State) (t : Nat) : (s.at t).gd = s.gd := rfl
@[simp] theorem State.at_csq (s : State) (t : Nat) : (s.at t).csq = s.csq := rfl
@[simp] theorem State.at_ctu (s : State) (t : Nat) : (s.at t).ctu = s.ctu := rfl
@[simp] theorem State.at_plu (s : State) (t : Nat) : (s.at t).plu = s.plu := rfl
@[simp] theorem State.at_dcache (s : State) (t : Nat) : (s.at t).dcache = s.dcache := rfl
@[simp] theorem State.at_ges (s : State) (t : Nat) : (s.at t).ges = s.ges := rfl
@[simp] theorem State.at_car (s : State) (t : Nat) : (s.at t).car = s.car := rfl
@[simp] theorem State.at_rly (s : State) (t : Nat) : (s.at t).rly = s.rly := rfl
@[simp] theorem State.at_stat (s : State) (t : Nat) : (s.at t).stat = s.stat := rfl
@[simp] theorem State.at_tth (s : State) (t : Nat) : (s.at t).tth = s.tth := rfl
@[simp] theorem State.at_fwc (s : State) (t : Nat) : (s.at t).fwc = s.fwc := rfl
@[simp] theorem State.at_i3c (s : State) (t : Nat) : (s.at t).i3c = s.i3c := rfl
@[simp] theorem State.at_fsu (s : State) (t : Nat) : (s.at t).fsu = s.fsu := rfl
@[simp] theorem State.at_flash (s : State) (t : Nat) : (s.at t).flash = s.flash := rfl

/-! ## `State.push` -/

@[simp] theorem State.push_env (s : State) (w : List Work) : (s.push w).env = s.env := rfl
@[simp] theorem State.push_mem (s : State) (w : List Work) : (s.push w).mem = s.mem := rfl
@[simp] theorem State.push_hostMem (s : State) (w : List Work) : (s.push w).hostMem = s.hostMem := rfl
@[simp] theorem State.push_freeCount (s : State) (w : List Work) : (s.push w).freeCount = s.freeCount := rfl
@[simp] theorem State.push_pending (s : State) (w : List Work) : (s.push w).pending = s.pending := rfl
@[simp] theorem State.push_out (s : State) (w : List Work) : (s.push w).out = s.out := rfl
@[simp] theorem State.push_gcs (s : State) (w : List Work) : (s.push w).gcs = s.gcs := rfl
@[simp] theorem State.push_cfe (s : State) (w : List Work) : (s.push w).cfe = s.cfe := rfl
@[simp] theorem State.push_ctxs (s : State) (w : List Work) : (s.push w).ctxs = s.ctxs := rfl
@[simp] theorem State.push_gd (s : State) (w : List Work) : (s.push w).gd = s.gd := rfl
@[simp] theorem State.push_csq (s : State) (w : List Work) : (s.push w).csq = s.csq := rfl
@[simp] theorem State.push_ctu (s : State) (w : List Work) : (s.push w).ctu = s.ctu := rfl
@[simp] theorem State.push_plu (s : State) (w : List Work) : (s.push w).plu = s.plu := rfl
@[simp] theorem State.push_dcache (s : State) (w : List Work) : (s.push w).dcache = s.dcache := rfl
@[simp] theorem State.push_ges (s : State) (w : List Work) : (s.push w).ges = s.ges := rfl
@[simp] theorem State.push_car (s : State) (w : List Work) : (s.push w).car = s.car := rfl
@[simp] theorem State.push_rly (s : State) (w : List Work) : (s.push w).rly = s.rly := rfl
@[simp] theorem State.push_stat (s : State) (w : List Work) : (s.push w).stat = s.stat := rfl
@[simp] theorem State.push_tth (s : State) (w : List Work) : (s.push w).tth = s.tth := rfl
@[simp] theorem State.push_fwc (s : State) (w : List Work) : (s.push w).fwc = s.fwc := rfl
@[simp] theorem State.push_i3c (s : State) (w : List Work) : (s.push w).i3c = s.i3c := rfl
@[simp] theorem State.push_fsu (s : State) (w : List Work) : (s.push w).fsu = s.fsu := rfl
@[simp] theorem State.push_flash (s : State) (w : List Work) : (s.push w).flash = s.flash := rfl

/-! ## `State.msix` -/

@[simp] theorem State.msix_env (s : State) (v : Nat) : (s.msix v).env = s.env := rfl
@[simp] theorem State.msix_mem (s : State) (v : Nat) : (s.msix v).mem = s.mem := rfl
@[simp] theorem State.msix_hostMem (s : State) (v : Nat) : (s.msix v).hostMem = s.hostMem := rfl
@[simp] theorem State.msix_freeCount (s : State) (v : Nat) : (s.msix v).freeCount = s.freeCount := rfl
@[simp] theorem State.msix_pending (s : State) (v : Nat) : (s.msix v).pending = s.pending := rfl
@[simp] theorem State.msix_work (s : State) (v : Nat) : (s.msix v).work = s.work := rfl
@[simp] theorem State.msix_gcs (s : State) (v : Nat) : (s.msix v).gcs = s.gcs := rfl
@[simp] theorem State.msix_cfe (s : State) (v : Nat) : (s.msix v).cfe = s.cfe := rfl
@[simp] theorem State.msix_ctxs (s : State) (v : Nat) : (s.msix v).ctxs = s.ctxs := rfl
@[simp] theorem State.msix_gd (s : State) (v : Nat) : (s.msix v).gd = s.gd := rfl
@[simp] theorem State.msix_csq (s : State) (v : Nat) : (s.msix v).csq = s.csq := rfl
@[simp] theorem State.msix_ctu (s : State) (v : Nat) : (s.msix v).ctu = s.ctu := rfl
@[simp] theorem State.msix_plu (s : State) (v : Nat) : (s.msix v).plu = s.plu := rfl
@[simp] theorem State.msix_dcache (s : State) (v : Nat) : (s.msix v).dcache = s.dcache := rfl
@[simp] theorem State.msix_ges (s : State) (v : Nat) : (s.msix v).ges = s.ges := rfl
@[simp] theorem State.msix_car (s : State) (v : Nat) : (s.msix v).car = s.car := rfl
@[simp] theorem State.msix_rly (s : State) (v : Nat) : (s.msix v).rly = s.rly := rfl
@[simp] theorem State.msix_stat (s : State) (v : Nat) : (s.msix v).stat = s.stat := rfl
@[simp] theorem State.msix_tth (s : State) (v : Nat) : (s.msix v).tth = s.tth := rfl
@[simp] theorem State.msix_fwc (s : State) (v : Nat) : (s.msix v).fwc = s.fwc := rfl
@[simp] theorem State.msix_i3c (s : State) (v : Nat) : (s.msix v).i3c = s.i3c := rfl
@[simp] theorem State.msix_fsu (s : State) (v : Nat) : (s.msix v).fsu = s.fsu := rfl
@[simp] theorem State.msix_flash (s : State) (v : Nat) : (s.msix v).flash = s.flash := rfl

/-! ## `State.setQueue` -/

@[simp] theorem State.setQueue_env (s : State) (q : Nat) (x : Queue) : (s.setQueue q x).env = s.env := rfl
@[simp] theorem State.setQueue_mem (s : State) (q : Nat) (x : Queue) : (s.setQueue q x).mem = s.mem := rfl
@[simp] theorem State.setQueue_hostMem (s : State) (q : Nat) (x : Queue) : (s.setQueue q x).hostMem = s.hostMem := rfl
@[simp] theorem State.setQueue_freeCount (s : State) (q : Nat) (x : Queue) : (s.setQueue q x).freeCount = s.freeCount := rfl
@[simp] theorem State.setQueue_pending (s : State) (q : Nat) (x : Queue) : (s.setQueue q x).pending = s.pending := rfl
@[simp] theorem State.setQueue_work (s : State) (q : Nat) (x : Queue) : (s.setQueue q x).work = s.work := rfl
@[simp] theorem State.setQueue_out (s : State) (q : Nat) (x : Queue) : (s.setQueue q x).out = s.out := rfl
@[simp] theorem State.setQueue_gcs (s : State) (q : Nat) (x : Queue) : (s.setQueue q x).gcs = s.gcs := rfl
@[simp] theorem State.setQueue_ctxs (s : State) (q : Nat) (x : Queue) : (s.setQueue q x).ctxs = s.ctxs := rfl
@[simp] theorem State.setQueue_gd (s : State) (q : Nat) (x : Queue) : (s.setQueue q x).gd = s.gd := rfl
@[simp] theorem State.setQueue_csq (s : State) (q : Nat) (x : Queue) : (s.setQueue q x).csq = s.csq := rfl
@[simp] theorem State.setQueue_ctu (s : State) (q : Nat) (x : Queue) : (s.setQueue q x).ctu = s.ctu := rfl
@[simp] theorem State.setQueue_plu (s : State) (q : Nat) (x : Queue) : (s.setQueue q x).plu = s.plu := rfl
@[simp] theorem State.setQueue_dcache (s : State) (q : Nat) (x : Queue) : (s.setQueue q x).dcache = s.dcache := rfl
@[simp] theorem State.setQueue_ges (s : State) (q : Nat) (x : Queue) : (s.setQueue q x).ges = s.ges := rfl
@[simp] theorem State.setQueue_car (s : State) (q : Nat) (x : Queue) : (s.setQueue q x).car = s.car := rfl
@[simp] theorem State.setQueue_rly (s : State) (q : Nat) (x : Queue) : (s.setQueue q x).rly = s.rly := rfl
@[simp] theorem State.setQueue_stat (s : State) (q : Nat) (x : Queue) : (s.setQueue q x).stat = s.stat := rfl
@[simp] theorem State.setQueue_tth (s : State) (q : Nat) (x : Queue) : (s.setQueue q x).tth = s.tth := rfl
@[simp] theorem State.setQueue_fwc (s : State) (q : Nat) (x : Queue) : (s.setQueue q x).fwc = s.fwc := rfl
@[simp] theorem State.setQueue_i3c (s : State) (q : Nat) (x : Queue) : (s.setQueue q x).i3c = s.i3c := rfl
@[simp] theorem State.setQueue_fsu (s : State) (q : Nat) (x : Queue) : (s.setQueue q x).fsu = s.fsu := rfl
@[simp] theorem State.setQueue_flash (s : State) (q : Nat) (x : Queue) : (s.setQueue q x).flash = s.flash := rfl

/-! ## `State.setSlot` -/

@[simp] theorem State.setSlot_env (s : State) (n : Nat) (x : Slot) : (s.setSlot n x).env = s.env := rfl
@[simp] theorem State.setSlot_mem (s : State) (n : Nat) (x : Slot) : (s.setSlot n x).mem = s.mem := rfl
@[simp] theorem State.setSlot_hostMem (s : State) (n : Nat) (x : Slot) : (s.setSlot n x).hostMem = s.hostMem := rfl
@[simp] theorem State.setSlot_freeCount (s : State) (n : Nat) (x : Slot) : (s.setSlot n x).freeCount = s.freeCount := rfl
@[simp] theorem State.setSlot_pending (s : State) (n : Nat) (x : Slot) : (s.setSlot n x).pending = s.pending := rfl
@[simp] theorem State.setSlot_work (s : State) (n : Nat) (x : Slot) : (s.setSlot n x).work = s.work := rfl
@[simp] theorem State.setSlot_out (s : State) (n : Nat) (x : Slot) : (s.setSlot n x).out = s.out := rfl
@[simp] theorem State.setSlot_gcs (s : State) (n : Nat) (x : Slot) : (s.setSlot n x).gcs = s.gcs := rfl
@[simp] theorem State.setSlot_ctxs (s : State) (n : Nat) (x : Slot) : (s.setSlot n x).ctxs = s.ctxs := rfl
@[simp] theorem State.setSlot_gd (s : State) (n : Nat) (x : Slot) : (s.setSlot n x).gd = s.gd := rfl
@[simp] theorem State.setSlot_csq (s : State) (n : Nat) (x : Slot) : (s.setSlot n x).csq = s.csq := rfl
@[simp] theorem State.setSlot_ctu (s : State) (n : Nat) (x : Slot) : (s.setSlot n x).ctu = s.ctu := rfl
@[simp] theorem State.setSlot_plu (s : State) (n : Nat) (x : Slot) : (s.setSlot n x).plu = s.plu := rfl
@[simp] theorem State.setSlot_dcache (s : State) (n : Nat) (x : Slot) : (s.setSlot n x).dcache = s.dcache := rfl
@[simp] theorem State.setSlot_ges (s : State) (n : Nat) (x : Slot) : (s.setSlot n x).ges = s.ges := rfl
@[simp] theorem State.setSlot_car (s : State) (n : Nat) (x : Slot) : (s.setSlot n x).car = s.car := rfl
@[simp] theorem State.setSlot_rly (s : State) (n : Nat) (x : Slot) : (s.setSlot n x).rly = s.rly := rfl
@[simp] theorem State.setSlot_stat (s : State) (n : Nat) (x : Slot) : (s.setSlot n x).stat = s.stat := rfl
@[simp] theorem State.setSlot_tth (s : State) (n : Nat) (x : Slot) : (s.setSlot n x).tth = s.tth := rfl
@[simp] theorem State.setSlot_fwc (s : State) (n : Nat) (x : Slot) : (s.setSlot n x).fwc = s.fwc := rfl
@[simp] theorem State.setSlot_i3c (s : State) (n : Nat) (x : Slot) : (s.setSlot n x).i3c = s.i3c := rfl
@[simp] theorem State.setSlot_fsu (s : State) (n : Nat) (x : Slot) : (s.setSlot n x).fsu = s.fsu := rfl
@[simp] theorem State.setSlot_flash (s : State) (n : Nat) (x : Slot) : (s.setSlot n x).flash = s.flash := rfl

/-! ## `State.setCtx` -/

@[simp] theorem State.setCtx_env (s : State) (c : Nat) (x : Ctx) : (s.setCtx c x).env = s.env := rfl
@[simp] theorem State.setCtx_mem (s : State) (c : Nat) (x : Ctx) : (s.setCtx c x).mem = s.mem := rfl
@[simp] theorem State.setCtx_hostMem (s : State) (c : Nat) (x : Ctx) : (s.setCtx c x).hostMem = s.hostMem := rfl
@[simp] theorem State.setCtx_freeCount (s : State) (c : Nat) (x : Ctx) : (s.setCtx c x).freeCount = s.freeCount := rfl
@[simp] theorem State.setCtx_pending (s : State) (c : Nat) (x : Ctx) : (s.setCtx c x).pending = s.pending := rfl
@[simp] theorem State.setCtx_work (s : State) (c : Nat) (x : Ctx) : (s.setCtx c x).work = s.work := rfl
@[simp] theorem State.setCtx_out (s : State) (c : Nat) (x : Ctx) : (s.setCtx c x).out = s.out := rfl
@[simp] theorem State.setCtx_gcs (s : State) (c : Nat) (x : Ctx) : (s.setCtx c x).gcs = s.gcs := rfl
@[simp] theorem State.setCtx_cfe (s : State) (c : Nat) (x : Ctx) : (s.setCtx c x).cfe = s.cfe := rfl
@[simp] theorem State.setCtx_gd (s : State) (c : Nat) (x : Ctx) : (s.setCtx c x).gd = s.gd := rfl
@[simp] theorem State.setCtx_csq (s : State) (c : Nat) (x : Ctx) : (s.setCtx c x).csq = s.csq := rfl
@[simp] theorem State.setCtx_ctu (s : State) (c : Nat) (x : Ctx) : (s.setCtx c x).ctu = s.ctu := rfl
@[simp] theorem State.setCtx_plu (s : State) (c : Nat) (x : Ctx) : (s.setCtx c x).plu = s.plu := rfl
@[simp] theorem State.setCtx_dcache (s : State) (c : Nat) (x : Ctx) : (s.setCtx c x).dcache = s.dcache := rfl
@[simp] theorem State.setCtx_ges (s : State) (c : Nat) (x : Ctx) : (s.setCtx c x).ges = s.ges := rfl
@[simp] theorem State.setCtx_car (s : State) (c : Nat) (x : Ctx) : (s.setCtx c x).car = s.car := rfl
@[simp] theorem State.setCtx_rly (s : State) (c : Nat) (x : Ctx) : (s.setCtx c x).rly = s.rly := rfl
@[simp] theorem State.setCtx_stat (s : State) (c : Nat) (x : Ctx) : (s.setCtx c x).stat = s.stat := rfl
@[simp] theorem State.setCtx_tth (s : State) (c : Nat) (x : Ctx) : (s.setCtx c x).tth = s.tth := rfl
@[simp] theorem State.setCtx_fwc (s : State) (c : Nat) (x : Ctx) : (s.setCtx c x).fwc = s.fwc := rfl
@[simp] theorem State.setCtx_i3c (s : State) (c : Nat) (x : Ctx) : (s.setCtx c x).i3c = s.i3c := rfl
@[simp] theorem State.setCtx_fsu (s : State) (c : Nat) (x : Ctx) : (s.setCtx c x).fsu = s.fsu := rfl
@[simp] theorem State.setCtx_flash (s : State) (c : Nat) (x : Ctx) : (s.setCtx c x).flash = s.flash := rfl

/-! ## `State.setCore` -/

@[simp] theorem State.setCore_env (s : State) (c : Nat) (x : Core) : (s.setCore c x).env = s.env := rfl
@[simp] theorem State.setCore_mem (s : State) (c : Nat) (x : Core) : (s.setCore c x).mem = s.mem := rfl
@[simp] theorem State.setCore_hostMem (s : State) (c : Nat) (x : Core) : (s.setCore c x).hostMem = s.hostMem := rfl
@[simp] theorem State.setCore_freeCount (s : State) (c : Nat) (x : Core) : (s.setCore c x).freeCount = s.freeCount := rfl
@[simp] theorem State.setCore_pending (s : State) (c : Nat) (x : Core) : (s.setCore c x).pending = s.pending := rfl
@[simp] theorem State.setCore_work (s : State) (c : Nat) (x : Core) : (s.setCore c x).work = s.work := rfl
@[simp] theorem State.setCore_out (s : State) (c : Nat) (x : Core) : (s.setCore c x).out = s.out := rfl
@[simp] theorem State.setCore_gcs (s : State) (c : Nat) (x : Core) : (s.setCore c x).gcs = s.gcs := rfl
@[simp] theorem State.setCore_cfe (s : State) (c : Nat) (x : Core) : (s.setCore c x).cfe = s.cfe := rfl
@[simp] theorem State.setCore_ctxs (s : State) (c : Nat) (x : Core) : (s.setCore c x).ctxs = s.ctxs := rfl
@[simp] theorem State.setCore_gd (s : State) (c : Nat) (x : Core) : (s.setCore c x).gd = s.gd := rfl
@[simp] theorem State.setCore_ctu (s : State) (c : Nat) (x : Core) : (s.setCore c x).ctu = s.ctu := rfl
@[simp] theorem State.setCore_plu (s : State) (c : Nat) (x : Core) : (s.setCore c x).plu = s.plu := rfl
@[simp] theorem State.setCore_dcache (s : State) (c : Nat) (x : Core) : (s.setCore c x).dcache = s.dcache := rfl
@[simp] theorem State.setCore_ges (s : State) (c : Nat) (x : Core) : (s.setCore c x).ges = s.ges := rfl
@[simp] theorem State.setCore_car (s : State) (c : Nat) (x : Core) : (s.setCore c x).car = s.car := rfl
@[simp] theorem State.setCore_rly (s : State) (c : Nat) (x : Core) : (s.setCore c x).rly = s.rly := rfl
@[simp] theorem State.setCore_stat (s : State) (c : Nat) (x : Core) : (s.setCore c x).stat = s.stat := rfl
@[simp] theorem State.setCore_tth (s : State) (c : Nat) (x : Core) : (s.setCore c x).tth = s.tth := rfl
@[simp] theorem State.setCore_fwc (s : State) (c : Nat) (x : Core) : (s.setCore c x).fwc = s.fwc := rfl
@[simp] theorem State.setCore_i3c (s : State) (c : Nat) (x : Core) : (s.setCore c x).i3c = s.i3c := rfl
@[simp] theorem State.setCore_fsu (s : State) (c : Nat) (x : Core) : (s.setCore c x).fsu = s.fsu := rfl
@[simp] theorem State.setCore_flash (s : State) (c : Nat) (x : Core) : (s.setCore c x).flash = s.flash := rfl

/-! ## `State.setCluster` -/

@[simp] theorem State.setCluster_env (s : State) (n : Nat) (x : Cluster) : (s.setCluster n x).env = s.env := rfl
@[simp] theorem State.setCluster_mem (s : State) (n : Nat) (x : Cluster) : (s.setCluster n x).mem = s.mem := rfl
@[simp] theorem State.setCluster_hostMem (s : State) (n : Nat) (x : Cluster) : (s.setCluster n x).hostMem = s.hostMem := rfl
@[simp] theorem State.setCluster_freeCount (s : State) (n : Nat) (x : Cluster) : (s.setCluster n x).freeCount = s.freeCount := rfl
@[simp] theorem State.setCluster_pending (s : State) (n : Nat) (x : Cluster) : (s.setCluster n x).pending = s.pending := rfl
@[simp] theorem State.setCluster_work (s : State) (n : Nat) (x : Cluster) : (s.setCluster n x).work = s.work := rfl
@[simp] theorem State.setCluster_out (s : State) (n : Nat) (x : Cluster) : (s.setCluster n x).out = s.out := rfl
@[simp] theorem State.setCluster_gcs (s : State) (n : Nat) (x : Cluster) : (s.setCluster n x).gcs = s.gcs := rfl
@[simp] theorem State.setCluster_cfe (s : State) (n : Nat) (x : Cluster) : (s.setCluster n x).cfe = s.cfe := rfl
@[simp] theorem State.setCluster_ctxs (s : State) (n : Nat) (x : Cluster) : (s.setCluster n x).ctxs = s.ctxs := rfl
@[simp] theorem State.setCluster_gd (s : State) (n : Nat) (x : Cluster) : (s.setCluster n x).gd = s.gd := rfl
@[simp] theorem State.setCluster_ctu (s : State) (n : Nat) (x : Cluster) : (s.setCluster n x).ctu = s.ctu := rfl
@[simp] theorem State.setCluster_plu (s : State) (n : Nat) (x : Cluster) : (s.setCluster n x).plu = s.plu := rfl
@[simp] theorem State.setCluster_dcache (s : State) (n : Nat) (x : Cluster) : (s.setCluster n x).dcache = s.dcache := rfl
@[simp] theorem State.setCluster_ges (s : State) (n : Nat) (x : Cluster) : (s.setCluster n x).ges = s.ges := rfl
@[simp] theorem State.setCluster_car (s : State) (n : Nat) (x : Cluster) : (s.setCluster n x).car = s.car := rfl
@[simp] theorem State.setCluster_rly (s : State) (n : Nat) (x : Cluster) : (s.setCluster n x).rly = s.rly := rfl
@[simp] theorem State.setCluster_stat (s : State) (n : Nat) (x : Cluster) : (s.setCluster n x).stat = s.stat := rfl
@[simp] theorem State.setCluster_tth (s : State) (n : Nat) (x : Cluster) : (s.setCluster n x).tth = s.tth := rfl
@[simp] theorem State.setCluster_fwc (s : State) (n : Nat) (x : Cluster) : (s.setCluster n x).fwc = s.fwc := rfl
@[simp] theorem State.setCluster_i3c (s : State) (n : Nat) (x : Cluster) : (s.setCluster n x).i3c = s.i3c := rfl
@[simp] theorem State.setCluster_fsu (s : State) (n : Nat) (x : Cluster) : (s.setCluster n x).fsu = s.fsu := rfl
@[simp] theorem State.setCluster_flash (s : State) (n : Nat) (x : Cluster) : (s.setCluster n x).flash = s.flash := rfl

/-! ## `State.setGe` -/

@[simp] theorem State.setGe_env (s : State) (g : Nat) (x : Ge) : (s.setGe g x).env = s.env := rfl
@[simp] theorem State.setGe_mem (s : State) (g : Nat) (x : Ge) : (s.setGe g x).mem = s.mem := rfl
@[simp] theorem State.setGe_hostMem (s : State) (g : Nat) (x : Ge) : (s.setGe g x).hostMem = s.hostMem := rfl
@[simp] theorem State.setGe_freeCount (s : State) (g : Nat) (x : Ge) : (s.setGe g x).freeCount = s.freeCount := rfl
@[simp] theorem State.setGe_pending (s : State) (g : Nat) (x : Ge) : (s.setGe g x).pending = s.pending := rfl
@[simp] theorem State.setGe_work (s : State) (g : Nat) (x : Ge) : (s.setGe g x).work = s.work := rfl
@[simp] theorem State.setGe_out (s : State) (g : Nat) (x : Ge) : (s.setGe g x).out = s.out := rfl
@[simp] theorem State.setGe_gcs (s : State) (g : Nat) (x : Ge) : (s.setGe g x).gcs = s.gcs := rfl
@[simp] theorem State.setGe_cfe (s : State) (g : Nat) (x : Ge) : (s.setGe g x).cfe = s.cfe := rfl
@[simp] theorem State.setGe_ctxs (s : State) (g : Nat) (x : Ge) : (s.setGe g x).ctxs = s.ctxs := rfl
@[simp] theorem State.setGe_gd (s : State) (g : Nat) (x : Ge) : (s.setGe g x).gd = s.gd := rfl
@[simp] theorem State.setGe_csq (s : State) (g : Nat) (x : Ge) : (s.setGe g x).csq = s.csq := rfl
@[simp] theorem State.setGe_ctu (s : State) (g : Nat) (x : Ge) : (s.setGe g x).ctu = s.ctu := rfl
@[simp] theorem State.setGe_plu (s : State) (g : Nat) (x : Ge) : (s.setGe g x).plu = s.plu := rfl
@[simp] theorem State.setGe_dcache (s : State) (g : Nat) (x : Ge) : (s.setGe g x).dcache = s.dcache := rfl
@[simp] theorem State.setGe_car (s : State) (g : Nat) (x : Ge) : (s.setGe g x).car = s.car := rfl
@[simp] theorem State.setGe_rly (s : State) (g : Nat) (x : Ge) : (s.setGe g x).rly = s.rly := rfl
@[simp] theorem State.setGe_stat (s : State) (g : Nat) (x : Ge) : (s.setGe g x).stat = s.stat := rfl
@[simp] theorem State.setGe_tth (s : State) (g : Nat) (x : Ge) : (s.setGe g x).tth = s.tth := rfl
@[simp] theorem State.setGe_fwc (s : State) (g : Nat) (x : Ge) : (s.setGe g x).fwc = s.fwc := rfl
@[simp] theorem State.setGe_i3c (s : State) (g : Nat) (x : Ge) : (s.setGe g x).i3c = s.i3c := rfl
@[simp] theorem State.setGe_fsu (s : State) (g : Nat) (x : Ge) : (s.setGe g x).fsu = s.fsu := rfl
@[simp] theorem State.setGe_flash (s : State) (g : Nat) (x : Ge) : (s.setGe g x).flash = s.flash := rfl

/-! ## `State.setBank` -/

@[simp] theorem State.setBank_env (s : State) (b : Nat) (x : Bank) : (s.setBank b x).env = s.env := rfl
@[simp] theorem State.setBank_mem (s : State) (b : Nat) (x : Bank) : (s.setBank b x).mem = s.mem := rfl
@[simp] theorem State.setBank_hostMem (s : State) (b : Nat) (x : Bank) : (s.setBank b x).hostMem = s.hostMem := rfl
@[simp] theorem State.setBank_freeCount (s : State) (b : Nat) (x : Bank) : (s.setBank b x).freeCount = s.freeCount := rfl
@[simp] theorem State.setBank_pending (s : State) (b : Nat) (x : Bank) : (s.setBank b x).pending = s.pending := rfl
@[simp] theorem State.setBank_work (s : State) (b : Nat) (x : Bank) : (s.setBank b x).work = s.work := rfl
@[simp] theorem State.setBank_out (s : State) (b : Nat) (x : Bank) : (s.setBank b x).out = s.out := rfl
@[simp] theorem State.setBank_gcs (s : State) (b : Nat) (x : Bank) : (s.setBank b x).gcs = s.gcs := rfl
@[simp] theorem State.setBank_cfe (s : State) (b : Nat) (x : Bank) : (s.setBank b x).cfe = s.cfe := rfl
@[simp] theorem State.setBank_ctxs (s : State) (b : Nat) (x : Bank) : (s.setBank b x).ctxs = s.ctxs := rfl
@[simp] theorem State.setBank_csq (s : State) (b : Nat) (x : Bank) : (s.setBank b x).csq = s.csq := rfl
@[simp] theorem State.setBank_ctu (s : State) (b : Nat) (x : Bank) : (s.setBank b x).ctu = s.ctu := rfl
@[simp] theorem State.setBank_plu (s : State) (b : Nat) (x : Bank) : (s.setBank b x).plu = s.plu := rfl
@[simp] theorem State.setBank_dcache (s : State) (b : Nat) (x : Bank) : (s.setBank b x).dcache = s.dcache := rfl
@[simp] theorem State.setBank_ges (s : State) (b : Nat) (x : Bank) : (s.setBank b x).ges = s.ges := rfl
@[simp] theorem State.setBank_car (s : State) (b : Nat) (x : Bank) : (s.setBank b x).car = s.car := rfl
@[simp] theorem State.setBank_rly (s : State) (b : Nat) (x : Bank) : (s.setBank b x).rly = s.rly := rfl
@[simp] theorem State.setBank_stat (s : State) (b : Nat) (x : Bank) : (s.setBank b x).stat = s.stat := rfl
@[simp] theorem State.setBank_tth (s : State) (b : Nat) (x : Bank) : (s.setBank b x).tth = s.tth := rfl
@[simp] theorem State.setBank_fwc (s : State) (b : Nat) (x : Bank) : (s.setBank b x).fwc = s.fwc := rfl
@[simp] theorem State.setBank_i3c (s : State) (b : Nat) (x : Bank) : (s.setBank b x).i3c = s.i3c := rfl
@[simp] theorem State.setBank_fsu (s : State) (b : Nat) (x : Bank) : (s.setBank b x).fsu = s.fsu := rfl
@[simp] theorem State.setBank_flash (s : State) (b : Nat) (x : Bank) : (s.setBank b x).flash = s.flash := rfl

/-! ## `State.setPool` -/

@[simp] theorem State.setPool_env (s : State) (c sl : Nat) (x : Pool) : (s.setPool c sl x).env = s.env := rfl
@[simp] theorem State.setPool_mem (s : State) (c sl : Nat) (x : Pool) : (s.setPool c sl x).mem = s.mem := rfl
@[simp] theorem State.setPool_hostMem (s : State) (c sl : Nat) (x : Pool) : (s.setPool c sl x).hostMem = s.hostMem := rfl
@[simp] theorem State.setPool_freeCount (s : State) (c sl : Nat) (x : Pool) : (s.setPool c sl x).freeCount = s.freeCount := rfl
@[simp] theorem State.setPool_pending (s : State) (c sl : Nat) (x : Pool) : (s.setPool c sl x).pending = s.pending := rfl
@[simp] theorem State.setPool_work (s : State) (c sl : Nat) (x : Pool) : (s.setPool c sl x).work = s.work := rfl
@[simp] theorem State.setPool_out (s : State) (c sl : Nat) (x : Pool) : (s.setPool c sl x).out = s.out := rfl
@[simp] theorem State.setPool_gcs (s : State) (c sl : Nat) (x : Pool) : (s.setPool c sl x).gcs = s.gcs := rfl
@[simp] theorem State.setPool_cfe (s : State) (c sl : Nat) (x : Pool) : (s.setPool c sl x).cfe = s.cfe := rfl
@[simp] theorem State.setPool_ctxs (s : State) (c sl : Nat) (x : Pool) : (s.setPool c sl x).ctxs = s.ctxs := rfl
@[simp] theorem State.setPool_gd (s : State) (c sl : Nat) (x : Pool) : (s.setPool c sl x).gd = s.gd := rfl
@[simp] theorem State.setPool_csq (s : State) (c sl : Nat) (x : Pool) : (s.setPool c sl x).csq = s.csq := rfl
@[simp] theorem State.setPool_ctu (s : State) (c sl : Nat) (x : Pool) : (s.setPool c sl x).ctu = s.ctu := rfl
@[simp] theorem State.setPool_dcache (s : State) (c sl : Nat) (x : Pool) : (s.setPool c sl x).dcache = s.dcache := rfl
@[simp] theorem State.setPool_ges (s : State) (c sl : Nat) (x : Pool) : (s.setPool c sl x).ges = s.ges := rfl
@[simp] theorem State.setPool_car (s : State) (c sl : Nat) (x : Pool) : (s.setPool c sl x).car = s.car := rfl
@[simp] theorem State.setPool_rly (s : State) (c sl : Nat) (x : Pool) : (s.setPool c sl x).rly = s.rly := rfl
@[simp] theorem State.setPool_stat (s : State) (c sl : Nat) (x : Pool) : (s.setPool c sl x).stat = s.stat := rfl
@[simp] theorem State.setPool_tth (s : State) (c sl : Nat) (x : Pool) : (s.setPool c sl x).tth = s.tth := rfl
@[simp] theorem State.setPool_fwc (s : State) (c sl : Nat) (x : Pool) : (s.setPool c sl x).fwc = s.fwc := rfl
@[simp] theorem State.setPool_i3c (s : State) (c sl : Nat) (x : Pool) : (s.setPool c sl x).i3c = s.i3c := rfl
@[simp] theorem State.setPool_fsu (s : State) (c sl : Nat) (x : Pool) : (s.setPool c sl x).fsu = s.fsu := rfl
@[simp] theorem State.setPool_flash (s : State) (c sl : Nat) (x : Pool) : (s.setPool c sl x).flash = s.flash := rfl

/-! ## `State.setLine` -/

@[simp] theorem State.setLine_env (s : State) (n : Nat) (x : EvtLine) : (s.setLine n x).env = s.env := rfl
@[simp] theorem State.setLine_mem (s : State) (n : Nat) (x : EvtLine) : (s.setLine n x).mem = s.mem := rfl
@[simp] theorem State.setLine_hostMem (s : State) (n : Nat) (x : EvtLine) : (s.setLine n x).hostMem = s.hostMem := rfl
@[simp] theorem State.setLine_freeCount (s : State) (n : Nat) (x : EvtLine) : (s.setLine n x).freeCount = s.freeCount := rfl
@[simp] theorem State.setLine_pending (s : State) (n : Nat) (x : EvtLine) : (s.setLine n x).pending = s.pending := rfl
@[simp] theorem State.setLine_work (s : State) (n : Nat) (x : EvtLine) : (s.setLine n x).work = s.work := rfl
@[simp] theorem State.setLine_out (s : State) (n : Nat) (x : EvtLine) : (s.setLine n x).out = s.out := rfl
@[simp] theorem State.setLine_cfe (s : State) (n : Nat) (x : EvtLine) : (s.setLine n x).cfe = s.cfe := rfl
@[simp] theorem State.setLine_ctxs (s : State) (n : Nat) (x : EvtLine) : (s.setLine n x).ctxs = s.ctxs := rfl
@[simp] theorem State.setLine_gd (s : State) (n : Nat) (x : EvtLine) : (s.setLine n x).gd = s.gd := rfl
@[simp] theorem State.setLine_csq (s : State) (n : Nat) (x : EvtLine) : (s.setLine n x).csq = s.csq := rfl
@[simp] theorem State.setLine_ctu (s : State) (n : Nat) (x : EvtLine) : (s.setLine n x).ctu = s.ctu := rfl
@[simp] theorem State.setLine_plu (s : State) (n : Nat) (x : EvtLine) : (s.setLine n x).plu = s.plu := rfl
@[simp] theorem State.setLine_dcache (s : State) (n : Nat) (x : EvtLine) : (s.setLine n x).dcache = s.dcache := rfl
@[simp] theorem State.setLine_ges (s : State) (n : Nat) (x : EvtLine) : (s.setLine n x).ges = s.ges := rfl
@[simp] theorem State.setLine_car (s : State) (n : Nat) (x : EvtLine) : (s.setLine n x).car = s.car := rfl
@[simp] theorem State.setLine_rly (s : State) (n : Nat) (x : EvtLine) : (s.setLine n x).rly = s.rly := rfl
@[simp] theorem State.setLine_stat (s : State) (n : Nat) (x : EvtLine) : (s.setLine n x).stat = s.stat := rfl
@[simp] theorem State.setLine_tth (s : State) (n : Nat) (x : EvtLine) : (s.setLine n x).tth = s.tth := rfl
@[simp] theorem State.setLine_fwc (s : State) (n : Nat) (x : EvtLine) : (s.setLine n x).fwc = s.fwc := rfl
@[simp] theorem State.setLine_i3c (s : State) (n : Nat) (x : EvtLine) : (s.setLine n x).i3c = s.i3c := rfl
@[simp] theorem State.setLine_fsu (s : State) (n : Nat) (x : EvtLine) : (s.setLine n x).fsu = s.fsu := rfl
@[simp] theorem State.setLine_flash (s : State) (n : Nat) (x : EvtLine) : (s.setLine n x).flash = s.flash := rfl

/-! ## `State.setSeqr` -/

@[simp] theorem State.setSeqr_env (s : State) (p : Nat) (x : Seqr) : (s.setSeqr p x).env = s.env := rfl
@[simp] theorem State.setSeqr_mem (s : State) (p : Nat) (x : Seqr) : (s.setSeqr p x).mem = s.mem := rfl
@[simp] theorem State.setSeqr_hostMem (s : State) (p : Nat) (x : Seqr) : (s.setSeqr p x).hostMem = s.hostMem := rfl
@[simp] theorem State.setSeqr_freeCount (s : State) (p : Nat) (x : Seqr) : (s.setSeqr p x).freeCount = s.freeCount := rfl
@[simp] theorem State.setSeqr_pending (s : State) (p : Nat) (x : Seqr) : (s.setSeqr p x).pending = s.pending := rfl
@[simp] theorem State.setSeqr_work (s : State) (p : Nat) (x : Seqr) : (s.setSeqr p x).work = s.work := rfl
@[simp] theorem State.setSeqr_out (s : State) (p : Nat) (x : Seqr) : (s.setSeqr p x).out = s.out := rfl
@[simp] theorem State.setSeqr_gcs (s : State) (p : Nat) (x : Seqr) : (s.setSeqr p x).gcs = s.gcs := rfl
@[simp] theorem State.setSeqr_cfe (s : State) (p : Nat) (x : Seqr) : (s.setSeqr p x).cfe = s.cfe := rfl
@[simp] theorem State.setSeqr_ctxs (s : State) (p : Nat) (x : Seqr) : (s.setSeqr p x).ctxs = s.ctxs := rfl
@[simp] theorem State.setSeqr_gd (s : State) (p : Nat) (x : Seqr) : (s.setSeqr p x).gd = s.gd := rfl
@[simp] theorem State.setSeqr_ctu (s : State) (p : Nat) (x : Seqr) : (s.setSeqr p x).ctu = s.ctu := rfl
@[simp] theorem State.setSeqr_plu (s : State) (p : Nat) (x : Seqr) : (s.setSeqr p x).plu = s.plu := rfl
@[simp] theorem State.setSeqr_dcache (s : State) (p : Nat) (x : Seqr) : (s.setSeqr p x).dcache = s.dcache := rfl
@[simp] theorem State.setSeqr_ges (s : State) (p : Nat) (x : Seqr) : (s.setSeqr p x).ges = s.ges := rfl
@[simp] theorem State.setSeqr_car (s : State) (p : Nat) (x : Seqr) : (s.setSeqr p x).car = s.car := rfl
@[simp] theorem State.setSeqr_rly (s : State) (p : Nat) (x : Seqr) : (s.setSeqr p x).rly = s.rly := rfl
@[simp] theorem State.setSeqr_stat (s : State) (p : Nat) (x : Seqr) : (s.setSeqr p x).stat = s.stat := rfl
@[simp] theorem State.setSeqr_tth (s : State) (p : Nat) (x : Seqr) : (s.setSeqr p x).tth = s.tth := rfl
@[simp] theorem State.setSeqr_fwc (s : State) (p : Nat) (x : Seqr) : (s.setSeqr p x).fwc = s.fwc := rfl
@[simp] theorem State.setSeqr_i3c (s : State) (p : Nat) (x : Seqr) : (s.setSeqr p x).i3c = s.i3c := rfl
@[simp] theorem State.setSeqr_fsu (s : State) (p : Nat) (x : Seqr) : (s.setSeqr p x).fsu = s.fsu := rfl
@[simp] theorem State.setSeqr_flash (s : State) (p : Nat) (x : Seqr) : (s.setSeqr p x).flash = s.flash := rfl

@[simp] theorem State.at_now (s : State) (t : Nat) : (s.at t).env.now = max s.env.now t := rfl
@[simp] theorem State.at_dev (s : State) (t : Nat) : (s.at t).env.dev = s.env.dev := rfl
@[simp] theorem State.push_work_eq (s : State) (w : List Work) : (s.push w).work = s.work ++ w := rfl
@[simp] theorem State.msix_out_msix (s : State) (v : Nat) : (s.msix v).out.msix = s.out.msix ++ [v] := rfl

/-! ## Accessors after an update -/

@[simp] theorem State.queue_setQueue_self (s : State) (q : Nat) (x : Queue) : (s.setQueue q x).queue q = x := by
  simp [State.queue, State.setQueue]

theorem State.queue_setQueue_ne (s : State) {q p : Nat} (h : p ≠ q) (x : Queue) : (s.setQueue q x).queue p = s.queue p := by
  simp [State.queue, State.setQueue, AL.get_put_ne h]

@[simp] theorem State.slot_setSlot_self (s : State) (n : Nat) (x : Slot) : (s.setSlot n x).slot n = x := by
  simp [State.slot, State.setSlot]

theorem State.slot_setSlot_ne (s : State) {n m : Nat} (h : m ≠ n) (x : Slot) : (s.setSlot n x).slot m = s.slot m := by
  simp [State.slot, State.setSlot, AL.get_put_ne h]

@[simp] theorem State.ctx_setCtx_self (s : State) (c : Nat) (x : Ctx) : (s.setCtx c x).ctx c = x := by
  simp [State.ctx, State.setCtx]

theorem State.ctx_setCtx_ne (s : State) {c e : Nat} (h : e ≠ c) (x : Ctx) : (s.setCtx c x).ctx e = s.ctx e := by
  simp [State.ctx, State.setCtx, AL.get_put_ne h]

@[simp] theorem State.core_setCore_self (s : State) (c : Nat) (x : Core) : (s.setCore c x).core c = x := by
  simp [State.core, State.setCore]

theorem State.core_setCore_ne (s : State) {c e : Nat} (h : e ≠ c) (x : Core) : (s.setCore c x).core e = s.core e := by
  simp [State.core, State.setCore, AL.get_put_ne h]

@[simp] theorem State.cluster_setCluster_self (s : State) (n : Nat) (x : Cluster) : (s.setCluster n x).cluster n = x := by
  simp [State.cluster, State.setCluster]

theorem State.cluster_setCluster_ne (s : State) {n m : Nat} (h : m ≠ n) (x : Cluster) : (s.setCluster n x).cluster m = s.cluster m := by
  simp [State.cluster, State.setCluster, AL.get_put_ne h]

@[simp] theorem State.ge_setGe_self (s : State) (g : Nat) (x : Ge) : (s.setGe g x).ge g = x := by
  simp [State.ge, State.setGe]

theorem State.ge_setGe_ne (s : State) {g e : Nat} (h : e ≠ g) (x : Ge) : (s.setGe g x).ge e = s.ge e := by
  simp [State.ge, State.setGe, AL.get_put_ne h]

@[simp] theorem State.bank_setBank_self (s : State) (b : Nat) (x : Bank) : (s.setBank b x).bank b = x := by
  simp [State.bank, State.setBank]

theorem State.bank_setBank_ne (s : State) {b e : Nat} (h : e ≠ b) (x : Bank) : (s.setBank b x).bank e = s.bank e := by
  simp [State.bank, State.setBank, AL.get_put_ne h]

@[simp] theorem State.line_setLine_self (s : State) (n : Nat) (x : EvtLine) : (s.setLine n x).line n = x := by
  simp [State.line, State.setLine]

theorem State.line_setLine_ne (s : State) {n m : Nat} (h : m ≠ n) (x : EvtLine) : (s.setLine n x).line m = s.line m := by
  simp [State.line, State.setLine, AL.get_put_ne h]

@[simp] theorem State.seqr_setSeqr_self (s : State) (p : Nat) (x : Seqr) : (s.setSeqr p x).seqr p = x := by
  simp [State.seqr, State.setSeqr]

theorem State.seqr_setSeqr_ne (s : State) {p m : Nat} (h : m ≠ p) (x : Seqr) : (s.setSeqr p x).seqr m = s.seqr m := by
  simp [State.seqr, State.setSeqr, AL.get_put_ne h]

@[simp] theorem State.queue_at (s : State) (i : Nat) (t : Nat) : (s.at t).queue i = s.queue i := rfl
@[simp] theorem State.queue_push (s : State) (i : Nat) (w : List Work) : (s.push w).queue i = s.queue i := rfl
@[simp] theorem State.queue_msix (s : State) (i : Nat) (v : Nat) : (s.msix v).queue i = s.queue i := rfl
@[simp] theorem State.queue_setSlot (s : State) (i : Nat) (n : Nat) (x : Slot) : (s.setSlot n x).queue i = s.queue i := rfl
@[simp] theorem State.queue_setCtx (s : State) (i : Nat) (c : Nat) (x : Ctx) : (s.setCtx c x).queue i = s.queue i := rfl
@[simp] theorem State.queue_setCore (s : State) (i : Nat) (c : Nat) (x : Core) : (s.setCore c x).queue i = s.queue i := rfl
@[simp] theorem State.queue_setCluster (s : State) (i : Nat) (n : Nat) (x : Cluster) : (s.setCluster n x).queue i = s.queue i := rfl
@[simp] theorem State.queue_setGe (s : State) (i : Nat) (g : Nat) (x : Ge) : (s.setGe g x).queue i = s.queue i := rfl
@[simp] theorem State.queue_setBank (s : State) (i : Nat) (b : Nat) (x : Bank) : (s.setBank b x).queue i = s.queue i := rfl
@[simp] theorem State.queue_setPool (s : State) (i : Nat) (c sl : Nat) (x : Pool) : (s.setPool c sl x).queue i = s.queue i := rfl
@[simp] theorem State.queue_setLine (s : State) (i : Nat) (n : Nat) (x : EvtLine) : (s.setLine n x).queue i = s.queue i := rfl
@[simp] theorem State.queue_setSeqr (s : State) (i : Nat) (p : Nat) (x : Seqr) : (s.setSeqr p x).queue i = s.queue i := rfl
@[simp] theorem State.slot_at (s : State) (i : Nat) (t : Nat) : (s.at t).slot i = s.slot i := rfl
@[simp] theorem State.slot_push (s : State) (i : Nat) (w : List Work) : (s.push w).slot i = s.slot i := rfl
@[simp] theorem State.slot_msix (s : State) (i : Nat) (v : Nat) : (s.msix v).slot i = s.slot i := rfl
@[simp] theorem State.slot_setQueue (s : State) (i : Nat) (q : Nat) (x : Queue) : (s.setQueue q x).slot i = s.slot i := rfl
@[simp] theorem State.slot_setCtx (s : State) (i : Nat) (c : Nat) (x : Ctx) : (s.setCtx c x).slot i = s.slot i := rfl
@[simp] theorem State.slot_setCore (s : State) (i : Nat) (c : Nat) (x : Core) : (s.setCore c x).slot i = s.slot i := rfl
@[simp] theorem State.slot_setCluster (s : State) (i : Nat) (n : Nat) (x : Cluster) : (s.setCluster n x).slot i = s.slot i := rfl
@[simp] theorem State.slot_setGe (s : State) (i : Nat) (g : Nat) (x : Ge) : (s.setGe g x).slot i = s.slot i := rfl
@[simp] theorem State.slot_setBank (s : State) (i : Nat) (b : Nat) (x : Bank) : (s.setBank b x).slot i = s.slot i := rfl
@[simp] theorem State.slot_setPool (s : State) (i : Nat) (c sl : Nat) (x : Pool) : (s.setPool c sl x).slot i = s.slot i := rfl
@[simp] theorem State.slot_setLine (s : State) (i : Nat) (n : Nat) (x : EvtLine) : (s.setLine n x).slot i = s.slot i := rfl
@[simp] theorem State.slot_setSeqr (s : State) (i : Nat) (p : Nat) (x : Seqr) : (s.setSeqr p x).slot i = s.slot i := rfl
@[simp] theorem State.ctx_at (s : State) (i : Nat) (t : Nat) : (s.at t).ctx i = s.ctx i := rfl
@[simp] theorem State.ctx_push (s : State) (i : Nat) (w : List Work) : (s.push w).ctx i = s.ctx i := rfl
@[simp] theorem State.ctx_msix (s : State) (i : Nat) (v : Nat) : (s.msix v).ctx i = s.ctx i := rfl
@[simp] theorem State.ctx_setQueue (s : State) (i : Nat) (q : Nat) (x : Queue) : (s.setQueue q x).ctx i = s.ctx i := rfl
@[simp] theorem State.ctx_setSlot (s : State) (i : Nat) (n : Nat) (x : Slot) : (s.setSlot n x).ctx i = s.ctx i := rfl
@[simp] theorem State.ctx_setCore (s : State) (i : Nat) (c : Nat) (x : Core) : (s.setCore c x).ctx i = s.ctx i := rfl
@[simp] theorem State.ctx_setCluster (s : State) (i : Nat) (n : Nat) (x : Cluster) : (s.setCluster n x).ctx i = s.ctx i := rfl
@[simp] theorem State.ctx_setGe (s : State) (i : Nat) (g : Nat) (x : Ge) : (s.setGe g x).ctx i = s.ctx i := rfl
@[simp] theorem State.ctx_setBank (s : State) (i : Nat) (b : Nat) (x : Bank) : (s.setBank b x).ctx i = s.ctx i := rfl
@[simp] theorem State.ctx_setPool (s : State) (i : Nat) (c sl : Nat) (x : Pool) : (s.setPool c sl x).ctx i = s.ctx i := rfl
@[simp] theorem State.ctx_setLine (s : State) (i : Nat) (n : Nat) (x : EvtLine) : (s.setLine n x).ctx i = s.ctx i := rfl
@[simp] theorem State.ctx_setSeqr (s : State) (i : Nat) (p : Nat) (x : Seqr) : (s.setSeqr p x).ctx i = s.ctx i := rfl
@[simp] theorem State.core_at (s : State) (i : Nat) (t : Nat) : (s.at t).core i = s.core i := rfl
@[simp] theorem State.core_push (s : State) (i : Nat) (w : List Work) : (s.push w).core i = s.core i := rfl
@[simp] theorem State.core_msix (s : State) (i : Nat) (v : Nat) : (s.msix v).core i = s.core i := rfl
@[simp] theorem State.core_setQueue (s : State) (i : Nat) (q : Nat) (x : Queue) : (s.setQueue q x).core i = s.core i := rfl
@[simp] theorem State.core_setSlot (s : State) (i : Nat) (n : Nat) (x : Slot) : (s.setSlot n x).core i = s.core i := rfl
@[simp] theorem State.core_setCtx (s : State) (i : Nat) (c : Nat) (x : Ctx) : (s.setCtx c x).core i = s.core i := rfl
@[simp] theorem State.core_setCluster (s : State) (i : Nat) (n : Nat) (x : Cluster) : (s.setCluster n x).core i = s.core i := rfl
@[simp] theorem State.core_setGe (s : State) (i : Nat) (g : Nat) (x : Ge) : (s.setGe g x).core i = s.core i := rfl
@[simp] theorem State.core_setBank (s : State) (i : Nat) (b : Nat) (x : Bank) : (s.setBank b x).core i = s.core i := rfl
@[simp] theorem State.core_setPool (s : State) (i : Nat) (c sl : Nat) (x : Pool) : (s.setPool c sl x).core i = s.core i := rfl
@[simp] theorem State.core_setLine (s : State) (i : Nat) (n : Nat) (x : EvtLine) : (s.setLine n x).core i = s.core i := rfl
@[simp] theorem State.core_setSeqr (s : State) (i : Nat) (p : Nat) (x : Seqr) : (s.setSeqr p x).core i = s.core i := rfl
@[simp] theorem State.cluster_at (s : State) (i : Nat) (t : Nat) : (s.at t).cluster i = s.cluster i := rfl
@[simp] theorem State.cluster_push (s : State) (i : Nat) (w : List Work) : (s.push w).cluster i = s.cluster i := rfl
@[simp] theorem State.cluster_msix (s : State) (i : Nat) (v : Nat) : (s.msix v).cluster i = s.cluster i := rfl
@[simp] theorem State.cluster_setQueue (s : State) (i : Nat) (q : Nat) (x : Queue) : (s.setQueue q x).cluster i = s.cluster i := rfl
@[simp] theorem State.cluster_setSlot (s : State) (i : Nat) (n : Nat) (x : Slot) : (s.setSlot n x).cluster i = s.cluster i := rfl
@[simp] theorem State.cluster_setCtx (s : State) (i : Nat) (c : Nat) (x : Ctx) : (s.setCtx c x).cluster i = s.cluster i := rfl
@[simp] theorem State.cluster_setCore (s : State) (i : Nat) (c : Nat) (x : Core) : (s.setCore c x).cluster i = s.cluster i := rfl
@[simp] theorem State.cluster_setGe (s : State) (i : Nat) (g : Nat) (x : Ge) : (s.setGe g x).cluster i = s.cluster i := rfl
@[simp] theorem State.cluster_setBank (s : State) (i : Nat) (b : Nat) (x : Bank) : (s.setBank b x).cluster i = s.cluster i := rfl
@[simp] theorem State.cluster_setPool (s : State) (i : Nat) (c sl : Nat) (x : Pool) : (s.setPool c sl x).cluster i = s.cluster i := rfl
@[simp] theorem State.cluster_setLine (s : State) (i : Nat) (n : Nat) (x : EvtLine) : (s.setLine n x).cluster i = s.cluster i := rfl
@[simp] theorem State.cluster_setSeqr (s : State) (i : Nat) (p : Nat) (x : Seqr) : (s.setSeqr p x).cluster i = s.cluster i := rfl
@[simp] theorem State.ge_at (s : State) (i : Nat) (t : Nat) : (s.at t).ge i = s.ge i := rfl
@[simp] theorem State.ge_push (s : State) (i : Nat) (w : List Work) : (s.push w).ge i = s.ge i := rfl
@[simp] theorem State.ge_msix (s : State) (i : Nat) (v : Nat) : (s.msix v).ge i = s.ge i := rfl
@[simp] theorem State.ge_setQueue (s : State) (i : Nat) (q : Nat) (x : Queue) : (s.setQueue q x).ge i = s.ge i := rfl
@[simp] theorem State.ge_setSlot (s : State) (i : Nat) (n : Nat) (x : Slot) : (s.setSlot n x).ge i = s.ge i := rfl
@[simp] theorem State.ge_setCtx (s : State) (i : Nat) (c : Nat) (x : Ctx) : (s.setCtx c x).ge i = s.ge i := rfl
@[simp] theorem State.ge_setCore (s : State) (i : Nat) (c : Nat) (x : Core) : (s.setCore c x).ge i = s.ge i := rfl
@[simp] theorem State.ge_setCluster (s : State) (i : Nat) (n : Nat) (x : Cluster) : (s.setCluster n x).ge i = s.ge i := rfl
@[simp] theorem State.ge_setBank (s : State) (i : Nat) (b : Nat) (x : Bank) : (s.setBank b x).ge i = s.ge i := rfl
@[simp] theorem State.ge_setPool (s : State) (i : Nat) (c sl : Nat) (x : Pool) : (s.setPool c sl x).ge i = s.ge i := rfl
@[simp] theorem State.ge_setLine (s : State) (i : Nat) (n : Nat) (x : EvtLine) : (s.setLine n x).ge i = s.ge i := rfl
@[simp] theorem State.ge_setSeqr (s : State) (i : Nat) (p : Nat) (x : Seqr) : (s.setSeqr p x).ge i = s.ge i := rfl
@[simp] theorem State.bank_at (s : State) (i : Nat) (t : Nat) : (s.at t).bank i = s.bank i := rfl
@[simp] theorem State.bank_push (s : State) (i : Nat) (w : List Work) : (s.push w).bank i = s.bank i := rfl
@[simp] theorem State.bank_msix (s : State) (i : Nat) (v : Nat) : (s.msix v).bank i = s.bank i := rfl
@[simp] theorem State.bank_setQueue (s : State) (i : Nat) (q : Nat) (x : Queue) : (s.setQueue q x).bank i = s.bank i := rfl
@[simp] theorem State.bank_setSlot (s : State) (i : Nat) (n : Nat) (x : Slot) : (s.setSlot n x).bank i = s.bank i := rfl
@[simp] theorem State.bank_setCtx (s : State) (i : Nat) (c : Nat) (x : Ctx) : (s.setCtx c x).bank i = s.bank i := rfl
@[simp] theorem State.bank_setCore (s : State) (i : Nat) (c : Nat) (x : Core) : (s.setCore c x).bank i = s.bank i := rfl
@[simp] theorem State.bank_setCluster (s : State) (i : Nat) (n : Nat) (x : Cluster) : (s.setCluster n x).bank i = s.bank i := rfl
@[simp] theorem State.bank_setGe (s : State) (i : Nat) (g : Nat) (x : Ge) : (s.setGe g x).bank i = s.bank i := rfl
@[simp] theorem State.bank_setPool (s : State) (i : Nat) (c sl : Nat) (x : Pool) : (s.setPool c sl x).bank i = s.bank i := rfl
@[simp] theorem State.bank_setLine (s : State) (i : Nat) (n : Nat) (x : EvtLine) : (s.setLine n x).bank i = s.bank i := rfl
@[simp] theorem State.bank_setSeqr (s : State) (i : Nat) (p : Nat) (x : Seqr) : (s.setSeqr p x).bank i = s.bank i := rfl
@[simp] theorem State.line_at (s : State) (i : Nat) (t : Nat) : (s.at t).line i = s.line i := rfl
@[simp] theorem State.line_push (s : State) (i : Nat) (w : List Work) : (s.push w).line i = s.line i := rfl
@[simp] theorem State.line_msix (s : State) (i : Nat) (v : Nat) : (s.msix v).line i = s.line i := rfl
@[simp] theorem State.line_setQueue (s : State) (i : Nat) (q : Nat) (x : Queue) : (s.setQueue q x).line i = s.line i := rfl
@[simp] theorem State.line_setSlot (s : State) (i : Nat) (n : Nat) (x : Slot) : (s.setSlot n x).line i = s.line i := rfl
@[simp] theorem State.line_setCtx (s : State) (i : Nat) (c : Nat) (x : Ctx) : (s.setCtx c x).line i = s.line i := rfl
@[simp] theorem State.line_setCore (s : State) (i : Nat) (c : Nat) (x : Core) : (s.setCore c x).line i = s.line i := rfl
@[simp] theorem State.line_setCluster (s : State) (i : Nat) (n : Nat) (x : Cluster) : (s.setCluster n x).line i = s.line i := rfl
@[simp] theorem State.line_setGe (s : State) (i : Nat) (g : Nat) (x : Ge) : (s.setGe g x).line i = s.line i := rfl
@[simp] theorem State.line_setBank (s : State) (i : Nat) (b : Nat) (x : Bank) : (s.setBank b x).line i = s.line i := rfl
@[simp] theorem State.line_setPool (s : State) (i : Nat) (c sl : Nat) (x : Pool) : (s.setPool c sl x).line i = s.line i := rfl
@[simp] theorem State.line_setSeqr (s : State) (i : Nat) (p : Nat) (x : Seqr) : (s.setSeqr p x).line i = s.line i := rfl
@[simp] theorem State.seqr_at (s : State) (i : Nat) (t : Nat) : (s.at t).seqr i = s.seqr i := rfl
@[simp] theorem State.seqr_push (s : State) (i : Nat) (w : List Work) : (s.push w).seqr i = s.seqr i := rfl
@[simp] theorem State.seqr_msix (s : State) (i : Nat) (v : Nat) : (s.msix v).seqr i = s.seqr i := rfl
@[simp] theorem State.seqr_setQueue (s : State) (i : Nat) (q : Nat) (x : Queue) : (s.setQueue q x).seqr i = s.seqr i := rfl
@[simp] theorem State.seqr_setSlot (s : State) (i : Nat) (n : Nat) (x : Slot) : (s.setSlot n x).seqr i = s.seqr i := rfl
@[simp] theorem State.seqr_setCtx (s : State) (i : Nat) (c : Nat) (x : Ctx) : (s.setCtx c x).seqr i = s.seqr i := rfl
@[simp] theorem State.seqr_setCore (s : State) (i : Nat) (c : Nat) (x : Core) : (s.setCore c x).seqr i = s.seqr i := rfl
@[simp] theorem State.seqr_setCluster (s : State) (i : Nat) (n : Nat) (x : Cluster) : (s.setCluster n x).seqr i = s.seqr i := rfl
@[simp] theorem State.seqr_setGe (s : State) (i : Nat) (g : Nat) (x : Ge) : (s.setGe g x).seqr i = s.seqr i := rfl
@[simp] theorem State.seqr_setBank (s : State) (i : Nat) (b : Nat) (x : Bank) : (s.setBank b x).seqr i = s.seqr i := rfl
@[simp] theorem State.seqr_setPool (s : State) (i : Nat) (c sl : Nat) (x : Pool) : (s.setPool c sl x).seqr i = s.seqr i := rfl
@[simp] theorem State.seqr_setLine (s : State) (i : Nat) (n : Nat) (x : EvtLine) : (s.setLine n x).seqr i = s.seqr i := rfl

end Sys2Proof.Machine
end

