-- ==== Sys2Proof/Laws/Words.lean ====
section
/-!
SUPPORT. Laws of stores: bytes and words stored change the two memories and nothing else.
-/
namespace Sys2Proof.Machine

/-- A stored byte changes a memory alone. -/
theorem State.wr8_eq (s : State) (host : Bool) (a : Nat) (b : Byte) :
    ∃ m h, s.wr8 host a b = { s with mem := m, hostMem := h } := by
  unfold State.wr8
  split
  · exact ⟨s.mem, _, rfl⟩
  · split
    · exact ⟨s.mem, _, rfl⟩
    · exact ⟨_, s.hostMem, rfl⟩

/-- Stored bytes change the memories alone. -/
theorem State.wrBytes_eq (s : State) (host : Bool) (a : Nat) (l : List Byte) :
    ∃ m h, s.wrBytes host a l = { s with mem := m, hostMem := h } := by
  induction l generalizing s a with
  | nil => exact ⟨s.mem, s.hostMem, rfl⟩
  | cons b r ih =>
    obtain ⟨m, h, e⟩ := s.wr8_eq host a b
    obtain ⟨m', h', e'⟩ := ih (s.wr8 host a b) (a + 1)
    exact ⟨m', h', by rw [State.wrBytes, e', e]⟩

/-- Stored words change the memories alone. -/
theorem State.wrWords_eq (s : State) (host : Bool) (a : Nat) (l : List Word) :
    ∃ m h, s.wrWords host a l = { s with mem := m, hostMem := h } := s.wrBytes_eq host a _

/-- A stored word changes the memories alone. -/
theorem State.wr64_eq (s : State) (a : Nat) (w : Word) : ∃ m h, s.wr64 a w = { s with mem := m, hostMem := h } :=
  s.wrBytes_eq false a _

@[simp] theorem State.wr8_env (s : State) (host : Bool) (a : Nat) (b : Byte) : (s.wr8 host a b).env = s.env := by
  obtain ⟨m, h, e⟩ := s.wr8_eq host a b; rw [e]
@[simp] theorem State.wrBytes_env (s : State) (host : Bool) (a : Nat) (l : List Byte) : (s.wrBytes host a l).env = s.env := by
  obtain ⟨m, h, e⟩ := s.wrBytes_eq host a l; rw [e]
@[simp] theorem State.wrWords_env (s : State) (host : Bool) (a : Nat) (l : List Word) : (s.wrWords host a l).env = s.env := by
  obtain ⟨m, h, e⟩ := s.wrWords_eq host a l; rw [e]
@[simp] theorem State.wr64_env (s : State) (a : Nat) (w : Word) : (s.wr64 a w).env = s.env := by
  obtain ⟨m, h, e⟩ := s.wr64_eq a w; rw [e]
@[simp] theorem State.wr8_freeCount (s : State) (host : Bool) (a : Nat) (b : Byte) : (s.wr8 host a b).freeCount = s.freeCount := by
  obtain ⟨m, h, e⟩ := s.wr8_eq host a b; rw [e]
@[simp] theorem State.wrBytes_freeCount (s : State) (host : Bool) (a : Nat) (l : List Byte) : (s.wrBytes host a l).freeCount = s.freeCount := by
  obtain ⟨m, h, e⟩ := s.wrBytes_eq host a l; rw [e]
@[simp] theorem State.wrWords_freeCount (s : State) (host : Bool) (a : Nat) (l : List Word) : (s.wrWords host a l).freeCount = s.freeCount := by
  obtain ⟨m, h, e⟩ := s.wrWords_eq host a l; rw [e]
@[simp] theorem State.wr64_freeCount (s : State) (a : Nat) (w : Word) : (s.wr64 a w).freeCount = s.freeCount := by
  obtain ⟨m, h, e⟩ := s.wr64_eq a w; rw [e]
@[simp] theorem State.wr8_pending (s : State) (host : Bool) (a : Nat) (b : Byte) : (s.wr8 host a b).pending = s.pending := by
  obtain ⟨m, h, e⟩ := s.wr8_eq host a b; rw [e]
@[simp] theorem State.wrBytes_pending (s : State) (host : Bool) (a : Nat) (l : List Byte) : (s.wrBytes host a l).pending = s.pending := by
  obtain ⟨m, h, e⟩ := s.wrBytes_eq host a l; rw [e]
@[simp] theorem State.wrWords_pending (s : State) (host : Bool) (a : Nat) (l : List Word) : (s.wrWords host a l).pending = s.pending := by
  obtain ⟨m, h, e⟩ := s.wrWords_eq host a l; rw [e]
@[simp] theorem State.wr64_pending (s : State) (a : Nat) (w : Word) : (s.wr64 a w).pending = s.pending := by
  obtain ⟨m, h, e⟩ := s.wr64_eq a w; rw [e]
@[simp] theorem State.wr8_work (s : State) (host : Bool) (a : Nat) (b : Byte) : (s.wr8 host a b).work = s.work := by
  obtain ⟨m, h, e⟩ := s.wr8_eq host a b; rw [e]
@[simp] theorem State.wrBytes_work (s : State) (host : Bool) (a : Nat) (l : List Byte) : (s.wrBytes host a l).work = s.work := by
  obtain ⟨m, h, e⟩ := s.wrBytes_eq host a l; rw [e]
@[simp] theorem State.wrWords_work (s : State) (host : Bool) (a : Nat) (l : List Word) : (s.wrWords host a l).work = s.work := by
  obtain ⟨m, h, e⟩ := s.wrWords_eq host a l; rw [e]
@[simp] theorem State.wr64_work (s : State) (a : Nat) (w : Word) : (s.wr64 a w).work = s.work := by
  obtain ⟨m, h, e⟩ := s.wr64_eq a w; rw [e]
@[simp] theorem State.wr8_out (s : State) (host : Bool) (a : Nat) (b : Byte) : (s.wr8 host a b).out = s.out := by
  obtain ⟨m, h, e⟩ := s.wr8_eq host a b; rw [e]
@[simp] theorem State.wrBytes_out (s : State) (host : Bool) (a : Nat) (l : List Byte) : (s.wrBytes host a l).out = s.out := by
  obtain ⟨m, h, e⟩ := s.wrBytes_eq host a l; rw [e]
@[simp] theorem State.wrWords_out (s : State) (host : Bool) (a : Nat) (l : List Word) : (s.wrWords host a l).out = s.out := by
  obtain ⟨m, h, e⟩ := s.wrWords_eq host a l; rw [e]
@[simp] theorem State.wr64_out (s : State) (a : Nat) (w : Word) : (s.wr64 a w).out = s.out := by
  obtain ⟨m, h, e⟩ := s.wr64_eq a w; rw [e]
@[simp] theorem State.wr8_gcs (s : State) (host : Bool) (a : Nat) (b : Byte) : (s.wr8 host a b).gcs = s.gcs := by
  obtain ⟨m, h, e⟩ := s.wr8_eq host a b; rw [e]
@[simp] theorem State.wrBytes_gcs (s : State) (host : Bool) (a : Nat) (l : List Byte) : (s.wrBytes host a l).gcs = s.gcs := by
  obtain ⟨m, h, e⟩ := s.wrBytes_eq host a l; rw [e]
@[simp] theorem State.wrWords_gcs (s : State) (host : Bool) (a : Nat) (l : List Word) : (s.wrWords host a l).gcs = s.gcs := by
  obtain ⟨m, h, e⟩ := s.wrWords_eq host a l; rw [e]
@[simp] theorem State.wr64_gcs (s : State) (a : Nat) (w : Word) : (s.wr64 a w).gcs = s.gcs := by
  obtain ⟨m, h, e⟩ := s.wr64_eq a w; rw [e]
@[simp] theorem State.wr8_cfe (s : State) (host : Bool) (a : Nat) (b : Byte) : (s.wr8 host a b).cfe = s.cfe := by
  obtain ⟨m, h, e⟩ := s.wr8_eq host a b; rw [e]
@[simp] theorem State.wrBytes_cfe (s : State) (host : Bool) (a : Nat) (l : List Byte) : (s.wrBytes host a l).cfe = s.cfe := by
  obtain ⟨m, h, e⟩ := s.wrBytes_eq host a l; rw [e]
@[simp] theorem State.wrWords_cfe (s : State) (host : Bool) (a : Nat) (l : List Word) : (s.wrWords host a l).cfe = s.cfe := by
  obtain ⟨m, h, e⟩ := s.wrWords_eq host a l; rw [e]
@[simp] theorem State.wr64_cfe (s : State) (a : Nat) (w : Word) : (s.wr64 a w).cfe = s.cfe := by
  obtain ⟨m, h, e⟩ := s.wr64_eq a w; rw [e]
@[simp] theorem State.wr8_ctxs (s : State) (host : Bool) (a : Nat) (b : Byte) : (s.wr8 host a b).ctxs = s.ctxs := by
  obtain ⟨m, h, e⟩ := s.wr8_eq host a b; rw [e]
@[simp] theorem State.wrBytes_ctxs (s : State) (host : Bool) (a : Nat) (l : List Byte) : (s.wrBytes host a l).ctxs = s.ctxs := by
  obtain ⟨m, h, e⟩ := s.wrBytes_eq host a l; rw [e]
@[simp] theorem State.wrWords_ctxs (s : State) (host : Bool) (a : Nat) (l : List Word) : (s.wrWords host a l).ctxs = s.ctxs := by
  obtain ⟨m, h, e⟩ := s.wrWords_eq host a l; rw [e]
@[simp] theorem State.wr64_ctxs (s : State) (a : Nat) (w : Word) : (s.wr64 a w).ctxs = s.ctxs := by
  obtain ⟨m, h, e⟩ := s.wr64_eq a w; rw [e]
@[simp] theorem State.wr8_gd (s : State) (host : Bool) (a : Nat) (b : Byte) : (s.wr8 host a b).gd = s.gd := by
  obtain ⟨m, h, e⟩ := s.wr8_eq host a b; rw [e]
@[simp] theorem State.wrBytes_gd (s : State) (host : Bool) (a : Nat) (l : List Byte) : (s.wrBytes host a l).gd = s.gd := by
  obtain ⟨m, h, e⟩ := s.wrBytes_eq host a l; rw [e]
@[simp] theorem State.wrWords_gd (s : State) (host : Bool) (a : Nat) (l : List Word) : (s.wrWords host a l).gd = s.gd := by
  obtain ⟨m, h, e⟩ := s.wrWords_eq host a l; rw [e]
@[simp] theorem State.wr64_gd (s : State) (a : Nat) (w : Word) : (s.wr64 a w).gd = s.gd := by
  obtain ⟨m, h, e⟩ := s.wr64_eq a w; rw [e]
@[simp] theorem State.wr8_csq (s : State) (host : Bool) (a : Nat) (b : Byte) : (s.wr8 host a b).csq = s.csq := by
  obtain ⟨m, h, e⟩ := s.wr8_eq host a b; rw [e]
@[simp] theorem State.wrBytes_csq (s : State) (host : Bool) (a : Nat) (l : List Byte) : (s.wrBytes host a l).csq = s.csq := by
  obtain ⟨m, h, e⟩ := s.wrBytes_eq host a l; rw [e]
@[simp] theorem State.wrWords_csq (s : State) (host : Bool) (a : Nat) (l : List Word) : (s.wrWords host a l).csq = s.csq := by
  obtain ⟨m, h, e⟩ := s.wrWords_eq host a l; rw [e]
@[simp] theorem State.wr64_csq (s : State) (a : Nat) (w : Word) : (s.wr64 a w).csq = s.csq := by
  obtain ⟨m, h, e⟩ := s.wr64_eq a w; rw [e]
@[simp] theorem State.wr8_ctu (s : State) (host : Bool) (a : Nat) (b : Byte) : (s.wr8 host a b).ctu = s.ctu := by
  obtain ⟨m, h, e⟩ := s.wr8_eq host a b; rw [e]
@[simp] theorem State.wrBytes_ctu (s : State) (host : Bool) (a : Nat) (l : List Byte) : (s.wrBytes host a l).ctu = s.ctu := by
  obtain ⟨m, h, e⟩ := s.wrBytes_eq host a l; rw [e]
@[simp] theorem State.wrWords_ctu (s : State) (host : Bool) (a : Nat) (l : List Word) : (s.wrWords host a l).ctu = s.ctu := by
  obtain ⟨m, h, e⟩ := s.wrWords_eq host a l; rw [e]
@[simp] theorem State.wr64_ctu (s : State) (a : Nat) (w : Word) : (s.wr64 a w).ctu = s.ctu := by
  obtain ⟨m, h, e⟩ := s.wr64_eq a w; rw [e]
@[simp] theorem State.wr8_plu (s : State) (host : Bool) (a : Nat) (b : Byte) : (s.wr8 host a b).plu = s.plu := by
  obtain ⟨m, h, e⟩ := s.wr8_eq host a b; rw [e]
@[simp] theorem State.wrBytes_plu (s : State) (host : Bool) (a : Nat) (l : List Byte) : (s.wrBytes host a l).plu = s.plu := by
  obtain ⟨m, h, e⟩ := s.wrBytes_eq host a l; rw [e]
@[simp] theorem State.wrWords_plu (s : State) (host : Bool) (a : Nat) (l : List Word) : (s.wrWords host a l).plu = s.plu := by
  obtain ⟨m, h, e⟩ := s.wrWords_eq host a l; rw [e]
@[simp] theorem State.wr64_plu (s : State) (a : Nat) (w : Word) : (s.wr64 a w).plu = s.plu := by
  obtain ⟨m, h, e⟩ := s.wr64_eq a w; rw [e]
@[simp] theorem State.wr8_dcache (s : State) (host : Bool) (a : Nat) (b : Byte) : (s.wr8 host a b).dcache = s.dcache := by
  obtain ⟨m, h, e⟩ := s.wr8_eq host a b; rw [e]
@[simp] theorem State.wrBytes_dcache (s : State) (host : Bool) (a : Nat) (l : List Byte) : (s.wrBytes host a l).dcache = s.dcache := by
  obtain ⟨m, h, e⟩ := s.wrBytes_eq host a l; rw [e]
@[simp] theorem State.wrWords_dcache (s : State) (host : Bool) (a : Nat) (l : List Word) : (s.wrWords host a l).dcache = s.dcache := by
  obtain ⟨m, h, e⟩ := s.wrWords_eq host a l; rw [e]
@[simp] theorem State.wr64_dcache (s : State) (a : Nat) (w : Word) : (s.wr64 a w).dcache = s.dcache := by
  obtain ⟨m, h, e⟩ := s.wr64_eq a w; rw [e]
@[simp] theorem State.wr8_ges (s : State) (host : Bool) (a : Nat) (b : Byte) : (s.wr8 host a b).ges = s.ges := by
  obtain ⟨m, h, e⟩ := s.wr8_eq host a b; rw [e]
@[simp] theorem State.wrBytes_ges (s : State) (host : Bool) (a : Nat) (l : List Byte) : (s.wrBytes host a l).ges = s.ges := by
  obtain ⟨m, h, e⟩ := s.wrBytes_eq host a l; rw [e]
@[simp] theorem State.wrWords_ges (s : State) (host : Bool) (a : Nat) (l : List Word) : (s.wrWords host a l).ges = s.ges := by
  obtain ⟨m, h, e⟩ := s.wrWords_eq host a l; rw [e]
@[simp] theorem State.wr64_ges (s : State) (a : Nat) (w : Word) : (s.wr64 a w).ges = s.ges := by
  obtain ⟨m, h, e⟩ := s.wr64_eq a w; rw [e]
@[simp] theorem State.wr8_car (s : State) (host : Bool) (a : Nat) (b : Byte) : (s.wr8 host a b).car = s.car := by
  obtain ⟨m, h, e⟩ := s.wr8_eq host a b; rw [e]
@[simp] theorem State.wrBytes_car (s : State) (host : Bool) (a : Nat) (l : List Byte) : (s.wrBytes host a l).car = s.car := by
  obtain ⟨m, h, e⟩ := s.wrBytes_eq host a l; rw [e]
@[simp] theorem State.wrWords_car (s : State) (host : Bool) (a : Nat) (l : List Word) : (s.wrWords host a l).car = s.car := by
  obtain ⟨m, h, e⟩ := s.wrWords_eq host a l; rw [e]
@[simp] theorem State.wr64_car (s : State) (a : Nat) (w : Word) : (s.wr64 a w).car = s.car := by
  obtain ⟨m, h, e⟩ := s.wr64_eq a w; rw [e]
@[simp] theorem State.wr8_rly (s : State) (host : Bool) (a : Nat) (b : Byte) : (s.wr8 host a b).rly = s.rly := by
  obtain ⟨m, h, e⟩ := s.wr8_eq host a b; rw [e]
@[simp] theorem State.wrBytes_rly (s : State) (host : Bool) (a : Nat) (l : List Byte) : (s.wrBytes host a l).rly = s.rly := by
  obtain ⟨m, h, e⟩ := s.wrBytes_eq host a l; rw [e]
@[simp] theorem State.wrWords_rly (s : State) (host : Bool) (a : Nat) (l : List Word) : (s.wrWords host a l).rly = s.rly := by
  obtain ⟨m, h, e⟩ := s.wrWords_eq host a l; rw [e]
@[simp] theorem State.wr64_rly (s : State) (a : Nat) (w : Word) : (s.wr64 a w).rly = s.rly := by
  obtain ⟨m, h, e⟩ := s.wr64_eq a w; rw [e]
@[simp] theorem State.wr8_stat (s : State) (host : Bool) (a : Nat) (b : Byte) : (s.wr8 host a b).stat = s.stat := by
  obtain ⟨m, h, e⟩ := s.wr8_eq host a b; rw [e]
@[simp] theorem State.wrBytes_stat (s : State) (host : Bool) (a : Nat) (l : List Byte) : (s.wrBytes host a l).stat = s.stat := by
  obtain ⟨m, h, e⟩ := s.wrBytes_eq host a l; rw [e]
@[simp] theorem State.wrWords_stat (s : State) (host : Bool) (a : Nat) (l : List Word) : (s.wrWords host a l).stat = s.stat := by
  obtain ⟨m, h, e⟩ := s.wrWords_eq host a l; rw [e]
@[simp] theorem State.wr64_stat (s : State) (a : Nat) (w : Word) : (s.wr64 a w).stat = s.stat := by
  obtain ⟨m, h, e⟩ := s.wr64_eq a w; rw [e]
@[simp] theorem State.wr8_tth (s : State) (host : Bool) (a : Nat) (b : Byte) : (s.wr8 host a b).tth = s.tth := by
  obtain ⟨m, h, e⟩ := s.wr8_eq host a b; rw [e]
@[simp] theorem State.wrBytes_tth (s : State) (host : Bool) (a : Nat) (l : List Byte) : (s.wrBytes host a l).tth = s.tth := by
  obtain ⟨m, h, e⟩ := s.wrBytes_eq host a l; rw [e]
@[simp] theorem State.wrWords_tth (s : State) (host : Bool) (a : Nat) (l : List Word) : (s.wrWords host a l).tth = s.tth := by
  obtain ⟨m, h, e⟩ := s.wrWords_eq host a l; rw [e]
@[simp] theorem State.wr64_tth (s : State) (a : Nat) (w : Word) : (s.wr64 a w).tth = s.tth := by
  obtain ⟨m, h, e⟩ := s.wr64_eq a w; rw [e]
@[simp] theorem State.wr8_fwc (s : State) (host : Bool) (a : Nat) (b : Byte) : (s.wr8 host a b).fwc = s.fwc := by
  obtain ⟨m, h, e⟩ := s.wr8_eq host a b; rw [e]
@[simp] theorem State.wrBytes_fwc (s : State) (host : Bool) (a : Nat) (l : List Byte) : (s.wrBytes host a l).fwc = s.fwc := by
  obtain ⟨m, h, e⟩ := s.wrBytes_eq host a l; rw [e]
@[simp] theorem State.wrWords_fwc (s : State) (host : Bool) (a : Nat) (l : List Word) : (s.wrWords host a l).fwc = s.fwc := by
  obtain ⟨m, h, e⟩ := s.wrWords_eq host a l; rw [e]
@[simp] theorem State.wr64_fwc (s : State) (a : Nat) (w : Word) : (s.wr64 a w).fwc = s.fwc := by
  obtain ⟨m, h, e⟩ := s.wr64_eq a w; rw [e]
@[simp] theorem State.wr8_i3c (s : State) (host : Bool) (a : Nat) (b : Byte) : (s.wr8 host a b).i3c = s.i3c := by
  obtain ⟨m, h, e⟩ := s.wr8_eq host a b; rw [e]
@[simp] theorem State.wrBytes_i3c (s : State) (host : Bool) (a : Nat) (l : List Byte) : (s.wrBytes host a l).i3c = s.i3c := by
  obtain ⟨m, h, e⟩ := s.wrBytes_eq host a l; rw [e]
@[simp] theorem State.wrWords_i3c (s : State) (host : Bool) (a : Nat) (l : List Word) : (s.wrWords host a l).i3c = s.i3c := by
  obtain ⟨m, h, e⟩ := s.wrWords_eq host a l; rw [e]
@[simp] theorem State.wr64_i3c (s : State) (a : Nat) (w : Word) : (s.wr64 a w).i3c = s.i3c := by
  obtain ⟨m, h, e⟩ := s.wr64_eq a w; rw [e]
@[simp] theorem State.wr8_fsu (s : State) (host : Bool) (a : Nat) (b : Byte) : (s.wr8 host a b).fsu = s.fsu := by
  obtain ⟨m, h, e⟩ := s.wr8_eq host a b; rw [e]
@[simp] theorem State.wrBytes_fsu (s : State) (host : Bool) (a : Nat) (l : List Byte) : (s.wrBytes host a l).fsu = s.fsu := by
  obtain ⟨m, h, e⟩ := s.wrBytes_eq host a l; rw [e]
@[simp] theorem State.wrWords_fsu (s : State) (host : Bool) (a : Nat) (l : List Word) : (s.wrWords host a l).fsu = s.fsu := by
  obtain ⟨m, h, e⟩ := s.wrWords_eq host a l; rw [e]
@[simp] theorem State.wr64_fsu (s : State) (a : Nat) (w : Word) : (s.wr64 a w).fsu = s.fsu := by
  obtain ⟨m, h, e⟩ := s.wr64_eq a w; rw [e]
@[simp] theorem State.wr8_flash (s : State) (host : Bool) (a : Nat) (b : Byte) : (s.wr8 host a b).flash = s.flash := by
  obtain ⟨m, h, e⟩ := s.wr8_eq host a b; rw [e]
@[simp] theorem State.wrBytes_flash (s : State) (host : Bool) (a : Nat) (l : List Byte) : (s.wrBytes host a l).flash = s.flash := by
  obtain ⟨m, h, e⟩ := s.wrBytes_eq host a l; rw [e]
@[simp] theorem State.wrWords_flash (s : State) (host : Bool) (a : Nat) (l : List Word) : (s.wrWords host a l).flash = s.flash := by
  obtain ⟨m, h, e⟩ := s.wrWords_eq host a l; rw [e]
@[simp] theorem State.wr64_flash (s : State) (a : Nat) (w : Word) : (s.wr64 a w).flash = s.flash := by
  obtain ⟨m, h, e⟩ := s.wr64_eq a w; rw [e]

end Sys2Proof.Machine
end

