-- ==== Sys2Proof/Laws/Gate.lean ====
section
/-!
SUPPORT. Laws of the control core: scalar registers, the instruction at the program counter, and going on to the next one.
-/
namespace Sys2Proof.Machine

theorem AL.put_put {κ α : Type} [DecidableEq κ] (k : κ) (v v' : α) (m : List (κ × α)) :
    AL.put k v (AL.put k v' m) = AL.put k v m := by
  induction m with
  | nil => simp [AL.put]
  | cons p r ih =>
    obtain ⟨j, u⟩ := p
    unfold AL.put
    by_cases e : j = k
    · simp [e, AL.put]
    · simp [e, AL.put, ih]

@[simp] theorem State.setGe_setGe (s : State) (g : Nat) (x x' : Ge) : (s.setGe g x').setGe g x = s.setGe g x := by
  simp [State.setGe, AL.put_put]

@[simp] theorem GeRun.setReg_pc (y : GeRun) (n : Nat) (v : Word) : (y.setReg n v).pc = y.pc := by
  unfold GeRun.setReg; split <;> rfl

@[simp] theorem GeRun.setReg_count (y : GeRun) (n : Nat) (v : Word) : (y.setReg n v).count = y.count := by
  unfold GeRun.setReg; split <;> rfl

/-- The instruction that the program's word encodes is applied to the task that runs. -/
theorem State.geOp_at {s : State} {i : Instr} {g : Nat} {y : GeRun} {f : GeRun → State} (h : s.atInsn g y)
    (hr : s.geRow g = some i) : s.geOp i g f = f y := by
  unfold State.geOp
  rw [h.2.1]
  simp [h.2.2, h.1.2, hr]

/-- A word that encodes no instruction ends the task as failed, whichever row is presented. -/
theorem State.geOp_illegal {s : State} {i : Instr} {g : Nat} {y : GeRun} {f : GeRun → State} (h : s.atInsn g y)
    (hr : s.geRow g = none) : s.geOp i g f = s.geFail g 4 := by
  unfold State.geOp
  rw [h.2.1]
  simp [h.2.2, h.1.2, hr]

/-- A row that the program's word does not encode does nothing. -/
theorem State.geOp_other {s : State} {i j : Instr} {g : Nat} {y : GeRun} {f : GeRun → State} (h : s.atInsn g y)
    (hr : s.geRow g = some j) (hn : j ≠ i) : s.geOp i g f = s := by
  unfold State.geOp
  rw [h.2.1]
  simp [h.2.2, h.1.2, hr, hn]

@[simp] theorem GeRun.setReg_line (y : GeRun) (n : Nat) (v : Word) (pc : Nat) : (y.setReg n v).line pc = y.line pc := by
  unfold GeRun.setReg; split <;> rfl

/-- Inside the program the next instruction follows, with its line in the instruction cache. -/
theorem State.geNext_go {s : State} {g pc : Nat} {y : GeRun} (h : s.mayGo g y pc) : s.geNext g y pc = s.geGo g y pc := by
  unfold State.geNext
  dsimp only
  rw [if_neg (Nat.not_le.mpr h.1), if_neg]
  · rfl
  · obtain e | e := h.2
    · rw [e]; simp
    · rw [e]; simp

/-- What an instruction may go on to does not depend on the registers. -/
@[simp] theorem State.mayGo_setReg (s : State) (g pc n : Nat) (y : GeRun) (v : Word) :
    s.mayGo g (y.setReg n v) pc ↔ s.mayGo g y pc := by
  simp [State.mayGo]

/-- Outside the program the task fails. -/
theorem State.geNext_ge {s : State} {g pc : Nat} {y : GeRun} (h : y.count ≤ pc) :
    s.geNext g y pc = (s.geAt g y pc).geFail g 4 := by
  unfold State.geNext
  simp [h, State.geAt]

@[simp] theorem State.geGo_work (s : State) (g pc : Nat) (y : GeRun) : (s.geGo g y pc).work = s.work := rfl

theorem settle_geGo {s : State} {g pc : Nat} {y : GeRun} (h : s.work = []) : settle (s.geGo g y pc) = s.geGo g y pc :=
  settle_nil h

/-- A register instruction inside the program. -/
theorem State.geAlu_at {s : State} {i : Instr} {g d a b : Nat} {y : GeRun} {f : Word → Word → Word} (h : s.atInsn g y)
    (hp : s.mayGo g y (y.pc + 1)) (hr : s.geRow g = some i) :
    settle (s.geAlu i g d a b f) = s.geGo g (y.setReg d (f (y.reg a) (y.reg b))) (y.pc + 1) := by
  unfold State.geAlu
  rw [State.geOp_at h hr, State.geNext_go (by simpa using hp), settle_geGo h.1.1]

/-- A floating-point instruction whose flags are not trapped. -/
theorem State.geFp_at {s : State} {i : Instr} {g d : Nat} {y : GeRun} {f : GeRun → Word × Nat} (h : s.atInsn g y)
    (hp : s.mayGo g y (y.pc + 1)) (hr : s.geRow g = some i) (ht : (f y).2 &&& (s.ge g).trapEn = 0) :
    settle (s.geFp i g d f) = s.geGo g ({ y with flags := y.flags ||| (f y).2 }.setReg d (f y).1) (y.pc + 1) := by
  unfold State.geFp
  rw [State.geOp_at h hr]
  simp only [ht, ne_eq, not_true, if_false]
  have hq : s.mayGo g { y with flags := y.flags ||| (f y).2 } (y.pc + 1) := hp
  rw [State.geNext_go ((State.mayGo_setReg _ _ _ _ _ _).mpr hq), settle_geGo h.1.1]

/-- One whose flags are trapped. -/
theorem State.geFp_trap {s : State} {i : Instr} {g d : Nat} {y : GeRun} {f : GeRun → Word × Nat} (h : s.atInsn g y)
    (hr : s.geRow g = some i) (ht : (f y).2 &&& (s.ge g).trapEn ≠ 0) :
    s.geFp i g d f = ((s.geAt g { y with flags := y.flags ||| (f y).2 } y.pc).geRecord g
      { y with flags := y.flags ||| (f y).2 } 1).push [.faultQuiet y.e.ref.ctx 0x0F] := by
  unfold State.geFp
  rw [State.geOp_at h hr]
  simp only [ht, ne_eq, not_false_eq_true, if_true]
  unfold State.geTrap State.geAt
  rw [show ((s.setGe g { s.ge g with run := some { y with flags := y.flags ||| (f y).2 } }).ge g).run =
    some { y with flags := y.flags ||| (f y).2 } by simp]

/-- A task that an access stops. -/
theorem State.geTrap_at {s : State} {g cause : Nat} {y : GeRun} (h : (s.ge g).run = some y) :
    s.geTrap g cause = (s.geRecord g y cause).push [.faultQuiet y.e.ref.ctx 0x0F] := by
  unfold State.geTrap
  rw [h]

/-- Going on from a task that has just been set. -/
theorem State.setGe_geGo (s : State) (g pc : Nat) (y z : GeRun) :
    (s.setGe g { s.ge g with run := some z }).geGo g y pc = s.geGo g y pc := by
  simp [State.geGo]

end Sys2Proof.Machine
end

