-- ==== Sys2Proof/Laws/Memory.lean ====
section
/-!
SUPPORT. Laws of memory: a write keeps the canonical form, a read after a write, and equality of canonical memories.
-/
namespace Sys2Proof.Machine

/-- Every listed address is above `a`. -/
def Memory.above (a : Nat) (m : List Host.Cell) : Prop := ∀ x ∈ m, a < x.1

theorem Memory.wf_cons {k : Nat} {b : Byte} {m : List Host.Cell} :
    Memory.wf ((k, b) :: m) = true ↔ b ≠ 0 ∧ Memory.above k m ∧ Memory.wf m = true := by
  induction m generalizing k b with
  | nil => simp [Memory.wf, Memory.above]
  | cons x r ih =>
    obtain ⟨k', b'⟩ := x
    rw [Memory.wf]
    simp only [Bool.and_eq_true, decide_eq_true_eq, ih, Memory.above, List.mem_cons, forall_eq_or_imp]
    constructor
    · rintro ⟨⟨h1, h2⟩, h3, h4, h5⟩
      exact ⟨h2, ⟨h1, fun y hy => Nat.lt_trans h1 (h4 y hy)⟩, h3, h4, h5⟩
    · rintro ⟨h1, ⟨h2, _⟩, h4⟩
      exact ⟨⟨h2, h1⟩, h4⟩

theorem Memory.write_above {c a : Nat} {b : Byte} {m : List Host.Cell} (h : Memory.above c m) (hc : c < a) :
    Memory.above c (Memory.write m a b) := by
  induction m with
  | nil => unfold Memory.write; split <;> simp [Memory.above, hc]
  | cons x r ih =>
    obtain ⟨k, d⟩ := x
    have hk : c < k := h (k, d) (by simp)
    have hr : Memory.above c r := fun y hy => h y (by simp [hy])
    unfold Memory.write
    split
    · split
      · exact h
      · intro y hy
        rcases List.mem_cons.1 hy with rfl | hy
        · exact hc
        · exact h y hy
    · split
      · split
        · exact hr
        · intro y hy
          rcases List.mem_cons.1 hy with rfl | hy
          · exact hc
          · exact hr y hy
      · intro y hy
        rcases List.mem_cons.1 hy with rfl | hy
        · exact hk
        · exact ih hr y hy

/-- A write keeps the canonical form. -/
theorem Memory.write_wf (m : List Host.Cell) (a : Nat) (b : Byte) (h : Memory.wf m = true) :
    Memory.wf (Memory.write m a b) = true := by
  induction m with
  | nil => unfold Memory.write; split <;> simp_all [Memory.wf]
  | cons x r ih =>
    obtain ⟨k, d⟩ := x
    obtain ⟨h1, h2, h3⟩ := Memory.wf_cons.1 h
    unfold Memory.write
    split
    · rename_i hlt
      split
      · exact h
      · rename_i hb
        refine Memory.wf_cons.2 ⟨hb, ?_, h⟩
        intro y hy
        rcases List.mem_cons.1 hy with rfl | hy
        · exact hlt
        · exact Nat.lt_trans hlt (h2 y hy)
    · rename_i hge
      split
      · rename_i heq
        split
        · exact h3
        · rename_i hb
          exact Memory.wf_cons.2 ⟨hb, heq ▸ h2, h3⟩
      · rename_i hne
        exact Memory.wf_cons.2 ⟨h1, Memory.write_above h2 (by omega), ih h3⟩

theorem Memory.read_above {a : Nat} {m : List Host.Cell} (h : Memory.above a m) : Memory.read m a = 0 := by
  induction m with
  | nil => rfl
  | cons x r ih =>
    obtain ⟨k, d⟩ := x
    have hk : a < k := h (k, d) (by simp)
    unfold Memory.read
    rw [if_neg (by omega)]
    exact ih fun y hy => h y (by simp [hy])

/-- A read after a write to the same place gives the byte written. -/
theorem Memory.read_write_same (m : List Host.Cell) (a : Nat) (b : Byte) (h : Memory.wf m = true) :
    Memory.read (Memory.write m a b) a = b := by
  induction m with
  | nil => unfold Memory.write; split <;> simp_all [Memory.read]
  | cons x r ih =>
    obtain ⟨k, d⟩ := x
    obtain ⟨h1, h2, h3⟩ := Memory.wf_cons.1 h
    unfold Memory.write
    split
    · rename_i hlt
      split
      · rename_i hb
        rw [hb]
        refine Memory.read_above ?_
        intro y hy
        rcases List.mem_cons.1 hy with rfl | hy
        · exact hlt
        · exact Nat.lt_trans hlt (h2 y hy)
      · simp [Memory.read]
    · split
      · rename_i heq
        split
        · rename_i hb
          rw [hb, heq]
          exact Memory.read_above h2
        · simp [Memory.read]
      · rename_i hne
        rw [Memory.read, if_neg (fun e => hne e.symm)]
        exact ih h3

/-- A write leaves every other place alone. -/
theorem Memory.read_write_other (m : List Host.Cell) (a c : Nat) (b : Byte) (hc : c ≠ a) :
    Memory.read (Memory.write m a b) c = Memory.read m c := by
  induction m with
  | nil => unfold Memory.write; split <;> simp [Memory.read, Ne.symm hc]
  | cons x r ih =>
    obtain ⟨k, d⟩ := x
    unfold Memory.write
    split
    · split
      · rfl
      · rw [Memory.read, if_neg (Ne.symm hc)]
    · split
      · rename_i heq
        split
        · rw [Memory.read, if_neg (by omega)]
        · rw [Memory.read, if_neg (Ne.symm hc), Memory.read, if_neg (by omega)]
      · rw [Memory.read, Memory.read, ih]

end Sys2Proof.Machine
end

