-- ==== Sys2Proof/Laws/KeepsCore.lean ====
section
/-!
SUPPORT. What every operation keeps: shared operations, tiles, prediction, counters, queues, descriptor cache and tasks.
-/
namespace Sys2Proof.Machine
set_option linter.unusedTactic false
set_option linter.unreachableTactic false

/-- What every operation of the block keeps of the state `z` that it started from: the queue of waiting commands, the device,
the canonical form of both memories; the timebase, the count of free values and the rollback floor only rise. -/
structure Keeps (z s : State) : Prop where
  pending : s.pending = z.pending
  dev : s.env.dev = z.env.dev
  now : z.env.now ≤ s.env.now
  otp : z.flash.otp ≤ s.flash.otp
  free : z.freeCount ≤ s.freeCount
  mem : Memory.wf z.mem = true → Memory.wf s.mem = true
  hostMem : Memory.wf z.hostMem = true → Memory.wf s.hostMem = true

theorem Keeps.refl (s : State) : Keeps s s := ⟨rfl, rfl, Nat.le_refl _, Nat.le_refl _, Nat.le_refl _, id, id⟩

theorem keeps_mk {z s : State} (h : Keeps z s) {work out gcs cfe ctxs gd csq ctu plu dcache ges car rly stat tth fwc i3c fsu} :
    Keeps z ⟨s.env, s.mem, s.hostMem, s.freeCount, s.pending, work, out, gcs, cfe, ctxs, gd, csq, ctu, plu, dcache, ges, car, rly,
      stat, tth, fwc, i3c, fsu, s.flash⟩ := ⟨h.pending, h.dev, h.now, h.otp, h.free, h.mem, h.hostMem⟩

theorem keeps_flash {z s : State} {f : Flash} (h : Keeps z s) (hf : s.flash.otp ≤ f.otp)
    {work out gcs cfe ctxs gd csq ctu plu dcache ges car rly stat tth fwc i3c fsu} :
    Keeps z ⟨s.env, s.mem, s.hostMem, s.freeCount, s.pending, work, out, gcs, cfe, ctxs, gd, csq, ctu, plu, dcache, ges, car, rly,
      stat, tth, fwc, i3c, fsu, f⟩ := ⟨h.pending, h.dev, h.now, Nat.le_trans h.otp hf, h.free, h.mem, h.hostMem⟩

theorem keeps_ite {z a b : State} {c : Prop} [Decidable c] (ha : c → Keeps z a) (hb : ¬c → Keeps z b) :
    Keeps z (if c then a else b) := by
  split
  · exact ha ‹_›
  · exact hb ‹_›

theorem keeps_foldl {z s : State} {α : Type} {f : State → α → State} {l : List α} (h : Keeps z s)
    (hf : ∀ s a, Keeps z s → Keeps z (f s a)) : Keeps z (l.foldl f s) := by
  induction l generalizing s with
  | nil => exact h
  | cons x r ih => exact ih (hf s x h)

theorem keeps_snd {z s : State} {α : Type} {p : α × State} {a : α} (e : p = (a, s)) (h : Keeps z p.2) : Keeps z s := by
  subst e; exact h

theorem keeps_snd2 {z s : State} {α β : Type} {p : α × β × State} {a : α} {b : β} (e : p = (a, b, s)) (h : Keeps z p.2.2) :
    Keeps z s := by
  subst e; exact h

theorem keeps_some {z s t : State} (h : Keeps z s) (e : some s = some t) : Keeps z t := by
  cases e; exact h

theorem keeps_somep {z s t : State} {α : Type} {a b : α} (h : Keeps z s) (e : some (a, s) = some (b, t)) : Keeps z t := by
  cases e; exact h

theorem keeps_none {α : Type} {z s : State} {x : α} (e : (none : Option α) = some x) : Keeps z s := nomatch e

theorem keeps_free {z s : State} {n : Nat} (h : Keeps z s) (hn : s.freeCount ≤ n)
    {work out gcs cfe ctxs gd csq ctu plu dcache ges car rly stat tth fwc i3c fsu} :
    Keeps z ⟨s.env, s.mem, s.hostMem, n, s.pending, work, out, gcs, cfe, ctxs, gd, csq, ctu, plu, dcache, ges, car, rly,
      stat, tth, fwc, i3c, fsu, s.flash⟩ := ⟨h.pending, h.dev, h.now, h.otp, Nat.le_trans h.free hn, h.mem, h.hostMem⟩

/-! ## Ops -/

theorem State.wr8_keeps {z s : State} {host : Bool} {a : Nat} {b : Byte} (h : Keeps z s) :
    Keeps z (State.wr8 s host a b) := by
  unfold State.wr8
  split
  · exact ⟨h.pending, h.dev, h.now, h.otp, h.free, h.mem, fun k => Memory.write_wf _ _ _ (h.hostMem k)⟩
  · split
    · exact ⟨h.pending, h.dev, h.now, h.otp, h.free, h.mem, fun k => Memory.write_wf _ _ _ (h.hostMem k)⟩
    · exact ⟨h.pending, h.dev, h.now, h.otp, h.free, fun k => Memory.write_wf _ _ _ (h.mem k), h.hostMem⟩

theorem State.wrBytes_keeps {z s : State} {host : Bool} {a : Nat} {x3 : List Byte} (h : Keeps z s) :
    Keeps z (State.wrBytes s host a x3) := by
  induction x3 generalizing s a with
  | nil => exact h
  | cons b r ih => exact ih (State.wr8_keeps h)

theorem State.wr64_keeps {z s : State} {a : Nat} {w : Word} (h : Keeps z s) :
    Keeps z (State.wr64 s a w) := by
  unfold State.wr64
  repeat' first
    | with_reducible assumption | with_reducible apply State.wrBytes_keeps | with_reducible apply keeps_ite
    | with_reducible apply keeps_foldl | intro _ | split | with_reducible apply keeps_mk

theorem State.wrWords_keeps {z s : State} {host : Bool} {a : Nat} {ws : List Word} (h : Keeps z s) :
    Keeps z (State.wrWords s host a ws) := by
  unfold State.wrWords
  repeat' first
    | with_reducible assumption | with_reducible apply State.wrBytes_keeps | with_reducible apply keeps_ite
    | with_reducible apply keeps_foldl | intro _ | split | with_reducible apply keeps_mk

theorem State.at_keeps {z s : State} {t : Nat} (h : Keeps z s) :
    Keeps z (State.at s t) := by
  exact ⟨h.pending, h.dev, Nat.le_trans h.now (Nat.le_max_left _ _), h.otp, h.free, h.mem, h.hostMem⟩

theorem State.fresh_keeps {z s : State} {n : Nat} (h : Keeps z s) :
    Keeps z (State.fresh s n).2 := by
  exact ⟨h.pending, h.dev, h.now, h.otp, Nat.le_trans h.free (Nat.le_succ _), h.mem, h.hostMem⟩

theorem State.push_keeps {z s : State} {w : List Work} (h : Keeps z s) :
    Keeps z (State.push s w) := by
  unfold State.push
  repeat' first
    | with_reducible assumption | with_reducible apply keeps_ite | with_reducible apply keeps_foldl | intro _ | split
    | with_reducible apply keeps_mk

theorem State.setQueue_keeps {z s : State} {q : Nat} {x : Queue} (h : Keeps z s) :
    Keeps z (State.setQueue s q x) := by
  unfold State.setQueue
  repeat' first
    | with_reducible assumption | with_reducible apply keeps_ite | with_reducible apply keeps_foldl | intro _ | split
    | with_reducible apply keeps_mk

theorem State.updQueue_keeps {z s : State} {q : Nat} {f : Queue → Queue} (h : Keeps z s) :
    Keeps z (State.updQueue s q f) := by
  unfold State.updQueue
  repeat' first
    | with_reducible assumption | with_reducible apply State.setQueue_keeps | with_reducible apply keeps_ite
    | with_reducible apply keeps_foldl | intro _ | split | with_reducible apply keeps_mk

theorem State.setSlot_keeps {z s : State} {n : Nat} {x : Slot} (h : Keeps z s) :
    Keeps z (State.setSlot s n x) := by
  unfold State.setSlot
  repeat' first
    | with_reducible assumption | with_reducible apply keeps_ite | with_reducible apply keeps_foldl | intro _ | split
    | with_reducible apply keeps_mk

theorem State.setCtx_keeps {z s : State} {c : Nat} {x : Ctx} (h : Keeps z s) :
    Keeps z (State.setCtx s c x) := by
  unfold State.setCtx
  repeat' first
    | with_reducible assumption | with_reducible apply keeps_ite | with_reducible apply keeps_foldl | intro _ | split
    | with_reducible apply keeps_mk

theorem State.updCtx_keeps {z s : State} {c : Nat} {f : Ctx → Ctx} (h : Keeps z s) :
    Keeps z (State.updCtx s c f) := by
  unfold State.updCtx
  repeat' first
    | with_reducible assumption | with_reducible apply State.setCtx_keeps | with_reducible apply keeps_ite
    | with_reducible apply keeps_foldl | intro _ | split | with_reducible apply keeps_mk

theorem State.setCore_keeps {z s : State} {c : Nat} {x : Core} (h : Keeps z s) :
    Keeps z (State.setCore s c x) := by
  unfold State.setCore
  repeat' first
    | with_reducible assumption | with_reducible apply keeps_ite | with_reducible apply keeps_foldl | intro _ | split
    | with_reducible apply keeps_mk

theorem State.updCore_keeps {z s : State} {c : Nat} {f : Core → Core} (h : Keeps z s) :
    Keeps z (State.updCore s c f) := by
  unfold State.updCore
  repeat' first
    | with_reducible assumption | with_reducible apply State.setCore_keeps | with_reducible apply keeps_ite
    | with_reducible apply keeps_foldl | intro _ | split | with_reducible apply keeps_mk

theorem State.setCluster_keeps {z s : State} {n : Nat} {x : Cluster} (h : Keeps z s) :
    Keeps z (State.setCluster s n x) := by
  unfold State.setCluster
  repeat' first
    | with_reducible assumption | with_reducible apply keeps_ite | with_reducible apply keeps_foldl | intro _ | split
    | with_reducible apply keeps_mk

theorem State.setGe_keeps {z s : State} {g : Nat} {x : Ge} (h : Keeps z s) :
    Keeps z (State.setGe s g x) := by
  unfold State.setGe
  repeat' first
    | with_reducible assumption | with_reducible apply keeps_ite | with_reducible apply keeps_foldl | intro _ | split
    | with_reducible apply keeps_mk

theorem State.setBank_keeps {z s : State} {b : Nat} {x : Bank} (h : Keeps z s) :
    Keeps z (State.setBank s b x) := by
  unfold State.setBank
  repeat' first
    | with_reducible assumption | with_reducible apply keeps_ite | with_reducible apply keeps_foldl | intro _ | split
    | with_reducible apply keeps_mk

theorem State.setPool_keeps {z s : State} {c : Nat} {sl : Nat} {x : Pool} (h : Keeps z s) :
    Keeps z (State.setPool s c sl x) := by
  unfold State.setPool
  repeat' first
    | with_reducible assumption | with_reducible apply keeps_ite | with_reducible apply keeps_foldl | intro _ | split
    | with_reducible apply keeps_mk

theorem State.setLine_keeps {z s : State} {n : Nat} {x : EvtLine} (h : Keeps z s) :
    Keeps z (State.setLine s n x) := by
  unfold State.setLine
  repeat' first
    | with_reducible assumption | with_reducible apply keeps_ite | with_reducible apply keeps_foldl | intro _ | split
    | with_reducible apply keeps_mk

theorem State.setSeqr_keeps {z s : State} {p : Nat} {x : Seqr} (h : Keeps z s) :
    Keeps z (State.setSeqr s p x) := by
  unfold State.setSeqr
  repeat' first
    | with_reducible assumption | with_reducible apply keeps_ite | with_reducible apply keeps_foldl | intro _ | split
    | with_reducible apply keeps_mk

theorem State.updInst_keeps {z s : State} {c : Nat} {i : Nat} {f : Inst → Inst} (h : Keeps z s) :
    Keeps z (State.updInst s c i f) := by
  unfold State.updInst
  repeat' first
    | with_reducible assumption | with_reducible apply State.updCtx_keeps | with_reducible apply keeps_ite
    | with_reducible apply keeps_foldl | intro _ | split | with_reducible apply keeps_mk

theorem State.updTask_keeps {z s : State} {r : TaskRef} {f : Task → Task} (h : Keeps z s) :
    Keeps z (State.updTask s r f) := by
  unfold State.updTask
  repeat' first
    | with_reducible assumption | with_reducible apply State.updInst_keeps | with_reducible apply keeps_ite
    | with_reducible apply keeps_foldl | intro _ | split | with_reducible apply keeps_mk

theorem State.updCmd_keeps {z s : State} {q : Nat} {n : Nat} {f : Cmd → Cmd} (h : Keeps z s) :
    Keeps z (State.updCmd s q n f) := by
  unfold State.updCmd
  repeat' first
    | with_reducible assumption | with_reducible apply State.updQueue_keeps | with_reducible apply keeps_ite
    | with_reducible apply keeps_foldl | intro _ | split | with_reducible apply keeps_mk

theorem State.msix_keeps {z s : State} {v : Nat} (h : Keeps z s) :
    Keeps z (State.msix s v) := by
  unfold State.msix
  repeat' first
    | with_reducible assumption | with_reducible apply keeps_ite | with_reducible apply keeps_foldl | intro _ | split
    | with_reducible apply keeps_mk

theorem State.irq_keeps {z s : State} {i : Nat} (h : Keeps z s) :
    Keeps z (State.irq s i) := by
  unfold State.irq
  repeat' first
    | with_reducible assumption | with_reducible apply State.msix_keeps | with_reducible apply keeps_ite
    | with_reducible apply keeps_foldl | intro _ | split | with_reducible apply keeps_mk

theorem State.ibi_keeps {z s : State} {cause : Nat} (h : Keeps z s) :
    Keeps z (State.ibi s cause) := by
  unfold State.ibi
  repeat' first
    | with_reducible assumption | with_reducible apply keeps_ite | with_reducible apply keeps_foldl | intro _ | split
    | with_reducible apply keeps_mk

theorem State.ibiRelease_keeps {z s : State} (h : Keeps z s) :
    Keeps z (State.ibiRelease s) := by
  unfold State.ibiRelease
  repeat' first
    | with_reducible assumption | with_reducible apply State.ibi_keeps | with_reducible apply keeps_ite
    | with_reducible apply keeps_foldl | intro _ | split | with_reducible apply keeps_mk

theorem State.healthNew_keeps {z s : State} {i : Nat} (h : Keeps z s) :
    Keeps z (State.healthNew s i) := by
  unfold State.healthNew
  repeat' first
    | with_reducible assumption | with_reducible apply State.irq_keeps | with_reducible apply keeps_ite
    | with_reducible apply keeps_foldl | intro _ | split | with_reducible apply keeps_mk

theorem State.setTack_keeps {z s : State} {x : Tack} (h : Keeps z s) :
    Keeps z (State.setTack s x) := by
  unfold State.setTack
  refine keeps_flash (keeps_mk h) (Nat.le_of_eq ?_)
  dsimp only
  rw [apply_ite Flash.otp]
  exact (ite_self _).symm

theorem State.stageRaw_keeps {z s : State} {w2 : Nat} {pay : List Word} (h : Keeps z s) :
    Keeps z (State.stageRaw s w2 pay) := by
  unfold State.stageRaw
  repeat' first
    | with_reducible assumption | with_reducible apply keeps_ite | with_reducible apply keeps_foldl | intro _ | split
    | with_reducible apply keeps_mk

theorem State.stage_keeps {z s : State} {type : Nat} {pay : List Word} (h : Keeps z s) :
    Keeps z (State.stage s type pay) := by
  unfold State.stage
  repeat' first
    | with_reducible assumption | intro _
    | (extract_lets +onlyGivenNames s1; refine (fun (h1 : Keeps z s1) => ?_) (?_ : Keeps z s1) <;> [clear_value s1; subst s1])
    | (extract_lets +onlyGivenNames n1; subst n1) | with_reducible apply State.stageRaw_keeps
    | with_reducible apply keeps_ite | intro _ | split | with_reducible apply keeps_mk

theorem State.stageLost_keeps {z s : State} (h : Keeps z s) :
    Keeps z (State.stageLost s) := by
  unfold State.stageLost
  repeat' first
    | with_reducible assumption | with_reducible apply State.stage_keeps | with_reducible apply keeps_ite
    | with_reducible apply keeps_foldl | intro _ | split | with_reducible apply keeps_mk

theorem State.errRing_keeps {z s : State} {ws : List Word} (h : Keeps z s) :
    Keeps z (State.errRing s ws) := by
  unfold State.errRing
  repeat' first
    | with_reducible assumption | with_reducible apply State.wrWords_keeps | with_reducible apply State.irq_keeps
    | with_reducible apply State.ibi_keeps | with_reducible apply State.healthNew_keeps | with_reducible apply keeps_ite
    | with_reducible apply keeps_foldl | intro _ | split | with_reducible apply keeps_mk

theorem State.stageErr_keeps {z s : State} {e : Err} {ws : List Word} (h : Keeps z s) :
    Keeps z (State.stageErr s e ws) := by
  unfold State.stageErr
  repeat' first
    | with_reducible assumption | intro _
    | (extract_lets +onlyGivenNames s1; refine (fun (h1 : Keeps z s1) => ?_) (?_ : Keeps z s1) <;> [clear_value s1; subst s1])
    | (extract_lets +onlyGivenNames n1; subst n1) | with_reducible apply State.stageRaw_keeps
    | with_reducible apply keeps_ite | intro _ | split | with_reducible apply keeps_mk

theorem State.err_keeps {z s : State} {e : Err} (h : Keeps z s) :
    Keeps z (State.err s e) := by
  unfold State.err
  repeat' first
    | with_reducible assumption | with_reducible apply State.push_keeps | with_reducible apply State.irq_keeps
    | with_reducible apply State.errRing_keeps | with_reducible apply State.stageErr_keeps | with_reducible apply keeps_ite
    | with_reducible apply keeps_foldl | intro _ | split | with_reducible apply keeps_mk

theorem State.health_keeps {z s : State} {force : optParam Bool false} (h : Keeps z s) :
    Keeps z (State.health s force) := by
  unfold State.health
  repeat' first
    | with_reducible assumption | with_reducible apply State.ibi_keeps | with_reducible apply State.healthNew_keeps
    | with_reducible apply State.stage_keeps | with_reducible apply keeps_ite | with_reducible apply keeps_foldl | intro _
    | split | with_reducible apply keeps_mk

theorem State.sbRetire_keeps {z s : State} {i : Nat} {p : Nat} (h : Keeps z s) :
    Keeps z (State.sbRetire s i p) := by
  unfold State.sbRetire
  dsimp only
  refine State.health_keeps (State.stage_keeps (State.setTack_keeps ?_))
  split
  · exact keeps_mk (keeps_mk h)
  · exact State.err_keeps (keeps_mk (keeps_mk h))

theorem State.sbReady_keeps {z s : State} {n : Nat} (h : Keeps z s) : Keeps z (State.sbReady s n) := by
  induction n generalizing s with
  | zero => exact h
  | succ n ih =>
    unfold State.sbReady
    dsimp only
    exact keeps_ite (fun _ => ih (State.sbRetire_keeps h)) fun _ => h

theorem State.sbWrite_keeps {z s : State} {x : List Word} (h : Keeps z s) :
    Keeps z (State.sbWrite s x) := by
  unfold State.sbWrite
  dsimp only
  refine keeps_flash ?_ ?_
  · exact State.sbReady_keeps h
  · exact Nat.le_refl _

theorem State.flushStudbook_keeps {z s : State} (h : Keeps z s) :
    Keeps z (State.flushStudbook s) := by
  unfold State.flushStudbook
  exact State.stageLost_keeps (keeps_foldl (keeps_mk h) fun _ _ h => State.sbWrite_keeps h)

/-! ## Tiles -/

theorem State.setTile_keeps {z s : State} {c : Nat} {y2 : Nat} {x : Tile} (h : Keeps z s) :
    Keeps z (State.setTile s c y2 x) := by
  unfold State.setTile
  repeat' first
    | with_reducible assumption | with_reducible apply State.wr64_keeps | with_reducible apply keeps_ite
    | with_reducible apply keeps_foldl | intro _ | split | with_reducible apply keeps_mk

theorem State.offerStalled_keeps {z s : State} {c : Nat} (h : Keeps z s) :
    Keeps z (State.offerStalled s c) := by
  unfold State.offerStalled
  repeat' first
    | with_reducible assumption | with_reducible apply State.push_keeps | with_reducible apply keeps_ite
    | with_reducible apply keeps_foldl | intro _ | split | with_reducible apply keeps_mk

theorem State.returnGranule_keeps {z s : State} {c : Nat} {g : Nat × Nat} (h : Keeps z s) :
    Keeps z (State.returnGranule s c g) := by
  unfold State.returnGranule
  repeat' first
    | with_reducible assumption | with_reducible apply State.setPool_keeps | with_reducible apply State.offerStalled_keeps
    | with_reducible apply keeps_ite | with_reducible apply keeps_foldl | intro _ | split | with_reducible apply keeps_mk

theorem State.endRetention_keeps {z s : State} {c : Nat} {g : Nat × Nat} (h : Keeps z s) :
    Keeps z (State.endRetention s c g) := by
  unfold State.endRetention
  repeat' first
    | with_reducible assumption | with_reducible apply State.returnGranule_keeps | with_reducible apply keeps_ite
    | with_reducible apply keeps_foldl | intro _ | split | with_reducible apply keeps_mk

theorem State.allocGranule_keeps {z s : State} {c : Nat} {order : List Nat} (h : Keeps z s) :
    ∀ a0 t, State.allocGranule s c order = some (a0, t) → Keeps z t := by
  intro a0 t
  unfold State.allocGranule
  repeat' first
    | with_reducible assumption | with_reducible apply State.setPool_keeps | with_reducible apply keeps_some
    | with_reducible apply keeps_somep | with_reducible exact keeps_none | with_reducible apply keeps_ite
    | with_reducible apply keeps_foldl | split | dsimp only | intro _ | dsimp only | with_reducible apply keeps_mk

theorem State.allocOutput_keeps {z s : State} {c : Nat} {y2 : Nat} {order : List Nat} (h : Keeps z s) :
    Keeps z (State.allocOutput s c y2 order).2 := by
  unfold State.allocOutput
  repeat' first
    | with_reducible assumption | with_reducible apply State.setTile_keeps | with_reducible apply State.returnGranule_keeps
    | refine State.allocGranule_keeps ?_ _ _ (by assumption) | with_reducible apply keeps_ite
    | with_reducible apply keeps_foldl | intro _ | split | dsimp only | with_reducible apply keeps_mk

theorem State.recordOcc_keeps {z s : State} {c : Nat} {hs : List Nat} {occ : Nat → Bool} (h : Keeps z s) :
    Keeps z (State.recordOcc s c hs occ) := by
  unfold State.recordOcc
  repeat' first
    | with_reducible assumption | with_reducible apply State.setTile_keeps | with_reducible apply keeps_ite
    | with_reducible apply keeps_foldl | intro _ | split | with_reducible apply keeps_mk

theorem State.emptyOutputs_keeps {z s : State} {c : Nat} {hs : List Nat} (h : Keeps z s) :
    Keeps z (State.emptyOutputs s c hs) := by
  unfold State.emptyOutputs
  repeat' first
    | with_reducible assumption | with_reducible apply State.setTile_keeps | with_reducible apply keeps_ite
    | with_reducible apply keeps_foldl | intro _ | split | with_reducible apply keeps_mk

theorem State.freeOutputs_keeps {z s : State} {c : Nat} {gs : List (Nat × Nat × Nat)} (h : Keeps z s) :
    Keeps z (State.freeOutputs s c gs) := by
  unfold State.freeOutputs
  repeat' first
    | with_reducible assumption | with_reducible apply State.setTile_keeps | with_reducible apply State.returnGranule_keeps
    | with_reducible apply keeps_ite | with_reducible apply keeps_foldl | intro _ | split | with_reducible apply keeps_mk

theorem State.growPool_keeps {z s : State} {c : Nat} {sl : Nat} {x3 : Nat} (h : Keeps z s) :
    ∀ t, State.growPool s c sl x3 = some t → Keeps z t := by
  induction x3 generalizing s with
  | zero => intro t; exact keeps_some h
  | succ n ih =>
    intro t
    unfold State.growPool
    split
    · nofun
    · exact ih (State.setPool_keeps h) t

theorem State.reserve_keeps {z s : State} {c : Nat} {sl : Nat} {n : Nat} (h : Keeps z s) :
    Keeps z (State.reserve s c sl n).2 := by
  unfold State.reserve
  repeat' first
    | with_reducible assumption | with_reducible apply State.setPool_keeps | with_reducible apply State.offerStalled_keeps
    | refine State.growPool_keeps ?_ _ (by assumption) | with_reducible apply keeps_ite | with_reducible apply keeps_foldl
    | intro _ | split | dsimp only | with_reducible apply keeps_mk

theorem State.writeShape_keeps {z s : State} {c : Nat} {i : Nat} {x : Shape} (h : Keeps z s) :
    Keeps z (State.writeShape s c i x) := by
  unfold State.writeShape
  repeat' first
    | with_reducible assumption | with_reducible apply State.wr64_keeps | with_reducible apply keeps_ite
    | with_reducible apply keeps_foldl | intro _ | split | with_reducible apply keeps_mk

/-! ## Predict -/

theorem State.usePred_keeps {z s : State} {c site : Nat} (h : Keeps z s) : Keeps z (State.usePred s c site) := by
  unfold State.usePred
  dsimp only
  with_reducible apply keeps_mk
  all_goals with_reducible assumption

theorem State.putPred_keeps {z s : State} {p : Pred} (h : Keeps z s) :
    Keeps z (State.putPred s p) := by
  unfold State.putPred
  repeat' first
    | with_reducible assumption | with_reducible apply State.endRetention_keeps | with_reducible apply keeps_ite
    | with_reducible apply keeps_foldl | intro _ | split | with_reducible apply keeps_mk

theorem State.resolve_keeps {z s : State} {c : Nat} {x : List Word} {base : Nat} {step : Nat} (h : Keeps z s) :
    Keeps z (State.resolve s c x base step).2 := by
  unfold State.resolve
  repeat' first
    | with_reducible assumption | with_reducible apply State.endRetention_keeps | with_reducible apply State.putPred_keeps
    | with_reducible apply keeps_ite | with_reducible apply keeps_foldl | intro _ | split | dsimp only
    | with_reducible apply keeps_mk

theorem State.flushPreds_keeps {z s : State} {f : Pred → Bool} (h : Keeps z s) :
    Keeps z (State.flushPreds s f) := by
  unfold State.flushPreds
  repeat' first
    | with_reducible assumption | with_reducible apply State.endRetention_keeps | with_reducible apply keeps_ite
    | with_reducible apply keeps_foldl | intro _ | split | with_reducible apply keeps_mk

/-! ## Counters -/

theorem State.setCtr_keeps {z s : State} {c : Nat} {v : Nat} {x : Ctr} (h : Keeps z s) :
    Keeps z (State.setCtr s c v x) := by
  unfold State.setCtr
  repeat' first
    | with_reducible assumption | with_reducible apply State.wr64_keeps | with_reducible apply keeps_ite
    | with_reducible apply keeps_foldl | intro _ | split | with_reducible apply keeps_mk

theorem State.evict_keeps {z s : State} {p : Phys} (h : Keeps z s) :
    Keeps z (State.evict s p) := by
  unfold State.evict
  repeat' first
    | with_reducible assumption | with_reducible apply State.setCtr_keeps | with_reducible apply keeps_ite
    | with_reducible apply keeps_foldl | intro _ | split | with_reducible apply keeps_mk

theorem State.makeCtrResident_keeps {z s : State} {c : Nat} {v : Nat} (h : Keeps z s) :
    ∀ t, State.makeCtrResident s c v = some t → Keeps z t := by
  intro t
  unfold State.makeCtrResident
  split
  · exact keeps_some h
  · dsimp only
    split
    · nofun
    · rename_i s1 hs
      have h1 : Keeps z s1 := by
        revert hs
        split
        · exact keeps_some h
        · cases s.evictee? with
          | none => nofun
          | some p => exact keeps_some (State.evict_keeps h)
      split
      · nofun
      · exact keeps_some (State.setCtr_keeps (keeps_mk h1))

theorem State.touchCtr_keeps {z s : State} {c : Nat} {v : Nat} (h : Keeps z s) :
    Keeps z (State.touchCtr s c v) := by
  unfold State.touchCtr
  repeat' first
    | with_reducible assumption | with_reducible apply keeps_ite | intro _ | split | with_reducible apply keeps_mk

theorem State.withCtrOr_keeps {z s : State} {c : Nat} {v : Nat} {src : SigSrc} {fail : State → State}
    {op : State → State} (h : Keeps z s) (hffail : ∀ v, Keeps z v → Keeps z (fail v) )
    (hfop : ∀ v, Keeps z v → Keeps z (op v) ) :
    Keeps z (State.withCtrOr s c v src fail op) := by
  unfold State.withCtrOr
  repeat' first
    | with_reducible assumption | with_reducible apply State.push_keeps
    | refine State.makeCtrResident_keeps ?_ _ (by assumption) | with_reducible apply State.touchCtr_keeps
    | with_reducible apply hffail | with_reducible apply hfop | with_reducible apply keeps_ite | intro _ | split
    | with_reducible apply keeps_mk

theorem State.withCtr_keeps {z s : State} {c : Nat} {v : Nat} {src : SigSrc} {op : State → State} (h : Keeps z s)
    (hfop : ∀ v, Keeps z v → Keeps z (op v) ) :
    Keeps z (State.withCtr s c v src op) := by
  unfold State.withCtr
  repeat' first
    | with_reducible assumption | with_reducible apply State.withCtrOr_keeps | with_reducible apply hfop
    | with_reducible apply keeps_ite | intro _ | split | with_reducible apply keeps_mk

theorem State.setWaiters_keeps {z s : State} {ws : List Waiter} (h : Keeps z s) :
    Keeps z (State.setWaiters s ws) := by
  unfold State.setWaiters
  repeat' first
    | with_reducible assumption | with_reducible apply keeps_ite | intro _ | split | with_reducible apply keeps_mk

theorem State.putWaiter_keeps {z s : State} {w : Waiter} (h : Keeps z s) :
    Keeps z (State.putWaiter s w) := by
  unfold State.putWaiter
  repeat' first
    | with_reducible assumption
    | (extract_lets +onlyGivenNames s1; refine (fun (h1 : Keeps z s1) => ?_) (?_ : Keeps z s1) <;>
      [clear_value s1; subst s1])
    | (extract_lets +onlyGivenNames n1; subst n1)
    | with_reducible apply State.wr64_keeps | with_reducible apply State.fresh_keeps | refine keeps_snd (by assumption) ?_
    | refine keeps_snd2 (by assumption) ?_ | with_reducible apply keeps_ite | intro _ | split
    | with_reducible apply keeps_mk

theorem State.writeBackWaiters_keeps {z s : State} {c : Nat} (h : Keeps z s) :
    Keeps z (State.writeBackWaiters s c) := by
  unfold State.writeBackWaiters
  repeat' first
    | with_reducible assumption
    | (extract_lets +onlyGivenNames s1; refine (fun (h1 : Keeps z s1) => ?_) (?_ : Keeps z s1) <;>
      [clear_value s1; subst s1])
    | (extract_lets +onlyGivenNames n1; subst n1)
    | with_reducible apply State.setWaiters_keeps | with_reducible apply State.putWaiter_keeps
    | with_reducible apply keeps_ite | with_reducible apply keeps_foldl | intro _ | split | with_reducible apply keeps_mk

theorem State.addWaiter_keeps {z s : State} {c : Nat} {v : Nat} {expected : Nat} {who : Who} (h : Keeps z s) :
    Keeps z (State.addWaiter s c v expected who) := by
  unfold State.addWaiter
  repeat' first
    | with_reducible assumption
    | (extract_lets +onlyGivenNames s1; refine (fun (h1 : Keeps z s1) => ?_) (?_ : Keeps z s1) <;>
      [clear_value s1; subst s1])
    | (extract_lets +onlyGivenNames n1; subst n1)
    | with_reducible apply State.setWaiters_keeps | with_reducible apply State.putWaiter_keeps
    | with_reducible apply keeps_ite | intro _ | split | with_reducible apply keeps_mk

theorem State.releaseWaiters_keeps {z s : State} {c : Nat} {v : Nat} (h : Keeps z s) :
    Keeps z (State.releaseWaiters s c v) := by
  unfold State.releaseWaiters
  repeat' first
    | with_reducible assumption
    | (extract_lets +onlyGivenNames s1; refine (fun (h1 : Keeps z s1) => ?_) (?_ : Keeps z s1) <;>
      [clear_value s1; subst s1])
    | (extract_lets +onlyGivenNames n1; subst n1)
    | with_reducible apply State.push_keeps | with_reducible apply State.setWaiters_keeps | with_reducible apply keeps_ite
    | intro _ | split | with_reducible apply keeps_mk

theorem State.applySignal_keeps {z s : State} {c : Nat} {v : Nat} {inc : Nat} {src : SigSrc} (h : Keeps z s) :
    Keeps z (State.applySignal s c v inc src) := by
  unfold State.applySignal
  repeat' first
    | with_reducible assumption | with_reducible apply State.err_keeps | with_reducible apply State.setCtr_keeps
    | with_reducible apply State.releaseWaiters_keeps | with_reducible apply keeps_ite | with_reducible apply keeps_foldl
    | intro _ | split | with_reducible apply keeps_mk

theorem State.applyPoison_keeps {z s : State} {c : Nat} {v : Nat} (h : Keeps z s) :
    Keeps z (State.applyPoison s c v) := by
  unfold State.applyPoison
  repeat' first
    | with_reducible assumption | with_reducible apply State.setCtr_keeps | with_reducible apply State.releaseWaiters_keeps
    | with_reducible apply keeps_ite | with_reducible apply keeps_foldl | intro _ | split | with_reducible apply keeps_mk

theorem State.applyWait_keeps {z s : State} {c : Nat} {v : Nat} {expected : Nat} {who : Who} (h : Keeps z s) :
    Keeps z (State.applyWait s c v expected who) := by
  unfold State.applyWait
  repeat' first
    | with_reducible assumption
    | (extract_lets +onlyGivenNames s1; refine (fun (h1 : Keeps z s1) => ?_) (?_ : Keeps z s1) <;>
      [clear_value s1; subst s1])
    | (extract_lets +onlyGivenNames n1; subst n1)
    | with_reducible apply State.push_keeps | with_reducible apply State.addWaiter_keeps | with_reducible apply keeps_ite
    | intro _ | split | with_reducible apply keeps_mk

theorem State.dropWaiters_keeps {z s : State} {f : Waiter → Bool} (h : Keeps z s) :
    Keeps z (State.dropWaiters s f) := by
  unfold State.dropWaiters
  repeat' first
    | with_reducible assumption | with_reducible apply State.setWaiters_keeps | with_reducible apply keeps_ite | intro _
    | split | with_reducible apply keeps_mk

theorem State.handSet_keeps {z s : State} {c : Nat} {v : Nat} {new : Nat} (h : Keeps z s) :
    Keeps z (State.handSet s c v new) := by
  unfold State.handSet
  repeat' first
    | with_reducible assumption | with_reducible apply State.setCtr_keeps | with_reducible apply State.releaseWaiters_keeps
    | with_reducible apply keeps_ite | with_reducible apply keeps_foldl | intro _ | split | with_reducible apply keeps_mk

theorem State.partDone_keeps {z s : State} {q : Nat} {n : Nat} {i : Nat} {ok : Bool} (h : Keeps z s) :
    Keeps z (State.partDone s q n i ok) := by
  unfold State.partDone
  repeat' first
    | with_reducible assumption | with_reducible apply State.push_keeps | with_reducible apply State.updCmd_keeps
    | with_reducible apply keeps_ite | with_reducible apply keeps_foldl | intro _ | split | with_reducible apply keeps_mk

theorem State.trailSettled_keeps {z s : State} {x : Trail} {reason : Option Nat} (h : Keeps z s) :
    Keeps z (State.trailSettled s x reason) := by
  unfold State.trailSettled
  repeat' first
    | with_reducible assumption | with_reducible apply State.err_keeps | with_reducible apply State.partDone_keeps
    | with_reducible apply keeps_ite | with_reducible apply keeps_foldl | intro _ | split | with_reducible apply keeps_mk

theorem State.trailAck_keeps {z s : State} {ack : List Word} (h : Keeps z s) :
    Keeps z (State.trailAck s ack) := by
  unfold State.trailAck
  repeat' first
    | with_reducible assumption | intro _ | with_reducible apply keeps_ite | intro _ | split
    | with_reducible apply keeps_mk

theorem State.trailRefused_keeps {z s : State} {x : Trail} {r : Nat} {ack : List Word} (h : Keeps z s) :
    Keeps z (State.trailRefused s x r ack) := by
  unfold State.trailRefused
  repeat' first
    | with_reducible assumption | intro _
    | (extract_lets +onlyGivenNames s1; refine (fun (h1 : Keeps z s1) => ?_) (?_ : Keeps z s1) <;> [clear_value s1; subst s1])
    | (extract_lets +onlyGivenNames n1; subst n1) | with_reducible apply State.trailSettled_keeps
    | with_reducible apply State.trailAck_keeps | with_reducible apply keeps_ite | intro _ | split
    | with_reducible apply keeps_mk

theorem State.trailPost_keeps {z s : State} {x : Trail} (h : Keeps z s) :
    Keeps z (State.trailPost s x) := by
  unfold State.trailPost
  repeat' first
    | with_reducible assumption | intro _ | with_reducible apply State.push_keeps
    | with_reducible apply State.trailSettled_keeps | with_reducible apply State.trailRefused_keeps
    | with_reducible apply keeps_ite | intro _ | split | with_reducible apply keeps_mk

theorem State.trailPlace_keeps {z s : State} (h : Keeps z s) :
    Keeps z (State.trailPlace s) := by
  unfold State.trailPlace
  repeat' first
    | with_reducible assumption | with_reducible apply keeps_ite | with_reducible apply keeps_foldl | intro _ | split
    | with_reducible apply keeps_mk

theorem State.trailIn_keeps {z s : State} {w0 : Word} {w1 : Word} {w2 : Word} (h : Keeps z s) :
    Keeps z (State.trailIn s w0 w1 w2) := by
  unfold State.trailIn
  repeat' first
    | with_reducible assumption | intro _
    | (extract_lets +onlyGivenNames s1; refine (fun (h1 : Keeps z s1) => ?_) (?_ : Keeps z s1) <;> [clear_value s1; subst s1])
    | (extract_lets +onlyGivenNames n1; subst n1) | with_reducible apply State.push_keeps
    | with_reducible apply State.trailRefused_keeps | with_reducible apply keeps_ite | intro _ | split
    | with_reducible apply keeps_mk

theorem State.trailClose_keeps {z s : State} {f : Trail → Bool} {reason : Option Nat} (h : Keeps z s) :
    Keeps z (State.trailClose s f reason) := by
  unfold State.trailClose
  repeat' first
    | with_reducible assumption | with_reducible apply State.trailSettled_keeps | with_reducible apply keeps_ite
    | with_reducible apply keeps_foldl | intro _ | split | with_reducible apply keeps_mk

theorem State.ackIn_keeps {z s : State} {w0 : Word} {w2 : Word} {w3 : Word} (h : Keeps z s) :
    Keeps z (State.ackIn s w0 w2 w3) := by
  unfold State.ackIn
  repeat' first
    | with_reducible assumption | with_reducible apply State.trailClose_keeps | with_reducible apply keeps_ite
    | with_reducible apply keeps_foldl | intro _ | split | with_reducible apply keeps_mk

theorem State.trailFailAll_keeps {z s : State} {dest : Nat} {reason : Nat} (h : Keeps z s) :
    Keeps z (State.trailFailAll s dest reason) := by
  unfold State.trailFailAll
  repeat' first
    | with_reducible assumption | with_reducible apply State.trailSettled_keeps | with_reducible apply keeps_ite
    | with_reducible apply keeps_foldl | intro _ | split | with_reducible apply keeps_mk

/-! ## Queues -/

theorem State.queueMsix_keeps {z s : State} {q : Nat} (h : Keeps z s) :
    Keeps z (State.queueMsix s q) := by
  unfold State.queueMsix
  repeat' first
    | with_reducible assumption | with_reducible apply State.msix_keeps | with_reducible apply keeps_ite
    | with_reducible apply keeps_foldl | intro _ | split | with_reducible apply keeps_mk

theorem State.putRecord_keeps {z s : State} {q : Nat} {ws : List Word} (h : Keeps z s) :
    Keeps z (State.putRecord s q ws) := by
  unfold State.putRecord
  repeat' first
    | with_reducible assumption | with_reducible apply State.wrWords_keeps | with_reducible apply State.setQueue_keeps
    | with_reducible apply keeps_ite | with_reducible apply keeps_foldl | intro _ | split | with_reducible apply keeps_mk

theorem State.flushHeld_keeps {z s : State} {q : Nat} (h : Keeps z s) :
    Keeps z (State.flushHeld s q) := by
  unfold State.flushHeld
  repeat' first
    | with_reducible assumption | with_reducible apply State.setQueue_keeps | with_reducible apply State.queueMsix_keeps
    | with_reducible apply State.putRecord_keeps | with_reducible apply keeps_ite | with_reducible apply keeps_foldl
    | intro _ | split | with_reducible apply keeps_mk

theorem State.putUnstarted_keeps {z s : State} {q : Nat} {ws : List Word} (h : Keeps z s) :
    Keeps z (State.putUnstarted s q ws) := by
  unfold State.putUnstarted
  repeat' first
    | with_reducible assumption | with_reducible apply State.updQueue_keeps | with_reducible apply State.flushHeld_keeps
    | with_reducible apply keeps_ite | with_reducible apply keeps_foldl | intro _ | split | with_reducible apply keeps_mk

theorem State.slotState_keeps {z s : State} {q : Nat} {st : SlotState} (h : Keeps z s) :
    Keeps z (State.slotState s q st) := by
  unfold State.slotState
  repeat' first
    | with_reducible assumption | with_reducible apply State.setSlot_keeps | with_reducible apply keeps_ite
    | with_reducible apply keeps_foldl | intro _ | split | with_reducible apply keeps_mk

theorem State.refresh_keeps {z s : State} {q : Nat} (h : Keeps z s) :
    Keeps z (State.refresh s q) := by
  unfold State.refresh
  repeat' first
    | with_reducible assumption | intro _
    | (extract_lets +onlyGivenNames s1; refine (fun (h1 : Keeps z s1) => ?_) (?_ : Keeps z s1) <;> [clear_value s1; subst s1])
    | (extract_lets +onlyGivenNames n1; subst n1) | with_reducible apply State.setQueue_keeps
    | with_reducible apply State.slotState_keeps | with_reducible apply keeps_ite | intro _ | split
    | with_reducible apply keeps_mk

theorem State.refreshAll_keeps {z s : State} (h : Keeps z s) :
    Keeps z (State.refreshAll s) := by
  unfold State.refreshAll
  repeat' first
    | with_reducible assumption | with_reducible apply State.refresh_keeps | with_reducible apply keeps_ite
    | with_reducible apply keeps_foldl | intro _ | split | with_reducible apply keeps_mk

theorem State.dueCounters_keeps {z s : State} {q : Nat} {w : List Word} {st : Status} (h : Keeps z s) :
    Keeps z (State.dueCounters s q w st) := by
  unfold State.dueCounters
  repeat' first
    | with_reducible assumption | with_reducible apply State.push_keeps | with_reducible apply keeps_ite
    | with_reducible apply keeps_foldl | intro _ | split | with_reducible apply keeps_mk

theorem State.cancelCheck_keeps {z s : State} {q : Nat} {n : Nat} {hit : Bool} (h : Keeps z s) :
    Keeps z (State.cancelCheck s q n hit) := by
  unfold State.cancelCheck
  repeat' first
    | with_reducible assumption | with_reducible apply State.push_keeps | with_reducible apply State.updCmd_keeps
    | with_reducible apply keeps_ite | with_reducible apply keeps_foldl | intro _ | split | with_reducible apply keeps_mk

theorem State.stepOver_keeps {z s : State} {q : Nat} {n : Nat} {w : List Word} (h : Keeps z s) :
    Keeps z (State.stepOver s q n w) := by
  unfold State.stepOver
  repeat' first
    | with_reducible assumption | intro _
    | (extract_lets +onlyGivenNames s1; refine (fun (h1 : Keeps z s1) => ?_) (?_ : Keeps z s1) <;> [clear_value s1; subst s1])
    | (extract_lets +onlyGivenNames n1; subst n1) | with_reducible apply State.push_keeps | with_reducible apply keeps_ite
    | intro _ | split | with_reducible apply keeps_mk

theorem State.progOver_keeps {z s : State} {q : Nat} {n : Nat} (h : Keeps z s) :
    Keeps z (State.progOver s q n) := by
  unfold State.progOver
  repeat' first
    | with_reducible assumption | intro _ | with_reducible apply keeps_ite | intro _ | split
    | with_reducible apply keeps_mk

theorem State.refreshFor_keeps {z s : State} {q : Nat} {w : List Word} (h : Keeps z s) :
    Keeps z (State.refreshFor s q w) := by
  unfold State.refreshFor
  repeat' first
    | with_reducible assumption | intro _ | with_reducible apply State.refresh_keeps
    | with_reducible apply State.refreshAll_keeps | refine keeps_snd (by assumption) ?_
    | refine keeps_snd2 (by assumption) ?_ | with_reducible apply keeps_ite | intro _ | split
    | with_reducible apply keeps_mk

theorem State.completeNow_keeps {z s : State} {q : Nat} {n : Nat} {st : Status} {detail : Nat} (h : Keeps z s) :
    Keeps z (State.completeNow s q n st detail) := by
  unfold State.completeNow
  repeat' first
    | with_reducible assumption | intro _
    | (extract_lets +onlyGivenNames s1; refine (fun (h1 : Keeps z s1) => ?_) (?_ : Keeps z s1) <;> [clear_value s1; subst s1])
    | (extract_lets +onlyGivenNames n1; subst n1) | with_reducible apply State.updQueue_keeps
    | with_reducible apply State.msix_keeps | with_reducible apply State.queueMsix_keeps
    | with_reducible apply State.putRecord_keeps | with_reducible apply State.flushHeld_keeps
    | with_reducible apply State.dueCounters_keeps | with_reducible apply State.cancelCheck_keeps
    | with_reducible apply State.stepOver_keeps | with_reducible apply State.progOver_keeps
    | with_reducible apply State.refreshFor_keeps | refine keeps_snd (by assumption) ?_
    | refine keeps_snd2 (by assumption) ?_ | with_reducible apply keeps_ite | intro _ | split
    | with_reducible apply keeps_mk

theorem State.complete_keeps {z s : State} {q : Nat} {n : Nat} {st : Status} {detail : Nat} (h : Keeps z s) :
    Keeps z (State.complete s q n st detail) := by
  unfold State.complete
  repeat' first
    | with_reducible assumption | intro _ | with_reducible apply State.push_keeps
    | with_reducible apply State.refreshFor_keeps | with_reducible apply State.completeNow_keeps
    | refine keeps_snd (by assumption) ?_ | refine keeps_snd2 (by assumption) ?_ | with_reducible apply keeps_ite
    | intro _ | split | with_reducible apply keeps_mk

theorem State.recallWork_keeps {z s : State} {f : Nat → Nat → Bool} (h : Keeps z s) :
    Keeps z (State.recallWork s f) := by
  unfold State.recallWork
  repeat' first
    | with_reducible assumption | intro _ | with_reducible apply State.complete_keeps | with_reducible apply keeps_ite
    | intro _ | split | with_reducible apply keeps_mk

theorem State.completeOpt_keeps {z s : State} {c : Option (Nat × Nat)} {st : Status} {detail : Nat} (h : Keeps z s) :
    Keeps z (State.completeOpt s c st detail) := by
  unfold State.completeOpt
  repeat' first
    | with_reducible assumption | with_reducible apply State.complete_keeps | with_reducible apply keeps_ite | intro _
    | split | with_reducible apply keeps_mk

theorem State.grant_keeps {z s : State} {n : Nat} {q : Nat} (h : Keeps z s) :
    Keeps z (State.grant s n q) := by
  unfold State.grant
  repeat' first
    | with_reducible assumption | with_reducible apply State.updQueue_keeps | with_reducible apply State.setSlot_keeps
    | with_reducible apply State.refresh_keeps | with_reducible apply keeps_ite | with_reducible apply keeps_foldl | intro _
    | split | with_reducible apply keeps_mk

theorem State.release_keeps {z s : State} {n : Nat} {st : QState} (h : Keeps z s) :
    Keeps z (State.release s n st) := by
  unfold State.release
  repeat' first
    | with_reducible assumption | with_reducible apply State.updQueue_keeps | with_reducible apply State.setSlot_keeps
    | with_reducible apply keeps_ite | with_reducible apply keeps_foldl | intro _ | split | with_reducible apply keeps_mk

theorem State.unslot_keeps {z s : State} {q : Nat} {st : QState} (h : Keeps z s) :
    Keeps z (State.unslot s q st) := by
  unfold State.unslot
  repeat' first
    | with_reducible assumption | with_reducible apply State.updQueue_keeps | with_reducible apply State.slotState_keeps
    | with_reducible apply State.release_keeps | with_reducible apply keeps_ite | with_reducible apply keeps_foldl | intro _
    | split | with_reducible apply keeps_mk

/-! ## Dcache -/

theorem State.dcUse_keeps {z s : State} {set : Nat} {w : Nat} (h : Keeps z s) :
    Keeps z (State.dcUse s set w) := by
  unfold State.dcUse
  repeat' first
    | with_reducible assumption | with_reducible apply keeps_ite | with_reducible apply keeps_foldl | intro _ | split
    | with_reducible apply keeps_mk

theorem State.dcRead_keeps {z s : State} {l : Nat} (h : Keeps z s) :
    Keeps z (State.dcRead s l) := by
  unfold State.dcRead
  repeat' first
    | with_reducible assumption | with_reducible apply State.dcUse_keeps | with_reducible apply keeps_ite
    | with_reducible apply keeps_foldl | intro _ | split | with_reducible apply keeps_mk

theorem State.dcFill_keeps {z s : State} {lane : Nat} (h : Keeps z s) :
    Keeps z (State.dcFill s lane) := by
  unfold State.dcFill
  repeat' first
    | with_reducible assumption | with_reducible apply State.dcUse_keeps | with_reducible apply keeps_ite
    | with_reducible apply keeps_foldl | intro _ | split | with_reducible apply keeps_mk

theorem State.dcDrop_keeps {z s : State} {f : Nat → Bool} (h : Keeps z s) :
    Keeps z (State.dcDrop s f) := by
  unfold State.dcDrop
  repeat' first
    | with_reducible assumption | with_reducible apply keeps_ite | with_reducible apply keeps_foldl | intro _ | split
    | with_reducible apply keeps_mk

theorem State.storeGraph_keeps {z s : State} {c : Nat} {gid : Nat} {g : Graph} {append : Bool} {first : Nat}
    {count : Nat} (h : Keeps z s) :
    Keeps z (State.storeGraph s c gid g append first count) := by
  unfold State.storeGraph
  repeat' first
    | with_reducible assumption | intro _
    | (extract_lets +onlyGivenNames s1; refine (fun (h1 : Keeps z s1) => ?_) (?_ : Keeps z s1) <;> [clear_value s1; subst s1])
    | (extract_lets +onlyGivenNames n1; subst n1) | with_reducible apply State.setCtx_keeps
    | with_reducible apply State.dcDrop_keeps | with_reducible apply keeps_ite | intro _ | split
    | with_reducible apply keeps_mk

theorem State.descRead_keeps {z s : State} {r : TaskRef} (h : Keeps z s) :
    Keeps z (State.descRead s r) := by
  unfold State.descRead
  repeat' first
    | with_reducible assumption | intro _ | with_reducible apply State.dcRead_keeps | with_reducible apply keeps_ite
    | intro _ | split | with_reducible apply keeps_mk

/-! ## Tasks -/

theorem State.writeHeader_keeps {z s : State} {c : Nat} (h : Keeps z s) :
    Keeps z (State.writeHeader s c) := by
  unfold State.writeHeader
  repeat' first
    | with_reducible assumption | with_reducible apply State.wrWords_keeps | with_reducible apply keeps_ite
    | with_reducible apply keeps_foldl | intro _ | split | with_reducible apply keeps_mk

theorem State.setCtxState_keeps {z s : State} {c : Nat} {st : CtxState} (h : Keeps z s) :
    Keeps z (State.setCtxState s c st) := by
  unfold State.setCtxState
  repeat' first
    | with_reducible assumption | with_reducible apply State.setCtx_keeps | with_reducible apply State.writeHeader_keeps
    | with_reducible apply keeps_ite | with_reducible apply keeps_foldl | intro _ | split | with_reducible apply keeps_mk

theorem State.setSaved_keeps {z s : State} {c : Nat} {l : List Entry} (h : Keeps z s) :
    Keeps z (State.setSaved s c l) := by
  unfold State.setSaved
  repeat' first
    | with_reducible assumption | with_reducible apply State.wrWords_keeps | with_reducible apply State.updCtx_keeps
    | with_reducible apply keeps_ite | with_reducible apply keeps_foldl | intro _ | split | with_reducible apply keeps_mk

theorem State.testPlace_keeps {z s : State} {c : Nat} (h : Keeps z s) :
    Keeps z (State.testPlace s c) := by
  unfold State.testPlace
  repeat' first
    | with_reducible assumption | with_reducible apply State.push_keeps | with_reducible apply keeps_ite | intro _ | split
    | with_reducible apply keeps_mk

theorem State.saveEntry_keeps {z s : State} {e : Entry} (h : Keeps z s) :
    Keeps z (State.saveEntry s e) := by
  unfold State.saveEntry
  repeat' first
    | with_reducible assumption
    | (extract_lets +onlyGivenNames s1; refine (fun (h1 : Keeps z s1) => ?_) (?_ : Keeps z s1) <;> [clear_value s1; subst s1])
    | (extract_lets +onlyGivenNames n1; subst n1) | with_reducible apply State.testPlace_keeps
    | with_reducible apply State.wrWords_keeps | with_reducible apply State.setCtx_keeps | with_reducible apply keeps_ite
    | intro _ | split | with_reducible apply keeps_mk

theorem State.traceWrite_keeps {z s : State} {c : Nat} {w0 : Nat} {gid : Nat} {num : Nat} (h : Keeps z s) :
    Keeps z (State.traceWrite s c w0 gid num) := by
  unfold State.traceWrite
  repeat' first
    | with_reducible assumption | with_reducible apply State.wr64_keeps | with_reducible apply State.wrWords_keeps
    | with_reducible apply State.err_keeps | with_reducible apply State.queueMsix_keeps | with_reducible apply keeps_ite
    | with_reducible apply keeps_foldl | intro _ | split | with_reducible apply keeps_mk

theorem State.trace_keeps {z s : State} {r : TaskRef} {event : Nat} {cluster : Option Nat} {core : Option Nat} {cause :
    optParam Nat 0} (h : Keeps z s) :
    Keeps z (State.trace s r event cluster core cause) := by
  unfold State.trace
  repeat' first
    | with_reducible assumption | with_reducible apply State.fresh_keeps | with_reducible apply State.traceWrite_keeps
    | refine keeps_snd (by assumption) ?_ | with_reducible apply keeps_ite | with_reducible apply keeps_foldl | intro _
    | split | with_reducible apply keeps_mk

theorem State.writeDelay_keeps {z s : State} {d : Delay} (h : Keeps z s) :
    Keeps z (State.writeDelay s d) := by
  unfold State.writeDelay
  repeat' first
    | with_reducible assumption
    | (extract_lets +onlyGivenNames s1; refine (fun (h1 : Keeps z s1) => ?_) (?_ : Keeps z s1) <;>
      [clear_value s1; subst s1])
    | (extract_lets +onlyGivenNames n1; subst n1)
    | with_reducible apply State.wr64_keeps | with_reducible apply State.fresh_keeps | refine keeps_snd (by assumption) ?_
    | refine keeps_snd2 (by assumption) ?_ | with_reducible apply keeps_ite | with_reducible apply keeps_foldl | intro _
    | split | with_reducible apply keeps_mk

theorem State.delayAdd_keeps {z s : State} {x : Delay} (h : Keeps z s) :
    Keeps z (State.delayAdd s x) := by
  unfold State.delayAdd
  repeat' first
    | with_reducible assumption
    | (extract_lets +onlyGivenNames s1; refine (fun (h1 : Keeps z s1) => ?_) (?_ : Keeps z s1) <;>
      [clear_value s1; subst s1])
    | (extract_lets +onlyGivenNames n1; subst n1)
    | with_reducible apply State.writeDelay_keeps | with_reducible apply keeps_ite | intro _ | split
    | with_reducible apply keeps_mk

theorem State.delayRefill_keeps {z s : State} {k : Nat} (h : Keeps z s) :
    Keeps z (State.delayRefill s k) := by
  unfold State.delayRefill
  repeat' first
    | with_reducible assumption
    | (extract_lets +onlyGivenNames s1; refine (fun (h1 : Keeps z s1) => ?_) (?_ : Keeps z s1) <;>
      [clear_value s1; subst s1])
    | (extract_lets +onlyGivenNames n1; subst n1)
    | with_reducible apply State.delayAdd_keeps | with_reducible apply keeps_ite | with_reducible apply keeps_foldl
    | intro _ | split | with_reducible apply keeps_mk

theorem State.stamp_keeps {z s : State} (h : Keeps z s) :
    Keeps z (State.stamp s).2 := by
  unfold State.stamp
  repeat' first
    | with_reducible assumption | with_reducible apply keeps_ite | with_reducible apply keeps_foldl | intro _ | split
    | dsimp only | with_reducible apply keeps_mk

theorem State.stampTask_keeps {z s : State} {r : TaskRef} (h : Keeps z s) :
    Keeps z (State.stampTask s r).2 := by
  unfold State.stampTask
  repeat' first
    | with_reducible assumption | with_reducible apply State.updTask_keeps | with_reducible apply State.stamp_keeps
    | refine keeps_snd (by assumption) ?_ | with_reducible apply keeps_ite | with_reducible apply keeps_foldl | intro _
    | split | dsimp only | with_reducible apply keeps_mk

theorem State.writeSpilled_keeps {z s : State} {e : Entry} (h : Keeps z s) :
    Keeps z (State.writeSpilled s e) := by
  unfold State.writeSpilled
  repeat' first
    | with_reducible assumption | with_reducible apply State.wrWords_keeps | with_reducible apply keeps_ite | intro _
    | split | with_reducible apply keeps_mk

theorem State.putBank_keeps {z s : State} {b : Nat} {x : Bank} (h : Keeps z s) :
    Keeps z (State.putBank s b x) := by
  unfold State.putBank
  repeat' first
    | with_reducible assumption
    | (extract_lets +onlyGivenNames s1; refine (fun (h1 : Keeps z s1) => ?_) (?_ : Keeps z s1) <;>
      [clear_value s1; subst s1])
    | (extract_lets +onlyGivenNames n1; subst n1)
    | with_reducible apply State.writeSpilled_keeps | with_reducible apply State.setBank_keeps
    | with_reducible apply keeps_ite | with_reducible apply keeps_foldl | intro _ | split | with_reducible apply keeps_mk

theorem State.toHeap_keeps {z s : State} {e : Entry} (h : Keeps z s) :
    Keeps z (State.toHeap s e) := by
  unfold State.toHeap
  repeat' first
    | with_reducible assumption
    | (extract_lets +onlyGivenNames s1; refine (fun (h1 : Keeps z s1) => ?_) (?_ : Keeps z s1) <;>
      [clear_value s1; subst s1])
    | (extract_lets +onlyGivenNames n1; subst n1)
    | with_reducible apply State.saveEntry_keeps | with_reducible apply State.putBank_keeps
    | with_reducible apply keeps_ite | intro _ | split | with_reducible apply keeps_mk

theorem State.delayDrop_keeps {z s : State} {f : Delay → Bool} (h : Keeps z s) :
    Keeps z (State.delayDrop s f) := by
  unfold State.delayDrop
  repeat' first
    | with_reducible assumption | with_reducible apply keeps_ite | intro _ | split | with_reducible apply keeps_mk

theorem State.nearAdd_keeps {z s : State} {r : TaskRef} (h : Keeps z s) :
    Keeps z (State.nearAdd s r) := by
  unfold State.nearAdd
  repeat' first
    | with_reducible assumption | with_reducible apply keeps_ite | intro _ | split | with_reducible apply keeps_mk

theorem State.nearDrop_keeps {z s : State} {r : TaskRef} (h : Keeps z s) :
    Keeps z (State.nearDrop s r) := by
  unfold State.nearDrop
  repeat' first
    | with_reducible assumption | with_reducible apply keeps_ite | intro _ | split | with_reducible apply keeps_mk

theorem State.writeBackCounts_keeps {z s : State} (h : Keeps z s) :
    Keeps z (State.writeBackCounts s) := by
  unfold State.writeBackCounts
  repeat' first
    | with_reducible assumption
    | (extract_lets +onlyGivenNames s1; refine (fun (h1 : Keeps z s1) => ?_) (?_ : Keeps z s1) <;>
      [clear_value s1; subst s1])
    | (extract_lets +onlyGivenNames n1; subst n1)
    | with_reducible apply State.wr64_keeps | with_reducible apply State.fresh_keeps | refine keeps_snd (by assumption) ?_
    | refine keeps_snd2 (by assumption) ?_ | with_reducible apply keeps_ite | with_reducible apply keeps_foldl | intro _
    | split | with_reducible apply keeps_mk

theorem State.writeFlow_keeps {z s : State} {f : Flow} (h : Keeps z s) :
    Keeps z (State.writeFlow s f) := by
  unfold State.writeFlow
  repeat' first
    | with_reducible assumption | intro _
    | (extract_lets +onlyGivenNames s1; refine (fun (h1 : Keeps z s1) => ?_) (?_ : Keeps z s1) <;> [clear_value s1; subst s1])
    | (extract_lets +onlyGivenNames n1; subst n1) | with_reducible apply State.wr64_keeps
    | with_reducible apply State.fresh_keeps | refine keeps_snd (by assumption) ?_ | refine keeps_snd2 (by assumption) ?_
    | with_reducible apply keeps_ite | with_reducible apply keeps_foldl | intro _ | split | with_reducible apply keeps_mk

theorem State.setFlow_keeps {z s : State} {k : Nat × Nat} {f : Flow} (h : Keeps z s) :
    Keeps z (State.setFlow s k f) := by
  unfold State.setFlow
  repeat' first
    | with_reducible assumption | intro _
    | (extract_lets +onlyGivenNames s1; refine (fun (h1 : Keeps z s1) => ?_) (?_ : Keeps z s1) <;> [clear_value s1; subst s1])
    | (extract_lets +onlyGivenNames n1; subst n1) | with_reducible apply State.writeFlow_keeps
    | with_reducible apply keeps_ite | intro _ | split | with_reducible apply keeps_mk

theorem State.flowOnChip_keeps {z s : State} {k : Nat × Nat} (h : Keeps z s) :
    Keeps z (State.flowOnChip s k) := by
  unfold State.flowOnChip
  repeat' first
    | with_reducible assumption | intro _
    | (extract_lets +onlyGivenNames s1; refine (fun (h1 : Keeps z s1) => ?_) (?_ : Keeps z s1) <;> [clear_value s1; subst s1])
    | (extract_lets +onlyGivenNames n1; subst n1) | with_reducible apply State.writeFlow_keeps
    | with_reducible apply keeps_ite | intro _ | split | with_reducible apply keeps_mk

theorem State.becomeReady_keeps {z s : State} {r : TaskRef} (h : Keeps z s) :
    Keeps z (State.becomeReady s r) := by
  unfold State.becomeReady
  repeat' first
    | with_reducible assumption
    | (extract_lets +onlyGivenNames s1; refine (fun (h1 : Keeps z s1) => ?_) (?_ : Keeps z s1) <;> [clear_value s1; subst s1])
    | (extract_lets +onlyGivenNames n1; subst n1) | with_reducible apply State.trace_keeps
    | with_reducible apply State.nearDrop_keeps | with_reducible apply State.delayAdd_keeps
    | with_reducible apply State.stampTask_keeps | with_reducible apply State.toHeap_keeps
    | with_reducible apply State.setFlow_keeps | with_reducible apply State.updTask_keeps
    | with_reducible apply State.descRead_keeps | refine keeps_snd (by assumption) ?_
    | refine keeps_snd2 (by assumption) ?_ | with_reducible apply keeps_ite | intro _ | split
    | with_reducible apply keeps_mk

theorem State.flowNext_keeps {z s : State} {r : TaskRef} {d : List Word} (h : Keeps z s) :
    Keeps z (State.flowNext s r d) := by
  unfold State.flowNext
  repeat' first
    | with_reducible assumption | with_reducible apply State.toHeap_keeps | with_reducible apply State.setFlow_keeps
    | with_reducible apply keeps_ite | with_reducible apply keeps_foldl | intro _ | split | with_reducible apply keeps_mk

theorem State.addCandidate_keeps {z s : State} {r : TaskRef} (h : Keeps z s) :
    Keeps z (State.addCandidate s r) := by
  unfold State.addCandidate
  repeat' first
    | with_reducible assumption | intro _
    | (extract_lets +onlyGivenNames s1; refine (fun (h1 : Keeps z s1) => ?_) (?_ : Keeps z s1) <;> [clear_value s1; subst s1])
    | (extract_lets +onlyGivenNames n1; subst n1) | with_reducible apply State.stamp_keeps
    | with_reducible apply State.setCluster_keeps | refine keeps_snd (by assumption) ?_
    | refine keeps_snd2 (by assumption) ?_ | with_reducible apply keeps_ite | intro _ | split
    | with_reducible apply keeps_mk

theorem State.dropCands_keeps {z s : State} {f : Entry → Bool} (h : Keeps z s) :
    Keeps z (State.dropCands s f) := by
  unfold State.dropCands
  repeat' first
    | with_reducible assumption | with_reducible apply keeps_ite | with_reducible apply keeps_foldl | intro _ | split
    | with_reducible apply keeps_mk

theorem State.countSet_keeps {z s : State} {r : TaskRef} {d : List Word} (h : Keeps z s) :
    Keeps z (State.countSet s r d) := by
  unfold State.countSet
  repeat' first
    | with_reducible assumption | with_reducible apply State.nearAdd_keeps | with_reducible apply State.becomeReady_keeps
    | with_reducible apply State.addCandidate_keeps | with_reducible apply keeps_ite | intro _ | split
    | with_reducible apply keeps_mk

theorem State.createInst_keeps {z s : State} {c : Nat} {gid : Nat} {g : Graph} {base : Nat} {num : Nat} {l : Launch}
    (h : Keeps z s) :
    Keeps z (State.createInst s c gid g base num l) := by
  unfold State.createInst
  repeat' first
    | with_reducible assumption
    | (extract_lets +onlyGivenNames s1; refine (fun (h1 : Keeps z s1) => ?_) (?_ : Keeps z s1) <;> [clear_value s1; subst s1])
    | (extract_lets +onlyGivenNames n1; subst n1) | with_reducible apply State.countSet_keeps
    | with_reducible apply State.updCtx_keeps | with_reducible apply State.updCmd_keeps | with_reducible apply keeps_ite
    | with_reducible apply keeps_foldl | intro _ | split | with_reducible apply keeps_mk

theorem State.createInsts_keeps {z s : State} {c : Nat} {gid : Nat} {g : Graph} {base : Nat} {num : Nat} {l : Launch} {x7 :
    Nat} (h : Keeps z s) :
    Keeps z (State.createInsts s c gid g base num l x7) := by
  induction x7 generalizing s base num with
  | zero => exact h
  | succ n ih => exact ih (State.createInst_keeps h)

theorem State.launch_keeps {z s : State} {c : Nat} {gid : Nat} {base : Nat} {count : Nat} {l : Launch} (h : Keeps z s) :
    Keeps z (State.launch s c gid base count l).2 := by
  unfold State.launch
  repeat' first
    | with_reducible assumption | with_reducible apply State.setCtx_keeps | with_reducible apply State.createInsts_keeps
    | with_reducible apply keeps_ite | with_reducible apply keeps_foldl | intro _ | split | dsimp only
    | with_reducible apply keeps_mk

theorem State.failPart_keeps {z s : State} {owner : Option (Nat × Nat)} {cluster : Nat} (h : Keeps z s) :
    Keeps z (State.failPart s owner cluster) := by
  unfold State.failPart
  repeat' first
    | with_reducible assumption | with_reducible apply State.updCmd_keeps | with_reducible apply keeps_ite
    | with_reducible apply keeps_foldl | intro _ | split | with_reducible apply keeps_mk

theorem State.taskSignal_keeps {z s : State} {c : Nat} {eff : Nat} {poison : Bool} {p : Word × Word} (h : Keeps z s) :
    Keeps z (State.taskSignal s c eff poison p) := by
  unfold State.taskSignal
  repeat' first
    | with_reducible assumption | with_reducible apply State.push_keeps | with_reducible apply keeps_ite
    | with_reducible apply keeps_foldl | intro _ | split | with_reducible apply keeps_mk

theorem State.decrement_keeps {z s : State} {c : Nat} {i : Nat} {idx : Nat} {pred : Nat} {failed : Bool}
    (h : Keeps z s) :
    Keeps z (State.decrement s c i idx pred failed) := by
  unfold State.decrement
  repeat' first
    | with_reducible assumption | intro _
    | (extract_lets +onlyGivenNames s1; refine (fun (h1 : Keeps z s1) => ?_) (?_ : Keeps z s1) <;> [clear_value s1; subst s1])
    | (extract_lets +onlyGivenNames n1; subst n1) | with_reducible apply State.nearAdd_keeps
    | with_reducible apply State.becomeReady_keeps | with_reducible apply State.addCandidate_keeps
    | with_reducible apply State.dropCands_keeps | with_reducible apply State.resolve_keeps
    | with_reducible apply State.push_keeps | with_reducible apply State.updTask_keeps
    | refine keeps_snd (by assumption) ?_ | refine keeps_snd2 (by assumption) ?_ | with_reducible apply keeps_ite
    | intro _ | split | with_reducible apply keeps_mk

theorem State.freeSlots_keeps {z s : State} {r : TaskRef} (h : Keeps z s) :
    Keeps z (State.freeSlots s r) := by
  unfold State.freeSlots
  repeat' first
    | with_reducible assumption | with_reducible apply State.updCtx_keeps | with_reducible apply keeps_ite
    | with_reducible apply keeps_foldl | intro _ | split | with_reducible apply keeps_mk

theorem State.markGone_keeps {z s : State} {r : TaskRef} {how : How} (h : Keeps z s) :
    Keeps z (State.markGone s r how) := by
  unfold State.markGone
  repeat' first
    | with_reducible assumption
    | (extract_lets +onlyGivenNames s1; refine (fun (h1 : Keeps z s1) => ?_) (?_ : Keeps z s1) <;> [clear_value s1; subst s1])
    | (extract_lets +onlyGivenNames n1; subst n1) | with_reducible apply State.testPlace_keeps
    | with_reducible apply State.nearDrop_keeps | with_reducible apply State.flowNext_keeps
    | with_reducible apply State.dropCands_keeps | with_reducible apply State.freeSlots_keeps
    | with_reducible apply State.updTask_keeps | with_reducible apply keeps_ite | intro _ | split
    | with_reducible apply keeps_mk

theorem State.instCheck_keeps {z s : State} {r : TaskRef} (h : Keeps z s) :
    Keeps z (State.instCheck s r) := by
  unfold State.instCheck
  repeat' first
    | with_reducible assumption | with_reducible apply State.push_keeps | with_reducible apply keeps_ite
    | with_reducible apply keeps_foldl | intro _ | split | with_reducible apply keeps_mk

theorem State.taskGone_keeps {z s : State} {r : TaskRef} {how : How} (h : Keeps z s) :
    Keeps z (State.taskGone s r how) := by
  unfold State.taskGone
  repeat' first
    | with_reducible assumption | with_reducible apply State.markGone_keeps | with_reducible apply State.instCheck_keeps
    | with_reducible apply keeps_ite | intro _ | split | with_reducible apply keeps_mk

theorem State.sendDecrements_keeps {z s : State} {r : TaskRef} {d : List Word} {pred : Nat} {failed : Bool}
    {after : List Nat} (h : Keeps z s) :
    Keeps z (State.sendDecrements s r d pred failed after) := by
  unfold State.sendDecrements
  repeat' first
    | with_reducible assumption | intro _
    | (extract_lets +onlyGivenNames s1; refine (fun (h1 : Keeps z s1) => ?_) (?_ : Keeps z s1) <;> [clear_value s1; subst s1])
    | (extract_lets +onlyGivenNames n1; subst n1) | with_reducible apply State.push_keeps | with_reducible apply keeps_ite
    | intro _ | split | with_reducible apply keeps_mk

theorem State.applyDecrements_keeps {z s : State} {c : Nat} {i : Nat} {pred : Nat} {failed : Bool} {idxs : List Nat}
    (h : Keeps z s) :
    Keeps z (State.applyDecrements s c i pred failed idxs) := by
  unfold State.applyDecrements
  repeat' first
    | with_reducible assumption | intro _ | with_reducible apply State.testPlace_keeps
    | with_reducible apply State.decrement_keeps | with_reducible apply State.instCheck_keeps
    | with_reducible apply keeps_ite | with_reducible apply keeps_foldl | intro _ | split | with_reducible apply keeps_mk

theorem State.retireTask_keeps {z s : State} {r : TaskRef} {how : How} {cluster : Option Nat} {core : Option Nat}
    {traced : Bool} {held : List Nat} (h : Keeps z s) :
    Keeps z (State.retireTask s r how cluster core traced held) := by
  unfold State.retireTask
  repeat' first
    | with_reducible assumption | intro _
    | (extract_lets +onlyGivenNames s1; refine (fun (h1 : Keeps z s1) => ?_) (?_ : Keeps z s1) <;> [clear_value s1; subst s1])
    | (extract_lets +onlyGivenNames n1; subst n1) | with_reducible apply State.trace_keeps
    | with_reducible apply State.taskSignal_keeps | with_reducible apply State.markGone_keeps
    | with_reducible apply State.instCheck_keeps | with_reducible apply State.sendDecrements_keeps
    | with_reducible apply State.emptyOutputs_keeps | with_reducible apply keeps_ite | with_reducible apply keeps_foldl
    | intro _ | split | with_reducible apply keeps_mk

end Sys2Proof.Machine
end

