-- ==== Sys2Proof/Laws/KeepsPlace.lean ====
section
/-!
SUPPORT. What every operation keeps: placing, speculation, the Carousel, containment and contexts.
-/
namespace Sys2Proof.Machine
set_option linter.unusedTactic false
set_option linter.unreachableTactic false

/-! ## Place -/

theorem State.takeSlot_keeps {z s : State} {e : Entry} (h : Keeps z s) :
    Keeps z (State.takeSlot s e).2 := by
  unfold State.takeSlot
  repeat' first
    | with_reducible assumption | with_reducible apply State.setCtx_keeps | with_reducible apply keeps_ite
    | with_reducible apply keeps_foldl | intro _ | split | dsimp only | with_reducible apply keeps_mk

theorem State.allocAll_keeps {z s : State} {r : TaskRef} {order : List Nat} {x3 : List Nat} (h : Keeps z s) :
    Keeps z (State.allocAll s r order x3).2 := by
  induction x3 generalizing s with
  | nil => exact h
  | cons a rest ih =>
    unfold State.allocAll
    extract_lets done
    cases done
    · have h1 := State.allocOutput_keeps (c := r.ctx) (y2 := a) (order := order) h
      simp only [Bool.false_eq_true, if_false]
      split <;> rename_i e <;> rw [e] at h1
      · exact h1
      · exact ih h1
      · exact ih (State.updTask_keeps h1)
    · simp only [if_true]
      exact ih h

theorem State.xferOpen_keeps {z s : State} {c : Nat} {ch : Nat} (h : Keeps z s) :
    Keeps z (State.xferOpen s c ch) := by
  unfold State.xferOpen
  repeat' first
    | with_reducible assumption | intro _ | with_reducible apply State.updCore_keeps | with_reducible apply keeps_ite
    | intro _ | split | with_reducible apply keeps_mk

theorem State.xferClose_keeps {z s : State} {c : Nat} {chs : List Nat} (h : Keeps z s) :
    Keeps z (State.xferClose s c chs) := by
  unfold State.xferClose
  repeat' first
    | with_reducible assumption | with_reducible apply State.updCore_keeps | with_reducible apply keeps_ite | intro _
    | split | with_reducible apply keeps_mk

theorem State.toPort_keeps {z s : State} {c : Nat} {l : List PortOut} (h : Keeps z s) :
    Keeps z (State.toPort s c l) := by
  unfold State.toPort
  repeat' first
    | with_reducible assumption | with_reducible apply State.xferOpen_keeps | with_reducible apply keeps_ite
    | with_reducible apply keeps_foldl | intro _ | split | with_reducible apply keeps_mk

theorem State.loadSaddle_keeps {z s : State} {c : Nat} {p : Placed} {x : Inst} {d : List Word} {ins : List Word}
    {outs : List Word} (h : Keeps z s) :
    Keeps z (State.loadSaddle s c p x d ins outs) := by
  unfold State.loadSaddle
  repeat' first
    | with_reducible assumption
    | (extract_lets +onlyGivenNames s1; refine (fun (h1 : Keeps z s1) => ?_) (?_ : Keeps z s1) <;>
      [clear_value s1; subst s1])
    | (extract_lets +onlyGivenNames n1; subst n1)
    | with_reducible apply State.updCore_keeps | with_reducible apply State.toPort_keeps | with_reducible apply keeps_ite
    | intro _ | split | with_reducible apply keeps_mk

theorem State.stageSaddle_keeps {z s : State} {c : Nat} (h : Keeps z s) :
    Keeps z (State.stageSaddle s c) := by
  unfold State.stageSaddle
  repeat' first
    | with_reducible assumption
    | (extract_lets +onlyGivenNames s1; refine (fun (h1 : Keeps z s1) => ?_) (?_ : Keeps z s1) <;> [clear_value s1; subst s1])
    | (extract_lets +onlyGivenNames n1; subst n1) | with_reducible apply State.updCore_keeps
    | with_reducible apply State.setPool_keeps | with_reducible apply State.updTask_keeps
    | with_reducible apply State.allocAll_keeps | with_reducible apply State.loadSaddle_keeps
    | with_reducible apply State.descRead_keeps | refine keeps_snd (by assumption) ?_
    | refine keeps_snd2 (by assumption) ?_ | with_reducible apply keeps_ite | intro _ | split
    | with_reducible apply keeps_mk

theorem State.retryStall_keeps {z s : State} {r : TaskRef} (h : Keeps z s) :
    Keeps z (State.retryStall s r) := by
  unfold State.retryStall
  repeat' first
    | with_reducible assumption | with_reducible apply State.stageSaddle_keeps | with_reducible apply keeps_ite | intro _
    | split | with_reducible apply keeps_mk

theorem State.enterSaddle_keeps {z s : State} {c : Nat} {p : Placed} (h : Keeps z s) :
    Keeps z (State.enterSaddle s c p) := by
  unfold State.enterSaddle
  repeat' first
    | with_reducible assumption
    | (extract_lets +onlyGivenNames s1; refine (fun (h1 : Keeps z s1) => ?_) (?_ : Keeps z s1) <;> [clear_value s1; subst s1])
    | (extract_lets +onlyGivenNames n1; subst n1) | with_reducible apply State.updCore_keeps
    | with_reducible apply State.updTask_keeps | with_reducible apply State.stageSaddle_keeps
    | with_reducible apply keeps_ite | intro _ | split | with_reducible apply keeps_mk

theorem State.fillSaddle_keeps {z s : State} {c : Nat} (h : Keeps z s) :
    Keeps z (State.fillSaddle s c) := by
  unfold State.fillSaddle
  repeat' first
    | with_reducible assumption | intro _
    | (extract_lets +onlyGivenNames s1; refine (fun (h1 : Keeps z s1) => ?_) (?_ : Keeps z s1) <;> [clear_value s1; subst s1])
    | (extract_lets +onlyGivenNames n1; subst n1) | with_reducible apply State.updCore_keeps
    | with_reducible apply State.enterSaddle_keeps | with_reducible apply keeps_ite | with_reducible apply keeps_foldl
    | intro _ | split | with_reducible apply keeps_mk

theorem State.placeTask_keeps {z s : State} {e : Entry} {y2 : Nat} {w7 : Nat} (h : Keeps z s) :
    ∀ t, State.placeTask s e y2 w7 = some t → Keeps z t := by
  intro t
  unfold State.placeTask
  split
  · exact keeps_none
  · split
    rename_i n s1 e1
    have h1 : Keeps z s1 := keeps_snd e1 (State.takeSlot_keeps h)
    dsimp only
    split
    · exact keeps_some (State.enterSaddle_keeps h1)
    · exact keeps_some (State.updCore_keeps (State.updTask_keeps h1))

theorem State.postAction_keeps {z s : State} {c : Nat} {d : Delay} (h : Keeps z s) :
    ∀ t, State.postAction s c d = some t → Keeps z t := by
  intro t
  unfold State.postAction
  repeat' first
    | with_reducible assumption | with_reducible apply State.updCtx_keeps | with_reducible apply State.updCmd_keeps
    | with_reducible apply State.stamp_keeps | with_reducible apply State.delayAdd_keeps
    | refine keeps_snd (by assumption) ?_ | with_reducible apply keeps_some | with_reducible apply keeps_somep
    | with_reducible exact keeps_none | with_reducible apply keeps_ite | with_reducible apply keeps_foldl | split
    | dsimp only | intro _ | dsimp only | with_reducible apply keeps_mk

theorem State.deviceLaunch_keeps {z s : State} {c gid base : Nat} {count : Option Nat} {owner : Option (Nat × Nat)} {t : Nat}
    (h : Keeps z s) : Keeps z (s.deviceLaunch c gid base count owner t).2.2 := by
  unfold State.deviceLaunch
  split
  · exact h
  · split
    · exact h
    · exact State.launch_keeps h

theorem State.execControl_keeps {z s : State} {r : TaskRef} {h' : Nat} (h : Keeps z s) :
    Keeps z (State.execControl s r h') := by
  unfold State.execControl
  split
  · extract_lets o w eff fail base v wake act
    have hf : ∀ y, Keeps z y → Keeps z (fail y) := fun y hy => State.retireTask_keeps (State.failPart_keeps hy)
    split
    · exact State.retireTask_keeps h
    · exact keeps_ite (fun _ => State.push_keeps h) fun _ =>
        State.testPlace_keeps (State.push_keeps (State.updTask_keeps h))
    · split <;> rename_i e
      · exact State.retireTask_keeps (keeps_snd2 e (State.deviceLaunch_keeps h))
      · exact hf _ (keeps_snd2 e (State.deviceLaunch_keeps h))
    · split <;> rename_i e
      · exact State.retireTask_keeps (State.postAction_keeps h _ e)
      · exact hf _ h
    · exact hf _ h
  · exact h

theorem State.countWait_keeps {z s : State} {b : Nat} {e : Entry} (h : Keeps z s) :
    Keeps z (State.countWait s b e) := by
  unfold State.countWait
  repeat' first
    | with_reducible assumption | with_reducible apply keeps_ite | with_reducible apply keeps_foldl | intro _ | split
    | with_reducible apply keeps_mk

theorem State.decline_keeps {z s : State} {b : Nat} {e : Entry} (h : Keeps z s) :
    Keeps z (State.decline s b e) := by
  unfold State.decline
  repeat' first
    | with_reducible assumption | with_reducible apply State.putBank_keeps | with_reducible apply keeps_ite | intro _
    | split | with_reducible apply keeps_mk

theorem State.offer_keeps {z s : State} {b : Nat} {e : Entry} (h : Keeps z s) :
    Keeps z (State.offer s b e) := by
  unfold State.offer
  extract_lets r
  split
  · extract_lets d first dyn sh s1 taken
    have h1 : Keeps z s1 := keeps_ite (fun _ => State.updTask_keeps h) fun _ => h
    have h2 : Keeps z taken := State.countWait_keeps h1
    clear_value taken s1
    refine keeps_ite (fun _ => State.retireTask_keeps h2) fun _ => keeps_ite (fun _ => State.retireTask_keeps h2) fun _ => ?_
    split
    · exact keeps_ite (fun _ => State.setGe_keeps (State.updTask_keeps h2)) fun _ => State.decline_keeps h1
    · exact keeps_ite (fun _ => State.decline_keeps h1) fun _ => State.execControl_keeps h2
    · split <;> rename_i e1
      · exact State.placeTask_keeps h2 _ e1
      · exact State.decline_keeps h1
  · exact h

theorem State.settleBanks_keeps {z s : State} (h : Keeps z s) :
    Keeps z (State.settleBanks s) := by
  unfold State.settleBanks
  repeat' first
    | with_reducible assumption | with_reducible apply State.putBank_keeps | with_reducible apply keeps_ite
    | with_reducible apply keeps_foldl | intro _ | split | with_reducible apply keeps_mk

theorem State.gdPop_keeps {z s : State} (h : Keeps z s) :
    Keeps z (State.gdPop s) := by
  unfold State.gdPop
  repeat' first
    | with_reducible assumption | intro _
    | (extract_lets +onlyGivenNames s1; refine (fun (h1 : Keeps z s1) => ?_) (?_ : Keeps z s1) <;> [clear_value s1; subst s1])
    | (extract_lets +onlyGivenNames n1; subst n1) | with_reducible apply State.setBank_keeps
    | with_reducible apply State.offer_keeps | with_reducible apply State.settleBanks_keeps
    | with_reducible apply keeps_ite | intro _ | split | with_reducible apply keeps_mk

theorem State.relayRoom_keeps {z s : State} (h : Keeps z s) :
    Keeps z (State.relayRoom s) := by
  unfold State.relayRoom
  repeat' first
    | with_reducible assumption | intro _ | with_reducible apply keeps_ite | intro _ | split
    | with_reducible apply keeps_mk

theorem State.stray_keeps {z s : State} {f : Nat → Nat → Bool} (h : Keeps z s) :
    Keeps z (State.stray s f) := by
  unfold State.stray
  repeat' first
    | with_reducible assumption | with_reducible apply State.relayRoom_keeps | with_reducible apply keeps_ite
    | with_reducible apply keeps_foldl | intro _ | split | with_reducible apply keeps_mk

theorem State.spurCore_keeps {z s : State} {c : Nat} (h : Keeps z s) :
    Keeps z (State.spurCore s c) := by
  unfold State.spurCore
  repeat' first
    | with_reducible assumption | intro _
    | (extract_lets +onlyGivenNames s1; refine (fun (h1 : Keeps z s1) => ?_) (?_ : Keeps z s1) <;> [clear_value s1; subst s1])
    | (extract_lets +onlyGivenNames n1; subst n1) | with_reducible apply State.trace_keeps
    | with_reducible apply State.updCtx_keeps | with_reducible apply State.updCore_keeps
    | with_reducible apply State.updTask_keeps | with_reducible apply State.xferClose_keeps
    | with_reducible apply State.toPort_keeps | with_reducible apply State.fillSaddle_keeps
    | with_reducible apply State.stray_keeps | with_reducible apply keeps_ite | intro _ | split
    | with_reducible apply keeps_mk

theorem State.dropCoreWaits_keeps {z s : State} {c : Nat} (h : Keeps z s) :
    Keeps z (State.dropCoreWaits s c) := by
  unfold State.dropCoreWaits
  repeat' first
    | with_reducible assumption | intro _ | with_reducible apply State.dropWaiters_keeps | with_reducible apply keeps_ite
    | intro _ | split | with_reducible apply keeps_mk

theorem State.coreOff_keeps {z s : State} {c : Nat} {ctx : Nat} (h : Keeps z s) :
    Keeps z (State.coreOff s c ctx) := by
  unfold State.coreOff
  repeat' first
    | with_reducible assumption | intro _
    | (extract_lets +onlyGivenNames s1; refine (fun (h1 : Keeps z s1) => ?_) (?_ : Keeps z s1) <;> [clear_value s1; subst s1])
    | (extract_lets +onlyGivenNames n1; subst n1) | with_reducible apply State.push_keeps
    | with_reducible apply State.updCore_keeps | with_reducible apply State.dropCoreWaits_keeps
    | with_reducible apply keeps_ite | intro _ | split | with_reducible apply keeps_mk

theorem State.writeSlot_keeps {z s : State} {r : TaskRef} {n : Nat} {cc : List (Nat × Nat)} (h : Keeps z s) :
    Keeps z (State.writeSlot s r n cc) := by
  unfold State.writeSlot
  repeat' first
    | with_reducible assumption | with_reducible apply State.wrWords_keeps | with_reducible apply keeps_ite
    | with_reducible apply keeps_foldl | intro _ | split | with_reducible apply keeps_mk

theorem State.saveTask_keeps {z s : State} {c : Nat} {run : Running} (h : Keeps z s) :
    Keeps z (State.saveTask s c run) := by
  unfold State.saveTask
  repeat' first
    | with_reducible assumption | intro _
    | (extract_lets +onlyGivenNames s1; refine (fun (h1 : Keeps z s1) => ?_) (?_ : Keeps z s1) <;> [clear_value s1; subst s1])
    | (extract_lets +onlyGivenNames n1; subst n1) | with_reducible apply State.toHeap_keeps
    | with_reducible apply State.updCtx_keeps | with_reducible apply State.updTask_keeps
    | with_reducible apply State.coreOff_keeps | with_reducible apply State.writeSlot_keeps
    | with_reducible apply keeps_ite | intro _ | split | with_reducible apply keeps_mk

theorem State.lateResult_keeps {z s : State} {r : TaskRef} (h : Keeps z s) :
    Keeps z (State.lateResult s r) := by
  unfold State.lateResult
  repeat' first
    | with_reducible assumption | with_reducible apply State.freeOutputs_keeps | with_reducible apply State.taskGone_keeps
    | with_reducible apply keeps_ite | with_reducible apply keeps_foldl | intro _ | split | with_reducible apply keeps_mk

theorem State.finishTask_keeps {z s : State} {c : Nat} {r : TaskRef} {occ : Word} {suppressed : Bool} (h : Keeps z s) :
    Keeps z (State.finishTask s c r occ suppressed) := by
  unfold State.finishTask
  repeat' first
    | with_reducible assumption | with_reducible apply State.recordOcc_keeps | with_reducible apply State.retireTask_keeps
    | with_reducible apply State.lateResult_keeps | with_reducible apply keeps_ite | with_reducible apply keeps_foldl
    | intro _ | split | with_reducible apply keeps_mk

theorem State.coreDone_keeps {z s : State} {c : Nat} {occ : Word} (h : Keeps z s) :
    Keeps z (State.coreDone s c occ) := by
  unfold State.coreDone
  repeat' first
    | with_reducible assumption | intro _
    | (extract_lets +onlyGivenNames s1; refine (fun (h1 : Keeps z s1) => ?_) (?_ : Keeps z s1) <;> [clear_value s1; subst s1])
    | (extract_lets +onlyGivenNames n1; subst n1) | with_reducible apply State.retireTask_keeps
    | with_reducible apply State.push_keeps | with_reducible apply State.setCluster_keeps
    | with_reducible apply State.xferOpen_keeps | with_reducible apply State.xferClose_keeps
    | with_reducible apply State.coreOff_keeps | with_reducible apply State.finishTask_keeps
    | with_reducible apply keeps_ite | intro _ | split | with_reducible apply keeps_mk

theorem State.overrun_keeps {z s : State} {r : TaskRef} {eff : Nat} {arg : Nat} {unit : Nat} {inst : Nat} (h : Keeps z s) :
    Keeps z (State.overrun s r eff arg unit inst) := by
  unfold State.overrun
  repeat' first
    | with_reducible assumption | with_reducible apply State.push_keeps | with_reducible apply State.updCtx_keeps
    | with_reducible apply State.err_keeps | with_reducible apply State.writeHeader_keeps | with_reducible apply keeps_ite
    | with_reducible apply keeps_foldl | intro _ | split | with_reducible apply keeps_mk

theorem State.coreYield_keeps {z s : State} {c : Nat} (h : Keeps z s) :
    Keeps z (State.coreYield s c) := by
  unfold State.coreYield
  repeat' first
    | with_reducible assumption | intro _
    | (extract_lets +onlyGivenNames s1; refine (fun (h1 : Keeps z s1) => ?_) (?_ : Keeps z s1) <;> [clear_value s1; subst s1])
    | (extract_lets +onlyGivenNames n1; subst n1) | with_reducible apply State.taskGone_keeps
    | with_reducible apply State.updTask_keeps | with_reducible apply State.xferOpen_keeps
    | with_reducible apply State.xferClose_keeps | with_reducible apply State.coreOff_keeps
    | with_reducible apply State.saveTask_keeps | with_reducible apply State.overrun_keeps
    | with_reducible apply keeps_ite | intro _ | split | with_reducible apply keeps_mk

theorem State.raiseRein_keeps {z s : State} {c : Nat} (h : Keeps z s) :
    Keeps z (State.raiseRein s c) := by
  unfold State.raiseRein
  repeat' first
    | with_reducible assumption | with_reducible apply State.updCore_keeps | with_reducible apply State.toPort_keeps
    | with_reducible apply keeps_ite | intro _ | split | with_reducible apply keeps_mk

theorem State.raiseTrap_keeps {z s : State} {c : Nat} {discard : Bool} (h : Keeps z s) :
    Keeps z (State.raiseTrap s c discard) := by
  unfold State.raiseTrap
  repeat' first
    | with_reducible assumption | with_reducible apply State.updCore_keeps | with_reducible apply State.toPort_keeps
    | with_reducible apply keeps_ite | intro _ | split | with_reducible apply keeps_mk

theorem State.forceOff_keeps {z s : State} {c : Nat} (h : Keeps z s) :
    Keeps z (State.forceOff s c) := by
  unfold State.forceOff
  repeat' first
    | with_reducible assumption | with_reducible apply State.raiseTrap_keeps | with_reducible apply keeps_ite | intro _
    | split | with_reducible apply keeps_mk

/-! ## Spec -/

theorem State.allocShadows_keeps {z s : State} {c : Nat} {order : List Nat} {x3 : List Nat} (h : Keeps z s) :
    ∀ a0 t, State.allocShadows s c order x3 = some (a0, t) → Keeps z t := by
  induction x3 generalizing s with
  | nil => intro a0 t; exact keeps_somep h
  | cons a r ih =>
    intro a0 t
    unfold State.allocShadows
    split
    · nofun
    · rename_i e
      have h1 := State.allocGranule_keeps h _ _ e
      split
      · nofun
      · rename_i e2
        exact keeps_somep (ih h1 _ _ e2)

theorem State.stageSpec_keeps {z s : State} {n : Nat} {c : Nat} {e : Entry} (h : Keeps z s) :
    ∀ t, State.stageSpec s n c e = some t → Keeps z t := by
  intro t
  unfold State.stageSpec
  extract_lets r s1
  have h1 : Keeps z s1 := State.descRead_keeps h
  clear_value s1
  split
  · extract_lets d
    split
    · exact keeps_none
    · split
      · exact keeps_none
      · split
        · exact keeps_none
        · split
          rename_i sh sx e1 _ _ s2 e2
          have h2 : Keeps z s2 := keeps_snd e2 (State.takeSlot_keeps (State.allocShadows_keeps h1 _ _ e1))
          exact keeps_some (State.loadSaddle_keeps (State.updTask_keeps (State.usePred_keeps h2)))
  · exact keeps_none

theorem State.specOffer_keeps {z s : State} {n : Nat} (h : Keeps z s) :
    Keeps z (State.specOffer s n) := by
  unfold State.specOffer
  repeat' first
    | with_reducible assumption | with_reducible apply State.dropCands_keeps
    | refine State.stageSpec_keeps ?_ _ (by assumption) | with_reducible apply keeps_ite | with_reducible apply keeps_foldl
    | intro _ | split | with_reducible apply keeps_mk

theorem State.forceSpec_keeps {z s : State} {c : Nat} {y : Running} (h : Keeps z s) :
    Keeps z (State.forceSpec s c y) := by
  unfold State.forceSpec
  repeat' first
    | with_reducible assumption | intro _
    | (extract_lets +onlyGivenNames s1; refine (fun (h1 : Keeps z s1) => ?_) (?_ : Keeps z s1) <;> [clear_value s1; subst s1])
    | (extract_lets +onlyGivenNames n1; subst n1) | with_reducible apply State.updCore_keeps
    | with_reducible apply State.coreOff_keeps | with_reducible apply State.forceOff_keeps
    | with_reducible apply keeps_ite | intro _ | split | with_reducible apply keeps_mk

theorem State.pullSpec_keeps {z s : State} {r : TaskRef} (h : Keeps z s) :
    Keeps z (State.pullSpec s r) := by
  unfold State.pullSpec
  repeat' first
    | with_reducible assumption | intro _
    | (extract_lets +onlyGivenNames s1; refine (fun (h1 : Keeps z s1) => ?_) (?_ : Keeps z s1) <;> [clear_value s1; subst s1])
    | (extract_lets +onlyGivenNames n1; subst n1) | with_reducible apply State.forceSpec_keeps
    | with_reducible apply State.setCore_keeps | with_reducible apply State.fillSaddle_keeps
    | with_reducible apply keeps_ite | with_reducible apply keeps_foldl | intro _ | split | with_reducible apply keeps_mk

theorem State.dropSpec_keeps {z s : State} {r : TaskRef} (h : Keeps z s) :
    Keeps z (State.dropSpec s r) := by
  unfold State.dropSpec
  repeat' first
    | with_reducible assumption
    | (extract_lets +onlyGivenNames s1; refine (fun (h1 : Keeps z s1) => ?_) (?_ : Keeps z s1) <;> [clear_value s1; subst s1])
    | (extract_lets +onlyGivenNames n1; subst n1) | with_reducible apply State.pullSpec_keeps
    | with_reducible apply State.freeSlots_keeps | with_reducible apply State.returnGranule_keeps
    | with_reducible apply State.endRetention_keeps | with_reducible apply keeps_ite | with_reducible apply keeps_foldl
    | intro _ | split | with_reducible apply keeps_mk

theorem State.refute_keeps {z s : State} {r : TaskRef} {cause : Nat} (h : Keeps z s) :
    Keeps z (State.refute s r cause) := by
  unfold State.refute
  repeat' first
    | with_reducible assumption | intro _
    | (extract_lets +onlyGivenNames s1; refine (fun (h1 : Keeps z s1) => ?_) (?_ : Keeps z s1) <;> [clear_value s1; subst s1])
    | (extract_lets +onlyGivenNames n1; subst n1) | with_reducible apply State.dropSpec_keeps
    | with_reducible apply State.testPlace_keeps | with_reducible apply State.trace_keeps
    | with_reducible apply State.becomeReady_keeps | with_reducible apply State.push_keeps
    | with_reducible apply State.updTask_keeps | with_reducible apply keeps_ite | intro _ | split
    | with_reducible apply keeps_mk

theorem State.commit_keeps {z s : State} {n : Nat} {h' : Held} (h : Keeps z s) :
    Keeps z (State.commit s n h') := by
  unfold State.commit
  repeat' first
    | with_reducible assumption | intro _
    | (extract_lets +onlyGivenNames s1; refine (fun (h1 : Keeps z s1) => ?_) (?_ : Keeps z s1) <;> [clear_value s1; subst s1])
    | (extract_lets +onlyGivenNames n1; subst n1) | with_reducible apply State.trace_keeps
    | with_reducible apply State.retireTask_keeps | with_reducible apply State.push_keeps
    | with_reducible apply State.setCluster_keeps | with_reducible apply State.setTile_keeps
    | with_reducible apply State.returnGranule_keeps | with_reducible apply State.endRetention_keeps
    | with_reducible apply keeps_ite | with_reducible apply keeps_foldl | intro _ | split | with_reducible apply keeps_mk

theorem State.markConfirmed_keeps {z s : State} {r : TaskRef} (h : Keeps z s) :
    Keeps z (State.markConfirmed s r) := by
  unfold State.markConfirmed
  repeat' first
    | with_reducible assumption | with_reducible apply State.push_keeps | with_reducible apply keeps_ite
    | with_reducible apply keeps_foldl | intro _ | split | with_reducible apply keeps_mk

theorem State.commitPruned_keeps {z s : State} {r : TaskRef} (h : Keeps z s) :
    Keeps z (State.commitPruned s r) := by
  unfold State.commitPruned
  repeat' first
    | with_reducible assumption | intro _
    | (extract_lets +onlyGivenNames s1; refine (fun (h1 : Keeps z s1) => ?_) (?_ : Keeps z s1) <;> [clear_value s1; subst s1])
    | (extract_lets +onlyGivenNames n1; subst n1) | with_reducible apply State.dropSpec_keeps
    | with_reducible apply State.retireTask_keeps | with_reducible apply keeps_ite | intro _ | split
    | with_reducible apply keeps_mk

theorem State.confirm_keeps {z s : State} {r : TaskRef} (h : Keeps z s) :
    Keeps z (State.confirm s r) := by
  unfold State.confirm
  repeat' first
    | with_reducible assumption
    | (extract_lets +onlyGivenNames s1; refine (fun (h1 : Keeps z s1) => ?_) (?_ : Keeps z s1) <;> [clear_value s1; subst s1])
    | (extract_lets +onlyGivenNames n1; subst n1) | with_reducible apply State.refute_keeps
    | with_reducible apply State.markConfirmed_keeps | with_reducible apply State.commitPruned_keeps
    | with_reducible apply State.resolve_keeps | refine keeps_snd (by assumption) ?_
    | refine keeps_snd2 (by assumption) ?_ | with_reducible apply keeps_ite | intro _ | split
    | with_reducible apply keeps_mk

/-! ## Carousel -/

theorem State.setCarSlot_keeps {z s : State} {n : Nat} {x : SeqSlot} (h : Keeps z s) :
    Keeps z (State.setCarSlot s n x) := by
  unfold State.setCarSlot
  repeat' first
    | with_reducible assumption | with_reducible apply keeps_ite | with_reducible apply keeps_foldl | intro _ | split
    | with_reducible apply keeps_mk

theorem State.setCarCtx_keeps {z s : State} {c : Nat} {x : CarCtx} (h : Keeps z s) :
    Keeps z (State.setCarCtx s c x) := by
  unfold State.setCarCtx
  repeat' first
    | with_reducible assumption | with_reducible apply keeps_ite | with_reducible apply keeps_foldl | intro _ | split
    | with_reducible apply keeps_mk

theorem State.carFree_keeps {z s : State} {n : Nat} (h : Keeps z s) :
    Keeps z (State.carFree s n) := by
  unfold State.carFree
  repeat' first
    | with_reducible assumption | with_reducible apply State.push_keeps | with_reducible apply State.setCarSlot_keeps
    | with_reducible apply keeps_ite | with_reducible apply keeps_foldl | intro _ | split | with_reducible apply keeps_mk

theorem State.memberEnd_keeps {z s : State} {st : LiveStep} {i : Nat} {n : Nat} (h : Keeps z s) :
    Keeps z (State.memberEnd s st i n) := by
  unfold State.memberEnd
  repeat' first
    | with_reducible assumption | with_reducible apply State.setCarSlot_keeps | with_reducible apply State.carFree_keeps
    | with_reducible apply keeps_ite | with_reducible apply keeps_foldl | intro _ | split | with_reducible apply keeps_mk

theorem State.stepClose_keeps {z s : State} {c : Nat} (h : Keeps z s) :
    Keeps z (State.stepClose s c) := by
  unfold State.stepClose
  repeat' first
    | with_reducible assumption | intro _
    | (extract_lets +onlyGivenNames s1; refine (fun (h1 : Keeps z s1) => ?_) (?_ : Keeps z s1) <;> [clear_value s1; subst s1])
    | (extract_lets +onlyGivenNames n1; subst n1) | with_reducible apply State.setCarCtx_keeps
    | with_reducible apply keeps_ite | intro _ | split | with_reducible apply keeps_mk

theorem State.stepEnd_keeps {z s : State} {c : Nat} (h : Keeps z s) :
    Keeps z (State.stepEnd s c) := by
  unfold State.stepEnd
  repeat' first
    | with_reducible assumption | intro _
    | (extract_lets +onlyGivenNames s1; refine (fun (h1 : Keeps z s1) => ?_) (?_ : Keeps z s1) <;> [clear_value s1; subst s1])
    | (extract_lets +onlyGivenNames n1; subst n1) | with_reducible apply State.memberEnd_keeps
    | with_reducible apply State.stepClose_keeps | with_reducible apply State.complete_keeps
    | with_reducible apply keeps_ite | with_reducible apply keeps_foldl | intro _ | split | with_reducible apply keeps_mk

theorem State.stepRelease_keeps {z s : State} {c : Nat} (h : Keeps z s) :
    Keeps z (State.stepRelease s c) := by
  unfold State.stepRelease
  repeat' first
    | with_reducible assumption | intro _ | with_reducible apply State.carFree_keeps
    | with_reducible apply State.stepClose_keeps | with_reducible apply keeps_ite | with_reducible apply keeps_foldl
    | intro _ | split | with_reducible apply keeps_mk

theorem State.rootCheck_keeps {z s : State} {q : Nat} {n : Nat} (h : Keeps z s) :
    Keeps z (State.rootCheck s q n) := by
  unfold State.rootCheck
  repeat' first
    | with_reducible assumption | intro _
    | (extract_lets +onlyGivenNames s1; refine (fun (h1 : Keeps z s1) => ?_) (?_ : Keeps z s1) <;> [clear_value s1; subst s1])
    | (extract_lets +onlyGivenNames n1; subst n1) | with_reducible apply State.setCarCtx_keeps
    | with_reducible apply State.stepEnd_keeps | with_reducible apply State.stepRelease_keeps
    | with_reducible apply State.launch_keeps | with_reducible apply State.push_keeps
    | with_reducible apply State.complete_keeps | refine keeps_snd (by assumption) ?_
    | refine keeps_snd2 (by assumption) ?_ | with_reducible apply keeps_ite | intro _ | split
    | with_reducible apply keeps_mk

theorem State.instEnd_keeps {z s : State} {c : Nat} {i : Nat} (h : Keeps z s) :
    Keeps z (State.instEnd s c i) := by
  unfold State.instEnd
  repeat' first
    | with_reducible assumption
    | (extract_lets +onlyGivenNames s1; refine (fun (h1 : Keeps z s1) => ?_) (?_ : Keeps z s1) <;> [clear_value s1; subst s1])
    | (extract_lets +onlyGivenNames n1; subst n1) | with_reducible apply State.rootCheck_keeps
    | with_reducible apply State.updCtx_keeps | with_reducible apply State.updCmd_keeps | with_reducible apply keeps_ite
    | intro _ | split | with_reducible apply keeps_mk

/-! ## Contain -/

theorem State.geLeave_keeps {z s : State} {g : Nat} (h : Keeps z s) :
    Keeps z (State.geLeave s g) := by
  unfold State.geLeave
  repeat' first
    | with_reducible assumption | intro _
    | (extract_lets +onlyGivenNames s1; refine (fun (h1 : Keeps z s1) => ?_) (?_ : Keeps z s1) <;> [clear_value s1; subst s1])
    | (extract_lets +onlyGivenNames n1; subst n1) | with_reducible apply State.push_keeps
    | with_reducible apply State.setGe_keeps | with_reducible apply State.complete_keeps | with_reducible apply keeps_ite
    | intro _ | split | with_reducible apply keeps_mk

theorem State.removeEntry_keeps {z s : State} {r : TaskRef} (h : Keeps z s) :
    Keeps z (State.removeEntry s r) := by
  unfold State.removeEntry
  repeat' first
    | with_reducible assumption
    | (extract_lets +onlyGivenNames s1; refine (fun (h1 : Keeps z s1) => ?_) (?_ : Keeps z s1) <;> [clear_value s1; subst s1])
    | (extract_lets +onlyGivenNames n1; subst n1) | with_reducible apply State.setSaved_keeps
    | with_reducible apply State.setCore_keeps | with_reducible apply State.fillSaddle_keeps
    | with_reducible apply State.dropWaiters_keeps | with_reducible apply keeps_ite | with_reducible apply keeps_foldl
    | intro _ | split | with_reducible apply keeps_mk

theorem State.discardTask_keeps {fault : Bool} {z s : State} {r : TaskRef} (h : Keeps z s) :
    Keeps z (State.discardTask fault s r) := by
  unfold State.discardTask
  repeat' first
    | with_reducible assumption
    | (extract_lets +onlyGivenNames s1; refine (fun (h1 : Keeps z s1) => ?_) (?_ : Keeps z s1) <;> [clear_value s1; subst s1])
    | (extract_lets +onlyGivenNames n1; subst n1) | with_reducible apply State.dropSpec_keeps
    | with_reducible apply State.taskGone_keeps | with_reducible apply State.removeEntry_keeps
    | with_reducible apply State.freeOutputs_keeps | with_reducible apply keeps_ite | intro _ | split
    | with_reducible apply keeps_mk

theorem State.removeActions_keeps {z s : State} {f : Delay → Bool} (h : Keeps z s) :
    Keeps z (State.removeActions s f) := by
  unfold State.removeActions
  repeat' first
    | with_reducible assumption | intro _
    | (extract_lets +onlyGivenNames s1; refine (fun (h1 : Keeps z s1) => ?_) (?_ : Keeps z s1) <;> [clear_value s1; subst s1])
    | (extract_lets +onlyGivenNames n1; subst n1) | with_reducible apply State.delayDrop_keeps
    | with_reducible apply State.updCtx_keeps | with_reducible apply State.updCmd_keeps | with_reducible apply keeps_ite
    | with_reducible apply keeps_foldl | intro _ | split | with_reducible apply keeps_mk

theorem State.poisonWaits_keeps {z s : State} {c : Nat} (h : Keeps z s) :
    Keeps z (State.poisonWaits s c) := by
  unfold State.poisonWaits
  repeat' first
    | with_reducible assumption | intro _
    | (extract_lets +onlyGivenNames s1; refine (fun (h1 : Keeps z s1) => ?_) (?_ : Keeps z s1) <;> [clear_value s1; subst s1])
    | (extract_lets +onlyGivenNames n1; subst n1) | with_reducible apply State.xferOpen_keeps
    | with_reducible apply State.dropWaiters_keeps | with_reducible apply keeps_ite | intro _ | split
    | with_reducible apply keeps_mk

theorem State.suppress_keeps {z s : State} {q : Nat} {f : TaskRef → Bool} (h : Keeps z s) :
    Keeps z (State.suppress s q f) := by
  unfold State.suppress
  repeat' first
    | with_reducible assumption | intro _
    | (extract_lets +onlyGivenNames s1; refine (fun (h1 : Keeps z s1) => ?_) (?_ : Keeps z s1) <;> [clear_value s1; subst s1])
    | (extract_lets +onlyGivenNames n1; subst n1) | with_reducible apply State.poisonWaits_keeps
    | with_reducible apply keeps_ite | with_reducible apply keeps_foldl | intro _ | split | with_reducible apply keeps_mk

theorem State.poisonSignal_keeps {z s : State} {c : Nat} {p : Word × Word} (h : Keeps z s) :
    Keeps z (State.poisonSignal s c p) := by
  unfold State.poisonSignal
  repeat' first
    | with_reducible assumption | with_reducible apply State.push_keeps | with_reducible apply keeps_ite
    | with_reducible apply keeps_foldl | intro _ | split | with_reducible apply keeps_mk

theorem State.poisonCmd_keeps {z s : State} {c : Nat} {w : List Word} {cpl : Option (List Word)} (h : Keeps z s) :
    Keeps z (State.poisonCmd s c w cpl) := by
  unfold State.poisonCmd
  repeat' first
    | with_reducible assumption | with_reducible apply State.push_keeps | with_reducible apply keeps_ite
    | with_reducible apply keeps_foldl | intro _ | split | with_reducible apply keeps_mk

theorem State.scanRing_keeps {z s : State} {q : Nat} {x2 : Nat} {x3 : Nat} (h : Keeps z s) :
    Keeps z (State.scanRing s q x2 x3) := by
  induction x2 generalizing s x3 with
  | zero => exact h
  | succ n ih =>
    unfold State.scanRing
    extract_lets x p0 k c last cpl s1
    split
    · exact h
    · split
      · exact ih h
      · exact ih (keeps_ite (fun _ => h) fun _ => State.poisonCmd_keeps h)

theorem State.contained_keeps {z s : State} {q : Nat} {cause : Nat} {un : List Word} {tag : Nat} {a : Nat} {b : Nat}
    {c : Nat} (h : Keeps z s) :
    Keeps z (State.contained s q cause un tag a b c) := by
  unfold State.contained
  repeat' first
    | with_reducible assumption | intro _
    | (extract_lets +onlyGivenNames s1; refine (fun (h1 : Keeps z s1) => ?_) (?_ : Keeps z s1) <;> [clear_value s1; subst s1])
    | (extract_lets +onlyGivenNames n1; subst n1) | with_reducible apply State.setQueue_keeps
    | with_reducible apply State.updQueue_keeps | with_reducible apply State.err_keeps
    | with_reducible apply State.queueMsix_keeps | with_reducible apply State.putUnstarted_keeps
    | with_reducible apply State.refreshAll_keeps | with_reducible apply State.unslot_keeps
    | refine keeps_snd (by assumption) ?_ | refine keeps_snd2 (by assumption) ?_ | with_reducible apply keeps_ite
    | intro _ | split | with_reducible apply keeps_mk

theorem State.guilty_keeps {z s : State} {q : Nat} {cause : Nat} {off : Option Nat} {un : List Word} {detail : Nat}
    {a : Nat} {b : Nat} {c : Nat} (h : Keeps z s) :
    Keeps z (State.guilty s q cause off un detail a b c) := by
  unfold State.guilty
  refine keeps_ite (fun _ => h) fun _ => ?_
  extract_lets s1 refs sigs posted s2 s3 s4 s5 s6 s7 s8 s9 s9' f10 s10 tag s11 rec4
  have h1 : Keeps z s1 := State.updQueue_keeps (State.recallWork_keeps h)
  have h4 : Keeps z s4 := State.suppress_keeps (State.removeActions_keeps (keeps_foldl h1 fun _ _ h => State.discardTask_keeps h))
  have h5 : Keeps z s5 := keeps_foldl h4 fun _ _ h => by
    split
    · exact State.retireTask_keeps (State.geLeave_keeps h)
    · exact h
  have h6 : Keeps z s6 := keeps_foldl h5 fun _ _ h => State.poisonSignal_keeps h
  have h7 : Keeps z s7 := keeps_foldl h6 fun _ _ h => by
    split
    · exact keeps_ite (fun _ => State.push_keeps h) fun _ => h
    · exact h
  have h9 : Keeps z s9' := State.updQueue_keeps (State.dropWaiters_keeps (State.scanRing_keeps h7))
  have h10 : Keeps z s10 := State.refreshAll_keeps (keeps_mk h9)
  have h11 : Keeps z s11 := keeps_foldl h10 fun _ _ h => by
    refine keeps_ite (fun _ => State.complete_keeps ?_) fun _ => State.complete_keeps ?_ <;>
      exact keeps_ite (fun _ => State.stepRelease_keeps h) fun _ => h
  exact State.push_keeps h11

theorem State.cancelRoot_keeps {z s : State} {q : Nat} {n : Nat} (h : Keeps z s) :
    Keeps z (State.cancelRoot s q n) := by
  unfold State.cancelRoot
  repeat' first
    | with_reducible assumption
    | (extract_lets +onlyGivenNames s1; refine (fun (h1 : Keeps z s1) => ?_) (?_ : Keeps z s1) <;> [clear_value s1; subst s1])
    | (extract_lets +onlyGivenNames n1; subst n1) | with_reducible apply State.rootCheck_keeps
    | with_reducible apply State.taskGone_keeps | with_reducible apply State.updCmd_keeps
    | with_reducible apply State.geLeave_keeps | with_reducible apply State.discardTask_keeps
    | with_reducible apply State.removeActions_keeps | with_reducible apply keeps_ite | with_reducible apply keeps_foldl
    | intro _ | split | with_reducible apply keeps_mk

/-! ## Contexts -/

theorem State.abortCmd_keeps {z s : State} {q : Nat} {n : Nat} {st : Status} {detail : Nat} (h : Keeps z s) :
    Keeps z (State.abortCmd s q n st detail) := by
  unfold State.abortCmd
  extract_lets s1 f2 s2 s3
  have h1 : Keeps z s1 := State.dropWaiters_keeps (State.recallWork_keeps h)
  have h3 : Keeps z s3 := State.complete_keeps (State.removeActions_keeps (keeps_mk h1))
  exact keeps_ite (fun _ => State.refreshAll_keeps h3) fun _ => h3

theorem State.abortAll_keeps {z s : State} {c : Nat} {st : Status} {detail : Nat} (h : Keeps z s) :
    Keeps z (State.abortAll s c st detail) := by
  unfold State.abortAll
  repeat' first
    | with_reducible assumption | with_reducible apply State.abortCmd_keeps | with_reducible apply keeps_ite
    | with_reducible apply keeps_foldl | intro _ | split | with_reducible apply keeps_mk

theorem State.stopQueues_keeps {z s : State} {c : Nat} (h : Keeps z s) :
    Keeps z (State.stopQueues s c) := by
  unfold State.stopQueues
  repeat' first
    | with_reducible assumption | intro _
    | (extract_lets +onlyGivenNames s1; refine (fun (h1 : Keeps z s1) => ?_) (?_ : Keeps z s1) <;> [clear_value s1; subst s1])
    | (extract_lets +onlyGivenNames n1; subst n1) | with_reducible apply State.updQueue_keeps
    | with_reducible apply State.complete_keeps | with_reducible apply State.unslot_keeps | with_reducible apply keeps_ite
    | with_reducible apply keeps_foldl | intro _ | split | with_reducible apply keeps_mk

theorem State.endSubject_keeps {z s : State} {c : Nat} {st : Status} {detail : Nat} (h : Keeps z s) :
    Keeps z (State.endSubject s c st detail) := by
  unfold State.endSubject
  repeat' first
    | with_reducible assumption | intro _
    | (extract_lets +onlyGivenNames s1; refine (fun (h1 : Keeps z s1) => ?_) (?_ : Keeps z s1) <;> [clear_value s1; subst s1])
    | (extract_lets +onlyGivenNames n1; subst n1) | with_reducible apply State.setCtx_keeps
    | with_reducible apply State.complete_keeps | with_reducible apply keeps_ite | with_reducible apply keeps_foldl
    | intro _ | split | with_reducible apply keeps_mk

theorem State.updStop_keeps {z s : State} {c : Nat} (h : Keeps z s) :
    Keeps z (State.updStop s c) := by
  unfold State.updStop
  repeat' first
    | with_reducible assumption | with_reducible apply State.setCtx_keeps | with_reducible apply keeps_ite
    | with_reducible apply keeps_foldl | intro _ | split | with_reducible apply keeps_mk

theorem State.discardAll_keeps {z s : State} {c : Nat} (h : Keeps z s) :
    Keeps z (State.discardAll s c) := by
  unfold State.discardAll
  repeat' first
    | with_reducible assumption
    | (extract_lets +onlyGivenNames s1; refine (fun (h1 : Keeps z s1) => ?_) (?_ : Keeps z s1) <;> [clear_value s1; subst s1])
    | (extract_lets +onlyGivenNames n1; subst n1) | with_reducible apply State.setSaved_keeps
    | with_reducible apply State.forceOff_keeps | with_reducible apply State.geLeave_keeps
    | with_reducible apply State.discardTask_keeps | with_reducible apply State.removeActions_keeps
    | with_reducible apply keeps_ite | with_reducible apply keeps_foldl | intro _ | split | with_reducible apply keeps_mk

theorem State.faultInst_keeps {z s : State} {c : Nat} {code : Nat} {a : Nat} {b : Nat} {k : Nat} (h : Keeps z s) :
    Keeps z (State.faultInst s c code a b k).2 := by
  unfold State.faultInst
  repeat' first
    | with_reducible assumption
    | (extract_lets +onlyGivenNames s1; refine (fun (h1 : Keeps z s1) => ?_) (?_ : Keeps z s1) <;> [clear_value s1; subst s1])
    | (extract_lets +onlyGivenNames n1; subst n1) | with_reducible apply State.fresh_keeps
    | refine keeps_snd (by assumption) ?_ | refine keeps_snd2 (by assumption) ?_ | with_reducible apply keeps_ite
    | intro _ | split | with_reducible apply keeps_mk

theorem State.faultCtx_keeps {z s : State} {c : Nat} {code : Nat} {a : Nat} {b : Nat} {k : Nat} {record : Bool}
    (h : Keeps z s) :
    Keeps z (State.faultCtx s c code a b k record) := by
  unfold State.faultCtx
  repeat' first
    | with_reducible assumption
    | (extract_lets +onlyGivenNames s1; refine (fun (h1 : Keeps z s1) => ?_) (?_ : Keeps z s1) <;> [clear_value s1; subst s1])
    | (extract_lets +onlyGivenNames n1; subst n1) | with_reducible apply State.writeHeader_keeps
    | with_reducible apply State.setCtxState_keeps | with_reducible apply State.abortAll_keeps
    | with_reducible apply State.stopQueues_keeps | with_reducible apply State.endSubject_keeps
    | with_reducible apply State.updStop_keeps | with_reducible apply State.discardAll_keeps
    | with_reducible apply State.faultInst_keeps | with_reducible apply State.push_keeps
    | with_reducible apply State.updCtx_keeps | with_reducible apply State.err_keeps
    | with_reducible apply State.stray_keeps | with_reducible apply State.poisonSignal_keeps
    | refine keeps_snd (by assumption) ?_ | refine keeps_snd2 (by assumption) ?_ | with_reducible apply keeps_ite
    | with_reducible apply keeps_foldl | intro _ | split | with_reducible apply keeps_mk

theorem State.enterPlace_keeps {z s : State} {c : Nat} {p : Nat} (h : Keeps z s) :
    Keeps z (State.enterPlace s c p) := by
  unfold State.enterPlace
  repeat' first
    | with_reducible assumption | with_reducible apply State.setCtx_keeps | with_reducible apply State.updCtx_keeps
    | with_reducible apply State.withCtr_keeps | with_reducible apply State.complete_keeps
    | with_reducible apply State.writeHeader_keeps | with_reducible apply State.setCtxState_keeps
    | with_reducible apply State.setSaved_keeps | with_reducible apply State.toHeap_keeps | with_reducible apply keeps_ite
    | with_reducible apply keeps_foldl | intro _ | split | with_reducible apply keeps_mk

theorem State.returnPlaced_keeps {z s : State} {p : Placed} (h : Keeps z s) :
    Keeps z (State.returnPlaced s p) := by
  unfold State.returnPlaced
  repeat' first
    | with_reducible assumption | with_reducible apply State.updTask_keeps | with_reducible apply State.saveEntry_keeps
    | with_reducible apply State.freeSlots_keeps | with_reducible apply keeps_ite | with_reducible apply keeps_foldl
    | intro _ | split | with_reducible apply keeps_mk

theorem State.unplace_keeps {z s : State} {c : Nat} {k : Nat} (h : Keeps z s) :
    Keeps z (State.unplace s c k) := by
  unfold State.unplace
  repeat' first
    | with_reducible assumption | with_reducible apply State.setCore_keeps | with_reducible apply State.returnPlaced_keeps
    | with_reducible apply keeps_ite | with_reducible apply keeps_foldl | intro _ | split | with_reducible apply keeps_mk

theorem State.suspendStart_keeps {z s : State} {c : Nat} (h : Keeps z s) :
    Keeps z (State.suspendStart s c) := by
  unfold State.suspendStart
  repeat' first
    | with_reducible assumption
    | (extract_lets +onlyGivenNames s1; refine (fun (h1 : Keeps z s1) => ?_) (?_ : Keeps z s1) <;> [clear_value s1; subst s1])
    | (extract_lets +onlyGivenNames n1; subst n1) | with_reducible apply State.refute_keeps
    | with_reducible apply State.writeHeader_keeps | with_reducible apply State.setCtxState_keeps
    | with_reducible apply State.saveEntry_keeps | with_reducible apply State.dropCands_keeps
    | with_reducible apply State.unplace_keeps | with_reducible apply State.push_keeps
    | with_reducible apply State.updCtx_keeps | with_reducible apply State.setBank_keeps
    | with_reducible apply State.updTask_keeps | with_reducible apply State.fillSaddle_keeps
    | with_reducible apply State.raiseRein_keeps | with_reducible apply keeps_ite | with_reducible apply keeps_foldl
    | intro _ | split | with_reducible apply keeps_mk

theorem State.displace_keeps {z s : State} (h : Keeps z s) :
    Keeps z (State.displace s) := by
  unfold State.displace
  repeat' first
    | with_reducible assumption | with_reducible apply State.suspendStart_keeps | with_reducible apply keeps_ite
    | with_reducible apply keeps_foldl | intro _ | split | with_reducible apply keeps_mk

theorem State.makeResident_keeps {z s : State} (h : Keeps z s) :
    Keeps z (State.makeResident s) := by
  unfold State.makeResident
  repeat' first
    | with_reducible assumption | intro _
    | (extract_lets +onlyGivenNames s1; refine (fun (h1 : Keeps z s1) => ?_) (?_ : Keeps z s1) <;> [clear_value s1; subst s1])
    | (extract_lets +onlyGivenNames n1; subst n1) | with_reducible apply State.enterPlace_keeps
    | with_reducible apply State.displace_keeps | with_reducible apply keeps_ite | intro _ | split
    | with_reducible apply keeps_mk

theorem State.stretchSusp_keeps {z s : State} {start : Nat} (h : Keeps z s) :
    Keeps z (State.stretchSusp s start) := by
  unfold State.stretchSusp
  repeat' first
    | with_reducible assumption | intro _ | with_reducible apply keeps_ite | intro _ | split
    | with_reducible apply keeps_mk

theorem State.freePlace_keeps {z s : State} {c : Nat} (h : Keeps z s) :
    Keeps z (State.freePlace s c) := by
  unfold State.freePlace
  repeat' first
    | with_reducible assumption | with_reducible apply State.updCtx_keeps | with_reducible apply keeps_ite
    | with_reducible apply keeps_foldl | intro _ | split | with_reducible apply keeps_mk

theorem State.suspendFinish_keeps {z s : State} {c : Nat} (h : Keeps z s) :
    Keeps z (State.suspendFinish s c) := by
  unfold State.suspendFinish
  repeat' first
    | with_reducible assumption | intro _
    | (extract_lets +onlyGivenNames s1; refine (fun (h1 : Keeps z s1) => ?_) (?_ : Keeps z s1) <;> [clear_value s1; subst s1])
    | (extract_lets +onlyGivenNames n1; subst n1) | with_reducible apply State.setCtxState_keeps
    | with_reducible apply State.testPlace_keeps | with_reducible apply State.updStop_keeps
    | with_reducible apply State.setCtx_keeps | with_reducible apply State.updCmd_keeps
    | with_reducible apply State.stray_keeps | with_reducible apply State.writeBackWaiters_keeps
    | with_reducible apply State.complete_keeps | with_reducible apply keeps_ite | with_reducible apply keeps_foldl
    | intro _ | split | with_reducible apply keeps_mk

theorem State.drainLimit_keeps {z s : State} {c : Nat} (h : Keeps z s) :
    Keeps z (State.drainLimit s c) := by
  unfold State.drainLimit
  repeat' first
    | with_reducible assumption | intro _
    | (extract_lets +onlyGivenNames s1; refine (fun (h1 : Keeps z s1) => ?_) (?_ : Keeps z s1) <;> [clear_value s1; subst s1])
    | (extract_lets +onlyGivenNames n1; subst n1) | with_reducible apply State.saveEntry_keeps
    | with_reducible apply State.freeSlots_keeps | with_reducible apply State.taskGone_keeps
    | with_reducible apply State.updCtx_keeps | with_reducible apply State.updTask_keeps
    | with_reducible apply State.dropCoreWaits_keeps | with_reducible apply State.forceOff_keeps
    | with_reducible apply keeps_ite | with_reducible apply keeps_foldl | intro _ | split | with_reducible apply keeps_mk

theorem State.windowEnd_keeps {z s : State} {c : Nat} (h : Keeps z s) :
    Keeps z (State.windowEnd s c) := by
  unfold State.windowEnd
  repeat' first
    | with_reducible assumption | with_reducible apply State.setCtx_keeps | with_reducible apply State.displace_keeps
    | with_reducible apply keeps_ite | with_reducible apply keeps_foldl | intro _ | split | with_reducible apply keeps_mk

theorem State.destroyStart_keeps {z s : State} {c : Nat} {q : Nat} {n : Nat} (h : Keeps z s) :
    Keeps z (State.destroyStart s c q n) := by
  unfold State.destroyStart
  repeat' first
    | with_reducible assumption
    | (extract_lets +onlyGivenNames s1; refine (fun (h1 : Keeps z s1) => ?_) (?_ : Keeps z s1) <;> [clear_value s1; subst s1])
    | (extract_lets +onlyGivenNames n1; subst n1) | with_reducible apply State.setCtxState_keeps
    | with_reducible apply State.abortAll_keeps | with_reducible apply State.stopQueues_keeps
    | with_reducible apply State.endSubject_keeps | with_reducible apply State.updStop_keeps
    | with_reducible apply State.discardAll_keeps | with_reducible apply State.push_keeps
    | with_reducible apply State.updCtx_keeps | with_reducible apply State.stray_keeps
    | with_reducible apply State.poisonSignal_keeps | with_reducible apply keeps_ite | with_reducible apply keeps_foldl
    | intro _ | split | with_reducible apply keeps_mk

theorem State.endWork_keeps {z s : State} {c : Nat} (h : Keeps z s) :
    Keeps z (State.endWork s c) := by
  unfold State.endWork
  repeat' first
    | with_reducible assumption | intro _ | with_reducible apply keeps_ite | intro _ | split
    | with_reducible apply keeps_mk

theorem State.freeResources_keeps {z s : State} {c : Nat} (h : Keeps z s) :
    Keeps z (State.freeResources s c) := by
  unfold State.freeResources
  repeat' first
    | with_reducible assumption | intro _
    | (extract_lets +onlyGivenNames s1; refine (fun (h1 : Keeps z s1) => ?_) (?_ : Keeps z s1) <;> [clear_value s1; subst s1])
    | (extract_lets +onlyGivenNames n1; subst n1) | with_reducible apply State.endWork_keeps
    | with_reducible apply State.flushPreds_keeps | with_reducible apply State.evict_keeps
    | with_reducible apply State.dropWaiters_keeps | with_reducible apply keeps_ite | with_reducible apply keeps_foldl
    | intro _ | split | with_reducible apply keeps_mk

theorem State.destroyFinish_keeps {z s : State} {c : Nat} (h : Keeps z s) :
    Keeps z (State.destroyFinish s c) := by
  unfold State.destroyFinish
  repeat' first
    | with_reducible assumption | intro _
    | (extract_lets +onlyGivenNames s1; refine (fun (h1 : Keeps z s1) => ?_) (?_ : Keeps z s1) <;> [clear_value s1; subst s1])
    | (extract_lets +onlyGivenNames n1; subst n1) | with_reducible apply State.setCtxState_keeps
    | with_reducible apply State.freeResources_keeps | with_reducible apply State.updQueue_keeps
    | with_reducible apply State.setCtx_keeps | with_reducible apply State.completeNow_keeps
    | with_reducible apply State.complete_keeps | with_reducible apply State.completeOpt_keeps
    | with_reducible apply State.unslot_keeps | with_reducible apply keeps_ite | with_reducible apply keeps_foldl
    | intro _ | split | with_reducible apply keeps_mk

theorem State.coreFree_keeps {z s : State} {c : Nat} (h : Keeps z s) :
    Keeps z (State.coreFree s c) := by
  unfold State.coreFree
  repeat' first
    | with_reducible assumption | with_reducible apply State.freePlace_keeps | with_reducible apply State.displace_keeps
    | with_reducible apply State.destroyFinish_keeps | with_reducible apply keeps_ite | with_reducible apply keeps_foldl
    | intro _ | split | with_reducible apply keeps_mk

end Sys2Proof.Machine
end

