-- ==== Sys2Proof/Laws/KeepsFront.lean ====
section
/-!
SUPPORT. What every operation keeps: starts and effects of queue commands.
-/
namespace Sys2Proof.Machine
set_option linter.unusedTactic false
set_option linter.unreachableTactic false

/-! ## Start -/

theorem State.packetCheck_keeps {z s : State} {q : Nat} (h : Keeps z s) :
    Keeps z (State.packetCheck s q) := by
  unfold State.packetCheck
  repeat' first
    | with_reducible assumption | intro _
    | (extract_lets +onlyGivenNames s1; refine (fun (h1 : Keeps z s1) => ?_) (?_ : Keeps z s1) <;> [clear_value s1; subst s1])
    | (extract_lets +onlyGivenNames n1; subst n1) | with_reducible apply State.updQueue_keeps
    | with_reducible apply State.guilty_keeps | with_reducible apply State.slotState_keeps
    | with_reducible apply State.refresh_keeps | refine keeps_snd (by assumption) ?_
    | refine keeps_snd2 (by assumption) ?_ | with_reducible apply keeps_ite | intro _ | split
    | with_reducible apply keeps_mk

theorem State.enter_keeps {z s : State} {q : Nat} {w : List Word} (h : Keeps z s) :
    Keeps z (State.enter s q w).2 := by
  unfold State.enter
  repeat' first
    | with_reducible assumption | with_reducible apply State.setQueue_keeps | with_reducible apply keeps_ite
    | with_reducible apply keeps_foldl | intro _ | split | dsimp only | with_reducible apply keeps_mk

theorem State.begin_keeps {z s : State} {q : Nat} {w : List Word} (h : Keeps z s) :
    Keeps z (State.begin s q w).2 := by
  unfold State.begin
  repeat' first
    | with_reducible assumption | with_reducible apply State.refresh_keeps | with_reducible apply State.complete_keeps
    | with_reducible apply State.guilty_keeps | with_reducible apply State.enter_keeps | refine keeps_snd (by assumption) ?_
    | with_reducible apply keeps_ite | with_reducible apply keeps_foldl | intro _ | split | dsimp only
    | with_reducible apply keeps_mk

theorem State.hwCmd_keeps {z s : State} {code : Nat} {q : Nat} {w : List Word} {eff : Nat → State → State} (h : Keeps z s)
    (hop4 : ∀ v0 v1, Keeps z v1 → Keeps z (eff v0 v1)) :
    Keeps z (State.hwCmd s code q w eff) := by
  unfold State.hwCmd
  repeat' first
    | with_reducible assumption | apply hop4 | with_reducible apply State.refresh_keeps
    | with_reducible apply State.begin_keeps | refine keeps_snd (by assumption) ?_ | with_reducible apply keeps_ite
    | with_reducible apply keeps_foldl | intro _ | split | with_reducible apply keeps_mk

theorem State.setPhase_keeps {z s : State} {q : Nat} {n : Nat} {p : Phase} (h : Keeps z s) :
    Keeps z (State.setPhase s q n p) := by
  unfold State.setPhase
  repeat' first
    | with_reducible assumption | with_reducible apply State.updCmd_keeps | with_reducible apply keeps_ite
    | with_reducible apply keeps_foldl | intro _ | split | with_reducible apply keeps_mk

theorem State.fwCmd_keeps {z s : State} {code : Nat} {q : Nat} {w : List Word} {eff : Nat → State → State} (h : Keeps z s)
    (hop4 : ∀ v0 v1, Keeps z v1 → Keeps z (eff v0 v1)) :
    Keeps z (State.fwCmd s code q w eff) := by
  unfold State.fwCmd
  repeat' first
    | with_reducible assumption | apply hop4 | with_reducible apply State.begin_keeps
    | with_reducible apply State.setPhase_keeps | with_reducible apply State.refresh_keeps
    | with_reducible apply State.refreshAll_keeps | refine keeps_snd (by assumption) ?_
    | with_reducible apply keeps_ite | intro _ | split
    | with_reducible apply keeps_mk

theorem State.carCmd_keeps {z s : State} {code : Nat} {q : Nat} {w : List Word} {eff : Nat → State → State} (h : Keeps z s)
    (hop4 : ∀ v0 v1, Keeps z v1 → Keeps z (eff v0 v1)) :
    Keeps z (State.carCmd s code q w eff) := by
  unfold State.carCmd
  repeat' first
    | with_reducible assumption | apply hop4 | with_reducible apply State.refresh_keeps
    | with_reducible apply State.begin_keeps | with_reducible apply State.setPhase_keeps
    | refine keeps_snd (by assumption) ?_ | with_reducible apply keeps_ite | with_reducible apply keeps_foldl | intro _
    | split | with_reducible apply keeps_mk

theorem State.takeUp_keeps {z s : State} {role : Nat} (h : Keeps z s) :
    Keeps z (State.takeUp s role) := by
  unfold State.takeUp
  repeat' first
    | with_reducible assumption | intro _ | with_reducible apply State.updCmd_keeps
    | with_reducible apply State.refreshAll_keeps | refine keeps_snd (by assumption) ?_
    | refine keeps_snd2 (by assumption) ?_ | with_reducible apply keeps_ite | intro _ | split
    | with_reducible apply keeps_mk

theorem State.fwBusy_keeps {z s : State} {q : Nat} {n : Nat} (h : Keeps z s) :
    Keeps z (State.fwBusy s q n) := by
  unfold State.fwBusy
  repeat' first
    | with_reducible assumption | with_reducible apply State.refreshAll_keeps | with_reducible apply State.abortCmd_keeps
    | with_reducible apply keeps_ite | with_reducible apply keeps_foldl | intro _ | split | with_reducible apply keeps_mk

theorem State.waitTimeout_keeps {z s : State} {q : Nat} (h : Keeps z s) :
    Keeps z (State.waitTimeout s q) := by
  unfold State.waitTimeout
  repeat' first
    | with_reducible assumption | intro _
    | (extract_lets +onlyGivenNames s1; refine (fun (h1 : Keeps z s1) => ?_) (?_ : Keeps z s1) <;> [clear_value s1; subst s1])
    | (extract_lets +onlyGivenNames n1; subst n1) | with_reducible apply State.guilty_keeps
    | with_reducible apply keeps_ite | intro _ | split | with_reducible apply keeps_mk

theorem State.graphWatchdog_keeps {z s : State} {q : Nat} {n : Nat} (h : Keeps z s) :
    Keeps z (State.graphWatchdog s q n) := by
  unfold State.graphWatchdog
  repeat' first
    | with_reducible assumption | with_reducible apply State.guilty_keeps | with_reducible apply keeps_ite
    | with_reducible apply keeps_foldl | intro _ | split | with_reducible apply keeps_mk

theorem State.resetStep_keeps {z s : State} {q : Nat} (h : Keeps z s) :
    Keeps z (State.resetStep s q) := by
  unfold State.resetStep
  repeat' first
    | with_reducible assumption | with_reducible apply State.setQueue_keeps | with_reducible apply State.updQueue_keeps
    | with_reducible apply State.refresh_keeps | with_reducible apply State.complete_keeps | with_reducible apply keeps_ite
    | with_reducible apply keeps_foldl | intro _ | split | with_reducible apply keeps_mk

theorem State.resetStart_keeps {z s : State} {q : Nat} {y2 : BitVec 32} {by' : Option Nat} (h : Keeps z s) :
    Keeps z (State.resetStart s q y2 by') := by
  unfold State.resetStart
  repeat' first
    | with_reducible assumption | with_reducible apply State.updQueue_keeps | with_reducible apply State.resetStep_keeps
    | with_reducible apply keeps_ite | with_reducible apply keeps_foldl | intro _ | split | with_reducible apply keeps_mk

theorem State.queue0Reset_keeps {z s : State} (h : Keeps z s) :
    Keeps z (State.queue0Reset s) := by
  unfold State.queue0Reset
  repeat' first
    | with_reducible assumption | with_reducible apply State.resetStart_keeps | with_reducible apply keeps_ite
    | with_reducible apply keeps_foldl | intro _ | split | with_reducible apply keeps_mk

theorem State.resetRefresh_keeps {z s : State} {q : Nat} (h : Keeps z s) :
    Keeps z (State.resetRefresh s q) := by
  unfold State.resetRefresh
  repeat' first
    | with_reducible assumption | with_reducible apply State.refresh_keeps | with_reducible apply State.resetStep_keeps
    | with_reducible apply keeps_ite | with_reducible apply keeps_foldl | intro _ | split | with_reducible apply keeps_mk

theorem State.resetAll_keeps {z s : State} (h : Keeps z s) :
    Keeps z (State.resetAll s) := by
  unfold State.resetAll
  repeat' first
    | with_reducible assumption | with_reducible apply State.resetStep_keeps | with_reducible apply keeps_ite
    | with_reducible apply keeps_foldl | intro _ | split | with_reducible apply keeps_mk

theorem State.dbTail_keeps {z s : State} {q : Nat} {v : Word} (h : Keeps z s) :
    Keeps z (State.dbTail s q v) := by
  unfold State.dbTail
  repeat' first
    | with_reducible assumption | intro _
    | (extract_lets +onlyGivenNames s1; refine (fun (h1 : Keeps z s1) => ?_) (?_ : Keeps z s1) <;> [clear_value s1; subst s1])
    | (extract_lets +onlyGivenNames n1; subst n1) | with_reducible apply State.setQueue_keeps
    | with_reducible apply State.guilty_keeps | with_reducible apply State.refresh_keeps
    | refine keeps_snd (by assumption) ?_ | refine keeps_snd2 (by assumption) ?_ | with_reducible apply keeps_ite
    | intro _ | split | with_reducible apply keeps_mk

theorem State.dbCplHead_keeps {z s : State} {q : Nat} {v : Word} (h : Keeps z s) :
    Keeps z (State.dbCplHead s q v) := by
  unfold State.dbCplHead
  repeat' first
    | with_reducible assumption | with_reducible apply State.setQueue_keeps | with_reducible apply State.flushHeld_keeps
    | with_reducible apply State.resetRefresh_keeps | with_reducible apply keeps_ite | with_reducible apply keeps_foldl
    | intro _ | split | with_reducible apply keeps_mk

theorem State.queueEnable_keeps {z s : State} {q : Nat} (h : Keeps z s) :
    Keeps z (State.queueEnable s q) := by
  unfold State.queueEnable
  repeat' first
    | with_reducible assumption | with_reducible apply State.setQueue_keeps | with_reducible apply State.slotState_keeps
    | with_reducible apply keeps_ite | with_reducible apply keeps_foldl | intro _ | split | with_reducible apply keeps_mk

theorem State.queueDisable_keeps {z s : State} {q : Nat} (h : Keeps z s) :
    Keeps z (State.queueDisable s q) := by
  unfold State.queueDisable
  repeat' first
    | with_reducible assumption | intro _
    | (extract_lets +onlyGivenNames s1; refine (fun (h1 : Keeps z s1) => ?_) (?_ : Keeps z s1) <;> [clear_value s1; subst s1])
    | (extract_lets +onlyGivenNames n1; subst n1) | with_reducible apply State.unslot_keeps
    | with_reducible apply keeps_ite | intro _ | split | with_reducible apply keeps_mk

theorem State.qattr_keeps {z s : State} {off : Nat} {v : Word} (h : Keeps z s) :
    Keeps z (State.qattr s off v) := by
  unfold State.qattr
  repeat' first
    | with_reducible assumption | with_reducible apply State.setQueue_keeps | with_reducible apply keeps_ite
    | with_reducible apply keeps_foldl | intro _ | split | with_reducible apply keeps_mk

theorem State.give_keeps {z s : State} {n : Nat} {q : Nat} (h : Keeps z s) :
    Keeps z (State.give s n q) := by
  unfold State.give
  repeat' first
    | with_reducible assumption | with_reducible apply State.grant_keeps | with_reducible apply keeps_ite
    | with_reducible apply keeps_foldl | intro _ | split | with_reducible apply keeps_mk

theorem State.slotGrant_keeps {z s : State} {n : Nat} (h : Keeps z s) :
    Keeps z (State.slotGrant s n) := by
  unfold State.slotGrant
  repeat' first
    | with_reducible assumption | with_reducible apply State.give_keeps | with_reducible apply keeps_ite
    | with_reducible apply keeps_foldl | intro _ | split | with_reducible apply keeps_mk

theorem State.slotDisplace_keeps {z s : State} (h : Keeps z s) :
    Keeps z (State.slotDisplace s) := by
  unfold State.slotDisplace
  repeat' first
    | with_reducible assumption | with_reducible apply State.release_keeps | with_reducible apply keeps_ite
    | with_reducible apply keeps_foldl | intro _ | split | with_reducible apply keeps_mk

theorem State.slotIdle_keeps {z s : State} {n : Nat} (h : Keeps z s) :
    Keeps z (State.slotIdle s n) := by
  unfold State.slotIdle
  repeat' first
    | with_reducible assumption | intro _
    | (extract_lets +onlyGivenNames s1; refine (fun (h1 : Keeps z s1) => ?_) (?_ : Keeps z s1) <;> [clear_value s1; subst s1])
    | (extract_lets +onlyGivenNames n1; subst n1) | with_reducible apply State.setSlot_keeps
    | with_reducible apply State.refresh_keeps | with_reducible apply State.release_keeps
    | refine keeps_snd (by assumption) ?_ | refine keeps_snd2 (by assumption) ?_ | with_reducible apply keeps_ite
    | intro _ | split | with_reducible apply keeps_mk

theorem State.slotBlocked_keeps {z s : State} {n : Nat} (h : Keeps z s) :
    Keeps z (State.slotBlocked s n) := by
  unfold State.slotBlocked
  repeat' first
    | with_reducible assumption | with_reducible apply State.release_keeps | with_reducible apply keeps_ite
    | with_reducible apply keeps_foldl | intro _ | split | with_reducible apply keeps_mk

theorem State.displaceBit_keeps {z s : State} {n : Nat} (h : Keeps z s) :
    Keeps z (State.displaceBit s n) := by
  unfold State.displaceBit
  repeat' first
    | with_reducible assumption | with_reducible apply State.release_keeps | with_reducible apply keeps_ite
    | with_reducible apply keeps_foldl | intro _ | split | with_reducible apply keeps_mk

theorem State.slotQueue_keeps {z s : State} {n : Nat} {v : Word} (h : Keeps z s) :
    Keeps z (State.slotQueue s n v) := by
  unfold State.slotQueue
  repeat' first
    | with_reducible assumption | with_reducible apply State.grant_keeps | with_reducible apply State.release_keeps
    | with_reducible apply keeps_ite | with_reducible apply keeps_foldl | intro _ | split | with_reducible apply keeps_mk

theorem State.slotEnable_keeps {z s : State} {n : Nat} {en : Bool} (h : Keeps z s) :
    Keeps z (State.slotEnable s n en) := by
  unfold State.slotEnable
  repeat' first
    | with_reducible assumption | with_reducible apply State.setSlot_keeps | with_reducible apply State.release_keeps
    | with_reducible apply keeps_ite | with_reducible apply keeps_foldl | intro _ | split | with_reducible apply keeps_mk

/-! ## Effects -/

theorem State.extendInst_keeps {z s : State} {c : Nat} {i : Nat} {first : Nat} {span : Nat} {ds : List (List Word)}
    (h : Keeps z s) :
    Keeps z (State.extendInst s c i first span ds) := by
  unfold State.extendInst
  repeat' first
    | with_reducible assumption | intro _
    | (extract_lets +onlyGivenNames s1; refine (fun (h1 : Keeps z s1) => ?_) (?_ : Keeps z s1) <;> [clear_value s1; subst s1])
    | (extract_lets +onlyGivenNames n1; subst n1) | with_reducible apply State.countSet_keeps
    | with_reducible apply State.updInst_keeps | with_reducible apply keeps_ite | with_reducible apply keeps_foldl
    | intro _ | split | with_reducible apply keeps_mk

theorem State.effGraphLoad_keeps {z s : State} {q : Nat} {n : Nat} {w : List Word} (h : Keeps z s) :
    Keeps z (State.effGraphLoad s q n w) := by
  unfold State.effGraphLoad
  extract_lets c x gid template append first count old live bad ds g0 g others inst grow s1 s2
  have hb : ∀ d, Keeps z (bad d) := fun d => State.complete_keeps h
  refine keeps_ite (fun _ => hb 3) fun _ => keeps_ite (fun _ => hb 3) fun _ => keeps_ite (fun _ => hb 2) fun _ => ?_
  split
  · exact hb _
  · have h1 : Keeps z s1 := State.storeGraph_keeps h
    have h2 : ∀ o : Option (Nat × Inst), Keeps z (match o with | some p => s1.extendInst c p.1 first g.span ds | none => s1)
      | some _ => State.extendInst_keeps h1
      | none => h1
    exact keeps_ite (fun _ => State.complete_keeps h) fun _ => State.complete_keeps (h2 inst)

theorem State.launchFail_keeps {z s : State} {q : Nat} {n : Nat} {chk : Nat} {dGraph : Nat} {dRange : Nat} (h : Keeps z s) :
    Keeps z (State.launchFail s q n chk dGraph dRange) := by
  unfold State.launchFail
  repeat' first
    | with_reducible assumption | with_reducible apply State.complete_keeps | with_reducible apply keeps_ite
    | with_reducible apply keeps_foldl | intro _ | split | with_reducible apply keeps_mk

theorem State.rootLaunch_keeps {z s : State} {q : Nat} {n : Nat} {c : Nat} {gid : Nat} {base : Nat} {count : Nat} {at_ :
    Nat} (h : Keeps z s) :
    Keeps z (State.rootLaunch s q n c gid base count at_) := by
  unfold State.rootLaunch
  repeat' first
    | with_reducible assumption | with_reducible apply State.updCmd_keeps | with_reducible apply State.launch_keeps
    | with_reducible apply State.rootCheck_keeps | refine keeps_snd (by assumption) ?_ | with_reducible apply keeps_ite
    | with_reducible apply keeps_foldl | intro _ | split | with_reducible apply keeps_mk

theorem State.effGraphLaunch_keeps {z s : State} {q : Nat} {n : Nat} {w : List Word} (h : Keeps z s) :
    Keeps z (State.effGraphLaunch s q n w) := by
  unfold State.effGraphLaunch
  repeat' first
    | with_reducible assumption | with_reducible apply State.complete_keeps | with_reducible apply State.launchFail_keeps
    | with_reducible apply State.rootLaunch_keeps | with_reducible apply keeps_ite | with_reducible apply keeps_foldl
    | intro _ | split | with_reducible apply keeps_mk

theorem State.effSignal_keeps {z s : State} {q : Nat} {n : Nat} {w : List Word} (h : Keeps z s) :
    Keeps z (State.effSignal s q n w) := by
  unfold State.effSignal
  repeat' first
    | with_reducible assumption | with_reducible apply State.push_keeps | with_reducible apply keeps_ite
    | with_reducible apply keeps_foldl | intro _ | split | with_reducible apply keeps_mk

theorem State.doSignal_keeps {z s : State} {c : Nat} {v : Nat} {inc : Nat} {src : SigSrc} {cmd : Option (Nat × Nat)} (h :
    Keeps z s) :
    Keeps z (State.doSignal s c v inc src cmd) := by
  unfold State.doSignal
  repeat' first
    | with_reducible assumption | with_reducible apply State.withCtr_keeps | with_reducible apply State.applySignal_keeps
    | with_reducible apply State.completeOpt_keeps | with_reducible apply keeps_ite | with_reducible apply keeps_foldl
    | intro _ | split | with_reducible apply keeps_mk

theorem State.doPoison_keeps {z s : State} {c : Nat} {v : Nat} (h : Keeps z s) :
    Keeps z (State.doPoison s c v) := by
  unfold State.doPoison
  repeat' first
    | with_reducible assumption | intro _ | with_reducible apply State.withCtr_keeps
    | with_reducible apply State.applyPoison_keeps | with_reducible apply keeps_ite | intro _ | split
    | with_reducible apply keeps_mk

theorem State.effWait_keeps {z s : State} {q : Nat} {n : Nat} (h : Keeps z s) :
    Keeps z (State.effWait s q n) := by
  unfold State.effWait
  repeat' first
    | with_reducible assumption | intro _ | with_reducible apply State.push_keeps | with_reducible apply keeps_ite
    | intro _ | split | with_reducible apply keeps_mk

theorem State.waitCmd_keeps {z s : State} {q : Nat} {n : Nat} (h : Keeps z s) :
    Keeps z (State.waitCmd s q n) := by
  unfold State.waitCmd
  repeat' first
    | with_reducible assumption
    | (extract_lets +onlyGivenNames s1; refine (fun (h1 : Keeps z s1) => ?_) (?_ : Keeps z s1) <;>
      [clear_value s1; subst s1])
    | (extract_lets +onlyGivenNames n1; subst n1)
    | with_reducible apply State.withCtr_keeps | with_reducible apply State.applyWait_keeps
    | with_reducible apply keeps_ite | intro _ | split | with_reducible apply keeps_mk

theorem State.waitCtl_keeps {z s : State} {r : TaskRef} {cluster : Nat} {v : Nat} {expected : Nat} (h : Keeps z s) :
    Keeps z (State.waitCtl s r cluster v expected) := by
  unfold State.waitCtl
  repeat' first
    | with_reducible assumption | with_reducible apply State.withCtr_keeps | with_reducible apply State.applyWait_keeps
    | with_reducible apply keeps_ite | intro _ | split | with_reducible apply keeps_mk

theorem State.waitReleased_keeps {z s : State} {q : Nat} {n : Nat} {poisoned : Bool} (h : Keeps z s) :
    Keeps z (State.waitReleased s q n poisoned) := by
  unfold State.waitReleased
  repeat' first
    | with_reducible assumption | with_reducible apply State.complete_keeps | with_reducible apply State.guilty_keeps
    | with_reducible apply keeps_ite | with_reducible apply keeps_foldl | intro _ | split | with_reducible apply keeps_mk

theorem State.effSignalRemote_keeps {z s : State} {q : Nat} {n : Nat} {w : List Word} (h : Keeps z s) :
    Keeps z (State.effSignalRemote s q n w) := by
  unfold State.effSignalRemote
  repeat' first
    | with_reducible assumption | with_reducible apply State.push_keeps | with_reducible apply State.updCmd_keeps
    | with_reducible apply State.complete_keeps | with_reducible apply keeps_ite | with_reducible apply keeps_foldl
    | intro _ | split | with_reducible apply keeps_mk

theorem State.effPeerWrite_keeps {z s : State} {q : Nat} {n : Nat} {w : List Word} (h : Keeps z s) :
    Keeps z (State.effPeerWrite s q n w) := by
  unfold State.effPeerWrite
  repeat' first
    | with_reducible assumption | with_reducible apply State.complete_keeps | with_reducible apply keeps_ite
    | with_reducible apply keeps_foldl | intro _ | split | with_reducible apply keeps_mk

theorem State.effCarJoin_keeps {z s : State} {q : Nat} {n : Nat} {w : List Word} (h : Keeps z s) :
    Keeps z (State.effCarJoin s q n w) := by
  unfold State.effCarJoin
  repeat' first
    | with_reducible assumption | with_reducible apply State.complete_keeps | with_reducible apply State.setCarSlot_keeps
    | with_reducible apply keeps_ite | with_reducible apply keeps_foldl | intro _ | split | with_reducible apply keeps_mk

theorem State.effCarLeave_keeps {z s : State} {q : Nat} {n : Nat} {w : List Word} (h : Keeps z s) :
    Keeps z (State.effCarLeave s q n w) := by
  unfold State.effCarLeave
  repeat' first
    | with_reducible assumption | with_reducible apply State.complete_keeps | with_reducible apply State.setCarSlot_keeps
    | with_reducible apply State.carFree_keeps | with_reducible apply keeps_ite | with_reducible apply keeps_foldl | intro _
    | split | with_reducible apply keeps_mk

theorem State.effCarStep_keeps {z s : State} {q : Nat} {n : Nat} {w : List Word} (h : Keeps z s) :
    Keeps z (State.effCarStep s q n w) := by
  unfold State.effCarStep
  repeat' first
    | with_reducible assumption | intro _
    | (extract_lets +onlyGivenNames s1; refine (fun (h1 : Keeps z s1) => ?_) (?_ : Keeps z s1) <;> [clear_value s1; subst s1])
    | (extract_lets +onlyGivenNames n1; subst n1) | with_reducible apply State.setCarSlot_keeps
    | with_reducible apply State.setCarCtx_keeps | with_reducible apply State.launch_keeps
    | with_reducible apply State.wrWords_keeps | with_reducible apply State.updCmd_keeps
    | with_reducible apply State.writeShape_keeps | with_reducible apply State.refreshAll_keeps
    | with_reducible apply State.complete_keeps | refine keeps_snd (by assumption) ?_
    | refine keeps_snd2 (by assumption) ?_ | with_reducible apply keeps_ite | with_reducible apply keeps_foldl | intro _
    | split | with_reducible apply keeps_mk

theorem State.cancelOne_keeps {z s : State} {q : Nat} {m : Nat} (h : Keeps z s) :
    Keeps z (State.cancelOne s q m) := by
  unfold State.cancelOne
  repeat' first
    | with_reducible assumption | with_reducible apply State.setCarCtx_keeps | with_reducible apply State.cancelRoot_keeps
    | with_reducible apply State.abortCmd_keeps | with_reducible apply keeps_ite | with_reducible apply keeps_foldl
    | intro _ | split | with_reducible apply keeps_mk

theorem State.cancelSeq_keeps {z s : State} {q : Nat} {n : Nat} {w : List Word} (h : Keeps z s) :
    Keeps z (State.cancelSeq s q n w) := by
  unfold State.cancelSeq
  repeat' first
    | with_reducible assumption | with_reducible apply State.wr64_keeps | with_reducible apply State.complete_keeps
    | with_reducible apply State.setCarSlot_keeps | with_reducible apply State.carFree_keeps
    | with_reducible apply keeps_ite | with_reducible apply keeps_foldl | intro _ | split | with_reducible apply keeps_mk

theorem State.cancelEpoch_keeps {z s : State} {q : Nat} {n : Nat} {w : List Word} (h : Keeps z s) :
    Keeps z (State.cancelEpoch s q n w) := by
  unfold State.cancelEpoch
  repeat' first
    | with_reducible assumption | intro _
    | (extract_lets +onlyGivenNames s1; refine (fun (h1 : Keeps z s1) => ?_) (?_ : Keeps z s1) <;> [clear_value s1; subst s1])
    | (extract_lets +onlyGivenNames n1; subst n1) | with_reducible apply State.setCarCtx_keeps
    | with_reducible apply State.cancelRoot_keeps | with_reducible apply State.complete_keeps
    | with_reducible apply keeps_ite | intro _ | split | with_reducible apply keeps_mk

theorem State.effCancel_keeps {z s : State} {q : Nat} {n : Nat} {w : List Word} (h : Keeps z s) :
    Keeps z (State.effCancel s q n w) := by
  unfold State.effCancel
  repeat' first
    | with_reducible assumption | with_reducible apply State.updCmd_keeps | with_reducible apply State.complete_keeps
    | with_reducible apply State.cancelOne_keeps | with_reducible apply State.cancelSeq_keeps
    | with_reducible apply State.cancelEpoch_keeps | with_reducible apply keeps_ite | with_reducible apply keeps_foldl
    | intro _ | split | with_reducible apply keeps_mk

theorem State.effDelayPost_keeps {z s : State} {q : Nat} {n : Nat} {w : List Word} (h : Keeps z s) :
    Keeps z (State.effDelayPost s q n w) := by
  unfold State.effDelayPost
  repeat' first
    | with_reducible assumption | with_reducible apply State.updCmd_keeps | with_reducible apply State.complete_keeps
    | refine State.postAction_keeps ?_ _ (by assumption) | with_reducible apply keeps_ite | with_reducible apply keeps_foldl
    | intro _ | split | with_reducible apply keeps_mk

theorem State.postedLaunch_keeps {z s : State} {d : Delay} {gid : Nat} {base : Nat} {count : Nat} {slot : Option Nat} (h :
    Keeps z s) :
    Keeps z (State.postedLaunch s d gid base count slot) := by
  unfold State.postedLaunch
  extract_lets cnt
  split
  · extract_lets s1
    have h1 : Keeps z s1 := State.updCmd_keeps h
    clear_value cnt
    split
    · exact State.complete_keeps h1
    · split
      · exact State.rootLaunch_keeps h1
      · exact State.launchFail_keeps h1
  · split <;> rename_i e
    · exact keeps_snd2 e (State.deviceLaunch_keeps h)
    · exact State.failPart_keeps (keeps_snd2 e (State.deviceLaunch_keeps h))

theorem State.perform_keeps {z s : State} {d : Delay} (h : Keeps z s) :
    Keeps z (State.perform s d) := by
  unfold State.perform
  repeat' first
    | with_reducible assumption | intro _
    | (extract_lets +onlyGivenNames s1; refine (fun (h1 : Keeps z s1) => ?_) (?_ : Keeps z s1) <;> [clear_value s1; subst s1])
    | (extract_lets +onlyGivenNames n1; subst n1) | with_reducible apply State.rootCheck_keeps
    | with_reducible apply State.delayDrop_keeps | with_reducible apply State.launch_keeps
    | with_reducible apply State.retireTask_keeps | with_reducible apply State.faultCtx_keeps
    | with_reducible apply State.push_keeps | with_reducible apply State.updCtx_keeps
    | with_reducible apply State.updCmd_keeps | with_reducible apply State.postedLaunch_keeps
    | refine keeps_snd (by assumption) ?_ | refine keeps_snd2 (by assumption) ?_ | with_reducible apply keeps_ite
    | intro _ | split | with_reducible apply keeps_mk

theorem State.tick_keeps {z s : State} {k : Nat} (h : Keeps z s) :
    Keeps z (State.tick s k) := by
  unfold State.tick
  repeat' first
    | with_reducible assumption | intro _
    | (extract_lets +onlyGivenNames s1; refine (fun (h1 : Keeps z s1) => ?_) (?_ : Keeps z s1) <;> [clear_value s1; subst s1])
    | (extract_lets +onlyGivenNames n1; subst n1) | with_reducible apply State.delayRefill_keeps
    | with_reducible apply State.at_keeps | with_reducible apply State.perform_keeps | with_reducible apply keeps_ite
    | with_reducible apply keeps_foldl | intro _ | split | with_reducible apply keeps_mk

theorem State.wakeHead_keeps {z s : State} {kind : Action → Bool} (h : Keeps z s) :
    Keeps z (State.wakeHead s kind) := by
  unfold State.wakeHead
  repeat' first
    | with_reducible assumption | intro _ | with_reducible apply State.delayRefill_keeps
    | with_reducible apply State.perform_keeps | with_reducible apply keeps_ite | intro _ | split
    | with_reducible apply keeps_mk

/-! ## Manage -/

theorem State.nextGen_keeps {z s : State} {c : Nat} (h : Keeps z s) :
    Keeps z (State.nextGen s c).2 := by
  unfold State.nextGen
  repeat' first
    | with_reducible assumption | with_reducible apply State.setTack_keeps | with_reducible apply keeps_ite
    | with_reducible apply keeps_foldl | intro _ | split | dsimp only | with_reducible apply keeps_mk

theorem State.advanceMarks_keeps {z s : State} (h : Keeps z s) :
    Keeps z (State.advanceMarks s) := by
  unfold State.advanceMarks
  repeat' first
    | with_reducible assumption | with_reducible apply State.setTack_keeps | with_reducible apply keeps_ite
    | with_reducible apply keeps_foldl | intro _ | split | with_reducible apply keeps_mk

theorem State.effCtxCreate_keeps {z s : State} {q : Nat} {n : Nat} {w : List Word} (h : Keeps z s) :
    Keeps z (State.effCtxCreate s q n w) := by
  unfold State.effCtxCreate
  repeat' first
    | with_reducible assumption | with_reducible apply State.setCtx_keeps | with_reducible apply State.complete_keeps
    | with_reducible apply State.writeHeader_keeps | with_reducible apply State.nextGen_keeps
    | refine keeps_snd (by assumption) ?_ | with_reducible apply keeps_ite | with_reducible apply keeps_foldl | intro _
    | split | with_reducible apply keeps_mk

theorem State.effCtxDestroy_keeps {z s : State} {q : Nat} {n : Nat} {w : List Word} (h : Keeps z s) :
    Keeps z (State.effCtxDestroy s q n w) := by
  unfold State.effCtxDestroy
  repeat' first
    | with_reducible assumption | with_reducible apply State.complete_keeps | with_reducible apply State.destroyStart_keeps
    | with_reducible apply keeps_ite | with_reducible apply keeps_foldl | intro _ | split | with_reducible apply keeps_mk

theorem State.effCtxSuspend_keeps {z s : State} {q : Nat} {n : Nat} {w : List Word} (h : Keeps z s) :
    Keeps z (State.effCtxSuspend s q n w) := by
  unfold State.effCtxSuspend
  repeat' first
    | with_reducible assumption | with_reducible apply State.updCtx_keeps | with_reducible apply State.complete_keeps
    | with_reducible apply State.setCtxState_keeps | with_reducible apply State.updStop_keeps
    | with_reducible apply State.suspendStart_keeps | with_reducible apply keeps_ite | with_reducible apply keeps_foldl
    | intro _ | split | with_reducible apply keeps_mk

theorem State.effCtxResume_keeps {z s : State} {q : Nat} {n : Nat} {w : List Word} (h : Keeps z s) :
    Keeps z (State.effCtxResume s q n w) := by
  unfold State.effCtxResume
  repeat' first
    | with_reducible assumption | with_reducible apply State.updCtx_keeps | with_reducible apply State.complete_keeps
    | with_reducible apply State.setCtxState_keeps | with_reducible apply State.updStop_keeps
    | with_reducible apply State.displace_keeps | with_reducible apply keeps_ite | with_reducible apply keeps_foldl
    | intro _ | split | with_reducible apply keeps_mk

theorem State.setMapped_keeps {z s : State} {c : Nat} {v : Nat} {mapped : Bool} {exported : Bool} (h : Keeps z s) :
    Keeps z (State.setMapped s c v mapped exported) := by
  unfold State.setMapped
  repeat' first
    | with_reducible assumption | with_reducible apply State.setCtr_keeps | with_reducible apply keeps_ite
    | with_reducible apply keeps_foldl | intro _ | split | with_reducible apply keeps_mk

theorem State.residentAll_keeps {z s : State} {c : Nat} {ids : List Nat} (h : Keeps z s) :
    ∀ t, State.residentAll s c ids = .inl t → Keeps z t := by
  induction ids generalizing s with
  | nil => intro t e; cases e; exact h
  | cons v r ih =>
    intro t
    unfold State.residentAll
    split
    · exact ih (State.makeCtrResident_keeps h _ (by assumption)) t
    · nofun

theorem State.effCounterMap_keeps {z s : State} {q : Nat} {n : Nat} {w : List Word} (h : Keeps z s) :
    Keeps z (State.effCounterMap s q n w) := by
  unfold State.effCounterMap
  extract_lets c first exports unmap ids res fresh s1
  have hr : ∀ y, Keeps z y → Keeps z (res y) := fun y hy => State.updCmd_keeps hy
  have h1 : Keeps z s1 := keeps_foldl h fun s a hs => State.setMapped_keeps hs
  refine keeps_ite (fun _ => State.complete_keeps (State.displace_keeps (hr _ (keeps_foldl h fun s a hs => State.setMapped_keeps hs))))
    fun _ => ?_
  refine keeps_ite (fun _ => State.complete_keeps h) fun _ => keeps_ite (fun _ => State.complete_keeps (hr _ h1)) fun _ => ?_
  split <;> rename_i e
  · exact State.complete_keeps (hr _ (State.residentAll_keeps h1 _ e))
  · exact State.push_keeps h

theorem State.effTilePool_keeps {z s : State} {q : Nat} {n : Nat} {w : List Word} (h : Keeps z s) :
    Keeps z (State.effTilePool s q n w) := by
  unfold State.effTilePool
  extract_lets c slices k
  have hf : ∀ (l : List Nat) (p : State × List Nat), Keeps z p.1 → Keeps z (l.foldl (fun (p : State × List Nat) sl =>
      let (ok, s') := p.1.reserve c sl k
      (s', if ok then p.2 else p.2 ++ [sl])) p).1 := by
    intro l
    induction l with
    | nil => exact fun p hp => hp
    | cons a r ih => exact fun p hp => ih _ (State.reserve_keeps hp)
  split
  rename_i e
  have h1 := hf slices (s, []) h
  rw [e] at h1
  extract_lets s2
  have h2 : Keeps z s2 := State.updCmd_keeps h1
  repeat' split
  all_goals exact State.complete_keeps h2

theorem State.effFlowConfig_keeps {z s : State} {q : Nat} {n : Nat} {w : List Word} (h : Keeps z s) :
    Keeps z (State.effFlowConfig s q n w) := by
  unfold State.effFlowConfig
  repeat' first
    | with_reducible assumption | intro _
    | (extract_lets +onlyGivenNames s1; refine (fun (h1 : Keeps z s1) => ?_) (?_ : Keeps z s1) <;> [clear_value s1; subst s1])
    | (extract_lets +onlyGivenNames n1; subst n1) | with_reducible apply State.setFlow_keeps
    | with_reducible apply State.flowOnChip_keeps | with_reducible apply State.complete_keeps
    | with_reducible apply keeps_ite | intro _ | split | with_reducible apply keeps_mk

theorem State.effQueueReset_keeps {z s : State} {q : Nat} {n : Nat} {w : List Word} (h : Keeps z s) :
    Keeps z (State.effQueueReset s q n w) := by
  unfold State.effQueueReset
  repeat' first
    | with_reducible assumption | with_reducible apply State.complete_keeps | with_reducible apply State.resetStart_keeps
    | with_reducible apply keeps_ite | with_reducible apply keeps_foldl | intro _ | split | with_reducible apply keeps_mk

theorem State.debugSet_keeps {z s : State} {c : Nat} {v : Nat} {new : Nat} (h : Keeps z s) :
    Keeps z (State.debugSet s c v new).2 := by
  unfold State.debugSet
  repeat' first
    | with_reducible assumption | with_reducible apply State.handSet_keeps | with_reducible apply keeps_ite
    | with_reducible apply keeps_foldl | intro _ | split | dsimp only | with_reducible apply keeps_mk

theorem State.effDebugSet_keeps {z s : State} {q : Nat} {n : Nat} (h : Keeps z s) :
    Keeps z (State.effDebugSet s q n) := by
  unfold State.effDebugSet
  repeat' first
    | with_reducible assumption | intro _
    | (extract_lets +onlyGivenNames s1; refine (fun (h1 : Keeps z s1) => ?_) (?_ : Keeps z s1) <;> [clear_value s1; subst s1])
    | (extract_lets +onlyGivenNames n1; subst n1) | with_reducible apply State.debugSet_keeps
    | with_reducible apply State.complete_keeps | refine keeps_snd (by assumption) ?_
    | refine keeps_snd2 (by assumption) ?_ | with_reducible apply keeps_ite | intro _ | split
    | with_reducible apply keeps_mk

theorem State.effHealthAck_keeps {z s : State} {q : Nat} {n : Nat} {w : List Word} (h : Keeps z s) :
    Keeps z (State.effHealthAck s q n w) := by
  unfold State.effHealthAck
  repeat' first
    | with_reducible assumption | with_reducible apply State.complete_keeps | with_reducible apply keeps_ite
    | with_reducible apply keeps_foldl | intro _ | split | with_reducible apply keeps_mk

theorem State.effStudbookRead_keeps {z s : State} {q : Nat} {n : Nat} {w : List Word} (h : Keeps z s) :
    Keeps z (State.effStudbookRead s q n w) := by
  unfold State.effStudbookRead
  repeat' first
    | with_reducible assumption | with_reducible apply State.wrWords_keeps | with_reducible apply State.flushStudbook_keeps
    | with_reducible apply State.complete_keeps | with_reducible apply keeps_ite | with_reducible apply keeps_foldl
    | intro _ | split | with_reducible apply keeps_mk

end Sys2Proof.Machine
end

