-- ==== Sys2Proof/Laws/KeepsUnits.lean ====
section
/-!
SUPPORT. What every operation keeps: the Gating Engines, service, core ports and the Relay.
-/
namespace Sys2Proof.Machine
set_option linter.unusedTactic false
set_option linter.unreachableTactic false

/-! ## Pass -/

theorem State.emitAll_keeps {z s : State} {io : PassIo} {ws : List Emit} (h : Keeps z s) :
    Keeps z (State.emitAll s io ws) := by
  unfold State.emitAll
  repeat' first
    | with_reducible assumption | with_reducible apply State.wrBytes_keeps | with_reducible apply keeps_ite
    | with_reducible apply keeps_foldl | intro _ | split | with_reducible apply keeps_mk

theorem State.zeroRest_keeps {z s : State} {ts : List (Nat × Nat)} (h : Keeps z s) :
    Keeps z (State.zeroRest s ts) := by
  unfold State.zeroRest
  repeat' first
    | with_reducible assumption | intro _ | with_reducible apply State.wrBytes_keeps | with_reducible apply keeps_ite
    | with_reducible apply keeps_foldl | intro _ | split | with_reducible apply keeps_mk

/-! ## Gating -/

theorem State.geRecord_keeps {z s : State} {g : Nat} {y : GeRun} {cause : Nat} (h : Keeps z s) :
    Keeps z (State.geRecord s g y cause) := by
  unfold State.geRecord
  repeat' first
    | with_reducible assumption | with_reducible apply State.err_keeps | with_reducible apply keeps_ite
    | with_reducible apply keeps_foldl | intro _ | split | with_reducible apply keeps_mk

theorem State.geDone_keeps {z s : State} {g : Nat} (h : Keeps z s) :
    Keeps z (State.geDone s g) := by
  unfold State.geDone
  repeat' first
    | with_reducible assumption | with_reducible apply State.setTile_keeps | with_reducible apply State.retireTask_keeps
    | with_reducible apply State.geLeave_keeps | with_reducible apply keeps_ite | with_reducible apply keeps_foldl | intro _
    | split | with_reducible apply keeps_mk

theorem State.geFail_keeps {z s : State} {g : Nat} {cause : Nat} (h : Keeps z s) :
    Keeps z (State.geFail s g cause) := by
  unfold State.geFail
  repeat' first
    | with_reducible assumption | with_reducible apply State.failPart_keeps | with_reducible apply State.retireTask_keeps
    | with_reducible apply State.geLeave_keeps | with_reducible apply State.geRecord_keeps | with_reducible apply keeps_ite
    | with_reducible apply keeps_foldl | intro _ | split | with_reducible apply keeps_mk

theorem State.geTrap_keeps {z s : State} {g : Nat} {cause : Nat} (h : Keeps z s) :
    Keeps z (State.geTrap s g cause) := by
  unfold State.geTrap
  repeat' first
    | with_reducible assumption | with_reducible apply State.push_keeps | with_reducible apply State.geRecord_keeps
    | with_reducible apply keeps_ite | with_reducible apply keeps_foldl | intro _ | split | with_reducible apply keeps_mk

theorem State.geNext_keeps {z s : State} {g : Nat} {y : GeRun} {pc : Nat} (h : Keeps z s) :
    Keeps z (State.geNext s g y pc) := by
  unfold State.geNext
  repeat' first
    | with_reducible assumption | intro _
    | (extract_lets +onlyGivenNames s1; refine (fun (h1 : Keeps z s1) => ?_) (?_ : Keeps z s1) <;> [clear_value s1; subst s1])
    | (extract_lets +onlyGivenNames n1; subst n1) | with_reducible apply State.geFail_keeps
    | with_reducible apply State.geTrap_keeps | with_reducible apply State.setGe_keeps | with_reducible apply keeps_ite
    | intro _ | split | with_reducible apply keeps_mk

theorem State.geEnter_keeps {z s : State} {g : Nat} {e : Entry} {x : Inst} {t' : Task} {p : Nat × Nat} (h : Keeps z s)
    :
    Keeps z (State.geEnter s g e x t' p) := by
  unfold State.geEnter
  repeat' first
    | with_reducible assumption | intro _
    | (extract_lets +onlyGivenNames s1; refine (fun (h1 : Keeps z s1) => ?_) (?_ : Keeps z s1) <;> [clear_value s1; subst s1])
    | (extract_lets +onlyGivenNames n1; subst n1) | with_reducible apply State.geNext_keeps
    | with_reducible apply State.trace_keeps | with_reducible apply State.setGe_keeps
    | with_reducible apply State.updTask_keeps | with_reducible apply keeps_ite | intro _ | split
    | with_reducible apply keeps_mk

theorem State.geStart_keeps {z s : State} {g : Nat} (h : Keeps z s) :
    Keeps z (State.geStart s g) := by
  unfold State.geStart
  repeat' first
    | with_reducible assumption | intro _
    | (extract_lets +onlyGivenNames s1; refine (fun (h1 : Keeps z s1) => ?_) (?_ : Keeps z s1) <;> [clear_value s1; subst s1])
    | (extract_lets +onlyGivenNames n1; subst n1) | with_reducible apply State.geRecord_keeps
    | with_reducible apply State.geEnter_keeps | with_reducible apply State.retireTask_keeps
    | with_reducible apply State.setGe_keeps | with_reducible apply State.allocAll_keeps
    | with_reducible apply State.descRead_keeps | refine keeps_snd (by assumption) ?_
    | refine keeps_snd2 (by assumption) ?_ | with_reducible apply keeps_ite | intro _ | split
    | with_reducible apply keeps_mk

theorem State.geOp_keeps {z s : State} {i : Instr} {g : Nat} {f : GeRun → State} (h : Keeps z s)
    (hop2 : ∀ v0, Keeps z (f v0)) :
    Keeps z (State.geOp s i g f) := by
  unfold State.geOp
  repeat' first
    | with_reducible assumption | apply hop2 | with_reducible apply State.geFail_keeps | with_reducible apply keeps_ite
    | intro _ | split | with_reducible apply keeps_mk

theorem State.geSet_keeps {z s : State} {i : Instr} {g : Nat} {d : Nat} {v : Word} (h : Keeps z s) :
    Keeps z (State.geSet s i g d v) := by
  unfold State.geSet
  repeat' first
    | with_reducible assumption | intro _ | with_reducible apply State.geNext_keeps
    | with_reducible apply State.geOp_keeps | with_reducible apply keeps_ite | intro _ | split
    | with_reducible apply keeps_mk

theorem State.geAlu_keeps {z s : State} {i : Instr} {g : Nat} {d : Nat} {a : Nat} {b : Nat} {f : Word → Word → Word}
    (h : Keeps z s) :
    Keeps z (State.geAlu s i g d a b f) := by
  unfold State.geAlu
  repeat' first
    | with_reducible assumption | intro _ | with_reducible apply State.geNext_keeps
    | with_reducible apply State.geOp_keeps | with_reducible apply keeps_ite | intro _ | split
    | with_reducible apply keeps_mk

theorem State.geFp_keeps {z s : State} {i : Instr} {g : Nat} {d : Nat} {f : GeRun → Word × Nat} (h : Keeps z s) :
    Keeps z (State.geFp s i g d f) := by
  unfold State.geFp
  repeat' first
    | with_reducible assumption | intro _
    | (extract_lets +onlyGivenNames s1; refine (fun (h1 : Keeps z s1) => ?_) (?_ : Keeps z s1) <;> [clear_value s1; subst s1])
    | (extract_lets +onlyGivenNames n1; subst n1) | with_reducible apply State.geTrap_keeps
    | with_reducible apply State.geNext_keeps | with_reducible apply State.geOp_keeps
    | with_reducible apply State.setGe_keeps | with_reducible apply keeps_ite | intro _ | split
    | with_reducible apply keeps_mk

theorem State.geF2_keeps {z s : State} {i : Instr} {g : Nat} {d : Nat} {a : Nat} {b : Nat}
    {f : FFmt → Rnd → FV → FV → Flagged} (h : Keeps z s) :
    Keeps z (State.geF2 s i g d a b f) := by
  unfold State.geF2
  repeat' first
    | with_reducible assumption | intro _
    | (extract_lets +onlyGivenNames s1; refine (fun (h1 : Keeps z s1) => ?_) (?_ : Keeps z s1) <;> [clear_value s1; subst s1])
    | (extract_lets +onlyGivenNames n1; subst n1) | with_reducible apply State.geFp_keeps | with_reducible apply keeps_ite
    | intro _ | split | with_reducible apply keeps_mk

theorem State.geFcmp_keeps {z s : State} {i : Instr} {g : Nat} {d : Nat} {a : Nat} {b : Nat} {f : Ordering → Bool}
    (h : Keeps z s) :
    Keeps z (State.geFcmp s i g d a b f) := by
  unfold State.geFcmp
  repeat' first
    | with_reducible assumption | intro _ | with_reducible apply State.geFp_keeps | with_reducible apply keeps_ite
    | intro _ | split | with_reducible apply keeps_mk

theorem State.geIcvt_keeps {z s : State} {g : Nat} {d : Nat} {a : Nat} (h : Keeps z s) :
    Keeps z (State.geIcvt s g d a) := by
  unfold State.geIcvt
  repeat' first
    | with_reducible assumption | intro _
    | (extract_lets +onlyGivenNames s1; refine (fun (h1 : Keeps z s1) => ?_) (?_ : Keeps z s1) <;> [clear_value s1; subst s1])
    | (extract_lets +onlyGivenNames n1; subst n1) | with_reducible apply State.geFp_keeps
    | with_reducible apply State.fresh_keeps | refine keeps_snd (by assumption) ?_ | refine keeps_snd2 (by assumption) ?_
    | with_reducible apply keeps_ite | intro _ | split | with_reducible apply keeps_mk

theorem State.geLd_keeps {z s : State} {g : Nat} {d : Nat} {a : Nat} {imm : BitVec 32} (h : Keeps z s) :
    Keeps z (State.geLd s g d a imm) := by
  unfold State.geLd
  repeat' first
    | with_reducible assumption | intro _
    | (extract_lets +onlyGivenNames s1; refine (fun (h1 : Keeps z s1) => ?_) (?_ : Keeps z s1) <;> [clear_value s1; subst s1])
    | (extract_lets +onlyGivenNames n1; subst n1) | with_reducible apply State.geFail_keeps
    | with_reducible apply State.geTrap_keeps | with_reducible apply State.geNext_keeps
    | with_reducible apply State.geOp_keeps | with_reducible apply keeps_ite | intro _ | split
    | with_reducible apply keeps_mk

theorem State.geSt_keeps {z s : State} {g : Nat} {a : Nat} {b : Nat} {imm : BitVec 32} (h : Keeps z s) :
    Keeps z (State.geSt s g a b imm) := by
  unfold State.geSt
  repeat' first
    | with_reducible assumption | intro _
    | (extract_lets +onlyGivenNames s1; refine (fun (h1 : Keeps z s1) => ?_) (?_ : Keeps z s1) <;> [clear_value s1; subst s1])
    | (extract_lets +onlyGivenNames n1; subst n1) | with_reducible apply State.geFail_keeps
    | with_reducible apply State.geTrap_keeps | with_reducible apply State.geNext_keeps
    | with_reducible apply State.geOp_keeps | with_reducible apply State.wr64_keeps | with_reducible apply keeps_ite
    | with_reducible apply keeps_foldl | intro _ | split | with_reducible apply keeps_mk

theorem State.geBind_keeps {z s : State} {g : Nat} {d : Nat} {imm : BitVec 32} (h : Keeps z s) :
    Keeps z (State.geBind s g d imm) := by
  unfold State.geBind
  repeat' first
    | with_reducible assumption | intro _
    | (extract_lets +onlyGivenNames s1; refine (fun (h1 : Keeps z s1) => ?_) (?_ : Keeps z s1) <;> [clear_value s1; subst s1])
    | (extract_lets +onlyGivenNames n1; subst n1) | with_reducible apply State.geNext_keeps
    | with_reducible apply State.geOp_keeps | with_reducible apply State.fresh_keeps | refine keeps_snd (by assumption) ?_
    | refine keeps_snd2 (by assumption) ?_ | with_reducible apply keeps_ite | intro _ | split
    | with_reducible apply keeps_mk

theorem State.geBranch_keeps {z s : State} {i : Instr} {g : Nat} {a : Nat} {b : Nat} {imm : BitVec 32}
    {f : Word → Word → Bool} (h : Keeps z s) :
    Keeps z (State.geBranch s i g a b imm f) := by
  unfold State.geBranch
  repeat' first
    | with_reducible assumption | intro _ | with_reducible apply State.geNext_keeps
    | with_reducible apply State.geOp_keeps | with_reducible apply keeps_ite | intro _ | split
    | with_reducible apply keeps_mk

theorem State.geRun_keeps {z s : State} {g : Nat} {a : Nat} {b : Nat} (h : Keeps z s) :
    Keeps z (State.geRun s g a b) := by
  unfold State.geRun
  repeat' first
    | with_reducible assumption | intro _
    | (extract_lets +onlyGivenNames s1; refine (fun (h1 : Keeps z s1) => ?_) (?_ : Keeps z s1) <;> [clear_value s1; subst s1])
    | (extract_lets +onlyGivenNames n1; subst n1) | with_reducible apply State.geFail_keeps
    | with_reducible apply State.geTrap_keeps | with_reducible apply State.geOp_keeps
    | with_reducible apply State.setGe_keeps | with_reducible apply keeps_ite | intro _ | split
    | with_reducible apply keeps_mk

theorem State.streamsWrite_keeps {z s : State} {g : Nat} {ws : List Emit} (h : Keeps z s) :
    Keeps z (State.streamsWrite s g ws) := by
  unfold State.streamsWrite
  repeat' first
    | with_reducible assumption | intro _
    | (extract_lets +onlyGivenNames s1; refine (fun (h1 : Keeps z s1) => ?_) (?_ : Keeps z s1) <;> [clear_value s1; subst s1])
    | (extract_lets +onlyGivenNames n1; subst n1) | with_reducible apply State.fresh_keeps
    | with_reducible apply State.setGe_keeps | refine keeps_snd (by assumption) ?_ | refine keeps_snd2 (by assumption) ?_
    | with_reducible apply keeps_ite | with_reducible apply keeps_foldl | intro _ | split | with_reducible apply keeps_mk

theorem State.gePassEnd_keeps {z s : State} {g : Nat} (h : Keeps z s) :
    Keeps z (State.gePassEnd s g) := by
  unfold State.gePassEnd
  repeat' first
    | with_reducible assumption
    | exact keeps_free h (Nat.le_trans (Nat.le_add_right _ _) (Nat.le_succ _))
    | intro _
    | (extract_lets +onlyGivenNames s1; refine (fun (h1 : Keeps z s1) => ?_) (?_ : Keeps z s1) <;> [clear_value s1; subst s1])
    | (extract_lets +onlyGivenNames n1; subst n1) | with_reducible apply State.geFail_keeps
    | with_reducible apply State.geTrap_keeps | with_reducible apply State.geNext_keeps
    | with_reducible apply State.streamsWrite_keeps | with_reducible apply State.emitAll_keeps
    | with_reducible apply State.zeroRest_keeps | with_reducible apply State.setGe_keeps | with_reducible apply keeps_ite
    | intro _ | split | with_reducible apply keeps_mk

theorem State.geSum_keeps {z s : State} {g : Nat} {d : Nat} {imm : BitVec 32} (h : Keeps z s) :
    Keeps z (State.geSum s g d imm) := by
  unfold State.geSum
  repeat' first
    | with_reducible assumption | intro _
    | (extract_lets +onlyGivenNames s1; refine (fun (h1 : Keeps z s1) => ?_) (?_ : Keeps z s1) <;> [clear_value s1; subst s1])
    | (extract_lets +onlyGivenNames n1; subst n1) | with_reducible apply State.geNext_keeps
    | with_reducible apply State.geOp_keeps | with_reducible apply State.fresh_keeps | refine keeps_snd (by assumption) ?_
    | refine keeps_snd2 (by assumption) ?_ | with_reducible apply keeps_ite | intro _ | split
    | with_reducible apply keeps_mk

theorem State.geSig_keeps {z s : State} {g : Nat} {a : Nat} {b : Nat} (h : Keeps z s) :
    Keeps z (State.geSig s g a b) := by
  unfold State.geSig
  repeat' first
    | with_reducible assumption | intro _
    | (extract_lets +onlyGivenNames s1; refine (fun (h1 : Keeps z s1) => ?_) (?_ : Keeps z s1) <;> [clear_value s1; subst s1])
    | (extract_lets +onlyGivenNames n1; subst n1) | with_reducible apply State.geNext_keeps
    | with_reducible apply State.geOp_keeps | with_reducible apply State.faultCtx_keeps
    | with_reducible apply State.push_keeps | with_reducible apply keeps_ite | intro _ | split
    | with_reducible apply keeps_mk

theorem State.geLaunch_keeps {z s : State} {g : Nat} {d : Nat} {a : Nat} {b : Nat} (h : Keeps z s) :
    Keeps z (State.geLaunch s g d a b) := by
  unfold State.geLaunch
  repeat' first
    | with_reducible assumption | intro _
    | (extract_lets +onlyGivenNames s1; refine (fun (h1 : Keeps z s1) => ?_) (?_ : Keeps z s1) <;> [clear_value s1; subst s1])
    | (extract_lets +onlyGivenNames n1; subst n1) | with_reducible apply State.geFail_keeps
    | with_reducible apply State.geNext_keeps | with_reducible apply State.geOp_keeps
    | with_reducible apply State.deviceLaunch_keeps | refine keeps_snd (by assumption) ?_
    | refine keeps_snd2 (by assumption) ?_ | with_reducible apply keeps_ite | intro _ | split
    | with_reducible apply keeps_mk

theorem State.geShape_keeps {z s : State} {g : Nat} {d : Nat} {a : Nat} {b : Nat} (h : Keeps z s) :
    Keeps z (State.geShape s g d a b) := by
  unfold State.geShape
  repeat' first
    | with_reducible assumption | intro _
    | (extract_lets +onlyGivenNames s1; refine (fun (h1 : Keeps z s1) => ?_) (?_ : Keeps z s1) <;> [clear_value s1; subst s1])
    | (extract_lets +onlyGivenNames n1; subst n1) | with_reducible apply State.geFail_keeps
    | with_reducible apply State.geTrap_keeps | with_reducible apply State.geNext_keeps
    | with_reducible apply State.geOp_keeps | with_reducible apply State.writeShape_keeps | with_reducible apply keeps_ite
    | intro _ | split | with_reducible apply keeps_mk

theorem State.geSkip_keeps {z s : State} {g : Nat} {d : Nat} {a : Nat} (h : Keeps z s) :
    Keeps z (State.geSkip s g d a) := by
  unfold State.geSkip
  repeat' first
    | with_reducible assumption | intro _
    | (extract_lets +onlyGivenNames s1; refine (fun (h1 : Keeps z s1) => ?_) (?_ : Keeps z s1) <;> [clear_value s1; subst s1])
    | (extract_lets +onlyGivenNames n1; subst n1) | with_reducible apply State.geFail_keeps
    | with_reducible apply State.geNext_keeps | with_reducible apply State.geOp_keeps
    | with_reducible apply State.updTask_keeps | with_reducible apply keeps_ite | intro _ | split
    | with_reducible apply keeps_mk

theorem State.geEnd_keeps {z s : State} {g : Nat} {imm : BitVec 32} (h : Keeps z s) :
    Keeps z (State.geEnd s g imm) := by
  unfold State.geEnd
  repeat' first
    | with_reducible assumption | intro _ | with_reducible apply State.geDone_keeps
    | with_reducible apply State.geFail_keeps | with_reducible apply State.geOp_keeps | with_reducible apply keeps_ite
    | intro _ | split | with_reducible apply keeps_mk

theorem State.geBudget_keeps {z s : State} {g : Nat} (h : Keeps z s) :
    Keeps z (State.geBudget s g) := by
  unfold State.geBudget
  repeat' first
    | with_reducible assumption | with_reducible apply State.retireTask_keeps | with_reducible apply State.overrun_keeps
    | with_reducible apply State.geLeave_keeps | with_reducible apply keeps_ite | with_reducible apply keeps_foldl | intro _
    | split | with_reducible apply keeps_mk

theorem State.effGeProgramLoad_keeps {z s : State} {q : Nat} {n : Nat} {w : List Word} (h : Keeps z s) :
    Keeps z (State.effGeProgramLoad s q n w) := by
  unfold State.effGeProgramLoad
  repeat' first
    | with_reducible assumption | with_reducible apply State.wrWords_keeps | with_reducible apply State.updCtx_keeps
    | with_reducible apply State.complete_keeps | with_reducible apply keeps_ite | with_reducible apply keeps_foldl
    | intro _ | split | with_reducible apply keeps_mk

/-! ## Service -/

theorem State.useSpare_keeps {z s : State} {kind : Nat} (h : Keeps z s) :
    Keeps z (State.useSpare s kind) := by
  unfold State.useSpare
  repeat' first
    | with_reducible assumption | with_reducible apply keeps_ite | with_reducible apply keeps_foldl | intro _ | split
    | with_reducible apply keeps_mk

theorem State.pet_keeps {z s : State} {k : Nat} (h : Keeps z s) :
    Keeps z (State.pet s k) := by
  unfold State.pet
  repeat' first
    | with_reducible assumption | with_reducible apply keeps_ite | intro _ | split | with_reducible apply keeps_mk

theorem State.fwMove_keeps {z s : State} {old : Nat} {new : Nat} (h : Keeps z s) :
    Keeps z (State.fwMove s old new) := by
  unfold State.fwMove
  repeat' first
    | with_reducible assumption | with_reducible apply State.pet_keeps | with_reducible apply keeps_ite | intro _ | split
    | with_reducible apply keeps_mk

theorem State.fwDrop_keeps {z s : State} {k : Nat} (h : Keeps z s) :
    Keeps z (State.fwDrop s k) := by
  unfold State.fwDrop
  repeat' first
    | with_reducible assumption | with_reducible apply keeps_ite | intro _ | split | with_reducible apply keeps_mk

theorem State.moveUnit_keeps {z s : State} {kind : Nat} {l : Nat} {old : Nat} {new : Nat} (h : Keeps z s) :
    Keeps z (State.moveUnit s kind l old new) := by
  unfold State.moveUnit
  repeat' first
    | with_reducible assumption | intro _
    | (extract_lets +onlyGivenNames s1; refine (fun (h1 : Keeps z s1) => ?_) (?_ : Keeps z s1) <;> [clear_value s1; subst s1])
    | (extract_lets +onlyGivenNames n1; subst n1) | with_reducible apply State.setGe_keeps
    | with_reducible apply State.setSeqr_keeps | with_reducible apply State.fwMove_keeps | with_reducible apply keeps_ite
    | intro _ | split | with_reducible apply keeps_mk

theorem State.loseUnit_keeps {z s : State} {kind : Nat} {l : Nat} {phys : Nat} (h : Keeps z s) :
    Keeps z (State.loseUnit s kind l phys) := by
  unfold State.loseUnit
  repeat' first
    | with_reducible assumption | intro _
    | (extract_lets +onlyGivenNames s1; refine (fun (h1 : Keeps z s1) => ?_) (?_ : Keeps z s1) <;> [clear_value s1; subst s1])
    | (extract_lets +onlyGivenNames n1; subst n1) | with_reducible apply State.writeBackCounts_keeps
    | with_reducible apply State.push_keeps | with_reducible apply State.updCore_keeps
    | with_reducible apply State.setGe_keeps | with_reducible apply State.setSeqr_keeps
    | with_reducible apply State.fwDrop_keeps | with_reducible apply keeps_ite | intro _ | split
    | with_reducible apply keeps_mk

theorem State.markRetired_keeps {z s : State} {kind : Nat} {phys : Nat} (h : Keeps z s) :
    Keeps z (State.markRetired s kind phys) := by
  unfold State.markRetired
  repeat' first
    | with_reducible assumption | intro _ | with_reducible apply keeps_ite | intro _ | split
    | with_reducible apply keeps_mk

theorem State.backToHeap_keeps {z s : State} {p : Placed} (h : Keeps z s) :
    Keeps z (State.backToHeap s p) := by
  unfold State.backToHeap
  repeat' first
    | with_reducible assumption | with_reducible apply State.push_keeps | with_reducible apply State.updTask_keeps
    | with_reducible apply State.toHeap_keeps | with_reducible apply State.freeSlots_keeps | with_reducible apply keeps_ite
    | with_reducible apply keeps_foldl | intro _ | split | with_reducible apply keeps_mk

theorem State.emptyCore_keeps {z s : State} {c : Nat} (h : Keeps z s) :
    Keeps z (State.emptyCore s c) := by
  unfold State.emptyCore
  repeat' first
    | with_reducible assumption | with_reducible apply State.setCore_keeps | with_reducible apply State.backToHeap_keeps
    | with_reducible apply keeps_ite | with_reducible apply keeps_foldl | intro _ | split | with_reducible apply keeps_mk

theorem State.emptyRow_keeps {z s : State} {row : Nat} (h : Keeps z s) :
    Keeps z (State.emptyRow s row) := by
  unfold State.emptyRow
  repeat' first
    | with_reducible assumption | with_reducible apply State.wr64_keeps | with_reducible apply State.push_keeps
    | with_reducible apply State.evict_keeps | with_reducible apply keeps_ite | with_reducible apply keeps_foldl | intro _
    | split | with_reducible apply keeps_mk

theorem State.giveUp_keeps {z s : State} {kind : Nat} {l : Nat} (h : Keeps z s) :
    Keeps z (State.giveUp s kind l) := by
  unfold State.giveUp
  repeat' first
    | with_reducible assumption | intro _
    | (extract_lets +onlyGivenNames s1; refine (fun (h1 : Keeps z s1) => ?_) (?_ : Keeps z s1) <;> [clear_value s1; subst s1])
    | (extract_lets +onlyGivenNames n1; subst n1) | with_reducible apply State.toHeap_keeps
    | with_reducible apply State.suspendStart_keeps | with_reducible apply State.setCluster_keeps
    | with_reducible apply State.setGe_keeps | with_reducible apply State.updTask_keeps
    | with_reducible apply State.emptyCore_keeps | with_reducible apply State.emptyRow_keeps
    | with_reducible apply keeps_ite | with_reducible apply keeps_foldl | intro _ | split | with_reducible apply keeps_mk

theorem State.noSpareLeft_keeps {z s : State} {kind : Nat} {phys : Nat} (h : Keeps z s) :
    Keeps z (State.noSpareLeft s kind phys) := by
  unfold State.noSpareLeft
  repeat' first
    | with_reducible assumption | intro _ | with_reducible apply State.err_keeps | with_reducible apply keeps_ite
    | intro _ | split | with_reducible apply keeps_mk

theorem State.withdraw_keeps {z s : State} {kind : Nat} {l : Nat} {phys : Nat} {cause : Nat} (h : Keeps z s) :
    Keeps z (State.withdraw s kind l phys cause) := by
  unfold State.withdraw
  repeat' first
    | with_reducible assumption | intro _
    | (extract_lets +onlyGivenNames s1; refine (fun (h1 : Keeps z s1) => ?_) (?_ : Keeps z s1) <;> [clear_value s1; subst s1])
    | (extract_lets +onlyGivenNames n1; subst n1) | with_reducible apply State.setTack_keeps
    | with_reducible apply State.stage_keeps | with_reducible apply State.health_keeps
    | with_reducible apply State.loseUnit_keeps | with_reducible apply State.markRetired_keeps
    | with_reducible apply State.noSpareLeft_keeps | with_reducible apply keeps_ite | intro _ | split
    | with_reducible apply keeps_mk

theorem State.noteRemount_keeps {z s : State} {kind : Nat} {phys : Nat} {new : Nat} {cause : Nat} (h : Keeps z s) :
    Keeps z (State.noteRemount s kind phys new cause) := by
  unfold State.noteRemount
  repeat' first
    | with_reducible assumption | intro _ | with_reducible apply State.setTack_keeps
    | with_reducible apply State.stage_keeps | with_reducible apply State.health_keeps | with_reducible apply keeps_ite
    | intro _ | split | with_reducible apply keeps_mk

theorem State.farrierNotes_keeps {z s : State} {kind : Nat} {phys : Nat} {new : Nat} {cause : Nat} (h : Keeps z s) :
    Keeps z (State.farrierNotes s kind phys new cause) := by
  unfold State.farrierNotes
  repeat' first
    | with_reducible assumption | intro _ | with_reducible apply State.noteRemount_keeps | with_reducible apply keeps_ite
    | intro _ | split | with_reducible apply keeps_mk

theorem State.toSpare_keeps {z s : State} {kind : Nat} {l : Nat} {phys : Nat} {new : Nat} {cause : Nat}
    (h : Keeps z s) :
    Keeps z (State.toSpare s kind l phys new cause) := by
  unfold State.toSpare
  repeat' first
    | with_reducible assumption | intro _
    | (extract_lets +onlyGivenNames s1; refine (fun (h1 : Keeps z s1) => ?_) (?_ : Keeps z s1) <;> [clear_value s1; subst s1])
    | (extract_lets +onlyGivenNames n1; subst n1) | with_reducible apply State.useSpare_keeps
    | with_reducible apply State.moveUnit_keeps | with_reducible apply State.markRetired_keeps
    | with_reducible apply State.farrierNotes_keeps | with_reducible apply keeps_ite | intro _ | split
    | with_reducible apply keeps_mk

theorem State.startLeaving_keeps {z s : State} {kind : Nat} {l : Nat} {phys : Nat} {cause : Nat} (h : Keeps z s) :
    Keeps z (State.startLeaving s kind l phys cause) := by
  unfold State.startLeaving
  repeat' first
    | with_reducible assumption | intro _
    | (extract_lets +onlyGivenNames s1; refine (fun (h1 : Keeps z s1) => ?_) (?_ : Keeps z s1) <;> [clear_value s1; subst s1])
    | (extract_lets +onlyGivenNames n1; subst n1) | with_reducible apply State.giveUp_keeps
    | with_reducible apply State.withdraw_keeps | with_reducible apply keeps_ite | intro _ | split
    | with_reducible apply keeps_mk

theorem State.keepUnit_keeps {z s : State} {kind : Nat} {phys : Nat} (h : Keeps z s) :
    Keeps z (State.keepUnit s kind phys) := by
  unfold State.keepUnit
  repeat' first
    | with_reducible assumption | intro _
    | (extract_lets +onlyGivenNames s1; refine (fun (h1 : Keeps z s1) => ?_) (?_ : Keeps z s1) <;> [clear_value s1; subst s1])
    | (extract_lets +onlyGivenNames n1; subst n1) | with_reducible apply State.health_keeps
    | with_reducible apply keeps_ite | intro _ | split | with_reducible apply keeps_mk

theorem State.lastResort_keeps {z s : State} {kind : Nat} {l : Nat} {phys : Nat} {cause : Nat} (h : Keeps z s) :
    Keeps z (State.lastResort s kind l phys cause) := by
  unfold State.lastResort
  repeat' first
    | with_reducible assumption | intro _ | with_reducible apply State.startLeaving_keeps
    | with_reducible apply State.keepUnit_keeps | with_reducible apply keeps_ite | intro _ | split
    | with_reducible apply keeps_mk

theorem State.retireSpare_keeps {z s : State} {kind : Nat} {phys : Nat} (h : Keeps z s) :
    Keeps z (State.retireSpare s kind phys) := by
  unfold State.retireSpare
  repeat' first
    | with_reducible assumption | intro _
    | (extract_lets +onlyGivenNames s1; refine (fun (h1 : Keeps z s1) => ?_) (?_ : Keeps z s1) <;> [clear_value s1; subst s1])
    | (extract_lets +onlyGivenNames n1; subst n1) | with_reducible apply State.setGe_keeps
    | with_reducible apply State.setSeqr_keeps | with_reducible apply State.useSpare_keeps
    | with_reducible apply State.markRetired_keeps | with_reducible apply keeps_ite | intro _ | split
    | with_reducible apply keeps_mk

theorem State.remountNow_keeps {z s : State} {kind : Nat} {phys : Nat} {cause : Nat} (h : Keeps z s) :
    Keeps z (State.remountNow s kind phys cause) := by
  unfold State.remountNow
  repeat' first
    | with_reducible assumption | intro _
    | (extract_lets +onlyGivenNames s1; refine (fun (h1 : Keeps z s1) => ?_) (?_ : Keeps z s1) <;> [clear_value s1; subst s1])
    | (extract_lets +onlyGivenNames n1; subst n1) | with_reducible apply State.setTack_keeps
    | with_reducible apply State.health_keeps | with_reducible apply State.toSpare_keeps
    | with_reducible apply State.lastResort_keeps | with_reducible apply State.retireSpare_keeps
    | with_reducible apply keeps_ite | intro _ | split | with_reducible apply keeps_mk

theorem State.chooseSpare_keeps {z s : State} {p : Nat × Nat × Nat} (h : Keeps z s) :
    Keeps z (State.chooseSpare s p) := by
  unfold State.chooseSpare
  repeat' first
    | with_reducible assumption | intro _
    | (extract_lets +onlyGivenNames s1; refine (fun (h1 : Keeps z s1) => ?_) (?_ : Keeps z s1) <;> [clear_value s1; subst s1])
    | (extract_lets +onlyGivenNames n1; subst n1) | with_reducible apply State.lastResort_keeps
    | with_reducible apply keeps_ite | intro _ | split | with_reducible apply keeps_mk

theorem State.dropChoice_keeps {z s : State} {kind : Nat} {phys : Nat} (h : Keeps z s) :
    Keeps z (State.dropChoice s kind phys) := by
  unfold State.dropChoice
  repeat' first
    | with_reducible assumption | intro _ | with_reducible apply State.chooseSpare_keeps | with_reducible apply keeps_ite
    | with_reducible apply keeps_foldl | intro _ | split | with_reducible apply keeps_mk

theorem State.decideRemount_keeps {z s : State} {kind : Nat} {phys : Nat} {cause : Nat} (h : Keeps z s) :
    Keeps z (State.decideRemount s kind phys cause) := by
  unfold State.decideRemount
  repeat' first
    | with_reducible assumption | intro _
    | (extract_lets +onlyGivenNames s1; refine (fun (h1 : Keeps z s1) => ?_) (?_ : Keeps z s1) <;> [clear_value s1; subst s1])
    | (extract_lets +onlyGivenNames n1; subst n1) | with_reducible apply State.chooseSpare_keeps
    | with_reducible apply State.dropChoice_keeps | with_reducible apply keeps_ite | intro _ | split
    | with_reducible apply keeps_mk

theorem State.dropRemount_keeps {z s : State} {p : Nat × Nat × Nat} (h : Keeps z s) :
    Keeps z (State.dropRemount s p) := by
  unfold State.dropRemount
  repeat' first
    | with_reducible assumption | intro _ | with_reducible apply keeps_ite | intro _ | split
    | with_reducible apply keeps_mk

theorem State.remountRow_keeps {z s : State} {kind : Nat} {phys : Nat} {cause : Nat} (h : Keeps z s) :
    Keeps z (State.remountRow s kind phys cause) := by
  unfold State.remountRow
  repeat' first
    | with_reducible assumption | intro _
    | (extract_lets +onlyGivenNames s1; refine (fun (h1 : Keeps z s1) => ?_) (?_ : Keeps z s1) <;> [clear_value s1; subst s1])
    | (extract_lets +onlyGivenNames n1; subst n1) | with_reducible apply State.giveUp_keeps
    | with_reducible apply State.withdraw_keeps | with_reducible apply State.remountNow_keeps
    | with_reducible apply State.dropRemount_keeps | with_reducible apply keeps_ite | intro _ | split
    | with_reducible apply keeps_mk

theorem State.noteMargin_keeps {z s : State} {x : Wear} (h : Keeps z s) :
    Keeps z (State.noteMargin s x) := by
  unfold State.noteMargin
  repeat' first
    | with_reducible assumption | with_reducible apply keeps_ite | with_reducible apply keeps_foldl | intro _ | split
    | with_reducible apply keeps_mk

theorem State.regroom_keeps {z s : State} {stage : Nat} (h : Keeps z s) : Keeps z (State.regroom s stage) :=
  keeps_free h (Nat.le_add_right _ 3)

theorem State.wearRecord_keeps {z s : State} {x : Wear} {action : Nat} (h : Keeps z s) :
    Keeps z (State.wearRecord s x action) := by
  unfold State.wearRecord
  repeat' first
    | with_reducible assumption | intro _
    | (extract_lets +onlyGivenNames s1; refine (fun (h1 : Keeps z s1) => ?_) (?_ : Keeps z s1) <;> [clear_value s1; subst s1])
    | (extract_lets +onlyGivenNames n1; subst n1) | with_reducible apply State.stage_keeps
    | with_reducible apply State.err_keeps | with_reducible apply keeps_ite | intro _ | split
    | with_reducible apply keeps_mk

theorem State.pauseUnit_keeps {z s : State} {unit : Nat × Nat} (h : Keeps z s) :
    Keeps z (State.pauseUnit s unit) := by
  unfold State.pauseUnit
  repeat' first
    | with_reducible assumption | intro _ | with_reducible apply keeps_ite | intro _ | split
    | with_reducible apply keeps_mk

theorem State.seqWorn_keeps {z s : State} {x : Wear} (h : Keeps z s) :
    Keeps z (State.seqWorn s x) := by
  unfold State.seqWorn
  repeat' first
    | with_reducible assumption | intro _
    | (extract_lets +onlyGivenNames s1; refine (fun (h1 : Keeps z s1) => ?_) (?_ : Keeps z s1) <;> [clear_value s1; subst s1])
    | (extract_lets +onlyGivenNames n1; subst n1) | with_reducible apply State.stage_keeps
    | with_reducible apply State.keepUnit_keeps | with_reducible apply State.noteMargin_keeps
    | with_reducible apply State.wearRecord_keeps | with_reducible apply keeps_ite | intro _ | split
    | with_reducible apply keeps_mk

theorem State.wearAct_keeps {z s : State} {x : Wear} {verify : Bool} (h : Keeps z s) :
    Keeps z (State.wearAct s x verify) := by
  unfold State.wearAct
  repeat' first
    | with_reducible assumption | intro _
    | (extract_lets +onlyGivenNames s1; refine (fun (h1 : Keeps z s1) => ?_) (?_ : Keeps z s1) <;> [clear_value s1; subst s1])
    | (extract_lets +onlyGivenNames n1; subst n1) | with_reducible apply State.push_keeps
    | with_reducible apply State.stage_keeps | with_reducible apply State.startLeaving_keeps
    | with_reducible apply State.keepUnit_keeps | with_reducible apply State.decideRemount_keeps
    | with_reducible apply State.noteMargin_keeps | with_reducible apply State.regroom_keeps
    | with_reducible apply State.wearRecord_keeps | with_reducible apply State.pauseUnit_keeps
    | with_reducible apply State.seqWorn_keeps | with_reducible apply keeps_ite | intro _ | split
    | with_reducible apply keeps_mk

theorem State.wearOrHold_keeps {z s : State} {x : Wear} (h : Keeps z s) :
    Keeps z (State.wearOrHold s x) := by
  unfold State.wearOrHold
  repeat' first
    | with_reducible assumption | intro _ | with_reducible apply State.wearAct_keeps | with_reducible apply keeps_ite
    | intro _ | split | with_reducible apply keeps_mk

theorem State.wearDetect_keeps {z s : State} {x : Wear} (h : Keeps z s) :
    Keeps z (State.wearDetect s x) := by
  unfold State.wearDetect
  repeat' first
    | with_reducible assumption | intro _ | with_reducible apply State.noteMargin_keeps
    | with_reducible apply State.wearOrHold_keeps | with_reducible apply keeps_ite | intro _ | split
    | with_reducible apply keeps_mk

theorem State.wearVerify_keeps {z s : State} {x : Wear} (h : Keeps z s) :
    Keeps z (State.wearVerify s x) := by
  unfold State.wearVerify
  repeat' first
    | with_reducible assumption | intro _
    | (extract_lets +onlyGivenNames s1; refine (fun (h1 : Keeps z s1) => ?_) (?_ : Keeps z s1) <;> [clear_value s1; subst s1])
    | (extract_lets +onlyGivenNames n1; subst n1) | with_reducible apply State.noteMargin_keeps
    | with_reducible apply State.pauseUnit_keeps | with_reducible apply State.wearAct_keeps
    | with_reducible apply keeps_ite | intro _ | split | with_reducible apply keeps_mk

theorem State.wearResume_keeps {z s : State} (h : Keeps z s) :
    Keeps z (State.wearResume s) := by
  unfold State.wearResume
  repeat' first
    | with_reducible assumption | intro _
    | (extract_lets +onlyGivenNames s1; refine (fun (h1 : Keeps z s1) => ?_) (?_ : Keeps z s1) <;> [clear_value s1; subst s1])
    | (extract_lets +onlyGivenNames n1; subst n1) | with_reducible apply State.noteRemount_keeps
    | with_reducible apply State.chooseSpare_keeps | with_reducible apply State.wearAct_keeps
    | with_reducible apply keeps_ite | with_reducible apply keeps_foldl | intro _ | split | with_reducible apply keeps_mk

theorem State.loseTask_keeps {z s : State} {n : Nat} {r : TaskRef} (h : Keeps z s) :
    Keeps z (State.loseTask s n r) := by
  unfold State.loseTask
  repeat' first
    | with_reducible assumption | with_reducible apply State.failPart_keeps | with_reducible apply State.retireTask_keeps
    | with_reducible apply State.dropSpec_keeps | with_reducible apply State.removeEntry_keeps
    | with_reducible apply keeps_ite | with_reducible apply keeps_foldl | intro _ | split | with_reducible apply keeps_mk

theorem State.ringRewind_keeps {z s : State} {ch : Nat} {c : Nat} (h : Keeps z s) :
    Keeps z (State.ringRewind s ch c) := by
  unfold State.ringRewind
  repeat' first
    | with_reducible assumption | intro _
    | (extract_lets +onlyGivenNames s1; refine (fun (h1 : Keeps z s1) => ?_) (?_ : Keeps z s1) <;> [clear_value s1; subst s1])
    | (extract_lets +onlyGivenNames n1; subst n1) | with_reducible apply keeps_ite | with_reducible apply keeps_foldl
    | intro _ | split | with_reducible apply keeps_mk

theorem State.sramCe_keeps {z s : State} {storage : Nat} {inst : Nat} {row : Nat} (h : Keeps z s) :
    Keeps z (State.sramCe s storage inst row) := by
  unfold State.sramCe
  repeat' first
    | with_reducible assumption | with_reducible apply State.err_keeps | with_reducible apply keeps_ite
    | with_reducible apply keeps_foldl | intro _ | split | with_reducible apply keeps_mk

theorem State.ceWorn_keeps {z s : State} {storage : Nat} {inst : Nat} {row : Nat} (h : Keeps z s) :
    Keeps z (State.ceWorn s storage inst row) := by
  unfold State.ceWorn
  repeat' first
    | with_reducible assumption | intro _
    | (extract_lets +onlyGivenNames s1; refine (fun (h1 : Keeps z s1) => ?_) (?_ : Keeps z s1) <;> [clear_value s1; subst s1])
    | (extract_lets +onlyGivenNames n1; subst n1) | with_reducible apply State.decideRemount_keeps
    | with_reducible apply keeps_ite | intro _ | split | with_reducible apply keeps_mk

theorem State.sramUe_keeps {z s : State} {storage : Nat} {inst : Nat} {row : Nat} {cls : Nat} {ctxs : List Nat} (h : Keeps z
    s) :
    Keeps z (State.sramUe s storage inst row cls ctxs) := by
  unfold State.sramUe
  repeat' first
    | with_reducible assumption | with_reducible apply State.push_keeps | with_reducible apply State.err_keeps
    | with_reducible apply keeps_ite | with_reducible apply keeps_foldl | intro _ | split | with_reducible apply keeps_mk

theorem State.failUnit_keeps {z s : State} {kind : Nat} {phys : Nat} (h : Keeps z s) :
    Keeps z (State.failUnit s kind phys) := by
  unfold State.failUnit
  repeat' first
    | with_reducible assumption | intro _ | with_reducible apply State.decideRemount_keeps
    | with_reducible apply keeps_ite | intro _ | split | with_reducible apply keeps_mk

theorem State.sramUncorrectable_keeps {z s : State} {storage : Nat} {inst : Nat} {row : Nat} (h : Keeps z s) :
    Keeps z (State.sramUncorrectable s storage inst row) := by
  unfold State.sramUncorrectable
  repeat' first
    | with_reducible assumption | intro _
    | (extract_lets +onlyGivenNames s1; refine (fun (h1 : Keeps z s1) => ?_) (?_ : Keeps z s1) <;> [clear_value s1; subst s1])
    | (extract_lets +onlyGivenNames n1; subst n1) | with_reducible apply State.geFail_keeps
    | with_reducible apply State.geTrap_keeps | with_reducible apply State.flushPreds_keeps
    | with_reducible apply State.loseTask_keeps | with_reducible apply State.ringRewind_keeps
    | with_reducible apply State.sramCe_keeps | with_reducible apply State.sramUe_keeps
    | with_reducible apply State.failUnit_keeps | with_reducible apply State.dcRead_keeps
    | with_reducible apply State.dcDrop_keeps | with_reducible apply keeps_ite | intro _ | split
    | with_reducible apply keeps_mk

theorem State.sramError_keeps {z s : State} {storage : Nat} {inst : Nat} {row : Nat} {uncorrectable : Bool}
    (h : Keeps z s) :
    Keeps z (State.sramError s storage inst row uncorrectable) := by
  unfold State.sramError
  repeat' first
    | with_reducible assumption | intro _
    | (extract_lets +onlyGivenNames s1; refine (fun (h1 : Keeps z s1) => ?_) (?_ : Keeps z s1) <;> [clear_value s1; subst s1])
    | (extract_lets +onlyGivenNames n1; subst n1) | with_reducible apply State.sramCe_keeps
    | with_reducible apply State.ceWorn_keeps | with_reducible apply State.sramUncorrectable_keeps
    | with_reducible apply keeps_ite | intro _ | split | with_reducible apply keeps_mk

theorem State.stageBeat_keeps {z s : State} {c : Nat} (h : Keeps z s) :
    Keeps z (State.stageBeat s c) := by
  unfold State.stageBeat
  repeat' first
    | with_reducible assumption | with_reducible apply State.loseTask_keeps | with_reducible apply State.sramUe_keeps
    | with_reducible apply keeps_ite | with_reducible apply keeps_foldl | intro _ | split | with_reducible apply keeps_mk

theorem State.ptrRecord_keeps {z s : State} {unit : Nat} {inst : Nat} {kind : Nat} {arg : Nat} {wr : Nat} {ctx : Option Nat}
    (h : Keeps z s) :
    Keeps z (State.ptrRecord s unit inst kind arg wr ctx) := by
  unfold State.ptrRecord
  repeat' first
    | with_reducible assumption | with_reducible apply State.err_keeps | with_reducible apply keeps_ite
    | with_reducible apply keeps_foldl | intro _ | split | with_reducible apply keeps_mk

theorem State.errReset_keeps {z s : State} (h : Keeps z s) :
    Keeps z (State.errReset s) := by
  unfold State.errReset
  repeat' first
    | with_reducible assumption | with_reducible apply State.ptrRecord_keeps | with_reducible apply keeps_ite
    | with_reducible apply keeps_foldl | intro _ | split | with_reducible apply keeps_mk

theorem State.dropMsgs_keeps {z s : State} {ch : Nat} {ctx : Nat} {spill : Bool} (h : Keeps z s) :
    Keeps z (State.dropMsgs s ch ctx spill) := by
  unfold State.dropMsgs
  repeat' first
    | with_reducible assumption | with_reducible apply State.relayRoom_keeps | with_reducible apply keeps_ite
    | with_reducible apply keeps_foldl | intro _ | split | with_reducible apply keeps_mk

theorem State.ptrMismatch_keeps {z s : State} {kind : Nat} {inst : Nat} {ctx : Nat} (h : Keeps z s) :
    Keeps z (State.ptrMismatch s kind inst ctx) := by
  unfold State.ptrMismatch
  repeat' first
    | with_reducible assumption | intro _
    | (extract_lets +onlyGivenNames s1; refine (fun (h1 : Keeps z s1) => ?_) (?_ : Keeps z s1) <;> [clear_value s1; subst s1])
    | (extract_lets +onlyGivenNames n1; subst n1) | with_reducible apply State.geTrap_keeps
    | with_reducible apply State.wr64_keeps | with_reducible apply State.push_keeps
    | with_reducible apply State.setBank_keeps | with_reducible apply State.stageLost_keeps
    | with_reducible apply State.ptrRecord_keeps | with_reducible apply State.errReset_keeps
    | with_reducible apply State.dropMsgs_keeps | with_reducible apply keeps_ite | intro _ | split
    | with_reducible apply keeps_mk

/-! ## Ports -/

theorem State.respond_keeps {z s : State} {c : Nat} {tag : Nat} {result : Nat} {v : Word} (h : Keeps z s) :
    Keeps z (State.respond s c tag result v) := by
  unfold State.respond
  repeat' first
    | with_reducible assumption | with_reducible apply keeps_ite | with_reducible apply keeps_foldl | intro _ | split
    | with_reducible apply keeps_mk

theorem State.reply_keeps {z s : State} {c : Nat} {tag : Nat} {result : Nat} {v : Word} (h : Keeps z s) :
    Keeps z (State.reply s c tag result v) := by
  unfold State.reply
  repeat' first
    | with_reducible assumption | with_reducible apply State.xferOpen_keeps | with_reducible apply State.respond_keeps
    | with_reducible apply keeps_ite | intro _ | split | with_reducible apply keeps_mk

theorem State.portBadId_keeps {z s : State} {y : Running} {vid : Nat} (h : Keeps z s) :
    Keeps z (State.portBadId s y vid) := by
  unfold State.portBadId
  repeat' first
    | with_reducible assumption | with_reducible apply State.push_keeps | with_reducible apply keeps_ite
    | with_reducible apply keeps_foldl | intro _ | split | with_reducible apply keeps_mk

theorem State.holdSig_keeps {z s : State} {c : Nat} {vid : Nat} {inc : Nat} {y : Running} {y5 : Spec} (h : Keeps z s) :
    Keeps z (State.holdSig s c vid inc y y5) := by
  unfold State.holdSig
  repeat' first
    | with_reducible assumption | with_reducible apply State.push_keeps | with_reducible apply State.updCore_keeps
    | with_reducible apply keeps_ite | with_reducible apply keeps_foldl | intro _ | split | with_reducible apply keeps_mk

theorem State.portSig_keeps {z s : State} {c : Nat} {w : Req} {vid : Nat} {inc : Nat} (h : Keeps z s) :
    Keeps z (State.portSig s c w vid inc) := by
  unfold State.portSig
  repeat' first
    | with_reducible assumption | intro _
    | (extract_lets +onlyGivenNames s1; refine (fun (h1 : Keeps z s1) => ?_) (?_ : Keeps z s1) <;> [clear_value s1; subst s1])
    | (extract_lets +onlyGivenNames n1; subst n1) | with_reducible apply State.faultCtx_keeps
    | with_reducible apply State.push_keeps | with_reducible apply State.holdSig_keeps | with_reducible apply keeps_ite
    | intro _ | split | with_reducible apply keeps_mk

theorem State.latchSig_keeps {z s : State} {c : Nat} {vid : Nat} {inc : Nat} (h : Keeps z s) :
    Keeps z (State.latchSig s c vid inc) := by
  unfold State.latchSig
  repeat' first
    | with_reducible assumption | with_reducible apply State.push_keeps | with_reducible apply keeps_ite | intro _ | split
    | with_reducible apply keeps_mk

theorem State.portWait_keeps {z s : State} {c : Nat} {tag : Nat} {vid : Nat} {expected : Nat} (h : Keeps z s) :
    Keeps z (State.portWait s c tag vid expected) := by
  unfold State.portWait
  repeat' first
    | with_reducible assumption | intro _
    | (extract_lets +onlyGivenNames s1; refine (fun (h1 : Keeps z s1) => ?_) (?_ : Keeps z s1) <;> [clear_value s1; subst s1])
    | (extract_lets +onlyGivenNames n1; subst n1) | with_reducible apply State.withCtrOr_keeps
    | with_reducible apply State.applyWait_keeps | with_reducible apply State.reply_keeps
    | with_reducible apply State.portBadId_keeps | with_reducible apply keeps_ite | intro _ | split
    | with_reducible apply keeps_mk

theorem State.portProbe_keeps {z s : State} {c : Nat} {tag : Nat} {vid : Nat} (h : Keeps z s) :
    Keeps z (State.portProbe s c tag vid) := by
  unfold State.portProbe
  repeat' first
    | with_reducible assumption | intro _
    | (extract_lets +onlyGivenNames s1; refine (fun (h1 : Keeps z s1) => ?_) (?_ : Keeps z s1) <;> [clear_value s1; subst s1])
    | (extract_lets +onlyGivenNames n1; subst n1) | with_reducible apply State.withCtrOr_keeps
    | with_reducible apply State.reply_keeps | with_reducible apply State.portBadId_keeps | with_reducible apply keeps_ite
    | intro _ | split | with_reducible apply keeps_mk

theorem State.setCc_keeps {z s : State} {c : Nat} {k : Nat} {v : Nat} (h : Keeps z s) :
    Keeps z (State.setCc s c k v) := by
  unfold State.setCc
  repeat' first
    | with_reducible assumption | with_reducible apply State.updCore_keeps | with_reducible apply keeps_ite
    | with_reducible apply keeps_foldl | intro _ | split | with_reducible apply keeps_mk

theorem State.ccRelease_keeps {z s : State} {c : Nat} {k : Nat} {x3 : Nat} (h : Keeps z s) :
    Keeps z (State.ccRelease s c k x3) := by
  induction x3 generalizing s with
  | zero => exact h
  | succ n ih =>
    unfold State.ccRelease
    split
    · exact h
    · exact ih (State.respond_keeps (State.updCore_keeps h))

theorem State.ccSignal_keeps {z s : State} {c : Nat} {tag : Nat} {k : Nat} {inc : Nat} (h : Keeps z s) :
    Keeps z (State.ccSignal s c tag k inc) := by
  unfold State.ccSignal
  repeat' first
    | with_reducible assumption | intro _
    | (extract_lets +onlyGivenNames s1; refine (fun (h1 : Keeps z s1) => ?_) (?_ : Keeps z s1) <;> [clear_value s1; subst s1])
    | (extract_lets +onlyGivenNames n1; subst n1) | with_reducible apply State.updTask_keeps
    | with_reducible apply State.err_keeps | with_reducible apply State.respond_keeps
    | with_reducible apply State.setCc_keeps | with_reducible apply State.ccRelease_keeps | with_reducible apply keeps_ite
    | intro _ | split | with_reducible apply keeps_mk

theorem State.ccWait_keeps {z s : State} {c : Nat} {tag : Nat} {k : Nat} (h : Keeps z s) :
    Keeps z (State.ccWait s c tag k) := by
  unfold State.ccWait
  repeat' first
    | with_reducible assumption | with_reducible apply State.updCore_keeps | with_reducible apply State.respond_keeps
    | with_reducible apply State.setCc_keeps | with_reducible apply keeps_ite | with_reducible apply keeps_foldl | intro _
    | split | with_reducible apply keeps_mk

theorem State.ccUnder_keeps {z s : State} {c : Nat} {tag : Nat} {k : Nat} {y : Running} (h : Keeps z s) :
    Keeps z (State.ccUnder s c tag k y) := by
  unfold State.ccUnder
  repeat' first
    | with_reducible assumption | with_reducible apply State.push_keeps | with_reducible apply State.respond_keeps
    | with_reducible apply keeps_ite | with_reducible apply keeps_foldl | intro _ | split | with_reducible apply keeps_mk

theorem State.ccTake_keeps {z s : State} {c : Nat} {tag : Nat} {k : Nat} {op : Nat} (h : Keeps z s) :
    Keeps z (State.ccTake s c tag k op) := by
  unfold State.ccTake
  repeat' first
    | with_reducible assumption | with_reducible apply State.respond_keeps | with_reducible apply State.setCc_keeps
    | with_reducible apply State.ccUnder_keeps | with_reducible apply keeps_ite | with_reducible apply keeps_foldl | intro _
    | split | with_reducible apply keeps_mk

theorem State.ccRead_keeps {z s : State} {c : Nat} {tag : Nat} {k : Nat} (h : Keeps z s) :
    Keeps z (State.ccRead s c tag k) := by
  unfold State.ccRead
  repeat' first
    | with_reducible assumption | with_reducible apply State.respond_keeps | with_reducible apply keeps_ite
    | with_reducible apply keeps_foldl | intro _ | split | with_reducible apply keeps_mk

theorem State.specAccess_keeps {z s : State} {c : Nat} (h : Keeps z s) :
    Keeps z (State.specAccess s c) := by
  unfold State.specAccess
  repeat' first
    | with_reducible assumption | with_reducible apply State.push_keeps | with_reducible apply keeps_ite
    | with_reducible apply keeps_foldl | intro _ | split | with_reducible apply keeps_mk

theorem State.budgetExpiry_keeps {z s : State} {c : Nat} (h : Keeps z s) :
    Keeps z (State.budgetExpiry s c) := by
  unfold State.budgetExpiry
  repeat' first
    | with_reducible assumption | intro _ | with_reducible apply State.refute_keeps
    | with_reducible apply State.push_keeps | with_reducible apply State.raiseTrap_keeps | with_reducible apply keeps_ite
    | intro _ | split | with_reducible apply keeps_mk

theorem State.stallTimeout_keeps {z s : State} {c : Nat} (h : Keeps z s) :
    Keeps z (State.stallTimeout s c) := by
  unfold State.stallTimeout
  repeat' first
    | with_reducible assumption | with_reducible apply State.push_keeps | with_reducible apply keeps_ite
    | with_reducible apply keeps_foldl | intro _ | split | with_reducible apply keeps_mk

theorem State.dropAnswers_keeps {z s : State} {c : Nat} (h : Keeps z s) :
    Keeps z (State.dropAnswers s c) := by
  unfold State.dropAnswers
  repeat' first
    | with_reducible assumption | intro _ | with_reducible apply keeps_ite | intro _ | split
    | with_reducible apply keeps_mk

theorem State.portTask_keeps {z s : State} {c : Nat} {y : Running} (h : Keeps z s) :
    Keeps z (State.portTask s c y) := by
  unfold State.portTask
  repeat' first
    | with_reducible assumption | intro _
    | (extract_lets +onlyGivenNames s1; refine (fun (h1 : Keeps z s1) => ?_) (?_ : Keeps z s1) <;> [clear_value s1; subst s1])
    | (extract_lets +onlyGivenNames n1; subst n1) | with_reducible apply State.refute_keeps
    | with_reducible apply State.toHeap_keeps | with_reducible apply State.freeSlots_keeps
    | with_reducible apply State.taskGone_keeps | with_reducible apply State.push_keeps
    | with_reducible apply State.updCtx_keeps | with_reducible apply State.updCore_keeps
    | with_reducible apply State.updTask_keeps | with_reducible apply State.coreOff_keeps
    | with_reducible apply State.dropAnswers_keeps | with_reducible apply keeps_ite | intro _ | split
    | with_reducible apply keeps_mk

theorem State.portRecord_keeps {z s : State} {c : Nat} {channel : Nat} (h : Keeps z s) :
    Keeps z (State.portRecord s c channel) := by
  unfold State.portRecord
  repeat' first
    | with_reducible assumption
    | (extract_lets +onlyGivenNames s1; refine (fun (h1 : Keeps z s1) => ?_) (?_ : Keeps z s1) <;>
      [clear_value s1; subst s1])
    | (extract_lets +onlyGivenNames n1; subst n1)
    | with_reducible apply State.err_keeps | with_reducible apply keeps_ite | intro _ | split
    | with_reducible apply keeps_mk

theorem State.isolate_keeps {z s : State} {port : Nat} (h : Keeps z s) :
    Keeps z (State.isolate s port) := by
  unfold State.isolate
  repeat' first
    | with_reducible assumption | intro _ | with_reducible apply State.remountNow_keeps
    | with_reducible apply State.decideRemount_keeps | with_reducible apply keeps_ite | intro _ | split
    | with_reducible apply keeps_mk

theorem State.portFault_keeps {z s : State} {c : Nat} {channel : Nat} (h : Keeps z s) :
    Keeps z (State.portFault s c channel) := by
  unfold State.portFault
  repeat' first
    | with_reducible assumption | intro _
    | (extract_lets +onlyGivenNames s1; refine (fun (h1 : Keeps z s1) => ?_) (?_ : Keeps z s1) <;> [clear_value s1; subst s1])
    | (extract_lets +onlyGivenNames n1; subst n1) | with_reducible apply State.updCore_keeps
    | with_reducible apply State.portTask_keeps | with_reducible apply State.portRecord_keeps
    | with_reducible apply State.isolate_keeps | with_reducible apply keeps_ite | intro _ | split
    | with_reducible apply keeps_mk

/-! ## Relay -/

theorem State.setChan_keeps {z s : State} {ch : Nat} {x : Chan} (h : Keeps z s) :
    Keeps z (State.setChan s ch x) := by
  unfold State.setChan
  repeat' first
    | with_reducible assumption | with_reducible apply keeps_ite | with_reducible apply keeps_foldl | intro _ | split
    | with_reducible apply keeps_mk

theorem State.ringWrite_keeps {z s : State} {r : Ring} {m : Msg} (h : Keeps z s) :
    ∀ a0 t, State.ringWrite s r m = some (a0, t) → Keeps z t := by
  intro a0 t
  unfold State.ringWrite
  repeat' first
    | with_reducible assumption | with_reducible apply State.wr64_keeps | with_reducible apply State.wrWords_keeps
    | with_reducible apply keeps_some | with_reducible apply keeps_somep | with_reducible exact keeps_none
    | with_reducible apply keeps_ite | with_reducible apply keeps_foldl | split | dsimp only | intro _ | dsimp only
    | with_reducible apply keeps_mk

theorem State.takeRing_keeps {z s : State} (h : Keeps z s) :
    ∀ a0 t, State.takeRing s = some (a0, t) → Keeps z t := by
  intro a0 t
  unfold State.takeRing
  split
  · nofun
  · dsimp only
    refine keeps_somep (keeps_ite (fun _ => State.irq_keeps ?_) fun _ => ?_) <;> exact keeps_mk h

theorem State.spill_keeps {z s : State} {ch : Nat} {m : Msg} (h : Keeps z s) :
    ∀ t, State.spill s ch m = some t → Keeps z t := by
  intro t
  unfold State.spill
  extract_lets chain put old
  have hp : ∀ y l, Keeps z y → Keeps z (put y l) := fun y l hy => State.setChan_keeps hy
  have ho : ∀ r y, old = some (r, y) → Keeps z y := by
    simp only [old]
    split
    · exact fun _ _ e => State.ringWrite_keeps h _ _ e
    · exact fun _ _ e => nomatch e
  clear_value old
  rcases old with _ | ⟨r, y⟩
  · dsimp only
    split
    · nofun
    · rename_i e1
      have h1 := State.takeRing_keeps h _ _ e1
      split
      · rename_i e2
        intro e
        cases e
        exact hp _ _ (State.ringWrite_keeps h1 _ _ e2)
      · nofun
  · intro e
    cases e
    exact hp _ _ (ho _ _ rfl)

theorem State.refill_keeps {z s : State} {ch : Nat} {x2 : Nat} (h : Keeps z s) :
    Keeps z (State.refill s ch x2) := by
  induction x2 generalizing s with
  | zero => exact h
  | succ n ih =>
    unfold State.refill
    repeat' split
    all_goals first | exact h | exact ih (State.relayRoom_keeps (keeps_mk (State.setChan_keeps h)))

theorem State.refillAll_keeps {z s : State} (h : Keeps z s) :
    Keeps z (State.refillAll s) := by
  unfold State.refillAll
  repeat' first
    | with_reducible assumption | with_reducible apply State.refill_keeps | with_reducible apply keeps_ite
    | with_reducible apply keeps_foldl | intro _ | split | with_reducible apply keeps_mk

theorem State.strayOne_keeps {z s : State} (h : Keeps z s) :
    Keeps z (State.strayOne s) := by
  unfold State.strayOne
  repeat' first
    | with_reducible assumption | with_reducible apply keeps_ite | with_reducible apply keeps_foldl | intro _ | split
    | with_reducible apply keeps_mk

theorem State.relayOk_keeps {z s : State} {c : Nat} {tag : Nat} (h : Keeps z s) :
    Keeps z (State.relayOk s c tag) := by
  unfold State.relayOk
  repeat' first
    | with_reducible assumption | intro _ | with_reducible apply State.reply_keeps | with_reducible apply keeps_ite
    | intro _ | split | with_reducible apply keeps_mk

theorem State.relayRefuse_keeps {z s : State} {c : Nat} {tag : Nat} (h : Keeps z s) :
    Keeps z (State.relayRefuse s c tag) := by
  unfold State.relayRefuse
  repeat' first
    | with_reducible assumption | intro _ | with_reducible apply State.reply_keeps | with_reducible apply keeps_ite
    | intro _ | split | with_reducible apply keeps_mk

theorem State.relayFull_keeps {z s : State} {c : Nat} {tag : Nat} {h' : Word} {ctx : Nat} (h : Keeps z s) :
    Keeps z (State.relayFull s c tag h' ctx) := by
  unfold State.relayFull
  repeat' first
    | with_reducible assumption | intro _
    | (extract_lets +onlyGivenNames s1; refine (fun (h1 : Keeps z s1) => ?_) (?_ : Keeps z s1) <;> [clear_value s1; subst s1])
    | (extract_lets +onlyGivenNames n1; subst n1) | with_reducible apply State.err_keeps
    | with_reducible apply State.relayRefuse_keeps | with_reducible apply keeps_ite | intro _ | split
    | with_reducible apply keeps_mk

theorem State.relaySpec_keeps {z s : State} {z' : Send} (h : Keeps z s) :
    Keeps z (State.relaySpec s z') := by
  unfold State.relaySpec
  repeat' first
    | with_reducible assumption | intro _
    | (extract_lets +onlyGivenNames s1; refine (fun (h1 : Keeps z s1) => ?_) (?_ : Keeps z s1) <;> [clear_value s1; subst s1])
    | (extract_lets +onlyGivenNames n1; subst n1) | with_reducible apply State.refute_keeps
    | with_reducible apply State.fresh_keeps | with_reducible apply State.push_keeps
    | with_reducible apply State.strayOne_keeps | with_reducible apply State.relayOk_keeps
    | with_reducible apply State.relayRefuse_keeps | refine keeps_snd (by assumption) ?_
    | refine keeps_snd2 (by assumption) ?_ | with_reducible apply keeps_ite | intro _ | split
    | with_reducible apply keeps_mk

theorem State.relayTake_keeps {z s : State} {c : Nat} {tag : Nat} {h' : Word} {m : Msg} (h : Keeps z s) :
    Keeps z (State.relayTake s c tag h' m) := by
  unfold State.relayTake
  repeat' first
    | with_reducible assumption | intro _
    | (extract_lets +onlyGivenNames s1; refine (fun (h1 : Keeps z s1) => ?_) (?_ : Keeps z s1) <;> [clear_value s1; subst s1])
    | (extract_lets +onlyGivenNames n1; subst n1) | with_reducible apply State.setChan_keeps
    | refine State.spill_keeps ?_ _ (by assumption) | with_reducible apply State.refill_keeps
    | with_reducible apply State.relayOk_keeps | with_reducible apply State.relayFull_keeps
    | with_reducible apply keeps_ite | intro _ | split | with_reducible apply keeps_mk

theorem State.latchSend_keeps {z s : State} {c : Nat} {tag : Nat} {hdr : Word} {payload : List Word} (h : Keeps z s) :
    Keeps z (State.latchSend s c tag hdr payload) := by
  unfold State.latchSend
  repeat' first
    | with_reducible assumption | with_reducible apply State.push_keeps | with_reducible apply keeps_ite | intro _ | split
    | with_reducible apply keeps_mk

theorem State.relaySend_keeps {z s : State} {z' : Send} (h : Keeps z s) :
    Keeps z (State.relaySend s z') := by
  unfold State.relaySend
  repeat' first
    | with_reducible assumption | intro _
    | (extract_lets +onlyGivenNames s1; refine (fun (h1 : Keeps z s1) => ?_) (?_ : Keeps z s1) <;> [clear_value s1; subst s1])
    | (extract_lets +onlyGivenNames n1; subst n1) | with_reducible apply State.refute_keeps
    | with_reducible apply State.push_keeps | with_reducible apply State.reply_keeps
    | with_reducible apply State.strayOne_keeps | with_reducible apply State.relayOk_keeps
    | with_reducible apply State.relaySpec_keeps | with_reducible apply State.relayTake_keeps
    | with_reducible apply keeps_ite | intro _ | split | with_reducible apply keeps_mk

theorem State.relayResume_keeps {z s : State} (h : Keeps z s) :
    Keeps z (State.relayResume s) := by
  unfold State.relayResume
  repeat' first
    | with_reducible assumption | with_reducible apply State.push_keeps | with_reducible apply keeps_ite
    | with_reducible apply keeps_foldl | intro _ | split | with_reducible apply keeps_mk

theorem State.relayDeliver_keeps {z s : State} {c : Nat} {ch : Nat} (h : Keeps z s) :
    Keeps z (State.relayDeliver s c ch) := by
  unfold State.relayDeliver
  repeat' first
    | with_reducible assumption | with_reducible apply State.setChan_keeps | with_reducible apply State.refill_keeps
    | with_reducible apply keeps_ite | with_reducible apply keeps_foldl | intro _ | split | with_reducible apply keeps_mk

theorem State.portRead_keeps {z s : State} {c : Nat} {slot : Nat} {port : Nat} (h : Keeps z s) :
    Keeps z (State.portRead s c slot port) := by
  unfold State.portRead
  repeat' first
    | with_reducible assumption | with_reducible apply State.refill_keeps | with_reducible apply keeps_ite
    | with_reducible apply keeps_foldl | intro _ | split | with_reducible apply keeps_mk

end Sys2Proof.Machine
end

