-- ==== Sys2Proof/Laws/KeepsBoot.lean ====
section
/-!
SUPPORT. What every operation keeps: pins, starts, firmware, registers, reports and settling.
-/
namespace Sys2Proof.Machine
set_option linter.unusedTactic false
set_option linter.unreachableTactic false

/-! ## Pins -/

theorem State.updLine_keeps {z s : State} {n : Nat} {f : EvtLine → EvtLine} (h : Keeps z s) :
    Keeps z (State.updLine s n f) := by
  unfold State.updLine
  repeat' first
    | with_reducible assumption | with_reducible apply State.setLine_keeps | with_reducible apply keeps_ite
    | with_reducible apply keeps_foldl | intro _ | split | with_reducible apply keeps_mk

theorem State.evtEdge_keeps {z s : State} {n : Nat} (h : Keeps z s) :
    Keeps z (State.evtEdge s n) := by
  unfold State.evtEdge
  repeat' first
    | with_reducible assumption | with_reducible apply State.push_keeps | with_reducible apply State.setLine_keeps
    | with_reducible apply keeps_ite | with_reducible apply keeps_foldl | intro _ | split | with_reducible apply keeps_mk

theorem State.evtPerform_keeps {z s : State} {p : Word × Nat × Nat} (h : Keeps z s) :
    Keeps z (State.evtPerform s p) := by
  unfold State.evtPerform
  repeat' first
    | with_reducible assumption | with_reducible apply State.push_keeps | with_reducible apply State.launch_keeps
    | refine keeps_snd (by assumption) ?_ | with_reducible apply keeps_ite | with_reducible apply keeps_foldl | intro _
    | split | with_reducible apply keeps_mk

theorem State.evtAct_keeps {z s : State} {n : Nat} (h : Keeps z s) :
    Keeps z (State.evtAct s n) := by
  unfold State.evtAct
  repeat' first
    | with_reducible assumption | with_reducible apply State.updLine_keeps | with_reducible apply State.evtPerform_keeps
    | with_reducible apply keeps_ite | with_reducible apply keeps_foldl | intro _ | split | with_reducible apply keeps_mk

theorem State.evtFall_keeps {z s : State} {n : Nat} (h : Keeps z s) :
    Keeps z (State.evtFall s n) := by
  unfold State.evtFall
  repeat' first
    | with_reducible assumption | with_reducible apply State.updLine_keeps | with_reducible apply keeps_ite
    | with_reducible apply keeps_foldl | intro _ | split | with_reducible apply keeps_mk

theorem State.evtStuckLine_keeps {z s : State} {n : Nat} (h : Keeps z s) :
    Keeps z (State.evtStuckLine s n) := by
  unfold State.evtStuckLine
  repeat' first
    | with_reducible assumption | with_reducible apply State.fresh_keeps | with_reducible apply State.irq_keeps
    | with_reducible apply State.err_keeps | refine keeps_snd (by assumption) ?_ | with_reducible apply keeps_ite
    | with_reducible apply keeps_foldl | intro _ | split | with_reducible apply keeps_mk

theorem State.stuckClear_keeps {z s : State} {n : Nat} (h : Keeps z s) :
    Keeps z (State.stuckClear s n) := by
  unfold State.stuckClear
  repeat' first
    | with_reducible assumption | with_reducible apply keeps_ite | with_reducible apply keeps_foldl | intro _ | split
    | with_reducible apply keeps_mk

theorem State.stuckRearm_keeps {z s : State} {n : Nat} (h : Keeps z s) :
    Keeps z (State.stuckRearm s n) := by
  unfold State.stuckRearm
  repeat' first
    | with_reducible assumption | with_reducible apply State.stuckClear_keeps | with_reducible apply keeps_ite
    | with_reducible apply keeps_foldl | intro _ | split | with_reducible apply keeps_mk

theorem State.evtActWrite_keeps {z s : State} {n : Nat} {v : Word} (h : Keeps z s) :
    Keeps z (State.evtActWrite s n v) := by
  unfold State.evtActWrite
  repeat' first
    | with_reducible assumption | with_reducible apply State.updLine_keeps | with_reducible apply keeps_ite
    | with_reducible apply keeps_foldl | intro _ | split | with_reducible apply keeps_mk

theorem State.evtCountWrite_keeps {z s : State} {n : Nat} {v : Word} (h : Keeps z s) :
    Keeps z (State.evtCountWrite s n v) := by
  unfold State.evtCountWrite
  repeat' first
    | with_reducible assumption | with_reducible apply State.updLine_keeps | with_reducible apply keeps_ite
    | with_reducible apply keeps_foldl | intro _ | split | with_reducible apply keeps_mk

theorem State.raiseAck_keeps {z s : State} (h : Keeps z s) :
    Keeps z (State.raiseAck s) := by
  unfold State.raiseAck
  repeat' first
    | with_reducible assumption | with_reducible apply keeps_ite | with_reducible apply keeps_foldl | intro _ | split
    | with_reducible apply keeps_mk

theorem State.gaitReq_keeps {z s : State} {sel : Nat} (h : Keeps z s) :
    Keeps z (State.gaitReq s sel) := by
  unfold State.gaitReq
  repeat' first
    | with_reducible assumption | with_reducible apply State.raiseAck_keeps | with_reducible apply keeps_ite
    | with_reducible apply keeps_foldl | intro _ | split | with_reducible apply keeps_mk

theorem State.gaitAcked_keeps {z s : State} (h : Keeps z s) :
    Keeps z (State.gaitAcked s) := by
  unfold State.gaitAcked
  repeat' first
    | with_reducible assumption | with_reducible apply State.raiseAck_keeps | with_reducible apply keeps_ite
    | with_reducible apply keeps_foldl | intro _ | split | with_reducible apply keeps_mk

theorem State.gaitDone_keeps {z s : State} {bad : List Wear} (h : Keeps z s) :
    Keeps z (State.gaitDone s bad) := by
  unfold State.gaitDone
  repeat' first
    | with_reducible assumption | intro _
    | (extract_lets +onlyGivenNames s1; refine (fun (h1 : Keeps z s1) => ?_) (?_ : Keeps z s1) <;> [clear_value s1; subst s1])
    | (extract_lets +onlyGivenNames n1; subst n1) | with_reducible apply State.stretchSusp_keeps
    | with_reducible apply State.irq_keeps | with_reducible apply State.wearVerify_keeps | with_reducible apply keeps_ite
    | with_reducible apply keeps_foldl | intro _ | split | with_reducible apply keeps_mk

theorem State.gaitFollow_keeps {z s : State} (h : Keeps z s) :
    Keeps z (State.gaitFollow s) := by
  unfold State.gaitFollow
  repeat' first
    | with_reducible assumption | with_reducible apply State.gaitReq_keeps | with_reducible apply keeps_ite
    | with_reducible apply keeps_foldl | intro _ | split | with_reducible apply keeps_mk

theorem State.tthGaitReq_keeps {z s : State} {target : Nat} (h : Keeps z s) :
    Keeps z (State.tthGaitReq s target) := by
  unfold State.tthGaitReq
  repeat' first
    | with_reducible assumption | with_reducible apply keeps_ite | with_reducible apply keeps_foldl | intro _ | split
    | with_reducible apply keeps_mk

theorem State.gaitAnswer_keeps {z s : State} {denied : Bool} (h : Keeps z s) :
    Keeps z (State.gaitAnswer s denied) := by
  unfold State.gaitAnswer
  repeat' first
    | with_reducible assumption | with_reducible apply keeps_ite | with_reducible apply keeps_foldl | intro _ | split
    | with_reducible apply keeps_mk

theorem State.flushReserve_keeps {z s : State} (h : Keeps z s) :
    Keeps z (State.flushReserve s) := by
  unfold State.flushReserve
  split
  · apply State.stageLost_keeps
    apply keeps_flash h
    exact Nat.le_refl _
  · exact State.flushStudbook_keeps h

theorem State.pwrFail_keeps {z s : State} (h : Keeps z s) :
    Keeps z (State.pwrFail s) := by
  unfold State.pwrFail
  repeat' first
    | with_reducible assumption | with_reducible apply State.ibi_keeps | with_reducible apply State.healthNew_keeps
    | with_reducible apply State.err_keeps | with_reducible apply State.flushReserve_keeps | with_reducible apply keeps_ite
    | with_reducible apply keeps_foldl | intro _ | split | with_reducible apply keeps_mk

theorem State.pwrFailRelease_keeps {z s : State} (h : Keeps z s) :
    Keeps z (State.pwrFailRelease s) := by
  unfold State.pwrFailRelease
  repeat' first
    | with_reducible assumption | with_reducible apply keeps_ite | with_reducible apply keeps_foldl | intro _ | split
    | with_reducible apply keeps_mk

theorem State.emptyReserve_keeps {z s : State} (h : Keeps z s) :
    Keeps z (State.emptyReserve s) := by
  unfold State.emptyReserve
  refine keeps_foldl (keeps_flash h ?_) fun _ _ h => State.sbWrite_keeps h
  exact Nat.le_refl _

theorem State.flushOrdered_keeps {z s : State} (h : Keeps z s) :
    Keeps z (State.flushOrdered s) := by
  unfold State.flushOrdered
  repeat' first
    | with_reducible assumption | intro _ | with_reducible apply State.flushStudbook_keeps
    | with_reducible apply State.emptyReserve_keeps | with_reducible apply keeps_ite | intro _ | split
    | with_reducible apply keeps_mk

theorem State.flushRow_keeps {z s : State} (h : Keeps z s) :
    Keeps z (State.flushRow s) := by
  unfold State.flushRow
  repeat' first
    | with_reducible assumption | intro _ | with_reducible apply State.flushStudbook_keeps
    | with_reducible apply State.reserve_keeps | refine keeps_snd (by assumption) ?_
    | refine keeps_snd2 (by assumption) ?_ | with_reducible apply keeps_ite | intro _ | split
    | with_reducible apply keeps_mk

theorem State.reserveDrain_keeps {z s : State} (h : Keeps z s) :
    Keeps z (State.reserveDrain s) := by
  unfold State.reserveDrain
  repeat' first
    | with_reducible assumption | with_reducible apply State.emptyReserve_keeps | with_reducible apply keeps_ite
    | with_reducible apply keeps_foldl | intro _ | split | with_reducible apply keeps_mk

theorem State.trailSend_keeps {z s : State} (h : Keeps z s) :
    Keeps z (State.trailSend s) := by
  unfold State.trailSend
  repeat' first
    | with_reducible assumption | with_reducible apply State.trailPlace_keeps | with_reducible apply keeps_ite
    | with_reducible apply keeps_foldl | intro _ | split | with_reducible apply keeps_mk

theorem State.trailTimeout_keeps {z s : State} {dest : Nat} {seq : Nat} (h : Keeps z s) :
    Keeps z (State.trailTimeout s dest seq) := by
  unfold State.trailTimeout
  repeat' first
    | with_reducible assumption | with_reducible apply State.trailClose_keeps | with_reducible apply keeps_ite
    | with_reducible apply keeps_foldl | intro _ | split | with_reducible apply keeps_mk

theorem State.linkReset_keeps {z s : State} {herd : Nat} (h : Keeps z s) :
    Keeps z (State.linkReset s herd) := by
  unfold State.linkReset
  repeat' first
    | with_reducible assumption | with_reducible apply State.trailFailAll_keeps | with_reducible apply keeps_ite
    | with_reducible apply keeps_foldl | intro _ | split | with_reducible apply keeps_mk

theorem State.linkDown_keeps {z s : State} {herd : Nat} (h : Keeps z s) :
    Keeps z (State.linkDown s herd) := by
  unfold State.linkDown
  repeat' first
    | with_reducible assumption | with_reducible apply State.trailSettled_keeps
    | with_reducible apply State.trailFailAll_keeps | with_reducible apply keeps_ite | with_reducible apply keeps_foldl
    | intro _ | split | with_reducible apply keeps_mk

/-! ## Boot -/

theorem State.setImage_keeps {z s : State} {b : Bool} {x : Image} (h : Keeps z s) :
    Keeps z (State.setImage s b x) := by
  unfold State.setImage
  cases b <;> (apply keeps_flash h; exact Nat.le_refl _)

theorem State.imageBad_keeps {z s : State} {b : Bool} {check : Nat} {x : Image} (h : Keeps z s) :
    Keeps z (State.imageBad s b check x) := by
  unfold State.imageBad
  repeat' first
    | with_reducible assumption | with_reducible apply State.err_keeps | with_reducible apply keeps_ite
    | with_reducible apply keeps_foldl | intro _ | split | with_reducible apply keeps_mk

theorem State.raiseFloor_keeps {z s : State} (h : Keeps z s) :
    Keeps z (State.raiseFloor s) := by
  unfold State.raiseFloor
  dsimp only
  split
  · apply keeps_flash h
    exact Nat.le_max_left _ _
  · exact h

theorem State.noteImage_keeps {z s : State} {b : Bool} (h : Keeps z s) :
    Keeps z (State.noteImage s b) := by
  unfold State.noteImage
  repeat' first
    | with_reducible assumption | with_reducible apply keeps_ite | with_reducible apply keeps_foldl | intro _ | split
    | with_reducible apply keeps_mk

theorem State.retireFwCore_keeps {z s : State} {k : Nat} (h : Keeps z s) :
    Keeps z (State.retireFwCore s k) := by
  unfold State.retireFwCore
  repeat' first
    | with_reducible assumption | intro _
    | (extract_lets +onlyGivenNames s1; refine (fun (h1 : Keeps z s1) => ?_) (?_ : Keeps z s1) <;> [clear_value s1; subst s1])
    | (extract_lets +onlyGivenNames n1; subst n1) | with_reducible apply State.useSpare_keeps
    | with_reducible apply State.fwMove_keeps | with_reducible apply State.fwDrop_keeps
    | with_reducible apply State.retireSpare_keeps | with_reducible apply keeps_ite | intro _ | split
    | with_reducible apply keeps_mk

theorem State.startCores_keeps {z s : State} (h : Keeps z s) :
    Keeps z (State.startCores s) := by
  unfold State.startCores
  repeat' first
    | with_reducible assumption | intro _
    | (extract_lets +onlyGivenNames s1; refine (fun (h1 : Keeps z s1) => ?_) (?_ : Keeps z s1) <;> [clear_value s1; subst s1])
    | (extract_lets +onlyGivenNames n1; subst n1) | with_reducible apply State.retireFwCore_keeps
    | with_reducible apply keeps_ite | with_reducible apply keeps_foldl | intro _ | split | with_reducible apply keeps_mk

theorem State.cleared_keeps {z s : State} (h : Keeps z s) :
    Keeps z (State.cleared s) := by
  unfold State.cleared
  repeat' first
    | with_reducible assumption | with_reducible apply keeps_ite | with_reducible apply keeps_foldl | intro _ | split
    | with_reducible apply keeps_mk

theorem State.keepPins_keeps {z s : State} {o : State} (h : Keeps z s) :
    Keeps z (State.keepPins s o) := by
  unfold State.keepPins
  repeat' first
    | with_reducible assumption | with_reducible apply keeps_ite | with_reducible apply keeps_foldl | intro _ | split
    | with_reducible apply keeps_mk

theorem State.keepSticky_keeps {z s : State} {o : State} (h : Keeps z s) :
    Keeps z (State.keepSticky s o) := by
  unfold State.keepSticky
  repeat' first
    | with_reducible assumption | intro _ | with_reducible apply keeps_ite | intro _ | split
    | with_reducible apply keeps_mk

theorem State.safeMode_keeps {z s : State} (h : Keeps z s) :
    Keeps z (State.safeMode s) := by
  unfold State.safeMode
  repeat' first
    | with_reducible assumption | intro _ | with_reducible apply State.ibi_keeps | with_reducible apply State.health_keeps
    | with_reducible apply keeps_ite | intro _ | split | with_reducible apply keeps_mk

theorem State.setStep_keeps {z s : State} {n : Nat} (h : Keeps z s) :
    Keeps z (State.setStep s n) := by
  unfold State.setStep
  repeat' first
    | with_reducible assumption | with_reducible apply keeps_ite | with_reducible apply keeps_foldl | intro _ | split
    | with_reducible apply keeps_mk

theorem State.bootImage_keeps {z s : State} {warm : Bool} {x2 : Nat} (h : Keeps z s) :
    Keeps z (State.bootImage s warm x2).2 := by
  induction x2 generalizing s with
  | zero => exact State.safeMode_keeps h
  | succ n ih =>
    unfold State.bootImage
    split
    · exact State.safeMode_keeps h
    · extract_lets x s1
      have h1 : Keeps z s1 := State.setTack_keeps h
      split
      · exact State.noteImage_keeps h1
      · split
        · exact State.noteImage_keeps (keeps_mk h1)
        · exact ih (State.setTack_keeps (State.imageBad_keeps h1))

theorem State.repairUnit_keeps {new : Bool} {z s : State} {p : Nat × Nat} (h : Keeps z s) :
    Keeps z (State.repairUnit new s p) := by
  unfold State.repairUnit
  repeat' first
    | with_reducible assumption | intro _
    | (extract_lets +onlyGivenNames s1; refine (fun (h1 : Keeps z s1) => ?_) (?_ : Keeps z s1) <;> [clear_value s1; subst s1])
    | (extract_lets +onlyGivenNames n1; subst n1) | with_reducible apply State.useSpare_keeps
    | with_reducible apply State.moveUnit_keeps | with_reducible apply State.loseUnit_keeps
    | with_reducible apply State.markRetired_keeps | with_reducible apply State.noSpareLeft_keeps
    | with_reducible apply State.retireSpare_keeps | with_reducible apply keeps_ite | intro _ | split
    | with_reducible apply keeps_mk

theorem State.mergeFindings_keeps {z s : State} (h : Keeps z s) :
    Keeps z (State.mergeFindings s) := by
  unfold State.mergeFindings
  repeat' first
    | with_reducible assumption | intro _ | with_reducible apply State.setTack_keeps | with_reducible apply keeps_ite
    | intro _ | split | with_reducible apply keeps_mk

theorem State.groomStart_keeps {z s : State} (h : Keeps z s) :
    Keeps z (State.groomStart s) := by
  unfold State.groomStart
  repeat' first
    | with_reducible assumption | intro _ | with_reducible apply keeps_ite | intro _ | split
    | with_reducible apply keeps_mk

theorem State.applyRepair_keeps {z s : State} (h : Keeps z s) :
    Keeps z (State.applyRepair s) := by
  unfold State.applyRepair
  repeat' first
    | with_reducible assumption | intro _
    | (extract_lets +onlyGivenNames s1; refine (fun (h1 : Keeps z s1) => ?_) (?_ : Keeps z s1) <;> [clear_value s1; subst s1])
    | (extract_lets +onlyGivenNames n1; subst n1) | with_reducible apply State.repairUnit_keeps
    | with_reducible apply State.mergeFindings_keeps | with_reducible apply keeps_ite | with_reducible apply keeps_foldl
    | intro _ | split | with_reducible apply keeps_mk

theorem State.failsIf_keeps {z s : State} {b : Bool} (h : Keeps z s) :
    Keeps z (State.failsIf s b) := by
  unfold State.failsIf
  repeat' first
    | with_reducible assumption | intro _ | with_reducible apply State.push_keeps | with_reducible apply keeps_ite
    | intro _ | split | with_reducible apply keeps_mk

theorem State.hotJoin_keeps {z s : State} (h : Keeps z s) :
    Keeps z (State.hotJoin s) := by
  unfold State.hotJoin
  repeat' first
    | with_reducible assumption | with_reducible apply keeps_ite | intro _ | split | with_reducible apply keeps_mk

theorem State.startSteps_keeps {z s : State} {kind : Nat} (h : Keeps z s) :
    Keeps z (State.startSteps s kind) := by
  unfold State.startSteps
  repeat' first
    | with_reducible assumption | intro _
    | (extract_lets +onlyGivenNames s1; refine (fun (h1 : Keeps z s1) => ?_) (?_ : Keeps z s1) <;> [clear_value s1; subst s1])
    | (extract_lets +onlyGivenNames n1; subst n1) | with_reducible apply State.push_keeps
    | with_reducible apply State.setTack_keeps | with_reducible apply State.stage_keeps
    | with_reducible apply State.startCores_keeps | with_reducible apply State.safeMode_keeps
    | with_reducible apply State.setStep_keeps | with_reducible apply State.bootImage_keeps
    | with_reducible apply State.groomStart_keeps | with_reducible apply State.applyRepair_keeps
    | with_reducible apply State.hotJoin_keeps | with_reducible apply State.pet_keeps
    | refine keeps_snd (by assumption) ?_ | refine keeps_snd2 (by assumption) ?_ | with_reducible apply keeps_ite
    | with_reducible apply keeps_foldl | intro _ | split | with_reducible apply keeps_mk

theorem State.quiesceCore_keeps {start : Nat} {z s : State} {c : Nat} (h : Keeps z s) :
    Keeps z (State.quiesceCore start s c) := by
  unfold State.quiesceCore
  repeat' first
    | with_reducible assumption | intro _
    | (extract_lets +onlyGivenNames s1; refine (fun (h1 : Keeps z s1) => ?_) (?_ : Keeps z s1) <;> [clear_value s1; subst s1])
    | (extract_lets +onlyGivenNames n1; subst n1) | with_reducible apply State.at_keeps
    | with_reducible apply State.fresh_keeps | with_reducible apply State.toPort_keeps
    | with_reducible apply State.portRecord_keeps | with_reducible apply State.isolate_keeps
    | refine keeps_snd (by assumption) ?_ | refine keeps_snd2 (by assumption) ?_ | with_reducible apply keeps_ite
    | intro _ | split | with_reducible apply keeps_mk

theorem State.resetNow_keeps {z s : State} {cold : Bool} {trigger : Nat} {code : Nat} (h : Keeps z s) :
    Keeps z (State.resetNow s cold trigger code) := by
  unfold State.resetNow
  repeat' first
    | with_reducible assumption | intro _
    | (extract_lets +onlyGivenNames s1; refine (fun (h1 : Keeps z s1) => ?_) (?_ : Keeps z s1) <;> [clear_value s1; subst s1])
    | (extract_lets +onlyGivenNames n1; subst n1) | with_reducible apply State.healthNew_keeps
    | with_reducible apply State.stage_keeps | with_reducible apply State.cleared_keeps
    | with_reducible apply State.keepPins_keeps | with_reducible apply State.keepSticky_keeps
    | with_reducible apply State.startSteps_keeps | with_reducible apply State.quiesceCore_keeps
    | with_reducible apply State.flushOrdered_keeps | with_reducible apply keeps_ite | with_reducible apply keeps_foldl
    | intro _ | split | with_reducible apply keeps_mk

theorem State.resetReq_keeps {z s : State} {cold : Bool} {trigger : Nat} {code : Nat} (h : Keeps z s) :
    Keeps z (State.resetReq s cold trigger code) := by
  unfold State.resetReq
  repeat' first
    | with_reducible assumption | intro _
    | (extract_lets +onlyGivenNames s1; refine (fun (h1 : Keeps z s1) => ?_) (?_ : Keeps z s1) <;> [clear_value s1; subst s1])
    | (extract_lets +onlyGivenNames n1; subst n1) | with_reducible apply State.resetNow_keeps
    | with_reducible apply keeps_ite | intro _ | split | with_reducible apply keeps_mk

theorem State.powerOn_keeps {z s : State} (h : Keeps z s) :
    Keeps z (State.powerOn s) := by
  unfold State.powerOn
  repeat' first
    | with_reducible assumption | intro _
    | (extract_lets +onlyGivenNames s1; refine (fun (h1 : Keeps z s1) => ?_) (?_ : Keeps z s1) <;> [clear_value s1; subst s1])
    | (extract_lets +onlyGivenNames n1; subst n1) | with_reducible apply State.cleared_keeps
    | with_reducible apply State.startSteps_keeps | with_reducible apply keeps_ite | intro _ | split
    | with_reducible apply keeps_mk

theorem State.powerFall_keeps {z s : State} (h : Keeps z s) :
    Keeps z (State.powerFall s) := by
  unfold State.powerFall
  repeat' first
    | with_reducible assumption | with_reducible apply State.cleared_keeps | with_reducible apply keeps_ite
    | with_reducible apply keeps_foldl | intro _ | split | with_reducible apply keeps_mk

theorem State.startWatchdog_keeps {z s : State} (h : Keeps z s) :
    Keeps z (State.startWatchdog s) := by
  unfold State.startWatchdog
  repeat' first
    | with_reducible assumption | intro _ | with_reducible apply State.resetNow_keeps | with_reducible apply keeps_ite
    | intro _ | split | with_reducible apply keeps_mk

theorem State.remountAll_keeps {z s : State} (h : Keeps z s) :
    Keeps z (State.remountAll s) := by
  unfold State.remountAll
  repeat' first
    | with_reducible assumption | intro _ | with_reducible apply State.remountNow_keeps
    | with_reducible apply State.dropRemount_keeps | with_reducible apply keeps_ite | with_reducible apply keeps_foldl
    | intro _ | split | with_reducible apply keeps_mk

theorem State.groomFail_keeps {z s : State} {x : Wear} (h : Keeps z s) :
    Keeps z (State.groomFail s x) := by
  unfold State.groomFail
  repeat' first
    | with_reducible assumption | intro _ | with_reducible apply State.wearOrHold_keeps | with_reducible apply keeps_ite
    | intro _ | split | with_reducible apply keeps_mk

theorem State.groom_keeps {z s : State} {temp : Int} {failed : List Wear} (h : Keeps z s) :
    Keeps z (State.groom s temp failed) := by
  unfold State.groom
  have h0 : Keeps z { s with env := { s.env with temp := temp } } := ⟨h.pending, h.dev, h.now, h.otp, h.free, h.mem, h.hostMem⟩
  refine keeps_ite (fun _ => h0) fun _ => ?_
  extract_lets n tr env tth s1 tk s2 s3
  have h1 : Keeps z s1 :=
    ⟨h.pending, h.dev, h.now, h.otp, Nat.le_trans h.free (Nat.le_add_right _ _), h.mem, h.hostMem⟩
  have h3 : Keeps z s3 := keeps_foldl (State.setTack_keeps h1) fun _ _ hy => State.groomFail_keeps hy
  exact keeps_ite (fun _ => State.failsIf_keeps (State.remountAll_keeps h3)) fun _ => h3

theorem State.assign_keeps {z s : State} {p : Nat} {role : Nat} {cluster : Nat} (h : Keeps z s) :
    Keeps z (State.assign s p role cluster) := by
  unfold State.assign
  repeat' first
    | with_reducible assumption | with_reducible apply State.setSeqr_keeps | with_reducible apply keeps_ite
    | with_reducible apply keeps_foldl | intro _ | split | with_reducible apply keeps_mk

theorem State.assignRow_keeps {z s : State} {r : Nat} (h : Keeps z s) :
    Keeps z (State.assignRow s r) := by
  unfold State.assignRow
  repeat' first
    | with_reducible assumption | with_reducible apply State.setSeqr_keeps | with_reducible apply State.assign_keeps
    | with_reducible apply keeps_ite | with_reducible apply keeps_foldl | intro _ | split | with_reducible apply keeps_mk

theorem State.enumerate_keeps {z s : State} (h : Keeps z s) :
    Keeps z (State.enumerate s) := by
  unfold State.enumerate
  repeat' first
    | with_reducible assumption | intro _
    | (extract_lets +onlyGivenNames s1; refine (fun (h1 : Keeps z s1) => ?_) (?_ : Keeps z s1) <;> [clear_value s1; subst s1])
    | (extract_lets +onlyGivenNames n1; subst n1) | with_reducible apply State.assignRow_keeps
    | with_reducible apply keeps_ite | with_reducible apply keeps_foldl | intro _ | split | with_reducible apply keeps_mk

theorem State.noteSeq_keeps {z s : State} {p : Nat × Nat × Nat} (h : Keeps z s) :
    Keeps z (State.noteSeq s p) := by
  unfold State.noteSeq
  repeat' first
    | with_reducible assumption | intro _
    | (extract_lets +onlyGivenNames s1; refine (fun (h1 : Keeps z s1) => ?_) (?_ : Keeps z s1) <;> [clear_value s1; subst s1])
    | (extract_lets +onlyGivenNames n1; subst n1) | with_reducible apply State.setTack_keeps
    | with_reducible apply State.farrierNotes_keeps | with_reducible apply State.dropRemount_keeps
    | with_reducible apply keeps_ite | intro _ | split | with_reducible apply keeps_mk

theorem State.enumEnd_keeps {z s : State} (h : Keeps z s) :
    Keeps z (State.enumEnd s) := by
  unfold State.enumEnd
  repeat' first
    | with_reducible assumption | intro _
    | (extract_lets +onlyGivenNames s1; refine (fun (h1 : Keeps z s1) => ?_) (?_ : Keeps z s1) <;> [clear_value s1; subst s1])
    | (extract_lets +onlyGivenNames n1; subst n1) | with_reducible apply State.failsIf_keeps
    | with_reducible apply State.enumerate_keeps | with_reducible apply State.noteSeq_keeps
    | with_reducible apply State.noSpareLeft_keeps | with_reducible apply keeps_ite | with_reducible apply keeps_foldl
    | intro _ | split | with_reducible apply keeps_mk

theorem State.enumSend_keeps {z s : State} (h : Keeps z s) :
    Keeps z (State.enumSend s) := by
  unfold State.enumSend
  repeat' first
    | with_reducible assumption | intro _ | with_reducible apply State.setStep_keeps | with_reducible apply keeps_ite
    | intro _ | split | with_reducible apply keeps_mk

theorem State.enumRow_keeps {z s : State} (h : Keeps z s) :
    Keeps z (State.enumRow s) := by
  unfold State.enumRow
  repeat' first
    | with_reducible assumption | intro _ | with_reducible apply State.enumEnd_keeps
    | with_reducible apply State.enumSend_keeps | with_reducible apply keeps_ite | intro _ | split
    | with_reducible apply keeps_mk

theorem State.noAnswer_keeps {z s : State} {p : Nat} (h : Keeps z s) :
    Keeps z (State.noAnswer s p) := by
  unfold State.noAnswer
  repeat' first
    | with_reducible assumption | intro _ | with_reducible apply keeps_ite | intro _ | split
    | with_reducible apply keeps_mk

theorem State.formHerd_keeps {z s : State} (h : Keeps z s) :
    Keeps z (State.formHerd s) := by
  unfold State.formHerd
  repeat' first
    | with_reducible assumption | with_reducible apply State.stage_keeps | with_reducible apply keeps_ite
    | with_reducible apply keeps_foldl | intro _ | split | with_reducible apply keeps_mk

theorem State.setGdCtl_keeps {z s : State} {v : Word} (h : Keeps z s) :
    Keeps z (State.setGdCtl s v) := by
  unfold State.setGdCtl
  repeat' first
    | with_reducible assumption | with_reducible apply keeps_ite | with_reducible apply keeps_foldl | intro _ | split
    | with_reducible apply keeps_mk

theorem State.setQuantum_keeps {z s : State} {v : Word} (h : Keeps z s) :
    Keeps z (State.setQuantum s v) := by
  unfold State.setQuantum
  repeat' first
    | with_reducible assumption | with_reducible apply keeps_ite | with_reducible apply keeps_foldl | intro _ | split
    | with_reducible apply keeps_mk

theorem State.setBudgetMax_keeps {z s : State} {v : Word} (h : Keeps z s) :
    Keeps z (State.setBudgetMax s v) := by
  unfold State.setBudgetMax
  repeat' first
    | with_reducible assumption | with_reducible apply keeps_ite | with_reducible apply keeps_foldl | intro _ | split
    | with_reducible apply keeps_mk

theorem State.setSpillBase_keeps {z s : State} {v : Word} (h : Keeps z s) :
    Keeps z (State.setSpillBase s v) := by
  unfold State.setSpillBase
  repeat' first
    | with_reducible assumption | with_reducible apply keeps_ite | with_reducible apply keeps_foldl | intro _ | split
    | with_reducible apply keeps_mk

theorem State.setSpecCtl_keeps {z s : State} {v : Word} (h : Keeps z s) :
    Keeps z (State.setSpecCtl s v) := by
  unfold State.setSpecCtl
  repeat' first
    | with_reducible assumption | with_reducible apply keeps_ite | with_reducible apply keeps_foldl | intro _ | split
    | with_reducible apply keeps_mk

theorem State.setRlySpill_keeps {z s : State} {v : Word} (h : Keeps z s) :
    Keeps z (State.setRlySpill s v) := by
  unfold State.setRlySpill
  repeat' first
    | with_reducible assumption | with_reducible apply State.relayRoom_keeps | with_reducible apply keeps_ite
    | with_reducible apply keeps_foldl | intro _ | split | with_reducible apply keeps_mk

theorem State.setRlyLevel_keeps {z s : State} {v : Word} (h : Keeps z s) :
    Keeps z (State.setRlyLevel s v) := by
  unfold State.setRlyLevel
  repeat' first
    | with_reducible assumption | with_reducible apply keeps_ite | with_reducible apply keeps_foldl | intro _ | split
    | with_reducible apply keeps_mk

theorem State.setTrapEn_keeps {z s : State} {g : Nat} {v : Word} (h : Keeps z s) :
    Keeps z (State.setTrapEn s g v) := by
  unfold State.setTrapEn
  repeat' first
    | with_reducible assumption | with_reducible apply State.setGe_keeps | with_reducible apply keeps_ite
    | with_reducible apply keeps_foldl | intro _ | split | with_reducible apply keeps_mk

theorem State.policy_keeps {z s : State} {i : Nat} {f : State → Word → State} (h : Keeps z s) (hop2 : ∀ v0 v1, Keeps z v0 →
    Keeps z (f v0 v1)) :
    Keeps z (State.policy s i f) := by
  unfold State.policy
  repeat' first
    | with_reducible assumption | apply hop2 | with_reducible apply keeps_ite | with_reducible apply keeps_foldl | intro _
    | split | with_reducible apply keeps_mk

theorem State.loadPolicy_keeps {z s : State} (h : Keeps z s) :
    Keeps z (State.loadPolicy s) := by
  unfold State.loadPolicy
  repeat' first
    | with_reducible assumption | with_reducible apply State.setGe_keeps | with_reducible apply State.setGdCtl_keeps
    | with_reducible apply State.setQuantum_keeps | with_reducible apply State.setBudgetMax_keeps
    | with_reducible apply State.setSpillBase_keeps | with_reducible apply State.setSpecCtl_keeps
    | with_reducible apply State.setRlySpill_keeps | with_reducible apply State.setRlyLevel_keeps
    | with_reducible apply State.setTrapEn_keeps | with_reducible apply State.policy_keeps | with_reducible apply keeps_ite
    | with_reducible apply keeps_foldl | intro _ | split | with_reducible apply keeps_mk

theorem State.startFailed_keeps {z s : State} (h : Keeps z s) :
    Keeps z (State.startFailed s) := by
  unfold State.startFailed
  repeat' first
    | with_reducible assumption | intro _
    | (extract_lets +onlyGivenNames s1; refine (fun (h1 : Keeps z s1) => ?_) (?_ : Keeps z s1) <;> [clear_value s1; subst s1])
    | (extract_lets +onlyGivenNames n1; subst n1) | with_reducible apply State.fresh_keeps
    | with_reducible apply State.resetNow_keeps | refine keeps_snd (by assumption) ?_
    | refine keeps_snd2 (by assumption) ?_ | with_reducible apply keeps_ite | intro _ | split
    | with_reducible apply keeps_mk

theorem State.clearQueues_keeps {z s : State} (h : Keeps z s) :
    Keeps z (State.clearQueues s) := by
  unfold State.clearQueues
  repeat' first
    | with_reducible assumption | intro _ | with_reducible apply State.unslot_keeps | with_reducible apply keeps_ite
    | with_reducible apply keeps_foldl | intro _ | split | with_reducible apply keeps_mk

theorem State.startEnd_keeps {z s : State} (h : Keeps z s) :
    Keeps z (State.startEnd s) := by
  unfold State.startEnd
  repeat' first
    | with_reducible assumption | intro _
    | (extract_lets +onlyGivenNames s1; refine (fun (h1 : Keeps z s1) => ?_) (?_ : Keeps z s1) <;> [clear_value s1; subst s1])
    | (extract_lets +onlyGivenNames n1; subst n1) | with_reducible apply State.advanceMarks_keeps
    | with_reducible apply State.irq_keeps | with_reducible apply State.ibi_keeps
    | with_reducible apply State.ibiRelease_keeps | with_reducible apply State.setTack_keeps
    | with_reducible apply State.stage_keeps | with_reducible apply State.health_keeps
    | with_reducible apply State.raiseFloor_keeps | with_reducible apply State.enumEnd_keeps
    | with_reducible apply State.formHerd_keeps | with_reducible apply State.loadPolicy_keeps
    | with_reducible apply State.startFailed_keeps | with_reducible apply State.clearQueues_keeps
    | with_reducible apply State.wearResume_keeps | with_reducible apply State.emptyReserve_keeps
    | with_reducible apply keeps_ite | intro _ | split | with_reducible apply keeps_mk

theorem State.setRecover_keeps {z s : State} {n : Nat} (h : Keeps z s) :
    Keeps z (State.setRecover s n) := by
  unfold State.setRecover
  repeat' first
    | with_reducible assumption | with_reducible apply keeps_ite | with_reducible apply keeps_foldl | intro _ | split
    | with_reducible apply keeps_mk

theorem State.recoverRefuse_keeps {z s : State} {k : Nat} {x : Image} (h : Keeps z s) :
    Keeps z (State.recoverRefuse s k x) := State.setRecover_keeps (State.imageBad_keeps h)

theorem State.recover_keeps {z s : State} (h : Keeps z s) :
    Keeps z (State.recover s) := by
  unfold State.recover
  repeat' first
    | with_reducible assumption | intro _
    | (extract_lets +onlyGivenNames s1; refine (fun (h1 : Keeps z s1) => ?_) (?_ : Keeps z s1) <;> [clear_value s1; subst s1])
    | (extract_lets +onlyGivenNames n1; subst n1) | with_reducible apply State.setTack_keeps
    | with_reducible apply State.setImage_keeps | with_reducible apply State.recoverRefuse_keeps
    | with_reducible apply State.resetNow_keeps
    | with_reducible apply keeps_ite | intro _ | split | with_reducible apply keeps_mk

/-! ## Firmware -/

theorem State.fwRestart_keeps {z s : State} {k : Nat} (h : Keeps z s) :
    Keeps z (State.fwRestart s k) := by
  unfold State.fwRestart
  repeat' first
    | with_reducible assumption | intro _
    | (extract_lets +onlyGivenNames s1; refine (fun (h1 : Keeps z s1) => ?_) (?_ : Keeps z s1) <;> [clear_value s1; subst s1])
    | (extract_lets +onlyGivenNames n1; subst n1) | with_reducible apply State.resetNow_keeps
    | with_reducible apply State.pet_keeps | with_reducible apply keeps_ite | intro _ | split
    | with_reducible apply keeps_mk

theorem State.fwThird_keeps {z s : State} {k : Nat} (h : Keeps z s) :
    Keeps z (State.fwThird s k) := by
  unfold State.fwThird
  repeat' first
    | with_reducible assumption | intro _ | with_reducible apply State.push_keeps
    | with_reducible apply State.health_keeps | with_reducible apply State.fwRestart_keeps
    | with_reducible apply State.retireFwCore_keeps | with_reducible apply State.noSpareLeft_keeps
    | with_reducible apply State.farrierNotes_keeps | with_reducible apply keeps_ite | intro _ | split
    | with_reducible apply keeps_mk

theorem State.fwCrash_keeps {z s : State} {k : Nat} {cause : Nat} {mcause : Nat} (h : Keeps z s) :
    Keeps z (State.fwCrash s k cause mcause) := by
  unfold State.fwCrash
  repeat' first
    | with_reducible assumption | intro _
    | (extract_lets +onlyGivenNames s1; refine (fun (h1 : Keeps z s1) => ?_) (?_ : Keeps z s1) <;> [clear_value s1; subst s1])
    | (extract_lets +onlyGivenNames n1; subst n1) | with_reducible apply State.err_keeps
    | with_reducible apply State.fwRestart_keeps | with_reducible apply State.fwThird_keeps
    | with_reducible apply keeps_ite | intro _ | split | with_reducible apply keeps_mk

theorem State.firmwareRestart_keeps {z s : State} (h : Keeps z s) :
    Keeps z (State.firmwareRestart s) := by
  unfold State.firmwareRestart
  repeat' first
    | with_reducible assumption | intro _
    | (extract_lets +onlyGivenNames s1; refine (fun (h1 : Keeps z s1) => ?_) (?_ : Keeps z s1) <;> [clear_value s1; subst s1])
    | (extract_lets +onlyGivenNames n1; subst n1) | with_reducible apply State.resetNow_keeps
    | with_reducible apply State.pet_keeps | with_reducible apply keeps_ite | with_reducible apply keeps_foldl | intro _
    | split | with_reducible apply keeps_mk

theorem State.handoverCheck_keeps {z s : State} {u : Handover} (h : Keeps z s) :
    Keeps z (State.handoverCheck s u) := by
  unfold State.handoverCheck
  repeat' first
    | with_reducible assumption | with_reducible apply State.setTack_keeps | with_reducible apply State.complete_keeps
    | with_reducible apply State.imageBad_keeps | with_reducible apply keeps_ite | with_reducible apply keeps_foldl
    | intro _ | split | with_reducible apply keeps_mk

theorem State.handoverEnd_keeps {z s : State} {u : Handover} (h : Keeps z s) :
    Keeps z (State.handoverEnd s u) := by
  unfold State.handoverEnd
  repeat' first
    | with_reducible assumption | with_reducible apply State.setTack_keeps | with_reducible apply State.stage_keeps
    | with_reducible apply State.complete_keeps | with_reducible apply State.advanceMarks_keeps
    | with_reducible apply State.raiseFloor_keeps | with_reducible apply State.noteImage_keeps
    | with_reducible apply keeps_ite | with_reducible apply keeps_foldl | intro _ | split | with_reducible apply keeps_mk

theorem State.noteUpdate_keeps {z s : State} {target : Bool} {result : Nat} {phase : Nat} (h : Keeps z s) :
    Keeps z (State.noteUpdate s target result phase) := by
  unfold State.noteUpdate
  repeat' first
    | with_reducible assumption | with_reducible apply keeps_ite | intro _ | split | with_reducible apply keeps_mk

theorem State.updateCheck_keeps {z s : State} {q : Nat} {n : Nat} {w : List Word} (h : Keeps z s) :
    Keeps z (State.updateCheck s q n w) := by
  unfold State.updateCheck
  repeat' first
    | with_reducible assumption
    | (extract_lets +onlyGivenNames s1; refine (fun (h1 : Keeps z s1) => ?_) (?_ : Keeps z s1) <;>
      [clear_value s1; subst s1])
    | (extract_lets +onlyGivenNames n1; subst n1)
    | with_reducible apply State.setPhase_keeps | with_reducible apply State.noteUpdate_keeps
    | with_reducible apply State.imageBad_keeps | with_reducible apply State.complete_keeps
    | with_reducible apply keeps_ite | intro _ | split | with_reducible apply keeps_mk

theorem State.updateErase_keeps {z s : State} {u : Handover} (h : Keeps z s) :
    Keeps z (State.updateErase s u) := by
  unfold State.updateErase
  repeat' first
    | with_reducible assumption | with_reducible apply State.setPhase_keeps | with_reducible apply State.noteUpdate_keeps
    | with_reducible apply State.setImage_keeps | with_reducible apply keeps_ite | intro _ | split
    | with_reducible apply keeps_mk

theorem State.updateProgram_keeps {z s : State} {u : Handover} (h : Keeps z s) :
    Keeps z (State.updateProgram s u) := by
  unfold State.updateProgram
  repeat' first
    | with_reducible assumption | intro _
    | (extract_lets +onlyGivenNames s1; refine (fun (h1 : Keeps z s1) => ?_) (?_ : Keeps z s1) <;> [clear_value s1; subst s1])
    | (extract_lets +onlyGivenNames n1; subst n1) | with_reducible apply State.setTack_keeps
    | with_reducible apply State.noteUpdate_keeps | with_reducible apply State.setImage_keeps
    | with_reducible apply State.imageBad_keeps | with_reducible apply State.pet_keeps
    | with_reducible apply State.complete_keeps | with_reducible apply keeps_ite | with_reducible apply keeps_foldl
    | intro _ | split | with_reducible apply keeps_mk

theorem State.effFwUpdate_keeps {z s : State} {q : Nat} {n : Nat} {w : List Word} (h : Keeps z s) :
    Keeps z (State.effFwUpdate s q n w) := by
  unfold State.effFwUpdate
  repeat' first
    | with_reducible assumption | intro _ | with_reducible apply State.setPhase_keeps
    | with_reducible apply State.updateCheck_keeps | with_reducible apply State.updateErase_keeps
    | with_reducible apply State.updateProgram_keeps | with_reducible apply keeps_ite | intro _ | split
    | with_reducible apply keeps_mk

theorem State.mboxDone_keeps {z s : State} {result : Nat} (h : Keeps z s) :
    Keeps z (State.mboxDone s result) := by
  unfold State.mboxDone
  repeat' first
    | with_reducible assumption | with_reducible apply keeps_ite | with_reducible apply keeps_foldl | intro _ | split
    | with_reducible apply keeps_mk

theorem State.mboxServe_keeps {z s : State} (h : Keeps z s) :
    Keeps z (State.mboxServe s) := by
  unfold State.mboxServe
  repeat' first
    | with_reducible assumption | intro _
    | (extract_lets +onlyGivenNames s1; refine (fun (h1 : Keeps z s1) => ?_) (?_ : Keeps z s1) <;> [clear_value s1; subst s1])
    | (extract_lets +onlyGivenNames n1; subst n1) | with_reducible apply State.setTack_keeps
    | with_reducible apply State.stage_keeps | with_reducible apply State.fwRestart_keeps
    | with_reducible apply State.mboxDone_keeps | with_reducible apply State.policy_keeps | with_reducible apply keeps_ite
    | intro _ | split | with_reducible apply keeps_mk

theorem State.mboxCmd_keeps {z s : State} {op : Nat} {arg : Nat} (h : Keeps z s) :
    Keeps z (State.mboxCmd s op arg) := by
  unfold State.mboxCmd
  repeat' first
    | with_reducible assumption | intro _ | with_reducible apply State.mboxServe_keeps | with_reducible apply keeps_ite
    | intro _ | split | with_reducible apply keeps_mk

theorem State.mboxWrite_keeps {z s : State} {v : Word} (h : Keeps z s) :
    Keeps z (State.mboxWrite s v) := by
  unfold State.mboxWrite
  repeat' first
    | with_reducible assumption | with_reducible apply keeps_ite | with_reducible apply keeps_foldl | intro _ | split
    | with_reducible apply keeps_mk

theorem State.restartRecord_keeps {z s : State} (h : Keeps z s) :
    Keeps z (State.restartRecord s) := by
  unfold State.restartRecord
  repeat' first
    | with_reducible assumption | with_reducible apply State.stage_keeps | with_reducible apply State.advanceMarks_keeps
    | with_reducible apply keeps_ite | with_reducible apply keeps_foldl | intro _ | split | with_reducible apply keeps_mk

theorem State.rolesBack_keeps {z s : State} (h : Keeps z s) :
    Keeps z (State.rolesBack s) := by
  unfold State.rolesBack
  repeat' first
    | with_reducible assumption | intro _
    | (extract_lets +onlyGivenNames s1; refine (fun (h1 : Keeps z s1) => ?_) (?_ : Keeps z s1) <;> [clear_value s1; subst s1])
    | (extract_lets +onlyGivenNames n1; subst n1) | with_reducible apply State.ibiRelease_keeps
    | with_reducible apply State.mboxServe_keeps | with_reducible apply State.formHerd_keeps
    | with_reducible apply State.wearResume_keeps | with_reducible apply keeps_ite | intro _ | split
    | with_reducible apply keeps_mk

theorem State.restartsOver_keeps {z s : State} (h : Keeps z s) :
    Keeps z (State.restartsOver s) := by
  unfold State.restartsOver
  repeat' first
    | with_reducible assumption | intro _
    | (extract_lets +onlyGivenNames s1; refine (fun (h1 : Keeps z s1) => ?_) (?_ : Keeps z s1) <;> [clear_value s1; subst s1])
    | (extract_lets +onlyGivenNames n1; subst n1) | with_reducible apply State.displace_keeps
    | with_reducible apply State.handoverEnd_keeps | with_reducible apply State.restartRecord_keeps
    | with_reducible apply State.rolesBack_keeps | with_reducible apply keeps_ite | intro _ | split
    | with_reducible apply keeps_mk

theorem State.fwRestartEnd_keeps {z s : State} {k : Nat} (h : Keeps z s) :
    Keeps z (State.fwRestartEnd s k) := by
  unfold State.fwRestartEnd
  repeat' first
    | with_reducible assumption | intro _
    | (extract_lets +onlyGivenNames s1; refine (fun (h1 : Keeps z s1) => ?_) (?_ : Keeps z s1) <;> [clear_value s1; subst s1])
    | (extract_lets +onlyGivenNames n1; subst n1) | with_reducible apply State.advanceMarks_keeps
    | with_reducible apply State.handoverCheck_keeps | with_reducible apply State.restartsOver_keeps
    | with_reducible apply State.pet_keeps | with_reducible apply keeps_ite | intro _ | split
    | with_reducible apply keeps_mk

theorem State.answer_keeps {z s : State} {code : Nat} {ws : List Word} (h : Keeps z s) :
    Keeps z (State.answer s code ws) := by
  unfold State.answer
  repeat' first
    | with_reducible assumption | with_reducible apply keeps_ite | with_reducible apply keeps_foldl | intro _ | split
    | with_reducible apply keeps_mk

theorem State.entdaa_keeps {z s : State} {da : Nat} (h : Keeps z s) :
    Keeps z (State.entdaa s da) := by
  unfold State.entdaa
  repeat' first
    | with_reducible assumption | with_reducible apply State.formHerd_keeps | with_reducible apply keeps_ite
    | with_reducible apply keeps_foldl | intro _ | split | with_reducible apply keeps_mk

theorem State.rstdaa_keeps {z s : State} (h : Keeps z s) :
    Keeps z (State.rstdaa s) := by
  unfold State.rstdaa
  repeat' first
    | with_reducible assumption | with_reducible apply keeps_ite | with_reducible apply keeps_foldl | intro _ | split
    | with_reducible apply keeps_mk

theorem State.i3cCcc_keeps {z s : State} {code : Nat} {data : Nat} (h : Keeps z s) :
    Keeps z (State.i3cCcc s code data) := by
  unfold State.i3cCcc
  repeat' first
    | with_reducible assumption | with_reducible apply State.fresh_keeps | with_reducible apply State.ibiRelease_keeps
    | with_reducible apply State.answer_keeps | with_reducible apply State.entdaa_keeps
    | with_reducible apply State.rstdaa_keeps | refine keeps_snd (by assumption) ?_ | with_reducible apply keeps_ite
    | with_reducible apply keeps_foldl | intro _ | split | with_reducible apply keeps_mk

theorem State.healthGet_keeps {z s : State} (h : Keeps z s) :
    Keeps z (State.healthGet s) := by
  unfold State.healthGet
  repeat' first
    | with_reducible assumption | with_reducible apply State.answer_keeps | with_reducible apply keeps_ite
    | with_reducible apply keeps_foldl | intro _ | split | with_reducible apply keeps_mk

theorem State.mctpStudbook_keeps {z s : State} {first : Nat} (h : Keeps z s) :
    Keeps z (State.mctpStudbook s first) := by
  unfold State.mctpStudbook
  repeat' first
    | with_reducible assumption | intro _
    | (extract_lets +onlyGivenNames s1; refine (fun (h1 : Keeps z s1) => ?_) (?_ : Keeps z s1) <;> [clear_value s1; subst s1])
    | (extract_lets +onlyGivenNames n1; subst n1) | with_reducible apply State.answer_keeps
    | with_reducible apply State.flushOrdered_keeps | with_reducible apply keeps_ite | intro _ | split
    | with_reducible apply keeps_mk

theorem State.mctpControl_keeps {z s : State} {code : Nat} {data : Nat} (h : Keeps z s) :
    Keeps z (State.mctpControl s code data) := by
  unfold State.mctpControl
  repeat' first
    | with_reducible assumption | with_reducible apply State.fresh_keeps | with_reducible apply State.answer_keeps
    | refine keeps_snd (by assumption) ?_ | with_reducible apply keeps_ite | with_reducible apply keeps_foldl | intro _
    | split | with_reducible apply keeps_mk

theorem State.ibiAck_keeps {z s : State} {cause : Nat} (h : Keeps z s) :
    Keeps z (State.ibiAck s cause) := by
  unfold State.ibiAck
  repeat' first
    | with_reducible assumption | with_reducible apply keeps_ite | with_reducible apply keeps_foldl | intro _ | split
    | with_reducible apply keeps_mk

/-! ## Registers -/

theorem State.onUnits_keeps {z s : State} {f : State → State} (h : Keeps z s) (hop1 : ∀ v0, Keeps z v0 → Keeps z (f v0)) :
    Keeps z (State.onUnits s f) := by
  unfold State.onUnits
  repeat' first
    | with_reducible assumption | apply hop1 | with_reducible apply keeps_ite | with_reducible apply keeps_foldl | intro _
    | split | with_reducible apply keeps_mk

theorem State.powered_keeps {z s : State} {f : State → State} (h : Keeps z s) (hop1 : ∀ v0, Keeps z v0 → Keeps z (f v0)) :
    Keeps z (State.powered s f) := by
  unfold State.powered
  repeat' first
    | with_reducible assumption | apply hop1 | with_reducible apply keeps_ite | with_reducible apply keeps_foldl | intro _
    | split | with_reducible apply keeps_mk

theorem State.irqEnableWrite_keeps {z s : State} {v : Word} (h : Keeps z s) :
    Keeps z (State.irqEnableWrite s v) := by
  unfold State.irqEnableWrite
  repeat' first
    | with_reducible assumption | with_reducible apply State.msix_keeps | with_reducible apply keeps_ite
    | with_reducible apply keeps_foldl | intro _ | split | with_reducible apply keeps_mk

theorem State.irqStatusClear_keeps {z s : State} {v : Word} (h : Keeps z s) :
    Keeps z (State.irqStatusClear s v) := by
  unfold State.irqStatusClear
  repeat' first
    | with_reducible assumption | with_reducible apply keeps_ite | with_reducible apply keeps_foldl | intro _ | split
    | with_reducible apply keeps_mk

theorem State.evtCtlWrite_keeps {z s : State} {v : Word} (h : Keeps z s) :
    Keeps z (State.evtCtlWrite s v) := by
  unfold State.evtCtlWrite
  repeat' first
    | with_reducible assumption | with_reducible apply State.stuckClear_keeps | with_reducible apply keeps_ite
    | with_reducible apply keeps_foldl | intro _ | split | with_reducible apply keeps_mk

theorem State.errBaseWrite_keeps {z s : State} {v : Word} (h : Keeps z s) :
    Keeps z (State.errBaseWrite s v) := by
  unfold State.errBaseWrite
  repeat' first
    | with_reducible assumption | with_reducible apply keeps_ite | with_reducible apply keeps_foldl | intro _ | split
    | with_reducible apply keeps_mk

theorem State.errSizeWrite_keeps {z s : State} {v : Word} (h : Keeps z s) :
    Keeps z (State.errSizeWrite s v) := by
  unfold State.errSizeWrite
  repeat' first
    | with_reducible assumption | with_reducible apply keeps_ite | with_reducible apply keeps_foldl | intro _ | split
    | with_reducible apply keeps_mk

theorem State.errHeadWrite_keeps {z s : State} {v : Word} (h : Keeps z s) :
    Keeps z (State.errHeadWrite s v) := by
  unfold State.errHeadWrite
  repeat' first
    | with_reducible assumption | with_reducible apply State.errReset_keeps | with_reducible apply keeps_ite
    | with_reducible apply keeps_foldl | intro _ | split | with_reducible apply keeps_mk

theorem State.dbDeadline_keeps {z s : State} {q : Nat} {v : Word} (h : Keeps z s) :
    Keeps z (State.dbDeadline s q v) := by
  unfold State.dbDeadline
  repeat' first
    | with_reducible assumption | with_reducible apply State.updQueue_keeps | with_reducible apply keeps_ite
    | with_reducible apply keeps_foldl | intro _ | split | with_reducible apply keeps_mk

theorem State.statClear_keeps {z s : State} (h : Keeps z s) :
    Keeps z (State.statClear s) := by
  unfold State.statClear
  repeat' first
    | with_reducible assumption | intro _ | with_reducible apply keeps_ite | intro _ | split
    | with_reducible apply keeps_mk

theorem State.specFlush_keeps {z s : State} (h : Keeps z s) :
    Keeps z (State.specFlush s) := by
  unfold State.specFlush
  repeat' first
    | with_reducible assumption | with_reducible apply State.flushPreds_keeps | with_reducible apply keeps_ite
    | with_reducible apply keeps_foldl | intro _ | split | with_reducible apply keeps_mk

theorem State.icacheInv_keeps {z s : State} {g : Nat} (h : Keeps z s) :
    Keeps z (State.icacheInv s g) := by
  unfold State.icacheInv
  repeat' first
    | with_reducible assumption | with_reducible apply State.setGe_keeps | with_reducible apply keeps_ite
    | with_reducible apply keeps_foldl | intro _ | split | with_reducible apply keeps_mk

theorem State.dbgResult_keeps {z s : State} {r : Nat} (h : Keeps z s) :
    Keeps z (State.dbgResult s r) := by
  unfold State.dbgResult
  repeat' first
    | with_reducible assumption | with_reducible apply keeps_ite | with_reducible apply keeps_foldl | intro _ | split
    | with_reducible apply keeps_mk

theorem State.dbgCmd_keeps {z s : State} {f : State → State} (h : Keeps z s) (hop1 : ∀ v0, Keeps z v0 → Keeps z (f v0)) :
    Keeps z (State.dbgCmd s f) := by
  unfold State.dbgCmd
  repeat' first
    | with_reducible assumption | apply hop1 | with_reducible apply State.dbgResult_keeps | with_reducible apply keeps_ite
    | with_reducible apply keeps_foldl | intro _ | split | with_reducible apply keeps_mk

theorem State.dbgRead_keeps {z s : State} (h : Keeps z s) :
    Keeps z (State.dbgRead s) := by
  unfold State.dbgRead
  repeat' first
    | with_reducible assumption | with_reducible apply State.dbgResult_keeps | with_reducible apply State.dbgCmd_keeps
    | with_reducible apply keeps_ite | with_reducible apply keeps_foldl | intro _ | split | with_reducible apply keeps_mk

theorem State.dbgSet_keeps {z s : State} (h : Keeps z s) :
    Keeps z (State.dbgSet s) := by
  unfold State.dbgSet
  repeat' first
    | with_reducible assumption | intro _ | with_reducible apply State.push_keeps
    | with_reducible apply State.dbgCmd_keeps | with_reducible apply keeps_ite | intro _ | split
    | with_reducible apply keeps_mk

theorem State.windowSet_keeps {z s : State} {c : Nat} {v : Nat} {new : Nat} (h : Keeps z s) :
    Keeps z (State.windowSet s c v new) := by
  unfold State.windowSet
  repeat' first
    | with_reducible assumption
    | (extract_lets +onlyGivenNames s1; refine (fun (h1 : Keeps z s1) => ?_) (?_ : Keeps z s1) <;>
      [clear_value s1; subst s1])
    | (extract_lets +onlyGivenNames n1; subst n1)
    | with_reducible apply State.debugSet_keeps | with_reducible apply State.dbgResult_keeps
    | refine keeps_snd (by assumption) ?_ | refine keeps_snd2 (by assumption) ?_ | with_reducible apply keeps_ite
    | intro _ | split | with_reducible apply keeps_mk

theorem State.dbgHalt_keeps {z s : State} (h : Keeps z s) :
    Keeps z (State.dbgHalt s) := by
  unfold State.dbgHalt
  repeat' first
    | with_reducible assumption | intro _
    | (extract_lets +onlyGivenNames s1; refine (fun (h1 : Keeps z s1) => ?_) (?_ : Keeps z s1) <;> [clear_value s1; subst s1])
    | (extract_lets +onlyGivenNames n1; subst n1) | with_reducible apply State.refute_keeps
    | with_reducible apply State.writeHeader_keeps | with_reducible apply State.dropCands_keeps
    | with_reducible apply State.updStop_keeps | with_reducible apply State.displace_keeps
    | with_reducible apply State.push_keeps | with_reducible apply State.updCtx_keeps
    | with_reducible apply State.dbgResult_keeps | with_reducible apply State.dbgCmd_keeps
    | with_reducible apply State.refreshAll_keeps | refine keeps_snd (by assumption) ?_
    | refine keeps_snd2 (by assumption) ?_ | with_reducible apply keeps_ite | intro _ | split
    | with_reducible apply keeps_mk

theorem State.dbgResume_keeps {z s : State} (h : Keeps z s) :
    Keeps z (State.dbgResume s) := by
  unfold State.dbgResume
  repeat' first
    | with_reducible assumption | with_reducible apply State.updCtx_keeps | with_reducible apply State.refreshAll_keeps
    | with_reducible apply State.writeHeader_keeps | with_reducible apply State.updStop_keeps
    | with_reducible apply State.dbgResult_keeps | with_reducible apply State.dbgCmd_keeps | with_reducible apply keeps_ite
    | with_reducible apply keeps_foldl | intro _ | split | with_reducible apply keeps_mk

theorem State.gcsCtl_keeps {z s : State} {v : Word} (h : Keeps z s) :
    Keeps z (State.gcsCtl s v) := by
  unfold State.gcsCtl
  repeat' first
    | with_reducible assumption | intro _
    | (extract_lets +onlyGivenNames s1; refine (fun (h1 : Keeps z s1) => ?_) (?_ : Keeps z s1) <;> [clear_value s1; subst s1])
    | (extract_lets +onlyGivenNames n1; subst n1) | with_reducible apply State.firmwareRestart_keeps
    | with_reducible apply State.resetReq_keeps | with_reducible apply State.recover_keeps
    | with_reducible apply keeps_ite | intro _ | split | with_reducible apply keeps_mk

theorem State.writeGcs_keeps {z s : State} {o : Nat} {v : Word} (h : Keeps z s) :
    Keeps z (State.writeGcs s o v) := by
  unfold State.writeGcs
  repeat' first
    | with_reducible assumption | intro _ | with_reducible apply State.irqEnableWrite_keeps
    | with_reducible apply State.irqStatusClear_keeps | with_reducible apply State.evtCtlWrite_keeps
    | with_reducible apply State.gcsCtl_keeps | with_reducible apply State.evtActWrite_keeps
    | with_reducible apply State.evtCountWrite_keeps | with_reducible apply keeps_ite | intro _ | split
    | with_reducible apply keeps_mk

theorem State.writeFsu_keeps {z s : State} {o : Nat} {v : Word} (h : Keeps z s) :
    Keeps z (State.writeFsu s o v) := by
  unfold State.writeFsu
  repeat' first
    | with_reducible assumption | with_reducible apply State.errBaseWrite_keeps
    | with_reducible apply State.errSizeWrite_keeps | with_reducible apply State.errHeadWrite_keeps
    | with_reducible apply keeps_ite | with_reducible apply keeps_foldl | intro _ | split | with_reducible apply keeps_mk

theorem State.writeTth_keeps {z s : State} {o : Nat} {v : Word} (h : Keeps z s) :
    Keeps z (State.writeTth s o v) := by
  unfold State.writeTth
  repeat' first
    | with_reducible assumption | intro _
    | (extract_lets +onlyGivenNames s1; refine (fun (h1 : Keeps z s1) => ?_) (?_ : Keeps z s1) <;> [clear_value s1; subst s1])
    | (extract_lets +onlyGivenNames n1; subst n1) | with_reducible apply State.enumSend_keeps
    | with_reducible apply keeps_ite | intro _ | split | with_reducible apply keeps_mk

theorem State.writeSlot'_keeps {z s : State} {n : Nat} {o : Nat} {v : Word} (h : Keeps z s) :
    Keeps z (State.writeSlot' s n o v) := by
  unfold State.writeSlot'
  repeat' first
    | with_reducible assumption | with_reducible apply State.displaceBit_keeps | with_reducible apply State.slotQueue_keeps
    | with_reducible apply State.slotEnable_keeps | with_reducible apply keeps_ite | with_reducible apply keeps_foldl
    | intro _ | split | with_reducible apply keeps_mk

theorem State.writeQattr_keeps {z s : State} {o : Nat} {v : Word} (h : Keeps z s) :
    Keeps z (State.writeQattr s o v) := by
  unfold State.writeQattr
  repeat' first
    | with_reducible assumption | with_reducible apply State.queue0Reset_keeps
    | with_reducible apply State.queueEnable_keeps | with_reducible apply State.queueDisable_keeps
    | with_reducible apply State.qattr_keeps | with_reducible apply keeps_ite | with_reducible apply keeps_foldl | intro _
    | split | with_reducible apply keeps_mk

theorem State.writeDb_keeps {z s : State} {q : Nat} {o : Nat} {v : Word} (h : Keeps z s) :
    Keeps z (State.writeDb s q o v) := by
  unfold State.writeDb
  repeat' first
    | with_reducible assumption | with_reducible apply State.dbTail_keeps | with_reducible apply State.dbCplHead_keeps
    | with_reducible apply State.dbDeadline_keeps | with_reducible apply keeps_ite | with_reducible apply keeps_foldl
    | intro _ | split | with_reducible apply keeps_mk

theorem State.writeGd_keeps {z s : State} {o : Nat} {v : Word} (h : Keeps z s) :
    Keeps z (State.writeGd s o v) := by
  unfold State.writeGd
  repeat' first
    | with_reducible assumption | with_reducible apply State.setGdCtl_keeps | with_reducible apply State.setQuantum_keeps
    | with_reducible apply State.setBudgetMax_keeps | with_reducible apply State.setSpillBase_keeps
    | with_reducible apply keeps_ite | with_reducible apply keeps_foldl | intro _ | split | with_reducible apply keeps_mk

theorem State.writePlu_keeps {z s : State} {o : Nat} {v : Word} (h : Keeps z s) :
    Keeps z (State.writePlu s o v) := by
  unfold State.writePlu
  repeat' first
    | with_reducible assumption | with_reducible apply State.setSpecCtl_keeps | with_reducible apply State.specFlush_keeps
    | with_reducible apply keeps_ite | with_reducible apply keeps_foldl | intro _ | split | with_reducible apply keeps_mk

theorem State.writeCtu_keeps {z s : State} {o : Nat} {v : Word} (h : Keeps z s) :
    Keeps z (State.writeCtu s o v) := by
  unfold State.writeCtu
  repeat' first
    | with_reducible assumption | with_reducible apply State.dbgRead_keeps | with_reducible apply State.dbgSet_keeps
    | with_reducible apply State.dbgHalt_keeps | with_reducible apply State.dbgResume_keeps | with_reducible apply keeps_ite
    | with_reducible apply keeps_foldl | intro _ | split | with_reducible apply keeps_mk

theorem State.writeCar_keeps {z s : State} {o : Nat} {v : Word} (h : Keeps z s) :
    Keeps z (State.writeCar s o v) := by
  unfold State.writeCar
  repeat' first
    | with_reducible assumption | with_reducible apply keeps_ite | with_reducible apply keeps_foldl | intro _ | split
    | with_reducible apply keeps_mk

theorem State.writeRly_keeps {z s : State} {o : Nat} {v : Word} (h : Keeps z s) :
    Keeps z (State.writeRly s o v) := by
  unfold State.writeRly
  repeat' first
    | with_reducible assumption | with_reducible apply State.relayResume_keeps
    | with_reducible apply State.setRlySpill_keeps | with_reducible apply State.setRlyLevel_keeps
    | with_reducible apply keeps_ite | with_reducible apply keeps_foldl | intro _ | split | with_reducible apply keeps_mk

theorem State.writeGe_keeps {z s : State} {g : Nat} {o : Nat} {v : Word} (h : Keeps z s) :
    Keeps z (State.writeGe s g o v) := by
  unfold State.writeGe
  repeat' first
    | with_reducible assumption | with_reducible apply State.setGe_keeps | with_reducible apply State.setTrapEn_keeps
    | with_reducible apply keeps_ite | with_reducible apply keeps_foldl | intro _ | split | with_reducible apply keeps_mk

theorem State.write64_keeps {z s : State} {off : Nat} {v : Word} (h : Keeps z s) :
    Keeps z (State.write64 s off v) := by
  unfold State.write64
  repeat' first
    | with_reducible assumption | intro _
    | (extract_lets +onlyGivenNames s1; refine (fun (h1 : Keeps z s1) => ?_) (?_ : Keeps z s1) <;> [clear_value s1; subst s1])
    | (extract_lets +onlyGivenNames n1; subst n1) | with_reducible apply State.mboxCmd_keeps
    | with_reducible apply State.mboxWrite_keeps | with_reducible apply State.statClear_keeps
    | with_reducible apply State.writeGcs_keeps | with_reducible apply State.writeFsu_keeps
    | with_reducible apply State.writeTth_keeps | with_reducible apply State.writeSlot'_keeps
    | with_reducible apply State.writeQattr_keeps | with_reducible apply State.writeDb_keeps
    | with_reducible apply State.writeGd_keeps | with_reducible apply State.writePlu_keeps
    | with_reducible apply State.writeCtu_keeps | with_reducible apply State.writeCar_keeps
    | with_reducible apply State.writeRly_keeps | with_reducible apply State.writeGe_keeps
    | with_reducible apply keeps_ite | intro _ | split | with_reducible apply keeps_mk

theorem State.regWrite_keeps {z s : State} {off : Nat} {v : Word} {width : Nat} (h : Keeps z s) :
    Keeps z (State.regWrite s off v width) := by
  unfold State.regWrite
  repeat' first
    | with_reducible assumption | intro _ | with_reducible apply State.write64_keeps | with_reducible apply keeps_ite
    | intro _ | split | with_reducible apply keeps_mk

/-! ## Report -/

theorem State.effQuery_keeps {z s : State} {q : Nat} {n : Nat} {w : List Word} (h : Keeps z s) :
    Keeps z (State.effQuery s q n w) := by
  unfold State.effQuery
  repeat' first
    | with_reducible assumption | intro _
    | (extract_lets +onlyGivenNames s1; refine (fun (h1 : Keeps z s1) => ?_) (?_ : Keeps z s1) <;> [clear_value s1; subst s1])
    | (extract_lets +onlyGivenNames n1; subst n1) | with_reducible apply State.wrWords_keeps
    | with_reducible apply State.withCtrOr_keeps | with_reducible apply State.complete_keeps
    | with_reducible apply keeps_ite | intro _ | split | with_reducible apply keeps_mk

theorem State.effStatSnapshot_keeps {z s : State} {q : Nat} {n : Nat} {w : List Word} (h : Keeps z s) :
    Keeps z (State.effStatSnapshot s q n w) := by
  unfold State.effStatSnapshot
  repeat' first
    | with_reducible assumption | with_reducible apply State.wrWords_keeps | with_reducible apply State.complete_keeps
    | with_reducible apply keeps_ite | with_reducible apply keeps_foldl | intro _ | split | with_reducible apply keeps_mk

theorem State.effBlockReset_keeps {z s : State} {q : Nat} {n : Nat} {w : List Word} (h : Keeps z s) :
    Keeps z (State.effBlockReset s q n w) := by
  unfold State.effBlockReset
  repeat' first
    | with_reducible assumption | with_reducible apply State.push_keeps | with_reducible apply State.complete_keeps
    | with_reducible apply keeps_ite | with_reducible apply keeps_foldl | intro _ | split | with_reducible apply keeps_mk

/-! ## Settle -/

theorem State.released_keeps {z s : State} {who : Who} {poisoned : Bool} (h : Keeps z s) :
    Keeps z (State.released s who poisoned) := by
  unfold State.released
  repeat' first
    | with_reducible assumption | intro _ | with_reducible apply State.retireTask_keeps
    | with_reducible apply State.reply_keeps | with_reducible apply State.waitReleased_keeps
    | with_reducible apply keeps_ite | intro _ | split | with_reducible apply keeps_mk

theorem State.trailActed_keeps {z s : State} {x : Trail} {source : Nat} {ack : List Word} (h : Keeps z s) :
    Keeps z (State.trailActed s x source ack) := by
  unfold State.trailActed
  repeat' first
    | with_reducible assumption | intro _
    | (extract_lets +onlyGivenNames s1; refine (fun (h1 : Keeps z s1) => ?_) (?_ : Keeps z s1) <;> [clear_value s1; subst s1])
    | (extract_lets +onlyGivenNames n1; subst n1) | with_reducible apply State.trailSettled_keeps
    | with_reducible apply State.trailAck_keeps | with_reducible apply State.trailRefused_keeps
    | with_reducible apply State.doSignal_keeps | with_reducible apply State.doPoison_keeps
    | with_reducible apply keeps_ite | intro _ | split | with_reducible apply keeps_mk

theorem State.retireNow_keeps {z s : State} {r : TaskRef} {how : How} (h : Keeps z s) :
    Keeps z (State.retireNow s r how) := by
  unfold State.retireNow
  repeat' first
    | with_reducible assumption | intro _
    | (extract_lets +onlyGivenNames s1; refine (fun (h1 : Keeps z s1) => ?_) (?_ : Keeps z s1) <;> [clear_value s1; subst s1])
    | (extract_lets +onlyGivenNames n1; subst n1) | with_reducible apply State.dropSpec_keeps
    | with_reducible apply State.retireTask_keeps | with_reducible apply keeps_ite | intro _ | split
    | with_reducible apply keeps_mk

theorem State.resetWork_keeps {z s : State} {kind : Nat} {trigger : Nat} (h : Keeps z s) :
    Keeps z (State.resetWork s kind trigger) := by
  unfold State.resetWork
  repeat' first
    | with_reducible assumption | intro _ | with_reducible apply State.resetReq_keeps | with_reducible apply keeps_ite
    | intro _ | split | with_reducible apply keeps_mk

theorem State.doWork_keeps {z s : State} {x1 : Work} (h : Keeps z s) :
    Keeps z (State.doWork s x1) := by
  unfold State.doWork
  cases x1 <;> dsimp only <;> first
    | with_reducible exact State.coreDone_keeps h | with_reducible exact State.coreYield_keeps h
    | with_reducible exact State.trailIn_keeps h | with_reducible exact State.ackIn_keeps h
    | with_reducible exact State.evtAct_keeps h | with_reducible exact State.tick_keeps h
    | with_reducible exact State.doSignal_keeps h | with_reducible exact State.doPoison_keeps h
    | with_reducible exact State.contained_keeps h | with_reducible exact State.trailActed_keeps h
    | with_reducible exact State.trailPost_keeps h | with_reducible exact State.released_keeps h
    | with_reducible exact State.retireNow_keeps h | with_reducible exact State.confirm_keeps h
    | with_reducible exact State.commit_keeps h | with_reducible exact State.refute_keeps h
    | with_reducible exact State.applyDecrements_keeps h | with_reducible exact State.instEnd_keeps h
    | with_reducible exact State.rootCheck_keeps h | with_reducible exact State.faultCtx_keeps h
    | with_reducible exact State.retryStall_keeps h | with_reducible exact State.waitCmd_keeps h
    | with_reducible exact State.waitCtl_keeps h | with_reducible exact State.windowSet_keeps h
    | with_reducible exact State.resetWork_keeps h | with_reducible exact State.regroom_keeps h
    | with_reducible exact State.startFailed_keeps h | with_reducible exact State.portSig_keeps (State.xferOpen_keeps h)
    | with_reducible exact State.portWait_keeps (State.xferOpen_keeps h)
    | with_reducible exact State.portProbe_keeps (State.xferOpen_keeps h)
    | with_reducible exact State.relaySend_keeps (State.xferOpen_keeps h)
    | with_reducible exact State.resetStep_keeps (State.complete_keeps h)
    | with_reducible exact State.refillAll_keeps (State.resetAll_keeps (State.coreFree_keeps h))
    | with_reducible exact keeps_ite (fun _ => State.effDebugSet_keeps h) fun _ => h
    | with_reducible exact State.refillAll_keeps (State.restartsOver_keeps h)

theorem settleN_keeps {z s : State} {x0 : Nat} (h : Keeps z s) :
    Keeps z (settleN x0 s) := by
  induction x0 generalizing s with
  | zero => exact h
  | succ n ih =>
    unfold settleN
    split
    · exact h
    · exact ih (State.doWork_keeps (keeps_mk h))

theorem settle_keeps {z s : State} (h : Keeps z s) :
    Keeps z (settle s) := by
  unfold settle
  repeat' first
    | with_reducible assumption | with_reducible apply settleN_keeps | with_reducible apply keeps_ite
    | with_reducible apply keeps_foldl | intro _ | split | with_reducible apply keeps_mk

end Sys2Proof.Machine
end

