-- ==== Sys2Proof/Laws/KeepsRows.lean ====
section
/-!
SUPPORT. What every operation keeps: the meanings: one lemma a command.
-/
namespace Sys2Proof.Machine
set_option linter.unusedTactic false
set_option linter.unreachableTactic false

/-! ## Dispatching -/

theorem execGdPop_keeps {z s : State} {t : Nat} (h : Keeps z s) :
    ∀ o, execGdPop t s = .next o → Keeps z o := by
  intro o ho
  cases ho
  repeat' first
    | with_reducible assumption | with_reducible apply State.at_keeps | with_reducible apply State.gdPop_keeps
    | with_reducible apply settle_keeps | with_reducible apply keeps_ite | intro _ | split

theorem execSpecOffer_keeps {z s : State} {n : Nat} {t : Nat} (h : Keeps z s) :
    ∀ o, execSpecOffer n t s = .next o → Keeps z o := by
  intro o ho
  cases ho
  repeat' first
    | with_reducible assumption | with_reducible apply State.at_keeps | with_reducible apply State.specOffer_keeps
    | with_reducible apply settle_keeps | with_reducible apply keeps_ite | intro _ | split

theorem execSpur_keeps {z s : State} {c : Nat} {t : Nat} (h : Keeps z s) :
    ∀ o, execSpur c t s = .next o → Keeps z o := by
  intro o ho
  cases ho
  repeat' first
    | with_reducible assumption | with_reducible apply State.at_keeps | with_reducible apply State.spurCore_keeps
    | with_reducible apply State.refillAll_keeps | with_reducible apply settle_keeps | with_reducible apply keeps_ite
    | intro _ | split

theorem execDescFill_keeps {z s : State} {lane : Nat} (h : Keeps z s) :
    ∀ o, execDescFill lane s = .next o → Keeps z o := by
  intro o ho
  cases ho
  repeat' first
    | with_reducible assumption | with_reducible apply State.dcFill_keeps | with_reducible apply settle_keeps
    | with_reducible apply keeps_ite | intro _ | split

theorem execCoreDone_keeps {z s : State} {c : Nat} {occ : Word} {t : Nat} (h : Keeps z s) :
    ∀ o, execCoreDone c occ t s = .next o → Keeps z o := by
  intro o ho
  cases ho
  repeat' first
    | with_reducible assumption | with_reducible apply State.at_keeps | with_reducible apply State.push_keeps
    | with_reducible apply settle_keeps | with_reducible apply keeps_ite | intro _ | split

theorem execCoreYield_keeps {z s : State} {c : Nat} {t : Nat} (h : Keeps z s) :
    ∀ o, execCoreYield c t s = .next o → Keeps z o := by
  intro o ho
  cases ho
  repeat' first
    | with_reducible assumption | with_reducible apply State.at_keeps | with_reducible apply State.push_keeps
    | with_reducible apply settle_keeps | with_reducible apply keeps_ite | intro _ | split

theorem execCoreSig_keeps {z s : State} {c : Nat} {vid : Nat} {inc : Nat} (h : Keeps z s) :
    ∀ o, execCoreSig c vid inc s = .next o → Keeps z o := by
  intro o ho
  cases ho
  repeat' first
    | with_reducible assumption | with_reducible apply State.latchSig_keeps | with_reducible apply settle_keeps
    | with_reducible apply keeps_ite | intro _ | split

theorem execCoreWait_keeps {z s : State} {c : Nat} {tag : Nat} {vid : Nat} {expected : Word} (h : Keeps z s) :
    ∀ o, execCoreWait c tag vid expected s = .next o → Keeps z o := by
  intro o ho
  cases ho
  repeat' first
    | with_reducible assumption | with_reducible apply State.push_keeps | with_reducible apply settle_keeps
    | with_reducible apply keeps_ite | intro _ | split

theorem execCoreProbe_keeps {z s : State} {c : Nat} {tag : Nat} {vid : Nat} (h : Keeps z s) :
    ∀ o, execCoreProbe c tag vid s = .next o → Keeps z o := by
  intro o ho
  cases ho
  repeat' first
    | with_reducible assumption | with_reducible apply State.push_keeps | with_reducible apply settle_keeps
    | with_reducible apply keeps_ite | intro _ | split

theorem execCcSignal_keeps {z s : State} {c : Nat} {k : CcReq} {inc : Nat} (h : Keeps z s) :
    ∀ o, execCcSignal c k inc s = .next o → Keeps z o := by
  intro o ho
  cases ho
  repeat' first
    | with_reducible assumption | with_reducible apply State.ccSignal_keeps | with_reducible apply settle_keeps
    | with_reducible apply keeps_ite | intro _ | split

theorem execCcWait_keeps {z s : State} {c : Nat} {tag : Nat} {k : Nat} (h : Keeps z s) :
    ∀ o, execCcWait c tag k s = .next o → Keeps z o := by
  intro o ho
  cases ho
  repeat' first
    | with_reducible assumption | with_reducible apply State.ccWait_keeps | with_reducible apply settle_keeps
    | with_reducible apply keeps_ite | intro _ | split

theorem execCcTake_keeps {z s : State} {c : Nat} {tag : Nat} {k : Nat} {op : Nat} (h : Keeps z s) :
    ∀ o, execCcTake c tag k op s = .next o → Keeps z o := by
  intro o ho
  cases ho
  repeat' first
    | with_reducible assumption | with_reducible apply State.ccTake_keeps | with_reducible apply settle_keeps
    | with_reducible apply keeps_ite | intro _ | split

theorem execCcRead_keeps {z s : State} {c : Nat} {tag : Nat} {k : Nat} (h : Keeps z s) :
    ∀ o, execCcRead c tag k s = .next o → Keeps z o := by
  intro o ho
  cases ho
  repeat' first
    | with_reducible assumption | with_reducible apply State.ccRead_keeps | with_reducible apply settle_keeps
    | with_reducible apply keeps_ite | intro _ | split

theorem execStageBeatRefused_keeps {z s : State} {c : Nat} (h : Keeps z s) :
    ∀ o, execStageBeatRefused c s = .next o → Keeps z o := by
  intro o ho
  cases ho
  repeat' first
    | with_reducible assumption | with_reducible apply State.stageBeat_keeps | with_reducible apply settle_keeps
    | with_reducible apply keeps_ite | intro _ | split

theorem execSpecAccessAttempt_keeps {z s : State} {c : Nat} (h : Keeps z s) :
    ∀ o, execSpecAccessAttempt c s = .next o → Keeps z o := by
  intro o ho
  cases ho
  repeat' first
    | with_reducible assumption | with_reducible apply State.specAccess_keeps | with_reducible apply settle_keeps
    | with_reducible apply keeps_ite | intro _ | split

theorem execBudgetExpiry_keeps {z s : State} {c : Nat} {t : Nat} (h : Keeps z s) :
    ∀ o, execBudgetExpiry c t s = .next o → Keeps z o := by
  intro o ho
  cases ho
  repeat' first
    | with_reducible assumption | with_reducible apply State.at_keeps | with_reducible apply State.budgetExpiry_keeps
    | with_reducible apply settle_keeps | with_reducible apply keeps_ite | intro _ | split

theorem execTileStallTimeout_keeps {z s : State} {c : Nat} {t : Nat} (h : Keeps z s) :
    ∀ o, execTileStallTimeout c t s = .next o → Keeps z o := by
  intro o ho
  cases ho
  repeat' first
    | with_reducible assumption | with_reducible apply State.at_keeps | with_reducible apply State.stallTimeout_keeps
    | with_reducible apply settle_keeps | with_reducible apply keeps_ite | intro _ | split

theorem execPortFault_keeps {z s : State} {c : Nat} {channel : Nat} {t : Nat} (h : Keeps z s) :
    ∀ o, execPortFault c channel t s = .next o → Keeps z o := by
  intro o ho
  cases ho
  repeat' first
    | with_reducible assumption | with_reducible apply State.at_keeps | with_reducible apply State.portFault_keeps
    | with_reducible apply settle_keeps | with_reducible apply keeps_ite | intro _ | split

theorem execDelayTick_keeps {z s : State} {k : Nat} (h : Keeps z s) :
    ∀ o, execDelayTick k s = .next o → Keeps z o := by
  intro o ho
  cases ho
  repeat' first
    | with_reducible assumption | with_reducible apply State.push_keeps | with_reducible apply settle_keeps
    | with_reducible apply keeps_ite | intro _ | split

theorem execDelayTaskWake_keeps {z s : State} {t : Nat} (h : Keeps z s) :
    ∀ o, execDelayTaskWake t s = .next o → Keeps z o := by
  intro o ho
  cases ho
  repeat' first
    | with_reducible assumption | with_reducible apply State.at_keeps | with_reducible apply State.wakeHead_keeps
    | with_reducible apply settle_keeps | with_reducible apply keeps_ite | intro _ | split

theorem execPostedSignalWake_keeps {z s : State} {t : Nat} (h : Keeps z s) :
    ∀ o, execPostedSignalWake t s = .next o → Keeps z o := by
  intro o ho
  cases ho
  repeat' first
    | with_reducible assumption | with_reducible apply State.at_keeps | with_reducible apply State.wakeHead_keeps
    | with_reducible apply settle_keeps | with_reducible apply keeps_ite | intro _ | split

theorem execPostedLaunchWake_keeps {z s : State} {t : Nat} (h : Keeps z s) :
    ∀ o, execPostedLaunchWake t s = .next o → Keeps z o := by
  intro o ho
  cases ho
  repeat' first
    | with_reducible assumption | with_reducible apply State.at_keeps | with_reducible apply State.wakeHead_keeps
    | with_reducible apply settle_keeps | with_reducible apply keeps_ite | intro _ | split

theorem execQuantumWindowEnd_keeps {z s : State} {ctx : Nat} {t : Nat} (h : Keeps z s) :
    ∀ o, execQuantumWindowEnd ctx t s = .next o → Keeps z o := by
  intro o ho
  cases ho
  repeat' first
    | with_reducible assumption | with_reducible apply State.at_keeps | with_reducible apply State.windowEnd_keeps
    | with_reducible apply settle_keeps | with_reducible apply keeps_ite | intro _ | split

theorem execSuspendComplete_keeps {z s : State} {ctx : Nat} {t : Nat} (h : Keeps z s) :
    ∀ o, execSuspendComplete ctx t s = .next o → Keeps z o := by
  intro o ho
  cases ho
  repeat' first
    | with_reducible assumption | with_reducible apply State.at_keeps | with_reducible apply State.suspendFinish_keeps
    | with_reducible apply State.refillAll_keeps | with_reducible apply settle_keeps | with_reducible apply keeps_ite
    | intro _ | split

theorem execMakeResident_keeps {z s : State} {t : Nat} (h : Keeps z s) :
    ∀ o, execMakeResident t s = .next o → Keeps z o := by
  intro o ho
  cases ho
  repeat' first
    | with_reducible assumption | with_reducible apply State.at_keeps | with_reducible apply State.makeResident_keeps
    | with_reducible apply settle_keeps | with_reducible apply keeps_ite | intro _ | split

theorem execSuspendDrainLimit_keeps {z s : State} {ctx : Nat} {t : Nat} (h : Keeps z s) :
    ∀ o, execSuspendDrainLimit ctx t s = .next o → Keeps z o := by
  intro o ho
  cases ho
  repeat' first
    | with_reducible assumption | with_reducible apply State.at_keeps | with_reducible apply State.drainLimit_keeps
    | with_reducible apply settle_keeps | with_reducible apply keeps_ite | intro _ | split

/-! ## FirmwareRows -/

theorem execFwCoreTrap_keeps {z s : State} {k : Nat} {mcause : Word} {t : Nat} (h : Keeps z s) :
    ∀ o, execFwCoreTrap k mcause t s = .next o → Keeps z o := by
  intro o ho
  cases ho
  repeat' first
    | with_reducible assumption | with_reducible apply State.at_keeps | with_reducible apply State.fwCrash_keeps
    | with_reducible apply settle_keeps | with_reducible apply keeps_ite | intro _ | split

theorem execFwWatchdog_keeps {z s : State} {k : Nat} {t : Nat} (h : Keeps z s) :
    ∀ o, execFwWatchdog k t s = .next o → Keeps z o := by
  intro o ho
  cases ho
  repeat' first
    | with_reducible assumption | with_reducible apply State.at_keeps | with_reducible apply State.fwCrash_keeps
    | with_reducible apply settle_keeps | with_reducible apply keeps_ite | intro _ | split

theorem execFwRestartEnd_keeps {z s : State} {k : Nat} {t : Nat} (h : Keeps z s) :
    ∀ o, execFwRestartEnd k t s = .next o → Keeps z o := by
  intro o ho
  cases ho
  repeat' first
    | with_reducible assumption | with_reducible apply State.at_keeps | with_reducible apply State.refillAll_keeps
    | with_reducible apply State.fwRestartEnd_keeps
    | with_reducible apply settle_keeps | with_reducible apply keeps_ite | intro _ | split

theorem execPing_keeps {z s : State} {arg : Nat} (h : Keeps z s) :
    ∀ o, execPing arg s = .next o → Keeps z o := by
  intro o ho
  cases ho
  repeat' first
    | with_reducible assumption | with_reducible apply State.mboxCmd_keeps | with_reducible apply State.onUnits_keeps
    | with_reducible apply settle_keeps | with_reducible apply keeps_ite | intro _ | split

theorem execPolicyRead_keeps {z s : State} {arg : Nat} (h : Keeps z s) :
    ∀ o, execPolicyRead arg s = .next o → Keeps z o := by
  intro o ho
  cases ho
  repeat' first
    | with_reducible assumption | with_reducible apply State.mboxCmd_keeps | with_reducible apply State.onUnits_keeps
    | with_reducible apply settle_keeps | with_reducible apply keeps_ite | intro _ | split

theorem execPolicyWrite_keeps {z s : State} {arg : Nat} {v : Word} (h : Keeps z s) :
    ∀ o, execPolicyWrite arg v s = .next o → Keeps z o := by
  intro o ho
  cases ho
  repeat' first
    | with_reducible assumption | with_reducible apply State.mboxCmd_keeps | with_reducible apply State.mboxWrite_keeps
    | with_reducible apply State.onUnits_keeps | with_reducible apply settle_keeps | with_reducible apply keeps_ite
    | intro _ | split

theorem execSetHerdGroup_keeps {z s : State} {arg : Nat} {v : Word} (h : Keeps z s) :
    ∀ o, execSetHerdGroup arg v s = .next o → Keeps z o := by
  intro o ho
  cases ho
  repeat' first
    | with_reducible assumption | with_reducible apply State.mboxCmd_keeps | with_reducible apply State.mboxWrite_keeps
    | with_reducible apply State.onUnits_keeps | with_reducible apply settle_keeps | with_reducible apply keeps_ite
    | intro _ | split

theorem execRestartCore_keeps {z s : State} {k : Nat} {t : Nat} (h : Keeps z s) :
    ∀ o, execRestartCore k t s = .next o → Keeps z o := by
  intro o ho
  cases ho
  repeat' first
    | with_reducible assumption | with_reducible apply State.at_keeps | with_reducible apply State.mboxCmd_keeps
    | with_reducible apply State.onUnits_keeps | with_reducible apply settle_keeps | with_reducible apply keeps_ite
    | intro _ | split

theorem execEntdaa_keeps {z s : State} {da : Nat} (h : Keeps z s) :
    ∀ o, execEntdaa da s = .next o → Keeps z o := by
  intro o ho
  cases ho
  repeat' first
    | with_reducible assumption | with_reducible apply State.entdaa_keeps | with_reducible apply settle_keeps
    | with_reducible apply keeps_ite | intro _ | split

theorem execRstdaa_keeps {z s : State} (h : Keeps z s) :
    ∀ o, execRstdaa s = .next o → Keeps z o := by
  intro o ho
  cases ho
  repeat' first
    | with_reducible assumption | with_reducible apply State.rstdaa_keeps | with_reducible apply settle_keeps
    | with_reducible apply keeps_ite | intro _ | split

theorem execI3cCcc_keeps {z s : State} {code : Nat} {data : Nat} (h : Keeps z s) :
    ∀ o, execI3cCcc code data s = .next o → Keeps z o := by
  intro o ho
  cases ho
  repeat' first
    | with_reducible assumption | with_reducible apply State.i3cCcc_keeps | with_reducible apply settle_keeps
    | with_reducible apply keeps_ite | intro _ | split

theorem execHealthGet_keeps {z s : State} (h : Keeps z s) :
    ∀ o, execHealthGet s = .next o → Keeps z o := by
  intro o ho
  cases ho
  repeat' first
    | with_reducible assumption | with_reducible apply State.healthGet_keeps | with_reducible apply settle_keeps
    | with_reducible apply keeps_ite | intro _ | split

theorem execMctpStudbookRead_keeps {z s : State} {first : Nat} (h : Keeps z s) :
    ∀ o, execMctpStudbookRead first s = .next o → Keeps z o := by
  intro o ho
  cases ho
  repeat' first
    | with_reducible assumption | with_reducible apply State.mctpStudbook_keeps | with_reducible apply settle_keeps
    | with_reducible apply keeps_ite | intro _ | split

theorem execMctpControl_keeps {z s : State} {code : Nat} {data : Nat} (h : Keeps z s) :
    ∀ o, execMctpControl code data s = .next o → Keeps z o := by
  intro o ho
  cases ho
  repeat' first
    | with_reducible assumption | with_reducible apply State.mctpControl_keeps | with_reducible apply settle_keeps
    | with_reducible apply keeps_ite | intro _ | split

theorem execIbiAcknowledge_keeps {z s : State} {cause : Nat} (h : Keeps z s) :
    ∀ o, execIbiAcknowledge cause s = .next o → Keeps z o := by
  intro o ho
  cases ho
  repeat' first
    | with_reducible assumption | with_reducible apply State.ibiAck_keeps | with_reducible apply settle_keeps
    | with_reducible apply keeps_ite | intro _ | split

/-! ## FrontEnd -/

theorem execNop_keeps {z s : State} {q : Nat} {w : List Word} (h : Keeps z s) :
    ∀ o, execNop q w s = .next o → Keeps z o := by
  intro o ho
  cases ho
  repeat' first
    | with_reducible assumption | with_reducible apply State.complete_keeps | with_reducible apply State.hwCmd_keeps
    | with_reducible apply settle_keeps | with_reducible apply keeps_ite | intro _ | split

theorem execGraphLoad_keeps {z s : State} {q : Nat} {w : List Word} (h : Keeps z s) :
    ∀ o, execGraphLoad q w s = .next o → Keeps z o := by
  intro o ho
  cases ho
  repeat' first
    | with_reducible assumption | with_reducible apply State.hwCmd_keeps | with_reducible apply State.effGraphLoad_keeps
    | with_reducible apply settle_keeps | with_reducible apply keeps_ite | intro _ | split

theorem execGraphLaunch_keeps {z s : State} {q : Nat} {w : List Word} (h : Keeps z s) :
    ∀ o, execGraphLaunch q w s = .next o → Keeps z o := by
  intro o ho
  cases ho
  repeat' first
    | with_reducible assumption | with_reducible apply State.hwCmd_keeps | with_reducible apply State.effGraphLaunch_keeps
    | with_reducible apply settle_keeps | with_reducible apply keeps_ite | intro _ | split

theorem execSignal_keeps {z s : State} {q : Nat} {w : List Word} (h : Keeps z s) :
    ∀ o, execSignal q w s = .next o → Keeps z o := by
  intro o ho
  cases ho
  repeat' first
    | with_reducible assumption | with_reducible apply State.hwCmd_keeps | with_reducible apply State.effSignal_keeps
    | with_reducible apply settle_keeps | with_reducible apply keeps_ite | intro _ | split

theorem execWait_keeps {z s : State} {q : Nat} {w : List Word} (h : Keeps z s) :
    ∀ o, execWait q w s = .next o → Keeps z o := by
  intro o ho
  cases ho
  repeat' first
    | with_reducible assumption | with_reducible apply State.hwCmd_keeps | with_reducible apply State.effWait_keeps
    | with_reducible apply settle_keeps | with_reducible apply keeps_ite | intro _ | split

theorem execSignalRemote_keeps {z s : State} {q : Nat} {w : List Word} (h : Keeps z s) :
    ∀ o, execSignalRemote q w s = .next o → Keeps z o := by
  intro o ho
  cases ho
  repeat' first
    | with_reducible assumption | with_reducible apply State.hwCmd_keeps | with_reducible apply State.effSignalRemote_keeps
    | with_reducible apply settle_keeps | with_reducible apply keeps_ite | intro _ | split

theorem execPeerWrite_keeps {z s : State} {q : Nat} {w : List Word} (h : Keeps z s) :
    ∀ o, execPeerWrite q w s = .next o → Keeps z o := by
  intro o ho
  cases ho
  repeat' first
    | with_reducible assumption | with_reducible apply State.hwCmd_keeps | with_reducible apply State.effPeerWrite_keeps
    | with_reducible apply settle_keeps | with_reducible apply keeps_ite | intro _ | split

theorem execCancel_keeps {z s : State} {q : Nat} {w : List Word} (h : Keeps z s) :
    ∀ o, execCancel q w s = .next o → Keeps z o := by
  intro o ho
  cases ho
  repeat' first
    | with_reducible assumption | with_reducible apply State.hwCmd_keeps | with_reducible apply State.effCancel_keeps
    | with_reducible apply settle_keeps | with_reducible apply keeps_ite | intro _ | split

theorem execCtxCreate_keeps {z s : State} {q : Nat} {w : List Word} (h : Keeps z s) :
    ∀ o, execCtxCreate q w s = .next o → Keeps z o := by
  intro o ho
  cases ho
  repeat' first
    | with_reducible assumption | with_reducible apply State.fwCmd_keeps | with_reducible apply State.effCtxCreate_keeps
    | with_reducible apply settle_keeps | with_reducible apply keeps_ite | intro _ | split

theorem execCtxDestroy_keeps {z s : State} {q : Nat} {w : List Word} (h : Keeps z s) :
    ∀ o, execCtxDestroy q w s = .next o → Keeps z o := by
  intro o ho
  cases ho
  repeat' first
    | with_reducible assumption | with_reducible apply State.fwCmd_keeps | with_reducible apply State.effCtxDestroy_keeps
    | with_reducible apply settle_keeps | with_reducible apply keeps_ite | intro _ | split

theorem execCtxSuspend_keeps {z s : State} {q : Nat} {w : List Word} (h : Keeps z s) :
    ∀ o, execCtxSuspend q w s = .next o → Keeps z o := by
  intro o ho
  cases ho
  repeat' first
    | with_reducible assumption | with_reducible apply State.fwCmd_keeps | with_reducible apply State.effCtxSuspend_keeps
    | with_reducible apply settle_keeps | with_reducible apply keeps_ite | intro _ | split

theorem execCtxResume_keeps {z s : State} {q : Nat} {w : List Word} (h : Keeps z s) :
    ∀ o, execCtxResume q w s = .next o → Keeps z o := by
  intro o ho
  cases ho
  repeat' first
    | with_reducible assumption | with_reducible apply State.fwCmd_keeps | with_reducible apply State.effCtxResume_keeps
    | with_reducible apply settle_keeps | with_reducible apply keeps_ite | intro _ | split

theorem execCounterMap_keeps {z s : State} {q : Nat} {w : List Word} (h : Keeps z s) :
    ∀ o, execCounterMap q w s = .next o → Keeps z o := by
  intro o ho
  cases ho
  repeat' first
    | with_reducible assumption | with_reducible apply State.fwCmd_keeps | with_reducible apply State.effCounterMap_keeps
    | with_reducible apply settle_keeps | with_reducible apply keeps_ite | intro _ | split

theorem execTilePool_keeps {z s : State} {q : Nat} {w : List Word} (h : Keeps z s) :
    ∀ o, execTilePool q w s = .next o → Keeps z o := by
  intro o ho
  cases ho
  repeat' first
    | with_reducible assumption | with_reducible apply State.fwCmd_keeps | with_reducible apply State.effTilePool_keeps
    | with_reducible apply settle_keeps | with_reducible apply keeps_ite | intro _ | split

theorem execGeProgramLoad_keeps {z s : State} {q : Nat} {w : List Word} (h : Keeps z s) :
    ∀ o, execGeProgramLoad q w s = .next o → Keeps z o := by
  intro o ho
  cases ho
  repeat' first
    | with_reducible assumption | with_reducible apply State.fwCmd_keeps | with_reducible apply State.effGeProgramLoad_keeps
    | with_reducible apply settle_keeps | with_reducible apply keeps_ite | intro _ | split

theorem execFlowConfig_keeps {z s : State} {q : Nat} {w : List Word} (h : Keeps z s) :
    ∀ o, execFlowConfig q w s = .next o → Keeps z o := by
  intro o ho
  cases ho
  repeat' first
    | with_reducible assumption | with_reducible apply State.fwCmd_keeps | with_reducible apply State.effFlowConfig_keeps
    | with_reducible apply settle_keeps | with_reducible apply keeps_ite | intro _ | split

theorem execCarJoin_keeps {z s : State} {q : Nat} {w : List Word} (h : Keeps z s) :
    ∀ o, execCarJoin q w s = .next o → Keeps z o := by
  intro o ho
  cases ho
  repeat' first
    | with_reducible assumption | with_reducible apply State.carCmd_keeps | with_reducible apply State.effCarJoin_keeps
    | with_reducible apply settle_keeps | with_reducible apply keeps_ite | intro _ | split

theorem execCarLeave_keeps {z s : State} {q : Nat} {w : List Word} (h : Keeps z s) :
    ∀ o, execCarLeave q w s = .next o → Keeps z o := by
  intro o ho
  cases ho
  repeat' first
    | with_reducible assumption | with_reducible apply State.carCmd_keeps | with_reducible apply State.effCarLeave_keeps
    | with_reducible apply settle_keeps | with_reducible apply keeps_ite | intro _ | split

theorem execCarStep_keeps {z s : State} {q : Nat} {w : List Word} (h : Keeps z s) :
    ∀ o, execCarStep q w s = .next o → Keeps z o := by
  intro o ho
  cases ho
  repeat' first
    | with_reducible assumption | with_reducible apply State.carCmd_keeps | with_reducible apply State.effCarStep_keeps
    | with_reducible apply settle_keeps | with_reducible apply keeps_ite | intro _ | split

theorem execDelayPost_keeps {z s : State} {q : Nat} {w : List Word} (h : Keeps z s) :
    ∀ o, execDelayPost q w s = .next o → Keeps z o := by
  intro o ho
  cases ho
  repeat' first
    | with_reducible assumption | with_reducible apply State.hwCmd_keeps | with_reducible apply State.effDelayPost_keeps
    | with_reducible apply settle_keeps | with_reducible apply keeps_ite | intro _ | split

theorem execQuery_keeps {z s : State} {q : Nat} {w : List Word} (h : Keeps z s) :
    ∀ o, execQuery q w s = .next o → Keeps z o := by
  intro o ho
  cases ho
  repeat' first
    | with_reducible assumption | with_reducible apply State.fwCmd_keeps | with_reducible apply State.effQuery_keeps
    | with_reducible apply settle_keeps | with_reducible apply keeps_ite | intro _ | split

theorem execStatSnapshot_keeps {z s : State} {q : Nat} {w : List Word} (h : Keeps z s) :
    ∀ o, execStatSnapshot q w s = .next o → Keeps z o := by
  intro o ho
  cases ho
  repeat' first
    | with_reducible assumption | with_reducible apply State.fwCmd_keeps | with_reducible apply State.effStatSnapshot_keeps
    | with_reducible apply settle_keeps | with_reducible apply keeps_ite | intro _ | split

theorem execQueueReset_keeps {z s : State} {q : Nat} {w : List Word} (h : Keeps z s) :
    ∀ o, execQueueReset q w s = .next o → Keeps z o := by
  intro o ho
  cases ho
  repeat' first
    | with_reducible assumption | with_reducible apply State.fwCmd_keeps | with_reducible apply State.effQueueReset_keeps
    | with_reducible apply settle_keeps | with_reducible apply keeps_ite | intro _ | split

theorem execDebugSetCounter_keeps {z s : State} {q : Nat} {w : List Word} (h : Keeps z s) :
    ∀ o, execDebugSetCounter q w s = .next o → Keeps z o := by
  intro o ho
  cases ho
  repeat' first
    | with_reducible assumption | with_reducible apply State.fwCmd_keeps | with_reducible apply State.push_keeps
    | with_reducible apply settle_keeps | with_reducible apply keeps_ite | intro _ | split

theorem execFwUpdate_keeps {z s : State} {q : Nat} {w : List Word} (h : Keeps z s) :
    ∀ o, execFwUpdate q w s = .next o → Keeps z o := by
  intro o ho
  cases ho
  repeat' first
    | with_reducible assumption | with_reducible apply State.fwCmd_keeps | with_reducible apply State.effFwUpdate_keeps
    | with_reducible apply settle_keeps | with_reducible apply keeps_ite | intro _ | split

theorem execStudbookRead_keeps {z s : State} {q : Nat} {w : List Word} (h : Keeps z s) :
    ∀ o, execStudbookRead q w s = .next o → Keeps z o := by
  intro o ho
  cases ho
  repeat' first
    | with_reducible assumption | with_reducible apply State.fwCmd_keeps | with_reducible apply State.effStudbookRead_keeps
    | with_reducible apply settle_keeps | with_reducible apply keeps_ite | intro _ | split

theorem execHealthAck_keeps {z s : State} {q : Nat} {w : List Word} (h : Keeps z s) :
    ∀ o, execHealthAck q w s = .next o → Keeps z o := by
  intro o ho
  cases ho
  repeat' first
    | with_reducible assumption | with_reducible apply State.fwCmd_keeps | with_reducible apply State.effHealthAck_keeps
    | with_reducible apply settle_keeps | with_reducible apply keeps_ite | intro _ | split

theorem execBlockReset_keeps {z s : State} {q : Nat} {w : List Word} (h : Keeps z s) :
    ∀ o, execBlockReset q w s = .next o → Keeps z o := by
  intro o ho
  cases ho
  repeat' first
    | with_reducible assumption | with_reducible apply State.fwCmd_keeps | with_reducible apply State.effBlockReset_keeps
    | with_reducible apply settle_keeps | with_reducible apply keeps_ite | intro _ | split

theorem execCfePacketCheck_keeps {z s : State} {q : Nat} {t : Nat} (h : Keeps z s) :
    ∀ o, execCfePacketCheck q t s = .next o → Keeps z o := by
  intro o ho
  cases ho
  repeat' first
    | with_reducible assumption | with_reducible apply State.at_keeps | with_reducible apply State.packetCheck_keeps
    | with_reducible apply settle_keeps | with_reducible apply keeps_ite | intro _ | split

theorem execFwTakeUp_keeps {z s : State} {role : Nat} {t : Nat} (h : Keeps z s) :
    ∀ o, execFwTakeUp role t s = .next o → Keeps z o := by
  intro o ho
  cases ho
  repeat' first
    | with_reducible assumption | with_reducible apply State.at_keeps | with_reducible apply State.takeUp_keeps
    | with_reducible apply settle_keeps | with_reducible apply keeps_ite | intro _ | split

theorem execFwBusyExpiry_keeps {z s : State} {q : Nat} {seq : Nat} {t : Nat} (h : Keeps z s) :
    ∀ o, execFwBusyExpiry q seq t s = .next o → Keeps z o := by
  intro o ho
  cases ho
  repeat' first
    | with_reducible assumption | with_reducible apply State.at_keeps | with_reducible apply State.fwBusy_keeps
    | with_reducible apply settle_keeps | with_reducible apply keeps_ite | intro _ | split

theorem execDbTailWrite_keeps {z s : State} {q : Nat} {v : Word} (h : Keeps z s) :
    ∀ o, execDbTailWrite q v s = .next o → Keeps z o := by
  intro o ho
  cases ho
  repeat' first
    | with_reducible assumption | with_reducible apply State.dbTail_keeps | with_reducible apply State.onUnits_keeps
    | with_reducible apply settle_keeps | with_reducible apply keeps_ite | intro _ | split

theorem execDbCplHeadWrite_keeps {z s : State} {q : Nat} {v : Word} (h : Keeps z s) :
    ∀ o, execDbCplHeadWrite q v s = .next o → Keeps z o := by
  intro o ho
  cases ho
  repeat' first
    | with_reducible assumption | with_reducible apply State.dbCplHead_keeps | with_reducible apply State.onUnits_keeps
    | with_reducible apply settle_keeps | with_reducible apply keeps_ite | intro _ | split

theorem execQueueEnable_keeps {z s : State} {q : Nat} (h : Keeps z s) :
    ∀ o, execQueueEnable q s = .next o → Keeps z o := by
  intro o ho
  cases ho
  repeat' first
    | with_reducible assumption | with_reducible apply State.queueEnable_keeps | with_reducible apply State.onUnits_keeps
    | with_reducible apply settle_keeps | with_reducible apply keeps_ite | intro _ | split

theorem execQueueDisable_keeps {z s : State} {q : Nat} (h : Keeps z s) :
    ∀ o, execQueueDisable q s = .next o → Keeps z o := by
  intro o ho
  cases ho
  repeat' first
    | with_reducible assumption | with_reducible apply State.queueDisable_keeps | with_reducible apply State.onUnits_keeps
    | with_reducible apply settle_keeps | with_reducible apply keeps_ite | intro _ | split

theorem execQueue0Reset_keeps {z s : State} (h : Keeps z s) :
    ∀ o, execQueue0Reset s = .next o → Keeps z o := by
  intro o ho
  cases ho
  repeat' first
    | with_reducible assumption | with_reducible apply State.queue0Reset_keeps | with_reducible apply State.onUnits_keeps
    | with_reducible apply settle_keeps | with_reducible apply keeps_ite | intro _ | split

theorem execQattrWrite_keeps {z s : State} {off : Nat} {v : Word} (h : Keeps z s) :
    ∀ o, execQattrWrite off v s = .next o → Keeps z o := by
  intro o ho
  cases ho
  repeat' first
    | with_reducible assumption | with_reducible apply State.qattr_keeps | with_reducible apply State.onUnits_keeps
    | with_reducible apply settle_keeps | with_reducible apply keeps_ite | intro _ | split

theorem execCfeSlotQueueWrite_keeps {z s : State} {n : Nat} {v : Word} (h : Keeps z s) :
    ∀ o, execCfeSlotQueueWrite n v s = .next o → Keeps z o := by
  intro o ho
  cases ho
  repeat' first
    | with_reducible assumption | with_reducible apply State.slotQueue_keeps | with_reducible apply State.onUnits_keeps
    | with_reducible apply settle_keeps | with_reducible apply keeps_ite | intro _ | split

theorem execDisplace_keeps {z s : State} {n : Nat} (h : Keeps z s) :
    ∀ o, execDisplace n s = .next o → Keeps z o := by
  intro o ho
  cases ho
  repeat' first
    | with_reducible assumption | with_reducible apply State.displaceBit_keeps | with_reducible apply State.onUnits_keeps
    | with_reducible apply settle_keeps | with_reducible apply keeps_ite | intro _ | split

theorem execSlotEnableWrite_keeps {z s : State} {n : Nat} {enable : Bool} (h : Keeps z s) :
    ∀ o, execSlotEnableWrite n enable s = .next o → Keeps z o := by
  intro o ho
  cases ho
  repeat' first
    | with_reducible assumption | with_reducible apply State.slotEnable_keeps | with_reducible apply State.onUnits_keeps
    | with_reducible apply settle_keeps | with_reducible apply keeps_ite | intro _ | split

theorem execSlotGrant_keeps {z s : State} {n : Nat} {t : Nat} (h : Keeps z s) :
    ∀ o, execSlotGrant n t s = .next o → Keeps z o := by
  intro o ho
  cases ho
  repeat' first
    | with_reducible assumption | with_reducible apply State.at_keeps | with_reducible apply State.slotGrant_keeps
    | with_reducible apply settle_keeps | with_reducible apply keeps_ite | intro _ | split

theorem execSlotDisplace_keeps {z s : State} {t : Nat} (h : Keeps z s) :
    ∀ o, execSlotDisplace t s = .next o → Keeps z o := by
  intro o ho
  cases ho
  repeat' first
    | with_reducible assumption | with_reducible apply State.at_keeps | with_reducible apply State.slotDisplace_keeps
    | with_reducible apply settle_keeps | with_reducible apply keeps_ite | intro _ | split

theorem execSlotIdleRelease_keeps {z s : State} {n : Nat} {t : Nat} (h : Keeps z s) :
    ∀ o, execSlotIdleRelease n t s = .next o → Keeps z o := by
  intro o ho
  cases ho
  repeat' first
    | with_reducible assumption | with_reducible apply State.at_keeps | with_reducible apply State.slotIdle_keeps
    | with_reducible apply settle_keeps | with_reducible apply keeps_ite | intro _ | split

theorem execSlotBlockedRelease_keeps {z s : State} {n : Nat} {t : Nat} (h : Keeps z s) :
    ∀ o, execSlotBlockedRelease n t s = .next o → Keeps z o := by
  intro o ho
  cases ho
  repeat' first
    | with_reducible assumption | with_reducible apply State.at_keeps | with_reducible apply State.slotBlocked_keeps
    | with_reducible apply settle_keeps | with_reducible apply keeps_ite | intro _ | split

theorem execWaitTimeout_keeps {z s : State} {q : Nat} {t : Nat} (h : Keeps z s) :
    ∀ o, execWaitTimeout q t s = .next o → Keeps z o := by
  intro o ho
  cases ho
  repeat' first
    | with_reducible assumption | with_reducible apply State.at_keeps | with_reducible apply State.waitTimeout_keeps
    | with_reducible apply settle_keeps | with_reducible apply keeps_ite | intro _ | split

theorem execGraphWatchdog_keeps {z s : State} {q : Nat} {seq : Nat} {t : Nat} (h : Keeps z s) :
    ∀ o, execGraphWatchdog q seq t s = .next o → Keeps z o := by
  intro o ho
  cases ho
  repeat' first
    | with_reducible assumption | with_reducible apply State.at_keeps | with_reducible apply State.graphWatchdog_keeps
    | with_reducible apply settle_keeps | with_reducible apply keeps_ite | intro _ | split

/-! ## GateCore -/

theorem execGeTaskStart_keeps {z s : State} {g : Nat} {t : Nat} (h : Keeps z s) :
    ∀ o, execGeTaskStart g t s = .next o → Keeps z o := by
  intro o ho
  cases ho
  repeat' first
    | with_reducible assumption | with_reducible apply State.at_keeps | with_reducible apply State.geStart_keeps
    | with_reducible apply settle_keeps | with_reducible apply keeps_ite | intro _ | split

theorem execGePassEnd_keeps {z s : State} {g : Nat} {t : Nat} (h : Keeps z s) :
    ∀ o, execGePassEnd g t s = .next o → Keeps z o := by
  intro o ho
  cases ho
  repeat' first
    | with_reducible assumption | with_reducible apply State.at_keeps | with_reducible apply State.gePassEnd_keeps
    | with_reducible apply settle_keeps | with_reducible apply keeps_ite | intro _ | split

theorem execGateBudgetExpiry_keeps {z s : State} {g : Nat} {t : Nat} (h : Keeps z s) :
    ∀ o, execGateBudgetExpiry g t s = .next o → Keeps z o := by
  intro o ho
  cases ho
  repeat' first
    | with_reducible assumption | with_reducible apply State.at_keeps | with_reducible apply State.geBudget_keeps
    | with_reducible apply settle_keeps | with_reducible apply keeps_ite | intro _ | split

theorem execGeNop_keeps {z s : State} {g : Nat} (h : Keeps z s) :
    ∀ o, execGeNop g s = .next o → Keeps z o := by
  intro o ho
  cases ho
  repeat' first
    | with_reducible assumption | with_reducible apply State.geNext_keeps | with_reducible apply State.geOp_keeps
    | with_reducible apply settle_keeps | with_reducible apply keeps_ite | intro _ | split

theorem execLi_keeps {z s : State} {g : Nat} {d : Nat} {imm : BitVec 32} (h : Keeps z s) :
    ∀ o, execLi g d imm s = .next o → Keeps z o := by
  intro o ho
  cases ho
  repeat' first
    | with_reducible assumption | with_reducible apply State.geSet_keeps | with_reducible apply settle_keeps
    | with_reducible apply keeps_ite | intro _ | split

theorem execLih_keeps {z s : State} {g : Nat} {d : Nat} {imm : BitVec 32} (h : Keeps z s) :
    ∀ o, execLih g d imm s = .next o → Keeps z o := by
  intro o ho
  cases ho
  repeat' first
    | with_reducible assumption | with_reducible apply State.geAlu_keeps | with_reducible apply settle_keeps
    | with_reducible apply keeps_ite | intro _ | split

theorem execAdd_keeps {z s : State} {g : Nat} {d : Nat} {a : Nat} {b : Nat} (h : Keeps z s) :
    ∀ o, execAdd g d a b s = .next o → Keeps z o := by
  intro o ho
  cases ho
  repeat' first
    | with_reducible assumption | with_reducible apply State.geAlu_keeps | with_reducible apply settle_keeps
    | with_reducible apply keeps_ite | intro _ | split

theorem execSub_keeps {z s : State} {g : Nat} {d : Nat} {a : Nat} {b : Nat} (h : Keeps z s) :
    ∀ o, execSub g d a b s = .next o → Keeps z o := by
  intro o ho
  cases ho
  repeat' first
    | with_reducible assumption | with_reducible apply State.geAlu_keeps | with_reducible apply settle_keeps
    | with_reducible apply keeps_ite | intro _ | split

theorem execAnd_keeps {z s : State} {g : Nat} {d : Nat} {a : Nat} {b : Nat} (h : Keeps z s) :
    ∀ o, execAnd g d a b s = .next o → Keeps z o := by
  intro o ho
  cases ho
  repeat' first
    | with_reducible assumption | with_reducible apply State.geAlu_keeps | with_reducible apply settle_keeps
    | with_reducible apply keeps_ite | intro _ | split

theorem execOr_keeps {z s : State} {g : Nat} {d : Nat} {a : Nat} {b : Nat} (h : Keeps z s) :
    ∀ o, execOr g d a b s = .next o → Keeps z o := by
  intro o ho
  cases ho
  repeat' first
    | with_reducible assumption | with_reducible apply State.geAlu_keeps | with_reducible apply settle_keeps
    | with_reducible apply keeps_ite | intro _ | split

theorem execXor_keeps {z s : State} {g : Nat} {d : Nat} {a : Nat} {b : Nat} (h : Keeps z s) :
    ∀ o, execXor g d a b s = .next o → Keeps z o := by
  intro o ho
  cases ho
  repeat' first
    | with_reducible assumption | with_reducible apply State.geAlu_keeps | with_reducible apply settle_keeps
    | with_reducible apply keeps_ite | intro _ | split

theorem execShl_keeps {z s : State} {g : Nat} {d : Nat} {a : Nat} {b : Nat} (h : Keeps z s) :
    ∀ o, execShl g d a b s = .next o → Keeps z o := by
  intro o ho
  cases ho
  repeat' first
    | with_reducible assumption | with_reducible apply State.geAlu_keeps | with_reducible apply settle_keeps
    | with_reducible apply keeps_ite | intro _ | split

theorem execShr_keeps {z s : State} {g : Nat} {d : Nat} {a : Nat} {b : Nat} (h : Keeps z s) :
    ∀ o, execShr g d a b s = .next o → Keeps z o := by
  intro o ho
  cases ho
  repeat' first
    | with_reducible assumption | with_reducible apply State.geAlu_keeps | with_reducible apply settle_keeps
    | with_reducible apply keeps_ite | intro _ | split

theorem execMul_keeps {z s : State} {g : Nat} {d : Nat} {a : Nat} {b : Nat} (h : Keeps z s) :
    ∀ o, execMul g d a b s = .next o → Keeps z o := by
  intro o ho
  cases ho
  repeat' first
    | with_reducible assumption | with_reducible apply State.geAlu_keeps | with_reducible apply settle_keeps
    | with_reducible apply keeps_ite | intro _ | split

theorem execAddi_keeps {z s : State} {g : Nat} {d : Nat} {a : Nat} {imm : BitVec 32} (h : Keeps z s) :
    ∀ o, execAddi g d a imm s = .next o → Keeps z o := by
  intro o ho
  cases ho
  repeat' first
    | with_reducible assumption | with_reducible apply State.geAlu_keeps | with_reducible apply settle_keeps
    | with_reducible apply keeps_ite | intro _ | split

theorem execCtz_keeps {z s : State} {g : Nat} {d : Nat} {a : Nat} (h : Keeps z s) :
    ∀ o, execCtz g d a s = .next o → Keeps z o := by
  intro o ho
  cases ho
  repeat' first
    | with_reducible assumption | with_reducible apply State.geAlu_keeps | with_reducible apply settle_keeps
    | with_reducible apply keeps_ite | intro _ | split

theorem execFadd_keeps {z s : State} {g : Nat} {d : Nat} {a : Nat} {b : Nat} (h : Keeps z s) :
    ∀ o, execFadd g d a b s = .next o → Keeps z o := by
  intro o ho
  cases ho
  repeat' first
    | with_reducible assumption | with_reducible apply State.geF2_keeps | with_reducible apply settle_keeps
    | with_reducible apply keeps_ite | intro _ | split

theorem execFsub_keeps {z s : State} {g : Nat} {d : Nat} {a : Nat} {b : Nat} (h : Keeps z s) :
    ∀ o, execFsub g d a b s = .next o → Keeps z o := by
  intro o ho
  cases ho
  repeat' first
    | with_reducible assumption | with_reducible apply State.geF2_keeps | with_reducible apply settle_keeps
    | with_reducible apply keeps_ite | intro _ | split

theorem execFmul_keeps {z s : State} {g : Nat} {d : Nat} {a : Nat} {b : Nat} (h : Keeps z s) :
    ∀ o, execFmul g d a b s = .next o → Keeps z o := by
  intro o ho
  cases ho
  repeat' first
    | with_reducible assumption | with_reducible apply State.geF2_keeps | with_reducible apply settle_keeps
    | with_reducible apply keeps_ite | intro _ | split

theorem execFdiv_keeps {z s : State} {g : Nat} {d : Nat} {a : Nat} {b : Nat} (h : Keeps z s) :
    ∀ o, execFdiv g d a b s = .next o → Keeps z o := by
  intro o ho
  cases ho
  repeat' first
    | with_reducible assumption | with_reducible apply State.geF2_keeps | with_reducible apply settle_keeps
    | with_reducible apply keeps_ite | intro _ | split

theorem execFsqrt_keeps {z s : State} {g : Nat} {d : Nat} {a : Nat} (h : Keeps z s) :
    ∀ o, execFsqrt g d a s = .next o → Keeps z o := by
  intro o ho
  cases ho
  repeat' first
    | with_reducible assumption | with_reducible apply State.geFp_keeps | with_reducible apply settle_keeps
    | with_reducible apply keeps_ite | intro _ | split

theorem execFlt_keeps {z s : State} {g : Nat} {d : Nat} {a : Nat} {b : Nat} (h : Keeps z s) :
    ∀ o, execFlt g d a b s = .next o → Keeps z o := by
  intro o ho
  cases ho
  repeat' first
    | with_reducible assumption | with_reducible apply State.geFcmp_keeps | with_reducible apply settle_keeps
    | with_reducible apply keeps_ite | intro _ | split

theorem execFle_keeps {z s : State} {g : Nat} {d : Nat} {a : Nat} {b : Nat} (h : Keeps z s) :
    ∀ o, execFle g d a b s = .next o → Keeps z o := by
  intro o ho
  cases ho
  repeat' first
    | with_reducible assumption | with_reducible apply State.geFcmp_keeps | with_reducible apply settle_keeps
    | with_reducible apply keeps_ite | intro _ | split

theorem execFcvt_keeps {z s : State} {g : Nat} {d : Nat} {a : Nat} (h : Keeps z s) :
    ∀ o, execFcvt g d a s = .next o → Keeps z o := by
  intro o ho
  cases ho
  repeat' first
    | with_reducible assumption | with_reducible apply State.geFp_keeps | with_reducible apply settle_keeps
    | with_reducible apply keeps_ite | intro _ | split

theorem execIcvt_keeps {z s : State} {g : Nat} {d : Nat} {a : Nat} (h : Keeps z s) :
    ∀ o, execIcvt g d a s = .next o → Keeps z o := by
  intro o ho
  cases ho
  repeat' first
    | with_reducible assumption | with_reducible apply State.geIcvt_keeps | with_reducible apply settle_keeps
    | with_reducible apply keeps_ite | intro _ | split

theorem execLd_keeps {z s : State} {g : Nat} {d : Nat} {a : Nat} {imm : BitVec 32} (h : Keeps z s) :
    ∀ o, execLd g d a imm s = .next o → Keeps z o := by
  intro o ho
  cases ho
  repeat' first
    | with_reducible assumption | with_reducible apply State.geLd_keeps | with_reducible apply settle_keeps
    | with_reducible apply keeps_ite | intro _ | split

theorem execSt_keeps {z s : State} {g : Nat} {a : Nat} {b : Nat} {imm : BitVec 32} (h : Keeps z s) :
    ∀ o, execSt g a b imm s = .next o → Keeps z o := by
  intro o ho
  cases ho
  repeat' first
    | with_reducible assumption | with_reducible apply State.geSt_keeps | with_reducible apply settle_keeps
    | with_reducible apply keeps_ite | intro _ | split

theorem execBind_keeps {z s : State} {g : Nat} {d : Nat} {imm : BitVec 32} (h : Keeps z s) :
    ∀ o, execBind g d imm s = .next o → Keeps z o := by
  intro o ho
  cases ho
  repeat' first
    | with_reducible assumption | with_reducible apply State.geBind_keeps | with_reducible apply settle_keeps
    | with_reducible apply keeps_ite | intro _ | split

theorem execBeq_keeps {z s : State} {g : Nat} {a : Nat} {b : Nat} {imm : BitVec 32} (h : Keeps z s) :
    ∀ o, execBeq g a b imm s = .next o → Keeps z o := by
  intro o ho
  cases ho
  repeat' first
    | with_reducible assumption | with_reducible apply State.geBranch_keeps | with_reducible apply settle_keeps
    | with_reducible apply keeps_ite | intro _ | split

theorem execBne_keeps {z s : State} {g : Nat} {a : Nat} {b : Nat} {imm : BitVec 32} (h : Keeps z s) :
    ∀ o, execBne g a b imm s = .next o → Keeps z o := by
  intro o ho
  cases ho
  repeat' first
    | with_reducible assumption | with_reducible apply State.geBranch_keeps | with_reducible apply settle_keeps
    | with_reducible apply keeps_ite | intro _ | split

theorem execBlt_keeps {z s : State} {g : Nat} {a : Nat} {b : Nat} {imm : BitVec 32} (h : Keeps z s) :
    ∀ o, execBlt g a b imm s = .next o → Keeps z o := by
  intro o ho
  cases ho
  repeat' first
    | with_reducible assumption | with_reducible apply State.geBranch_keeps | with_reducible apply settle_keeps
    | with_reducible apply keeps_ite | intro _ | split

theorem execBge_keeps {z s : State} {g : Nat} {a : Nat} {b : Nat} {imm : BitVec 32} (h : Keeps z s) :
    ∀ o, execBge g a b imm s = .next o → Keeps z o := by
  intro o ho
  cases ho
  repeat' first
    | with_reducible assumption | with_reducible apply State.geBranch_keeps | with_reducible apply settle_keeps
    | with_reducible apply keeps_ite | intro _ | split

theorem execBltu_keeps {z s : State} {g : Nat} {a : Nat} {b : Nat} {imm : BitVec 32} (h : Keeps z s) :
    ∀ o, execBltu g a b imm s = .next o → Keeps z o := by
  intro o ho
  cases ho
  repeat' first
    | with_reducible assumption | with_reducible apply State.geBranch_keeps | with_reducible apply settle_keeps
    | with_reducible apply keeps_ite | intro _ | split

theorem execJmp_keeps {z s : State} {g : Nat} {imm : BitVec 32} (h : Keeps z s) :
    ∀ o, execJmp g imm s = .next o → Keeps z o := by
  intro o ho
  cases ho
  repeat' first
    | with_reducible assumption | with_reducible apply State.geBranch_keeps | with_reducible apply settle_keeps
    | with_reducible apply keeps_ite | intro _ | split

theorem execRun_keeps {z s : State} {g : Nat} {a : Nat} {b : Nat} (h : Keeps z s) :
    ∀ o, execRun g a b s = .next o → Keeps z o := by
  intro o ho
  cases ho
  repeat' first
    | with_reducible assumption | with_reducible apply State.geRun_keeps | with_reducible apply settle_keeps
    | with_reducible apply keeps_ite | intro _ | split

theorem execSum_keeps {z s : State} {g : Nat} {d : Nat} {imm : BitVec 32} (h : Keeps z s) :
    ∀ o, execSum g d imm s = .next o → Keeps z o := by
  intro o ho
  cases ho
  repeat' first
    | with_reducible assumption | with_reducible apply State.geSum_keeps | with_reducible apply settle_keeps
    | with_reducible apply keeps_ite | intro _ | split

theorem execGeSig_keeps {z s : State} {g : Nat} {a : Nat} {b : Nat} (h : Keeps z s) :
    ∀ o, execGeSig g a b s = .next o → Keeps z o := by
  intro o ho
  cases ho
  repeat' first
    | with_reducible assumption | with_reducible apply State.geSig_keeps | with_reducible apply settle_keeps
    | with_reducible apply keeps_ite | intro _ | split

theorem execGeLaunch_keeps {z s : State} {g : Nat} {d : Nat} {a : Nat} {b : Nat} {t : Nat} (h : Keeps z s) :
    ∀ o, execGeLaunch g d a b t s = .next o → Keeps z o := by
  intro o ho
  cases ho
  repeat' first
    | with_reducible assumption | with_reducible apply State.at_keeps | with_reducible apply State.geLaunch_keeps
    | with_reducible apply settle_keeps | with_reducible apply keeps_ite | intro _ | split

theorem execShape_keeps {z s : State} {g : Nat} {d : Nat} {a : Nat} {b : Nat} (h : Keeps z s) :
    ∀ o, execShape g d a b s = .next o → Keeps z o := by
  intro o ho
  cases ho
  repeat' first
    | with_reducible assumption | with_reducible apply State.geShape_keeps | with_reducible apply settle_keeps
    | with_reducible apply keeps_ite | intro _ | split

theorem execSkip_keeps {z s : State} {g : Nat} {d : Nat} {a : Nat} (h : Keeps z s) :
    ∀ o, execSkip g d a s = .next o → Keeps z o := by
  intro o ho
  cases ho
  repeat' first
    | with_reducible assumption | with_reducible apply State.geSkip_keeps | with_reducible apply settle_keeps
    | with_reducible apply keeps_ite | intro _ | split

theorem execEndTask_keeps {z s : State} {g : Nat} {imm : BitVec 32} {t : Nat} (h : Keeps z s) :
    ∀ o, execEndTask g imm t s = .next o → Keeps z o := by
  intro o ho
  cases ho
  repeat' first
    | with_reducible assumption | with_reducible apply State.at_keeps | with_reducible apply State.geEnd_keeps
    | with_reducible apply settle_keeps | with_reducible apply keeps_ite | intro _ | split

/-! ## PinsPower -/

theorem execEvtEdge_keeps {z s : State} {n : Nat} {t : Nat} (h : Keeps z s) :
    ∀ o, execEvtEdge n t s = .next o → Keeps z o := by
  intro o ho
  cases ho
  repeat' first
    | with_reducible assumption | with_reducible apply State.at_keeps | with_reducible apply State.evtEdge_keeps
    | with_reducible apply settle_keeps | with_reducible apply keeps_ite | intro _ | split

theorem execEvtLineFall_keeps {z s : State} {n : Nat} {t : Nat} (h : Keeps z s) :
    ∀ o, execEvtLineFall n t s = .next o → Keeps z o := by
  intro o ho
  cases ho
  repeat' first
    | with_reducible assumption | with_reducible apply State.at_keeps | with_reducible apply State.evtFall_keeps
    | with_reducible apply settle_keeps | with_reducible apply keeps_ite | intro _ | split

theorem execEvtStuck_keeps {z s : State} {n : Nat} {t : Nat} (h : Keeps z s) :
    ∀ o, execEvtStuck n t s = .next o → Keeps z o := by
  intro o ho
  cases ho
  repeat' first
    | with_reducible assumption | with_reducible apply State.at_keeps | with_reducible apply State.evtStuckLine_keeps
    | with_reducible apply settle_keeps | with_reducible apply keeps_ite | intro _ | split

theorem execStuckRearm_keeps {z s : State} {n : Nat} (h : Keeps z s) :
    ∀ o, execStuckRearm n s = .next o → Keeps z o := by
  intro o ho
  cases ho
  repeat' first
    | with_reducible assumption | with_reducible apply State.stuckRearm_keeps | with_reducible apply State.powered_keeps
    | with_reducible apply settle_keeps | with_reducible apply keeps_ite | intro _ | split

theorem execEvtActWrite_keeps {z s : State} {n : Nat} {v : Word} (h : Keeps z s) :
    ∀ o, execEvtActWrite n v s = .next o → Keeps z o := by
  intro o ho
  cases ho
  repeat' first
    | with_reducible assumption | with_reducible apply State.evtActWrite_keeps | with_reducible apply State.powered_keeps
    | with_reducible apply settle_keeps | with_reducible apply keeps_ite | intro _ | split

theorem execEvtCountWrite_keeps {z s : State} {n : Nat} {v : Word} (h : Keeps z s) :
    ∀ o, execEvtCountWrite n v s = .next o → Keeps z o := by
  intro o ho
  cases ho
  repeat' first
    | with_reducible assumption | with_reducible apply State.evtCountWrite_keeps | with_reducible apply State.powered_keeps
    | with_reducible apply settle_keeps | with_reducible apply keeps_ite | intro _ | split

theorem execGaitReq_keeps {z s : State} {sel : Nat} {t : Nat} (h : Keeps z s) :
    ∀ o, execGaitReq sel t s = .next o → Keeps z o := by
  intro o ho
  cases ho
  repeat' first
    | with_reducible assumption | with_reducible apply State.at_keeps | with_reducible apply State.gaitReq_keeps
    | with_reducible apply settle_keeps | with_reducible apply keeps_ite | intro _ | split

theorem execGaitAck_keeps {z s : State} {t : Nat} (h : Keeps z s) :
    ∀ o, execGaitAck t s = .next o → Keeps z o := by
  intro o ho
  cases ho
  repeat' first
    | with_reducible assumption | with_reducible apply State.at_keeps | with_reducible apply State.gaitAcked_keeps
    | with_reducible apply settle_keeps | with_reducible apply keeps_ite | intro _ | split

theorem execGaitDone_keeps {z s : State} {bad : List Wear} {t : Nat} (h : Keeps z s) :
    ∀ o, execGaitDone bad t s = .next o → Keeps z o := by
  intro o ho
  cases ho
  repeat' first
    | with_reducible assumption | with_reducible apply State.at_keeps | with_reducible apply State.gaitDone_keeps
    | with_reducible apply State.gaitFollow_keeps | with_reducible apply settle_keeps | with_reducible apply keeps_ite
    | intro _ | split

theorem execTthGaitReq_keeps {z s : State} {target : Nat} (h : Keeps z s) :
    ∀ o, execTthGaitReq target s = .next o → Keeps z o := by
  intro o ho
  cases ho
  repeat' first
    | with_reducible assumption | with_reducible apply State.tthGaitReq_keeps | with_reducible apply State.onUnits_keeps
    | with_reducible apply settle_keeps | with_reducible apply keeps_ite | intro _ | split

theorem execGaitRequestAnswer_keeps {z s : State} {denied : Bool} (h : Keeps z s) :
    ∀ o, execGaitRequestAnswer denied s = .next o → Keeps z o := by
  intro o ho
  cases ho
  repeat' first
    | with_reducible assumption | with_reducible apply State.gaitAnswer_keeps | with_reducible apply settle_keeps
    | with_reducible apply keeps_ite | intro _ | split

theorem execPowerOn_keeps {z s : State} {t : Nat} (h : Keeps z s) :
    ∀ o, execPowerOn t s = .next o → Keeps z o := by
  intro o ho
  cases ho
  repeat' first
    | with_reducible assumption | with_reducible apply State.at_keeps | with_reducible apply State.powerOn_keeps
    | with_reducible apply settle_keeps | with_reducible apply keeps_ite | intro _ | split

theorem execPowerFall_keeps {z s : State} (h : Keeps z s) :
    ∀ o, execPowerFall s = .next o → Keeps z o := by
  intro o ho
  cases ho
  repeat' first
    | with_reducible assumption | with_reducible apply State.powerFall_keeps | with_reducible apply settle_keeps
    | with_reducible apply keeps_ite | intro _ | split

theorem execPwrFail_keeps {z s : State} {t : Nat} (h : Keeps z s) :
    ∀ o, execPwrFail t s = .next o → Keeps z o := by
  intro o ho
  cases ho
  repeat' first
    | with_reducible assumption | with_reducible apply State.at_keeps | with_reducible apply State.pwrFail_keeps
    | with_reducible apply settle_keeps | with_reducible apply keeps_ite | intro _ | split

theorem execPwrFailRelease_keeps {z s : State} {t : Nat} (h : Keeps z s) :
    ∀ o, execPwrFailRelease t s = .next o → Keeps z o := by
  intro o ho
  cases ho
  repeat' first
    | with_reducible assumption | with_reducible apply State.at_keeps | with_reducible apply State.pwrFailRelease_keeps
    | with_reducible apply settle_keeps | with_reducible apply keeps_ite | intro _ | split

theorem execReserveDrain_keeps {z s : State} {t : Nat} (h : Keeps z s) :
    ∀ o, execReserveDrain t s = .next o → Keeps z o := by
  intro o ho
  cases ho
  repeat' first
    | with_reducible assumption | with_reducible apply State.at_keeps | with_reducible apply State.reserveDrain_keeps
    | with_reducible apply settle_keeps | with_reducible apply keeps_ite | intro _ | split

theorem execWarmReset_keeps {z s : State} {t : Nat} (h : Keeps z s) :
    ∀ o, execWarmReset t s = .next o → Keeps z o := by
  intro o ho
  cases ho
  repeat' first
    | with_reducible assumption | with_reducible apply State.at_keeps | with_reducible apply State.resetReq_keeps
    | with_reducible apply settle_keeps | with_reducible apply keeps_ite | intro _ | split

theorem execColdReset_keeps {z s : State} {t : Nat} (h : Keeps z s) :
    ∀ o, execColdReset t s = .next o → Keeps z o := by
  intro o ho
  cases ho
  repeat' first
    | with_reducible assumption | with_reducible apply State.at_keeps | with_reducible apply State.resetReq_keeps
    | with_reducible apply settle_keeps | with_reducible apply keeps_ite | intro _ | split

theorem execFirmwareRestart_keeps {z s : State} {t : Nat} (h : Keeps z s) :
    ∀ o, execFirmwareRestart t s = .next o → Keeps z o := by
  intro o ho
  cases ho
  repeat' first
    | with_reducible assumption | with_reducible apply State.at_keeps | with_reducible apply State.firmwareRestart_keeps
    | with_reducible apply settle_keeps | with_reducible apply keeps_ite | intro _ | split

theorem execRecover_keeps {z s : State} {t : Nat} (h : Keeps z s) :
    ∀ o, execRecover t s = .next o → Keeps z o := by
  intro o ho
  cases ho
  repeat' first
    | with_reducible assumption | with_reducible apply State.at_keeps | with_reducible apply State.recover_keeps
    | with_reducible apply settle_keeps | with_reducible apply keeps_ite | intro _ | split

theorem execStartEnd_keeps {z s : State} {t : Nat} (h : Keeps z s) :
    ∀ o, execStartEnd t s = .next o → Keeps z o := by
  intro o ho
  cases ho
  repeat' first
    | with_reducible assumption | with_reducible apply State.at_keeps | with_reducible apply State.startEnd_keeps
    | with_reducible apply settle_keeps | with_reducible apply keeps_ite | intro _ | split

theorem execStartWatchdog_keeps {z s : State} {t : Nat} (h : Keeps z s) :
    ∀ o, execStartWatchdog t s = .next o → Keeps z o := by
  intro o ho
  cases ho
  repeat' first
    | with_reducible assumption | with_reducible apply State.at_keeps | with_reducible apply State.startWatchdog_keeps
    | with_reducible apply settle_keeps | with_reducible apply keeps_ite | intro _ | split

theorem execEnum_keeps {z s : State} (h : Keeps z s) :
    ∀ o, execEnum s = .next o → Keeps z o := by
  intro o ho
  cases ho
  repeat' first
    | with_reducible assumption | with_reducible apply State.enumRow_keeps | with_reducible apply State.onUnits_keeps
    | with_reducible apply settle_keeps | with_reducible apply keeps_ite | intro _ | split

theorem execTetherNoAnswer_keeps {z s : State} {p : Nat} (h : Keeps z s) :
    ∀ o, execTetherNoAnswer p s = .next o → Keeps z o := by
  intro o ho
  cases ho
  repeat' first
    | with_reducible assumption | with_reducible apply State.noAnswer_keeps | with_reducible apply settle_keeps
    | with_reducible apply keeps_ite | intro _ | split

theorem execGroom_keeps {z s : State} {temp : Int} {failed : List Wear} (h : Keeps z s) :
    ∀ o, execGroom temp failed s = .next o → Keeps z o := by
  intro o ho
  cases ho
  repeat' first
    | with_reducible assumption | with_reducible apply State.groom_keeps | with_reducible apply settle_keeps
    | with_reducible apply keeps_ite | intro _ | split

/-! ## RegisterRows -/

theorem execCtuDbgRead_keeps {z s : State} (h : Keeps z s) :
    ∀ o, execCtuDbgRead s = .next o → Keeps z o := by
  intro o ho
  cases ho
  repeat' first
    | with_reducible assumption | with_reducible apply State.dbgRead_keeps | with_reducible apply settle_keeps
    | with_reducible apply keeps_ite | intro _ | split

theorem execCtuDbgSet_keeps {z s : State} (h : Keeps z s) :
    ∀ o, execCtuDbgSet s = .next o → Keeps z o := by
  intro o ho
  cases ho
  repeat' first
    | with_reducible assumption | with_reducible apply State.dbgSet_keeps | with_reducible apply settle_keeps
    | with_reducible apply keeps_ite | intro _ | split

theorem execCtuDbgHalt_keeps {z s : State} (h : Keeps z s) :
    ∀ o, execCtuDbgHalt s = .next o → Keeps z o := by
  intro o ho
  cases ho
  repeat' first
    | with_reducible assumption | with_reducible apply State.dbgHalt_keeps | with_reducible apply settle_keeps
    | with_reducible apply keeps_ite | intro _ | split

theorem execCtuDbgResume_keeps {z s : State} (h : Keeps z s) :
    ∀ o, execCtuDbgResume s = .next o → Keeps z o := by
  intro o ho
  cases ho
  repeat' first
    | with_reducible assumption | with_reducible apply State.dbgResume_keeps | with_reducible apply settle_keeps
    | with_reducible apply keeps_ite | intro _ | split

theorem execFlush_keeps {z s : State} (h : Keeps z s) :
    ∀ o, execFlush s = .next o → Keeps z o := by
  intro o ho
  cases ho
  repeat' first
    | with_reducible assumption | with_reducible apply State.specFlush_keeps | with_reducible apply settle_keeps
    | with_reducible apply keeps_ite | intro _ | split

theorem execIcacheInv_keeps {z s : State} {g : Nat} (h : Keeps z s) :
    ∀ o, execIcacheInv g s = .next o → Keeps z o := by
  intro o ho
  cases ho
  repeat' first
    | with_reducible assumption | with_reducible apply State.icacheInv_keeps | with_reducible apply settle_keeps
    | with_reducible apply keeps_ite | intro _ | split

theorem execStatClear_keeps {z s : State} (h : Keeps z s) :
    ∀ o, execStatClear s = .next o → Keeps z o := by
  intro o ho
  cases ho
  repeat' first
    | with_reducible assumption | with_reducible apply State.statClear_keeps | with_reducible apply settle_keeps
    | with_reducible apply keeps_ite | intro _ | split

theorem execIrqEnableWrite_keeps {z s : State} {v : Word} (h : Keeps z s) :
    ∀ o, execIrqEnableWrite v s = .next o → Keeps z o := by
  intro o ho
  cases ho
  repeat' first
    | with_reducible assumption | with_reducible apply State.irqEnableWrite_keeps | with_reducible apply settle_keeps
    | with_reducible apply keeps_ite | intro _ | split

theorem execIrqStatusClear_keeps {z s : State} {v : Word} (h : Keeps z s) :
    ∀ o, execIrqStatusClear v s = .next o → Keeps z o := by
  intro o ho
  cases ho
  repeat' first
    | with_reducible assumption | with_reducible apply State.powered_keeps | with_reducible apply State.irqStatusClear_keeps
    | with_reducible apply settle_keeps | with_reducible apply keeps_ite | intro _ | split

theorem execErrRingEnable_keeps {z s : State} {v : Word} (h : Keeps z s) :
    ∀ o, execErrRingEnable v s = .next o → Keeps z o := by
  intro o ho
  cases ho
  repeat' first
    | with_reducible assumption | with_reducible apply State.errBaseWrite_keeps | with_reducible apply settle_keeps
    | with_reducible apply keeps_ite | intro _ | split

theorem execErrHeadWrite_keeps {z s : State} {v : Word} (h : Keeps z s) :
    ∀ o, execErrHeadWrite v s = .next o → Keeps z o := by
  intro o ho
  cases ho
  repeat' first
    | with_reducible assumption | with_reducible apply State.errHeadWrite_keeps | with_reducible apply settle_keeps
    | with_reducible apply keeps_ite | intro _ | split

theorem execRegisterWrite_keeps {z s : State} {off : Nat} {v : Word} {width : Nat} (h : Keeps z s) :
    ∀ o, execRegisterWrite off v width s = .next o → Keeps z o := by
  intro o ho
  cases ho
  repeat' first
    | with_reducible assumption | with_reducible apply State.regWrite_keeps | with_reducible apply settle_keeps
    | with_reducible apply keeps_ite | intro _ | split

theorem execSramError_keeps {z s : State} {storage : Nat} {inst : Nat} {row : Nat} {uncorrectable : Bool} {t : Nat} (h :
    Keeps z s) :
    ∀ o, execSramError storage inst row uncorrectable t s = .next o → Keeps z o := by
  intro o ho
  cases ho
  repeat' first
    | with_reducible assumption | with_reducible apply State.at_keeps | with_reducible apply State.sramError_keeps
    | with_reducible apply settle_keeps | with_reducible apply keeps_ite | intro _ | split

theorem execWearDetect_keeps {z s : State} {x : Wear} {t : Nat} (h : Keeps z s) :
    ∀ o, execWearDetect x t s = .next o → Keeps z o := by
  intro o ho
  cases ho
  repeat' first
    | with_reducible assumption | with_reducible apply State.at_keeps | with_reducible apply State.wearDetect_keeps
    | with_reducible apply settle_keeps | with_reducible apply keeps_ite | intro _ | split

theorem execRemount_keeps {z s : State} {kind : Nat} {inst : Nat} {cause : Nat} {t : Nat} (h : Keeps z s) :
    ∀ o, execRemount kind inst cause t s = .next o → Keeps z o := by
  intro o ho
  cases ho
  repeat' first
    | with_reducible assumption | with_reducible apply State.at_keeps | with_reducible apply State.refillAll_keeps | with_reducible apply State.remountRow_keeps
    | with_reducible apply settle_keeps | with_reducible apply keeps_ite | intro _ | split

theorem execStudbookFlush_keeps {z s : State} (h : Keeps z s) :
    ∀ o, execStudbookFlush s = .next o → Keeps z o := by
  intro o ho
  cases ho
  repeat' first
    | with_reducible assumption | with_reducible apply State.flushRow_keeps | with_reducible apply settle_keeps
    | with_reducible apply keeps_ite | intro _ | split

theorem execPtrMismatch_keeps {z s : State} {kind : Nat} {inst : Nat} {ctx : Nat} {t : Nat} (h : Keeps z s) :
    ∀ o, execPtrMismatch kind inst ctx t s = .next o → Keeps z o := by
  intro o ho
  cases ho
  repeat' first
    | with_reducible assumption | with_reducible apply State.at_keeps | with_reducible apply State.ptrMismatch_keeps
    | with_reducible apply settle_keeps | with_reducible apply keeps_ite | intro _ | split

/-! ## RelayTrail -/

theorem execRelaySend_keeps {z s : State} {c : Nat} {tag : Nat} {hdr : Word} {payload : List Word} (h : Keeps z s) :
    ∀ o, execRelaySend c tag hdr payload s = .next o → Keeps z o := by
  intro o ho
  cases ho
  repeat' first
    | with_reducible assumption | with_reducible apply State.latchSend_keeps | with_reducible apply settle_keeps
    | with_reducible apply keeps_ite | intro _ | split

theorem execRelayDeliver_keeps {z s : State} {c : Nat} {ch : Nat} (h : Keeps z s) :
    ∀ o, execRelayDeliver c ch s = .next o → Keeps z o := by
  intro o ho
  cases ho
  repeat' first
    | with_reducible assumption | with_reducible apply State.relayDeliver_keeps | with_reducible apply settle_keeps
    | with_reducible apply keeps_ite | intro _ | split

theorem execOperandPortRead_keeps {z s : State} {c : Nat} {slot : Nat} {port : Nat} (h : Keeps z s) :
    ∀ o, execOperandPortRead c slot port s = .next o → Keeps z o := by
  intro o ho
  cases ho
  repeat' first
    | with_reducible assumption | with_reducible apply State.portRead_keeps | with_reducible apply settle_keeps
    | with_reducible apply keeps_ite | intro _ | split

theorem execTrailSend_keeps {z s : State} {t : Nat} (h : Keeps z s) :
    ∀ o, execTrailSend t s = .next o → Keeps z o := by
  intro o ho
  cases ho
  repeat' first
    | with_reducible assumption | with_reducible apply State.at_keeps | with_reducible apply State.trailSend_keeps
    | with_reducible apply settle_keeps | with_reducible apply keeps_ite | intro _ | split

theorem execTrailReceive_keeps {z s : State} {w0 : Word} {w1 : Word} {w2 : Word} (h : Keeps z s) :
    ∀ o, execTrailReceive w0 w1 w2 s = .next o → Keeps z o := by
  intro o ho
  cases ho
  repeat' first
    | with_reducible assumption | with_reducible apply State.push_keeps | with_reducible apply settle_keeps
    | with_reducible apply keeps_ite | intro _ | split

theorem execTrailAckReceive_keeps {z s : State} {w0 : Word} {w1 : Word} {w2 : Word} {w3 : Word} (h : Keeps z s) :
    ∀ o, execTrailAckReceive w0 w1 w2 w3 s = .next o → Keeps z o := by
  intro o ho
  cases ho
  repeat' first
    | with_reducible assumption | with_reducible apply State.push_keeps | with_reducible apply settle_keeps
    | with_reducible apply keeps_ite | intro _ | split

theorem execTrailTimeout_keeps {z s : State} {dest : Nat} {seq : Nat} {t : Nat} (h : Keeps z s) :
    ∀ o, execTrailTimeout dest seq t s = .next o → Keeps z o := by
  intro o ho
  cases ho
  repeat' first
    | with_reducible assumption | with_reducible apply State.at_keeps | with_reducible apply State.trailTimeout_keeps
    | with_reducible apply settle_keeps | with_reducible apply keeps_ite | intro _ | split

theorem execLinkReset_keeps {z s : State} {herd : Nat} (h : Keeps z s) :
    ∀ o, execLinkReset herd s = .next o → Keeps z o := by
  intro o ho
  cases ho
  repeat' first
    | with_reducible assumption | with_reducible apply State.linkReset_keeps | with_reducible apply settle_keeps
    | with_reducible apply keeps_ite | intro _ | split

theorem execLinkUnreachable_keeps {z s : State} {herd : Nat} (h : Keeps z s) :
    ∀ o, execLinkUnreachable herd s = .next o → Keeps z o := by
  intro o ho
  cases ho
  repeat' first
    | with_reducible assumption | with_reducible apply State.linkDown_keeps | with_reducible apply settle_keeps
    | with_reducible apply keeps_ite | intro _ | split

end Sys2Proof.Machine
end

