-- ==== Sys2Proof/Laws/Leads.lean ====
section
/-!
SUPPORT. From a meaning's form to what its statement says: how a command leads to a state, through no action, through one, or
held back; a command that starts or is taken up; and what an update of a core or a transfer on its port leaves.
-/
namespace Sys2Proof.Machine

/-! ## Commands that lead to a state -/

/-- A meaning that settles a state leads to it. -/
theorem leads_of {i : Instr} {s v : State} (h : exec i s = .next (settle v)) : Leads i s v := ⟨_, h, acts_settle v⟩

theorem leads_eq {i : Instr} {s v w : State} (h : exec i s = .next (settle w)) (e : w = v) : Leads i s v := e ▸ leads_of h

@[simp] theorem push_work_nil {s : State} (ws : List Work) (h : s.work = []) : (s.push ws).work = ws := by simp [State.push, h]

theorem push_clear {u : State} (ws : List Work) (h : u.work = []) : ({ u.push ws with work := [] } : State) = u := by
  cases u; simp_all [State.push]

/-- A meaning that hands on one action, which nothing holds back, leads to what the action does. -/
theorem leads_push {i : Instr} {s u v : State} {w : Work} (he : exec i s = .next (settle (u.push [w]))) (h : u.work = [])
    (hh : (u.push [w]).holds w = false) (hv : u.doWork w = v) : Leads i s v := by
  refine ⟨_, he, ?_⟩
  rw [settle_some (w := w) (ws := []) (by rw [push_work_nil _ h]; exact takeWork_single hh), push_clear _ h, hv]
  exact acts_settleN _ _

/-- The same, where the action hands on nothing. -/
theorem next_push {i : Instr} {s u v : State} {w : Work} (he : exec i s = .next (settle (u.push [w]))) (h : u.work = [])
    (hh : (u.push [w]).holds w = false) (hv : u.doWork w = v) (hn : v.work = []) : exec i s = .next v := by
  rw [he, settle_one (push_work_nil _ h) hh (by rw [push_clear _ h, hv]; exact hn), push_clear _ h, hv]

/-- The same, where something holds the action back: it waits. -/
theorem next_held {i : Instr} {s u : State} {w : Work} (he : exec i s = .next (settle (u.push [w]))) (h : u.work = [])
    (hh : (u.push [w]).holds w = true) : exec i s = .next (u.push [w]) := by
  rw [he, settle_none]
  rw [push_work_nil _ h]; exact takeWork_all_held (by simpa using hh)

/-! ## Commands that firmware has taken up -/

/-- A command taken up takes effect. -/
theorem fwCmd_taken {s : State} {q code n : Nat} {w : List Word} (h : s.takenAs q code n w) (eff : Nat → State → State) :
    s.fwCmd code q w eff = (eff n (s.setPhase q n .running)).refresh q := by
  obtain ⟨h1, h2, h3, h4, h5⟩ := h
  cases hc : opResidence code <;> simp_all [State.fwCmd]

theorem leads_fwCmd {i : Instr} {s v : State} {q code n : Nat} {w : List Word} {eff : Nat → State → State}
    (h : s.takenAs q code n w) (he : exec i s = .next (settle (s.fwCmd code q w eff)))
    (hv : eff n (s.setPhase q n .running) = v) : Leads i s (v.refresh q) := by
  rw [fwCmd_taken h] at he; subst hv; exact leads_of he

/-! ## Commands that start -/

/-- A command that passes its checks enters its queue with the next number (R26, R30). -/
theorem begin_passes {s : State} {q code : Nat} {w : List Word} (h : s.startsAs q code w) :
    s.begin q w = (some s.cfe.nextSeq, s.entered q w) := by
  obtain ⟨⟨h1, h2, h3⟩, h4, h5, h6, h7⟩ := h
  have hn : s.enter q w = (s.cfe.nextSeq, s.entered q w) := rfl
  have hf : s.firstBad? w = none := by unfold State.firstBad?; rw [h5]; rfl
  have hc : (s.entered q w).ctx (Op.ctx w) = s.ctx (Op.ctx w) := rfl
  unfold State.begin
  rw [if_neg (by simp [h3]), h4]; simp only [hn, hf]
  rw [if_neg (by rw [h1]; intro h; exact h.2 (h6 h.1))]
  rw [if_neg (by intro h; exact (h7 h.1 h.2.1).1 (by rw [← hc]; exact h.2.2)),
    if_neg (by intro h; exact (h7 h.1 h.2.1).2 (by rw [← hc]; exact h.2.2))]

/-- A hardware-path command that passes takes effect where it starts. -/
theorem leads_hwCmd {i : Instr} {s v : State} {q code : Nat} {w : List Word} {eff : Nat → State → State} (h : s.startsAs q code w)
    (he : exec i s = .next (settle (s.hwCmd code q w eff))) (hv : eff s.cfe.nextSeq (s.entered q w) = v) :
    Leads i s (v.refresh q) := by
  subst hv; refine leads_eq he ?_
  unfold State.hwCmd; rw [if_neg (by simp [h.1.1]), begin_passes h]

/-- A Carousel command takes effect where it starts with `CAR_CTL.EN` set, or where its wait for that ends. -/
theorem leads_carCmd {i : Instr} {s v e : State} {q code n : Nat} {w : List Word} {eff : Nat → State → State}
    (h : s.carTakes q code n w e) (he : exec i s = .next (settle (s.carCmd code q w eff))) (hv : eff n e = v) :
    Leads i s (v.refresh q) := by
  subst hv; refine leads_eq he ?_
  obtain ⟨h1, h2, ⟨a, rfl, rfl, b⟩ | ⟨a, rfl, b⟩⟩ := h
  · unfold State.carCmd; rw [if_neg (by simp [h2]), a.1.2.1]; dsimp only; rw [begin_passes a]; dsimp only
    rw [if_pos]
    have h3 : (s.entered q w).car.en = true := h1
    have h4 : (s.entered q w).gcs.changing = s.gcs.changing := rfl
    rw [h3, h4]
    by_cases hc : code = 0x12 <;> simp_all
  · unfold State.carCmd; rw [if_neg (by simp [h2]), a]; dsimp only
    rw [if_pos]
    rw [h1]
    by_cases hc : code = 0x12 <;> simp_all

/-! ## Cores and their ports -/

@[simp] theorem State.core_updCore_self (s : State) (c : Nat) (f : Core → Core) : (s.updCore c f).core c = f (s.core c) :=
  State.core_setCore_self _ _ _

theorem State.core_updCore_ne {c d : Nat} (h : d ≠ c) (s : State) (f : Core → Core) : (s.updCore c f).core d = s.core d :=
  AL.get_put_ne h _ _

/-- An update of a core changes the sequencers' state alone. -/
theorem State.updCore_eq (s : State) (c : Nat) (f : Core → Core) : s.updCore c f = { s with csq := (s.updCore c f).csq } := rfl

theorem State.core_xferOpen_running (s : State) (c ch d : Nat) : ((s.xferOpen c ch).core d).running = (s.core d).running := by
  unfold State.xferOpen
  by_cases h : d = c
  · subst h; rw [State.core_updCore_self]; split <;> rfl
  · rw [State.core_updCore_ne h]

/-- Transfers on a core's port are recorded in order, and leave every core's tasks and core counters. -/
theorem State.toPort_out (s : State) (c : Nat) (l : List PortOut) :
    (s.toPort c l).out.port = s.out.port ++ l.map fun x => (c, x) := by
  unfold State.toPort
  generalize hs : ({ s with out := { s.out with port := s.out.port ++ l.map fun x => (c, x) } } : State) = u
  have key : ∀ (l : List PortOut) (u : State), (l.foldl (fun s x => s.xferOpen c x.channel) u).out = u.out := by
    intro l
    induction l with
    | nil => intro u; rfl
    | cons x l ih => intro u; rw [List.foldl_cons, ih]; rfl
  rw [key, ← hs]

theorem State.toPort_running (s : State) (c d : Nat) (l : List PortOut) :
    ((s.toPort c l).core d).running = (s.core d).running := by
  unfold State.toPort
  have key : ∀ (l : List PortOut) (u : State), ((l.foldl (fun s x => s.xferOpen c x.channel) u).core d).running = (u.core d).running := by
    intro l
    induction l with
    | nil => intro u; rfl
    | cons x l ih => intro u; rw [List.foldl_cons, ih, State.core_xferOpen_running]
  rw [key]; rfl

/-! ## Firmware -/

@[simp] theorem State.pet_cores (s : State) (k : Nat) : (s.pet k).fwc.cores = s.fwc.cores := rfl
@[simp] theorem State.pet_petAt (s : State) (k : Nat) : (s.pet k).fwc.petAt = AL.put k s.env.now s.fwc.petAt := rfl
@[simp] theorem State.setRecover_busy (s : State) (n : Nat) : (s.setRecover n).gcs.recoverBusy = false := rfl
@[simp] theorem State.setRecover_result (s : State) (n : Nat) : (s.setRecover n).gcs.recoverResult = n := rfl

end Sys2Proof.Machine
end

