-- ==== Sys2Proof/WellFormed.lean ====
section
/-!
DEFINITION. Well-formed commands: operands within the device's counts and the widths of their fields. The meanings do not
assume it: what names a unit, a queue or a line that the device lacks is an event that cannot happen (assumption 5).
-/
namespace Sys2Proof

open Machine in
/-- The packets of a command: its opcode, and as many packets as packet 0 says (Table 2.9, R45). -/
def okCommand (d : Device) (code q : Nat) (w : List Word) : Bool :=
  decide (q < d.queues) && decide (Op.code w = code) && decide (w.length = 8 * (Op.extra w + 1))

/-- A time in ns fits the timebase register (R9). -/
def okTime (t : Nat) : Bool := decide (t < 2 ^ 64)

/-- A logical core of the device (Table 4.11). -/
def okCore (d : Device) (c : Nat) : Bool := decide (c < 8 * d.clusters)

/-- A GE region of the device: a cluster's, or the global one, 18 (00). -/
def okRegion (d : Device) (g : Nat) : Bool := decide (g < d.geRegions) || decide (g = 18)

/-- A scalar register of the control core (R223). -/
def okReg (r : Nat) : Bool := decide (r < 32)

/-- An event line (R288). -/
def okLine (n : Nat) : Bool := decide (n < 8)

/-- A TAG of a core's request (Table 12.1). -/
def okTag (tag : Nat) : Bool := decide (tag < 16)

/-- A stage and its unit (R302, Table 15.5). -/
def okWear (d : Device) (x : Wear) : Bool := decide (x.stage < d.stages) && decide (1 ≤ x.kind) && decide (x.kind ≤ 8)

/-- Every operand of a command is in range. -/
def Instr.wf (d : Device) : Instr → Bool
  | .nop q w => okCommand d 0x00 q w
  | .graphLoad q w => okCommand d 0x01 q w
  | .graphLaunch q w => okCommand d 0x02 q w
  | .signal q w => okCommand d 0x03 q w
  | .wait q w => okCommand d 0x04 q w
  | .signalRemote q w => okCommand d 0x05 q w
  | .peerWrite q w => okCommand d 0x06 q w
  | .cancel q w => okCommand d 0x07 q w
  | .ctxCreate q w => okCommand d 0x08 q w
  | .ctxDestroy q w => okCommand d 0x09 q w
  | .ctxSuspend q w => okCommand d 0x0A q w
  | .ctxResume q w => okCommand d 0x0B q w
  | .counterMap q w => okCommand d 0x0C q w
  | .tilePool q w => okCommand d 0x0D q w
  | .geProgramLoad q w => okCommand d 0x0E q w
  | .flowConfig q w => okCommand d 0x0F q w
  | .carJoin q w => okCommand d 0x10 q w
  | .carLeave q w => okCommand d 0x11 q w
  | .carStep q w => okCommand d 0x12 q w
  | .delayPost q w => okCommand d 0x13 q w
  | .query q w => okCommand d 0x14 q w
  | .statSnapshot q w => okCommand d 0x15 q w
  | .queueReset q w => okCommand d 0x16 q w
  | .debugSetCounter q w => okCommand d 0x17 q w
  | .fwUpdate q w => okCommand d 0x18 q w
  | .studbookRead q w => okCommand d 0x19 q w
  | .healthAck q w => okCommand d 0x1A q w
  | .blockReset q w => okCommand d 0x1B q w
  | .cfePacketCheck q t => decide (q < d.queues) && okTime t
  | .fwTakeUp role t => decide (role < 4) && okTime t
  | .fwBusyExpiry q seq t => decide (q < d.queues) && decide (seq < 2 ^ 64) && okTime t
  | .dbTailWrite q _ => decide (q < d.queues)
  | .dbCplHeadWrite q _ => decide (q < d.queues)
  | .queueEnable q => decide (q < d.queues)
  | .queueDisable q => decide (q < d.queues)
  | .queue0Reset => true
  | .qattrWrite off _ => decide (off < 2 ^ 20)
  | .cfeSlotQueueWrite n _ => decide (n < d.slots)
  | .displace n => decide (n < d.slots)
  | .slotEnableWrite n _ => decide (n < d.slots)
  | .slotGrant n t => decide (n < d.slots) && okTime t
  | .slotDisplace t => okTime t
  | .slotIdleRelease n t => decide (n < d.slots) && okTime t
  | .slotBlockedRelease n t => decide (n < d.slots) && okTime t
  | .waitTimeout q t => decide (q < d.queues) && okTime t
  | .graphWatchdog q seq t => decide (q < d.queues) && decide (seq < 2 ^ 64) && okTime t
  | .gdPop t => okTime t
  | .specOffer n t => decide (n < d.clusters) && okTime t
  | .spur c t => okCore d c && okTime t
  | .descFill lane => decide (lane < 8)
  | .coreDone c _ t => okCore d c && okTime t
  | .coreYield c t => okCore d c && okTime t
  | .coreSig c vid inc => okCore d c && decide (vid < 2 ^ 24) && decide (inc < 2 ^ 32)
  | .coreWait c tag vid _ => okCore d c && okTag tag && decide (vid < 2 ^ 24)
  | .coreProbe c tag vid => okCore d c && okTag tag && decide (vid < 2 ^ 24)
  | .ccSignal c k inc => okCore d c && okTag k.tag && decide (k.k < 32) && decide (inc < 2 ^ 32)
  | .ccWait c tag k => okCore d c && okTag tag && decide (k < 32)
  | .ccTake c tag k op => okCore d c && okTag tag && decide (k < 32) && decide (op < 16)
  | .ccRead c tag k => okCore d c && okTag tag && decide (k < 32)
  | .stageBeatRefused c => okCore d c
  | .specAccessAttempt c => okCore d c
  | .budgetExpiry c t => okCore d c && okTime t
  | .tileStallTimeout c t => okCore d c && okTime t
  | .portFault c channel t => okCore d c && decide (1 ≤ channel) && decide (channel ≤ 8) && okTime t
  | .delayTick k => decide (k < 2 ^ 54)
  | .delayTaskWake t => okTime t
  | .postedSignalWake t => okTime t
  | .postedLaunchWake t => okTime t
  | .quantumWindowEnd ctx t => decide (ctx < 4096) && okTime t
  | .suspendComplete ctx t => decide (ctx < 4096) && okTime t
  | .makeResident t => okTime t
  | .geTaskStart g t => okRegion d g && okTime t
  | .gePassEnd g t => okRegion d g && okTime t
  | .gateBudgetExpiry g t => okRegion d g && okTime t
  | .geNop g => okRegion d g
  | .li g rd _ => okRegion d g && okReg rd
  | .lih g rd _ => okRegion d g && okReg rd
  | .add g rd a b => okRegion d g && okReg rd && okReg a && okReg b
  | .addi g rd a _ => okRegion d g && okReg rd && okReg a
  | .sub g rd a b => okRegion d g && okReg rd && okReg a && okReg b
  | .and g rd a b => okRegion d g && okReg rd && okReg a && okReg b
  | .or g rd a b => okRegion d g && okReg rd && okReg a && okReg b
  | .xor g rd a b => okRegion d g && okReg rd && okReg a && okReg b
  | .shl g rd a b => okRegion d g && okReg rd && okReg a && okReg b
  | .shr g rd a b => okRegion d g && okReg rd && okReg a && okReg b
  | .mul g rd a b => okRegion d g && okReg rd && okReg a && okReg b
  | .ctz g rd a => okRegion d g && okReg rd && okReg a
  | .fadd g rd a b => okRegion d g && okReg rd && okReg a && okReg b
  | .fsub g rd a b => okRegion d g && okReg rd && okReg a && okReg b
  | .fmul g rd a b => okRegion d g && okReg rd && okReg a && okReg b
  | .fdiv g rd a b => okRegion d g && okReg rd && okReg a && okReg b
  | .fsqrt g rd a => okRegion d g && okReg rd && okReg a
  | .flt g rd a b => okRegion d g && okReg rd && okReg a && okReg b
  | .fle g rd a b => okRegion d g && okReg rd && okReg a && okReg b
  | .fcvt g rd a => okRegion d g && okReg rd && okReg a
  | .icvt g rd a => okRegion d g && okReg rd && okReg a
  | .ld g rd a _ => okRegion d g && okReg rd && okReg a
  | .st g a b _ => okRegion d g && okReg a && okReg b
  | .bind g rd _ => okRegion d g && okReg rd
  | .beq g a b _ => okRegion d g && okReg a && okReg b
  | .bne g a b _ => okRegion d g && okReg a && okReg b
  | .blt g a b _ => okRegion d g && okReg a && okReg b
  | .bge g a b _ => okRegion d g && okReg a && okReg b
  | .bltu g a b _ => okRegion d g && okReg a && okReg b
  | .jmp g _ => okRegion d g
  | .run g a b => okRegion d g && okReg a && okReg b
  | .sum g rd _ => okRegion d g && okReg rd
  | .geSig g a b => okRegion d g && okReg a && okReg b
  | .geLaunch g rd a b t => okRegion d g && okReg rd && okReg a && okReg b && okTime t
  | .shape g rd a b => okRegion d g && okReg rd && okReg a && okReg b
  | .skip g rd a => okRegion d g && okReg rd && okReg a
  | .endTask g _ t => okRegion d g && okTime t
  | .relaySend c tag hdr payload => okCore d c && okTag tag && decide (payload.length = Machine.bits hdr 21 20 + 1)
  | .relayDeliver c ch => okCore d c && decide (ch < 16)
  | .operandPortRead c slot port => okCore d c && decide (slot < 64) && decide (port < 4)
  | .trailSend t => okTime t
  | .trailReceive _ _ _ => true
  | .trailAckReceive _ _ _ _ => true
  | .trailTimeout dest seq t => decide (dest < 1024) && decide (seq < 2 ^ 48) && okTime t
  | .linkReset herd => decide (herd < 1024)
  | .linkUnreachable herd => decide (herd < 1024)
  | .evtEdge n t => okLine n && okTime t
  | .evtStuck n t => okLine n && okTime t
  | .stuckRearm n => okLine n
  | .evtActWrite n _ => okLine n
  | .evtCountWrite n _ => okLine n
  | .gaitReq sel t => decide (sel < 4) && okTime t
  | .gaitAck t => okTime t
  | .gaitDone bad t => bad.all (okWear d) && okTime t
  | .tthGaitReq target => decide (target < 4)
  | .powerOn t => okTime t
  | .pwrFail t => okTime t
  | .reserveDrain t => okTime t
  | .warmReset t => okTime t
  | .coldReset t => okTime t
  | .firmwareRestart t => okTime t
  | .recover t => okTime t
  | .startEnd t => okTime t
  | .startWatchdog t => okTime t
  | .enum => true
  | .tetherNoAnswer p => decide (p < d.positions)
  | .groom _ failed => failed.all (okWear d)
  | .fwCoreTrap k _ t => decide (k < d.fwCores) && okTime t
  | .fwWatchdog k t => decide (k < d.fwCores) && okTime t
  | .fwRestartEnd k t => decide (k < d.fwCores) && okTime t
  | .ping arg => decide (arg < 2 ^ 16)
  | .policyRead arg => decide (arg < 2 ^ 16)
  | .policyWrite arg _ => decide (arg < 2 ^ 16)
  | .setHerdGroup arg _ => decide (arg < 2 ^ 16)
  | .restartCore k t => decide (k < d.fwCores) && okTime t
  | .entdaa da => decide (da < 128)
  | .rstdaa => true
  | .i3cCcc code data => decide (code < 256) && decide (data < 2 ^ 32)
  | .healthGet => true
  | .mctpStudbookRead first => decide (first < 2 ^ 32)
  | .mctpControl code data => decide (code < 256) && decide (data < 2 ^ 32)
  | .ctuDbgRead => true
  | .ctuDbgSet => true
  | .ctuDbgHalt => true
  | .ctuDbgResume => true
  | .flush => true
  | .icacheInv g => okRegion d g
  | .statClear => true
  | .irqEnableWrite _ => true
  | .irqStatusClear _ => true
  | .errRingEnable _ => true
  | .errHeadWrite _ => true
  | .registerWrite off _ width => decide (off < 2 ^ 24) && (width == 8 || width == 16 || width == 32 || width == 64)
  | .sramError storage inst row _ t => decide (1 ≤ storage) && decide (storage ≤ 16) && decide (inst < 2 ^ 16) && decide (row < 2 ^ 64) && okTime t
  | .wearDetect x t => okWear d x && okTime t
  | .remount kind inst cause t => decide (1 ≤ kind) && decide (kind ≤ 8) && decide (inst < 2 ^ 16) && decide (cause < 16) && okTime t
  | .studbookFlush => true
  | .gaitRequestAnswer _ => true
  | .suspendDrainLimit ctx t => decide (ctx < 4096) && okTime t
  | .ptrMismatch kind inst ctx t => decide (1 ≤ kind) && decide (kind ≤ 9) && decide (inst < 2 ^ 16) && decide (ctx < 4096) && okTime t
  | .evtLineFall n t => okLine n && okTime t
  | .powerFall => true
  | .pwrFailRelease t => okTime t
  | .ibiAcknowledge cause => decide (1 ≤ cause) && decide (cause ≤ 5)

end Sys2Proof
end

