-- ==== Sys2Proof/Laws/PerInstr.lean ====
section
/-!
SUPPORT. One lemma a command: the family Wf64. What is well-formed on the XS-64 is well-formed on the XS-144, whose counts are
nowhere smaller (Table 0.1).
-/
namespace Sys2Proof.Laws.Wf64

/-- Well-formed on the XS-64 gives well-formed on the XS-144. -/
def Statement (i : Instr) : Prop := i.wf .xs64 = true → i.wf .xs144 = true

theorem count_of {x a b : Nat} (h : a ≤ b) (k : decide (x < a) = true) : decide (x < b) = true :=
  decide_eq_true (Nat.lt_of_lt_of_le (of_decide_eq_true k) h)

theorem both {a b a' b' : Bool} (f : a = true → a' = true) (g : b = true → b' = true) (h : (a && b) = true) :
    (a' && b') = true := by
  rw [Bool.and_eq_true] at h ⊢
  exact h.imp f g

theorem okCommand_of {code q : Nat} {w : List Word} (h : okCommand .xs64 code q w = true) :
    okCommand .xs144 code q w = true := by
  simp only [okCommand, Bool.and_eq_true] at h ⊢
  exact ⟨⟨count_of (by decide) h.1.1, h.1.2⟩, h.2⟩

theorem okCore_of {c : Nat} (h : okCore .xs64 c = true) : okCore .xs144 c = true := count_of (by decide) h

theorem okRegion_of {g : Nat} (h : okRegion .xs64 g = true) : okRegion .xs144 g = true := by
  simp only [okRegion, Bool.or_eq_true] at h ⊢
  exact h.imp (count_of (by decide)) id

theorem okWear_of {x : Wear} (h : okWear .xs64 x = true) : okWear .xs144 x = true := by
  simp only [okWear, Bool.and_eq_true] at h ⊢
  exact ⟨⟨count_of (by decide) h.1.1, h.1.2⟩, h.2⟩

theorem wears_of {l : List Wear} (h : l.all (okWear .xs64) = true) : l.all (okWear .xs144) = true := by
  rw [List.all_eq_true] at h ⊢
  exact fun x hx => okWear_of (h x hx)

theorem nop (q : Nat) (w : List Word) : Statement (.nop q w) := fun h => okCommand_of h

theorem graphLoad (q : Nat) (w : List Word) : Statement (.graphLoad q w) := fun h => okCommand_of h

theorem graphLaunch (q : Nat) (w : List Word) : Statement (.graphLaunch q w) := fun h => okCommand_of h

theorem signal (q : Nat) (w : List Word) : Statement (.signal q w) := fun h => okCommand_of h

theorem wait (q : Nat) (w : List Word) : Statement (.wait q w) := fun h => okCommand_of h

theorem signalRemote (q : Nat) (w : List Word) : Statement (.signalRemote q w) := fun h => okCommand_of h

theorem peerWrite (q : Nat) (w : List Word) : Statement (.peerWrite q w) := fun h => okCommand_of h

theorem cancel (q : Nat) (w : List Word) : Statement (.cancel q w) := fun h => okCommand_of h

theorem ctxCreate (q : Nat) (w : List Word) : Statement (.ctxCreate q w) := fun h => okCommand_of h

theorem ctxDestroy (q : Nat) (w : List Word) : Statement (.ctxDestroy q w) := fun h => okCommand_of h

theorem ctxSuspend (q : Nat) (w : List Word) : Statement (.ctxSuspend q w) := fun h => okCommand_of h

theorem ctxResume (q : Nat) (w : List Word) : Statement (.ctxResume q w) := fun h => okCommand_of h

theorem counterMap (q : Nat) (w : List Word) : Statement (.counterMap q w) := fun h => okCommand_of h

theorem tilePool (q : Nat) (w : List Word) : Statement (.tilePool q w) := fun h => okCommand_of h

theorem geProgramLoad (q : Nat) (w : List Word) : Statement (.geProgramLoad q w) := fun h => okCommand_of h

theorem flowConfig (q : Nat) (w : List Word) : Statement (.flowConfig q w) := fun h => okCommand_of h

theorem carJoin (q : Nat) (w : List Word) : Statement (.carJoin q w) := fun h => okCommand_of h

theorem carLeave (q : Nat) (w : List Word) : Statement (.carLeave q w) := fun h => okCommand_of h

theorem carStep (q : Nat) (w : List Word) : Statement (.carStep q w) := fun h => okCommand_of h

theorem delayPost (q : Nat) (w : List Word) : Statement (.delayPost q w) := fun h => okCommand_of h

theorem query (q : Nat) (w : List Word) : Statement (.query q w) := fun h => okCommand_of h

theorem statSnapshot (q : Nat) (w : List Word) : Statement (.statSnapshot q w) := fun h => okCommand_of h

theorem queueReset (q : Nat) (w : List Word) : Statement (.queueReset q w) := fun h => okCommand_of h

theorem debugSetCounter (q : Nat) (w : List Word) : Statement (.debugSetCounter q w) := fun h => okCommand_of h

theorem fwUpdate (q : Nat) (w : List Word) : Statement (.fwUpdate q w) := fun h => okCommand_of h

theorem studbookRead (q : Nat) (w : List Word) : Statement (.studbookRead q w) := fun h => okCommand_of h

theorem healthAck (q : Nat) (w : List Word) : Statement (.healthAck q w) := fun h => okCommand_of h

theorem blockReset (q : Nat) (w : List Word) : Statement (.blockReset q w) := fun h => okCommand_of h

theorem cfePacketCheck (q : Nat) (t : Nat) : Statement (.cfePacketCheck q t) := fun h => both (count_of (by decide : Device.queues .xs64 ≤ Device.queues .xs144)) id h

theorem fwTakeUp (role : Nat) (t : Nat) : Statement (.fwTakeUp role t) := fun h => h

theorem fwBusyExpiry (q seq : Nat) (t : Nat) : Statement (.fwBusyExpiry q seq t) := fun h => both (both (count_of (by decide : Device.queues .xs64 ≤ Device.queues .xs144)) id) id h

theorem dbTailWrite (q : Nat) (v : Word) : Statement (.dbTailWrite q v) := fun h => (count_of (by decide : Device.queues .xs64 ≤ Device.queues .xs144)) h

theorem dbCplHeadWrite (q : Nat) (v : Word) : Statement (.dbCplHeadWrite q v) := fun h => (count_of (by decide : Device.queues .xs64 ≤ Device.queues .xs144)) h

theorem queueEnable (q : Nat) : Statement (.queueEnable q) := fun h => (count_of (by decide : Device.queues .xs64 ≤ Device.queues .xs144)) h

theorem queueDisable (q : Nat) : Statement (.queueDisable q) := fun h => (count_of (by decide : Device.queues .xs64 ≤ Device.queues .xs144)) h

theorem queue0Reset : Statement (.queue0Reset) := fun h => h

theorem qattrWrite (off : Nat) (v : Word) : Statement (.qattrWrite off v) := fun h => h

theorem cfeSlotQueueWrite (n : Nat) (v : Word) : Statement (.cfeSlotQueueWrite n v) := fun h => (count_of (by decide : Device.slots .xs64 ≤ Device.slots .xs144)) h

theorem displace (n : Nat) : Statement (.displace n) := fun h => (count_of (by decide : Device.slots .xs64 ≤ Device.slots .xs144)) h

theorem slotEnableWrite (n : Nat) (enable : Bool) : Statement (.slotEnableWrite n enable) := fun h => (count_of (by decide : Device.slots .xs64 ≤ Device.slots .xs144)) h

theorem slotGrant (n : Nat) (t : Nat) : Statement (.slotGrant n t) := fun h => both (count_of (by decide : Device.slots .xs64 ≤ Device.slots .xs144)) id h

theorem slotDisplace (t : Nat) : Statement (.slotDisplace t) := fun h => h

theorem slotIdleRelease (n : Nat) (t : Nat) : Statement (.slotIdleRelease n t) := fun h => both (count_of (by decide : Device.slots .xs64 ≤ Device.slots .xs144)) id h

theorem slotBlockedRelease (n : Nat) (t : Nat) : Statement (.slotBlockedRelease n t) := fun h => both (count_of (by decide : Device.slots .xs64 ≤ Device.slots .xs144)) id h

theorem waitTimeout (q : Nat) (t : Nat) : Statement (.waitTimeout q t) := fun h => both (count_of (by decide : Device.queues .xs64 ≤ Device.queues .xs144)) id h

theorem graphWatchdog (q seq : Nat) (t : Nat) : Statement (.graphWatchdog q seq t) := fun h => both (both (count_of (by decide : Device.queues .xs64 ≤ Device.queues .xs144)) id) id h

theorem gdPop (t : Nat) : Statement (.gdPop t) := fun h => h

theorem specOffer (n : Nat) (t : Nat) : Statement (.specOffer n t) := fun h => both (count_of (by decide : Device.clusters .xs64 ≤ Device.clusters .xs144)) id h

theorem spur (c : Nat) (t : Nat) : Statement (.spur c t) := fun h => both okCore_of id h

theorem descFill (lane : Nat) : Statement (.descFill lane) := fun h => h

theorem coreDone (c : Nat) (occ : Word) (t : Nat) : Statement (.coreDone c occ t) := fun h => both okCore_of id h

theorem coreYield (c : Nat) (t : Nat) : Statement (.coreYield c t) := fun h => both okCore_of id h

theorem coreSig (c vid inc : Nat) : Statement (.coreSig c vid inc) := fun h => both (both okCore_of id) id h

theorem coreWait (c tag vid : Nat) (expected : Word) : Statement (.coreWait c tag vid expected) := fun h => both (both okCore_of id) id h

theorem coreProbe (c tag vid : Nat) : Statement (.coreProbe c tag vid) := fun h => both (both okCore_of id) id h

theorem ccSignal (c inc : Nat) (k : CcReq) : Statement (.ccSignal c k inc) := fun h => both (both (both okCore_of id) id) id h

theorem ccWait (c tag k : Nat) : Statement (.ccWait c tag k) := fun h => both (both okCore_of id) id h

theorem ccTake (c tag k op : Nat) : Statement (.ccTake c tag k op) := fun h => both (both (both okCore_of id) id) id h

theorem ccRead (c tag k : Nat) : Statement (.ccRead c tag k) := fun h => both (both okCore_of id) id h

theorem stageBeatRefused (c : Nat) : Statement (.stageBeatRefused c) := fun h => okCore_of h

theorem specAccessAttempt (c : Nat) : Statement (.specAccessAttempt c) := fun h => okCore_of h

theorem budgetExpiry (c : Nat) (t : Nat) : Statement (.budgetExpiry c t) := fun h => both okCore_of id h

theorem tileStallTimeout (c : Nat) (t : Nat) : Statement (.tileStallTimeout c t) := fun h => both okCore_of id h

theorem portFault (c channel : Nat) (t : Nat) : Statement (.portFault c channel t) := fun h => both (both (both okCore_of id) id) id h

theorem delayTick (k : Nat) : Statement (.delayTick k) := fun h => h

theorem delayTaskWake (t : Nat) : Statement (.delayTaskWake t) := fun h => h

theorem postedSignalWake (t : Nat) : Statement (.postedSignalWake t) := fun h => h

theorem postedLaunchWake (t : Nat) : Statement (.postedLaunchWake t) := fun h => h

theorem quantumWindowEnd (ctx : Nat) (t : Nat) : Statement (.quantumWindowEnd ctx t) := fun h => h

theorem suspendComplete (ctx : Nat) (t : Nat) : Statement (.suspendComplete ctx t) := fun h => h

theorem makeResident (t : Nat) : Statement (.makeResident t) := fun h => h

theorem geTaskStart (g : Nat) (t : Nat) : Statement (.geTaskStart g t) := fun h => both okRegion_of id h

theorem gePassEnd (g : Nat) (t : Nat) : Statement (.gePassEnd g t) := fun h => both okRegion_of id h

theorem gateBudgetExpiry (g : Nat) (t : Nat) : Statement (.gateBudgetExpiry g t) := fun h => both okRegion_of id h

theorem geNop (g : Nat) : Statement (.geNop g) := fun h => okRegion_of h

theorem li (g d : Nat) (imm : BitVec 32) : Statement (.li g d imm) := fun h => both okRegion_of id h

theorem lih (g d : Nat) (imm : BitVec 32) : Statement (.lih g d imm) := fun h => both okRegion_of id h

theorem add (g d a b : Nat) : Statement (.add g d a b) := fun h => both (both (both okRegion_of id) id) id h

theorem addi (g d a : Nat) (imm : BitVec 32) : Statement (.addi g d a imm) := fun h => both (both okRegion_of id) id h

theorem sub (g d a b : Nat) : Statement (.sub g d a b) := fun h => both (both (both okRegion_of id) id) id h

theorem and (g d a b : Nat) : Statement (.and g d a b) := fun h => both (both (both okRegion_of id) id) id h

theorem or (g d a b : Nat) : Statement (.or g d a b) := fun h => both (both (both okRegion_of id) id) id h

theorem xor (g d a b : Nat) : Statement (.xor g d a b) := fun h => both (both (both okRegion_of id) id) id h

theorem shl (g d a b : Nat) : Statement (.shl g d a b) := fun h => both (both (both okRegion_of id) id) id h

theorem shr (g d a b : Nat) : Statement (.shr g d a b) := fun h => both (both (both okRegion_of id) id) id h

theorem mul (g d a b : Nat) : Statement (.mul g d a b) := fun h => both (both (both okRegion_of id) id) id h

theorem ctz (g d a : Nat) : Statement (.ctz g d a) := fun h => both (both okRegion_of id) id h

theorem fadd (g d a b : Nat) : Statement (.fadd g d a b) := fun h => both (both (both okRegion_of id) id) id h

theorem fsub (g d a b : Nat) : Statement (.fsub g d a b) := fun h => both (both (both okRegion_of id) id) id h

theorem fmul (g d a b : Nat) : Statement (.fmul g d a b) := fun h => both (both (both okRegion_of id) id) id h

theorem fdiv (g d a b : Nat) : Statement (.fdiv g d a b) := fun h => both (both (both okRegion_of id) id) id h

theorem fsqrt (g d a : Nat) : Statement (.fsqrt g d a) := fun h => both (both okRegion_of id) id h

theorem flt (g d a b : Nat) : Statement (.flt g d a b) := fun h => both (both (both okRegion_of id) id) id h

theorem fle (g d a b : Nat) : Statement (.fle g d a b) := fun h => both (both (both okRegion_of id) id) id h

theorem fcvt (g d a : Nat) : Statement (.fcvt g d a) := fun h => both (both okRegion_of id) id h

theorem icvt (g d a : Nat) : Statement (.icvt g d a) := fun h => both (both okRegion_of id) id h

theorem ld (g d a : Nat) (imm : BitVec 32) : Statement (.ld g d a imm) := fun h => both (both okRegion_of id) id h

theorem st (g a b : Nat) (imm : BitVec 32) : Statement (.st g a b imm) := fun h => both (both okRegion_of id) id h

theorem bind (g d : Nat) (imm : BitVec 32) : Statement (.bind g d imm) := fun h => both okRegion_of id h

theorem beq (g a b : Nat) (imm : BitVec 32) : Statement (.beq g a b imm) := fun h => both (both okRegion_of id) id h

theorem bne (g a b : Nat) (imm : BitVec 32) : Statement (.bne g a b imm) := fun h => both (both okRegion_of id) id h

theorem blt (g a b : Nat) (imm : BitVec 32) : Statement (.blt g a b imm) := fun h => both (both okRegion_of id) id h

theorem bge (g a b : Nat) (imm : BitVec 32) : Statement (.bge g a b imm) := fun h => both (both okRegion_of id) id h

theorem bltu (g a b : Nat) (imm : BitVec 32) : Statement (.bltu g a b imm) := fun h => both (both okRegion_of id) id h

theorem jmp (g : Nat) (imm : BitVec 32) : Statement (.jmp g imm) := fun h => okRegion_of h

theorem run (g a b : Nat) : Statement (.run g a b) := fun h => both (both okRegion_of id) id h

theorem sum (g d : Nat) (imm : BitVec 32) : Statement (.sum g d imm) := fun h => both okRegion_of id h

theorem geSig (g a b : Nat) : Statement (.geSig g a b) := fun h => both (both okRegion_of id) id h

theorem geLaunch (g d a b : Nat) (t : Nat) : Statement (.geLaunch g d a b t) := fun h => both (both (both (both okRegion_of id) id) id) id h

theorem shape (g d a b : Nat) : Statement (.shape g d a b) := fun h => both (both (both okRegion_of id) id) id h

theorem skip (g d a : Nat) : Statement (.skip g d a) := fun h => both (both okRegion_of id) id h

theorem endTask (g : Nat) (imm : BitVec 32) (t : Nat) : Statement (.endTask g imm t) := fun h => both okRegion_of id h

theorem relaySend (c tag : Nat) (hdr : Word) (payload : List Word) : Statement (.relaySend c tag hdr payload) := fun h => both (both okCore_of id) id h

theorem relayDeliver (c ch : Nat) : Statement (.relayDeliver c ch) := fun h => both okCore_of id h

theorem operandPortRead (c slot port : Nat) : Statement (.operandPortRead c slot port) := fun h => both (both okCore_of id) id h

theorem trailSend (t : Nat) : Statement (.trailSend t) := fun h => h

theorem trailReceive (w0 w1 w2 : Word) : Statement (.trailReceive w0 w1 w2) := fun h => h

theorem trailAckReceive (w0 w1 w2 w3 : Word) : Statement (.trailAckReceive w0 w1 w2 w3) := fun h => h

theorem trailTimeout (dest seq : Nat) (t : Nat) : Statement (.trailTimeout dest seq t) := fun h => h

theorem linkReset (herd : Nat) : Statement (.linkReset herd) := fun h => h

theorem linkUnreachable (herd : Nat) : Statement (.linkUnreachable herd) := fun h => h

theorem evtEdge (n : Nat) (t : Nat) : Statement (.evtEdge n t) := fun h => h

theorem evtStuck (n : Nat) (t : Nat) : Statement (.evtStuck n t) := fun h => h

theorem stuckRearm (n : Nat) : Statement (.stuckRearm n) := fun h => h

theorem evtActWrite (n : Nat) (v : Word) : Statement (.evtActWrite n v) := fun h => h

theorem evtCountWrite (n : Nat) (v : Word) : Statement (.evtCountWrite n v) := fun h => h

theorem gaitReq (sel : Nat) (t : Nat) : Statement (.gaitReq sel t) := fun h => h

theorem gaitAck (t : Nat) : Statement (.gaitAck t) := fun h => h

theorem gaitDone (bad : List Wear) (t : Nat) : Statement (.gaitDone bad t) := fun h => both wears_of id h

theorem tthGaitReq (target : Nat) : Statement (.tthGaitReq target) := fun h => h

theorem powerOn (t : Nat) : Statement (.powerOn t) := fun h => h

theorem pwrFail (t : Nat) : Statement (.pwrFail t) := fun h => h

theorem reserveDrain (t : Nat) : Statement (.reserveDrain t) := fun h => h

theorem warmReset (t : Nat) : Statement (.warmReset t) := fun h => h

theorem coldReset (t : Nat) : Statement (.coldReset t) := fun h => h

theorem firmwareRestart (t : Nat) : Statement (.firmwareRestart t) := fun h => h

theorem recover (t : Nat) : Statement (.recover t) := fun h => h

theorem startEnd (t : Nat) : Statement (.startEnd t) := fun h => h

theorem startWatchdog (t : Nat) : Statement (.startWatchdog t) := fun h => h

theorem enum : Statement (.enum) := fun h => h

theorem tetherNoAnswer (p : Nat) : Statement (.tetherNoAnswer p) := fun h => (count_of (by decide : Device.positions .xs64 ≤ Device.positions .xs144)) h

theorem groom (temp : Int) (failed : List Wear) : Statement (.groom temp failed) := fun h => wears_of h

theorem fwCoreTrap (k : Nat) (mcause : Word) (t : Nat) : Statement (.fwCoreTrap k mcause t) := fun h => both (count_of (by decide : Device.fwCores .xs64 ≤ Device.fwCores .xs144)) id h

theorem fwWatchdog (k : Nat) (t : Nat) : Statement (.fwWatchdog k t) := fun h => both (count_of (by decide : Device.fwCores .xs64 ≤ Device.fwCores .xs144)) id h

theorem fwRestartEnd (k : Nat) (t : Nat) : Statement (.fwRestartEnd k t) := fun h => both (count_of (by decide : Device.fwCores .xs64 ≤ Device.fwCores .xs144)) id h

theorem ping (arg : Nat) : Statement (.ping arg) := fun h => h

theorem policyRead (arg : Nat) : Statement (.policyRead arg) := fun h => h

theorem policyWrite (arg : Nat) (v : Word) : Statement (.policyWrite arg v) := fun h => h

theorem setHerdGroup (arg : Nat) (v : Word) : Statement (.setHerdGroup arg v) := fun h => h

theorem restartCore (k : Nat) (t : Nat) : Statement (.restartCore k t) := fun h => both (count_of (by decide : Device.fwCores .xs64 ≤ Device.fwCores .xs144)) id h

theorem entdaa (da : Nat) : Statement (.entdaa da) := fun h => h

theorem rstdaa : Statement (.rstdaa) := fun h => h

theorem i3cCcc (code : Nat) (data : Nat) : Statement (.i3cCcc code data) := fun h => h

theorem healthGet : Statement (.healthGet) := fun h => h

theorem mctpStudbookRead (first : Nat) : Statement (.mctpStudbookRead first) := fun h => h

theorem mctpControl (code : Nat) (data : Nat) : Statement (.mctpControl code data) := fun h => h

theorem ctuDbgRead : Statement (.ctuDbgRead) := fun h => h

theorem ctuDbgSet : Statement (.ctuDbgSet) := fun h => h

theorem ctuDbgHalt : Statement (.ctuDbgHalt) := fun h => h

theorem ctuDbgResume : Statement (.ctuDbgResume) := fun h => h

theorem flush : Statement (.flush) := fun h => h

theorem icacheInv (g : Nat) : Statement (.icacheInv g) := fun h => okRegion_of h

theorem statClear : Statement (.statClear) := fun h => h

theorem irqEnableWrite (v : Word) : Statement (.irqEnableWrite v) := fun h => h

theorem irqStatusClear (v : Word) : Statement (.irqStatusClear v) := fun h => h

theorem errRingEnable (v : Word) : Statement (.errRingEnable v) := fun h => h

theorem errHeadWrite (v : Word) : Statement (.errHeadWrite v) := fun h => h

theorem registerWrite (off : Nat) (v : Word) (width : Nat) : Statement (.registerWrite off v width) := fun h => h

theorem sramError (storage inst row : Nat) (uncorrectable : Bool) (t : Nat) : Statement (.sramError storage inst row uncorrectable t) := fun h => h

theorem wearDetect (x : Wear) (t : Nat) : Statement (.wearDetect x t) := fun h => both okWear_of id h

theorem remount (kind inst cause : Nat) (t : Nat) : Statement (.remount kind inst cause t) := fun h => h

theorem studbookFlush : Statement (.studbookFlush) := fun h => h

theorem gaitRequestAnswer (denied : Bool) : Statement (.gaitRequestAnswer denied) := fun h => h

theorem suspendDrainLimit (ctx : Nat) (t : Nat) : Statement (.suspendDrainLimit ctx t) := fun h => h

theorem ptrMismatch (kind inst ctx : Nat) (t : Nat) : Statement (.ptrMismatch kind inst ctx t) := fun h => h

theorem evtLineFall (n : Nat) (t : Nat) : Statement (.evtLineFall n t) := fun h => h

theorem powerFall : Statement (.powerFall) := fun h => h

theorem pwrFailRelease (t : Nat) : Statement (.pwrFailRelease t) := fun h => h

theorem ibiAcknowledge (cause : Nat) : Statement (.ibiAcknowledge cause) := fun h => h

end Sys2Proof.Laws.Wf64
end

