-- ==== Sys2Proof/Laws/Report.lean ====
section
/-!
SUPPORT. Laws of records, interrupts and the stud book: what they leave as it is, and that they hand on no action but the reset of
an UNCONTAINED error.
-/
namespace Sys2Proof.Machine


@[simp] theorem State.irq_env (s : State) (i : Nat) : (s.irq i).env = s.env := by
  unfold State.irq; dsimp only; split <;> (try split) <;> rfl
@[simp] theorem State.irq_freeCount (s : State) (i : Nat) : (s.irq i).freeCount = s.freeCount := by
  unfold State.irq; dsimp only; split <;> (try split) <;> rfl
@[simp] theorem State.irq_pending (s : State) (i : Nat) : (s.irq i).pending = s.pending := by
  unfold State.irq; dsimp only; split <;> (try split) <;> rfl
@[simp] theorem State.irq_cfe (s : State) (i : Nat) : (s.irq i).cfe = s.cfe := by
  unfold State.irq; dsimp only; split <;> (try split) <;> rfl
@[simp] theorem State.irq_ctxs (s : State) (i : Nat) : (s.irq i).ctxs = s.ctxs := by
  unfold State.irq; dsimp only; split <;> (try split) <;> rfl
@[simp] theorem State.irq_gd (s : State) (i : Nat) : (s.irq i).gd = s.gd := by
  unfold State.irq; dsimp only; split <;> (try split) <;> rfl
@[simp] theorem State.irq_csq (s : State) (i : Nat) : (s.irq i).csq = s.csq := by
  unfold State.irq; dsimp only; split <;> (try split) <;> rfl
@[simp] theorem State.irq_ctu (s : State) (i : Nat) : (s.irq i).ctu = s.ctu := by
  unfold State.irq; dsimp only; split <;> (try split) <;> rfl
@[simp] theorem State.irq_plu (s : State) (i : Nat) : (s.irq i).plu = s.plu := by
  unfold State.irq; dsimp only; split <;> (try split) <;> rfl
@[simp] theorem State.irq_dcache (s : State) (i : Nat) : (s.irq i).dcache = s.dcache := by
  unfold State.irq; dsimp only; split <;> (try split) <;> rfl
@[simp] theorem State.irq_ges (s : State) (i : Nat) : (s.irq i).ges = s.ges := by
  unfold State.irq; dsimp only; split <;> (try split) <;> rfl
@[simp] theorem State.irq_car (s : State) (i : Nat) : (s.irq i).car = s.car := by
  unfold State.irq; dsimp only; split <;> (try split) <;> rfl
@[simp] theorem State.irq_rly (s : State) (i : Nat) : (s.irq i).rly = s.rly := by
  unfold State.irq; dsimp only; split <;> (try split) <;> rfl
@[simp] theorem State.irq_stat (s : State) (i : Nat) : (s.irq i).stat = s.stat := by
  unfold State.irq; dsimp only; split <;> (try split) <;> rfl
@[simp] theorem State.irq_tth (s : State) (i : Nat) : (s.irq i).tth = s.tth := by
  unfold State.irq; dsimp only; split <;> (try split) <;> rfl
@[simp] theorem State.irq_fwc (s : State) (i : Nat) : (s.irq i).fwc = s.fwc := by
  unfold State.irq; dsimp only; split <;> (try split) <;> rfl
@[simp] theorem State.irq_work (s : State) (i : Nat) : (s.irq i).work = s.work := by
  unfold State.irq; dsimp only; split <;> (try split) <;> rfl
@[simp] theorem State.irq_flash (s : State) (i : Nat) : (s.irq i).flash = s.flash := by
  unfold State.irq; dsimp only; split <;> (try split) <;> rfl
@[simp] theorem State.irq_mem (s : State) (i : Nat) : (s.irq i).mem = s.mem := by
  unfold State.irq; dsimp only; split <;> (try split) <;> rfl
@[simp] theorem State.irq_hostMem (s : State) (i : Nat) : (s.irq i).hostMem = s.hostMem := by
  unfold State.irq; dsimp only; split <;> (try split) <;> rfl

@[simp] theorem State.ibi_env (s : State) (c : Nat) : (s.ibi c).env = s.env := by
  unfold State.ibi; split <;> (try split) <;> rfl
@[simp] theorem State.ibi_freeCount (s : State) (c : Nat) : (s.ibi c).freeCount = s.freeCount := by
  unfold State.ibi; split <;> (try split) <;> rfl
@[simp] theorem State.ibi_pending (s : State) (c : Nat) : (s.ibi c).pending = s.pending := by
  unfold State.ibi; split <;> (try split) <;> rfl
@[simp] theorem State.ibi_cfe (s : State) (c : Nat) : (s.ibi c).cfe = s.cfe := by
  unfold State.ibi; split <;> (try split) <;> rfl
@[simp] theorem State.ibi_ctxs (s : State) (c : Nat) : (s.ibi c).ctxs = s.ctxs := by
  unfold State.ibi; split <;> (try split) <;> rfl
@[simp] theorem State.ibi_gd (s : State) (c : Nat) : (s.ibi c).gd = s.gd := by
  unfold State.ibi; split <;> (try split) <;> rfl
@[simp] theorem State.ibi_csq (s : State) (c : Nat) : (s.ibi c).csq = s.csq := by
  unfold State.ibi; split <;> (try split) <;> rfl
@[simp] theorem State.ibi_ctu (s : State) (c : Nat) : (s.ibi c).ctu = s.ctu := by
  unfold State.ibi; split <;> (try split) <;> rfl
@[simp] theorem State.ibi_plu (s : State) (c : Nat) : (s.ibi c).plu = s.plu := by
  unfold State.ibi; split <;> (try split) <;> rfl
@[simp] theorem State.ibi_dcache (s : State) (c : Nat) : (s.ibi c).dcache = s.dcache := by
  unfold State.ibi; split <;> (try split) <;> rfl
@[simp] theorem State.ibi_ges (s : State) (c : Nat) : (s.ibi c).ges = s.ges := by
  unfold State.ibi; split <;> (try split) <;> rfl
@[simp] theorem State.ibi_car (s : State) (c : Nat) : (s.ibi c).car = s.car := by
  unfold State.ibi; split <;> (try split) <;> rfl
@[simp] theorem State.ibi_rly (s : State) (c : Nat) : (s.ibi c).rly = s.rly := by
  unfold State.ibi; split <;> (try split) <;> rfl
@[simp] theorem State.ibi_stat (s : State) (c : Nat) : (s.ibi c).stat = s.stat := by
  unfold State.ibi; split <;> (try split) <;> rfl
@[simp] theorem State.ibi_tth (s : State) (c : Nat) : (s.ibi c).tth = s.tth := by
  unfold State.ibi; split <;> (try split) <;> rfl
@[simp] theorem State.ibi_fwc (s : State) (c : Nat) : (s.ibi c).fwc = s.fwc := by
  unfold State.ibi; split <;> (try split) <;> rfl
@[simp] theorem State.ibi_work (s : State) (c : Nat) : (s.ibi c).work = s.work := by
  unfold State.ibi; split <;> (try split) <;> rfl
@[simp] theorem State.ibi_flash (s : State) (c : Nat) : (s.ibi c).flash = s.flash := by
  unfold State.ibi; split <;> (try split) <;> rfl
@[simp] theorem State.ibi_mem (s : State) (c : Nat) : (s.ibi c).mem = s.mem := by
  unfold State.ibi; split <;> (try split) <;> rfl
@[simp] theorem State.ibi_hostMem (s : State) (c : Nat) : (s.ibi c).hostMem = s.hostMem := by
  unfold State.ibi; split <;> (try split) <;> rfl
@[simp] theorem State.ibi_gcs (s : State) (c : Nat) : (s.ibi c).gcs = s.gcs := by
  unfold State.ibi; split <;> (try split) <;> rfl
@[simp] theorem State.ibi_fsu (s : State) (c : Nat) : (s.ibi c).fsu = s.fsu := by
  unfold State.ibi; split <;> (try split) <;> rfl

theorem State.ibis_frame {α : Type} (f : State → α) (h : ∀ (s : State) (c : Nat), f (s.ibi c) = f s) (l : List Nat) (s : State) :
    f (l.foldl State.ibi s) = f s := by
  induction l generalizing s with
  | nil => rfl
  | cons c r ih => rw [List.foldl_cons, ih, h]

@[simp] theorem State.ibiRelease_env (s : State) : s.ibiRelease.env = s.env :=
  State.ibis_frame State.env (fun s c => State.ibi_env s c) _ _
@[simp] theorem State.ibiRelease_freeCount (s : State) : s.ibiRelease.freeCount = s.freeCount :=
  State.ibis_frame State.freeCount (fun s c => State.ibi_freeCount s c) _ _
@[simp] theorem State.ibiRelease_pending (s : State) : s.ibiRelease.pending = s.pending :=
  State.ibis_frame State.pending (fun s c => State.ibi_pending s c) _ _
@[simp] theorem State.ibiRelease_cfe (s : State) : s.ibiRelease.cfe = s.cfe :=
  State.ibis_frame State.cfe (fun s c => State.ibi_cfe s c) _ _
@[simp] theorem State.ibiRelease_ctxs (s : State) : s.ibiRelease.ctxs = s.ctxs :=
  State.ibis_frame State.ctxs (fun s c => State.ibi_ctxs s c) _ _
@[simp] theorem State.ibiRelease_gd (s : State) : s.ibiRelease.gd = s.gd :=
  State.ibis_frame State.gd (fun s c => State.ibi_gd s c) _ _
@[simp] theorem State.ibiRelease_csq (s : State) : s.ibiRelease.csq = s.csq :=
  State.ibis_frame State.csq (fun s c => State.ibi_csq s c) _ _
@[simp] theorem State.ibiRelease_ctu (s : State) : s.ibiRelease.ctu = s.ctu :=
  State.ibis_frame State.ctu (fun s c => State.ibi_ctu s c) _ _
@[simp] theorem State.ibiRelease_plu (s : State) : s.ibiRelease.plu = s.plu :=
  State.ibis_frame State.plu (fun s c => State.ibi_plu s c) _ _
@[simp] theorem State.ibiRelease_dcache (s : State) : s.ibiRelease.dcache = s.dcache :=
  State.ibis_frame State.dcache (fun s c => State.ibi_dcache s c) _ _
@[simp] theorem State.ibiRelease_ges (s : State) : s.ibiRelease.ges = s.ges :=
  State.ibis_frame State.ges (fun s c => State.ibi_ges s c) _ _
@[simp] theorem State.ibiRelease_car (s : State) : s.ibiRelease.car = s.car :=
  State.ibis_frame State.car (fun s c => State.ibi_car s c) _ _
@[simp] theorem State.ibiRelease_rly (s : State) : s.ibiRelease.rly = s.rly :=
  State.ibis_frame State.rly (fun s c => State.ibi_rly s c) _ _
@[simp] theorem State.ibiRelease_stat (s : State) : s.ibiRelease.stat = s.stat :=
  State.ibis_frame State.stat (fun s c => State.ibi_stat s c) _ _
@[simp] theorem State.ibiRelease_tth (s : State) : s.ibiRelease.tth = s.tth :=
  State.ibis_frame State.tth (fun s c => State.ibi_tth s c) _ _
@[simp] theorem State.ibiRelease_fwc (s : State) : s.ibiRelease.fwc = s.fwc :=
  State.ibis_frame State.fwc (fun s c => State.ibi_fwc s c) _ _
@[simp] theorem State.ibiRelease_work (s : State) : s.ibiRelease.work = s.work :=
  State.ibis_frame State.work (fun s c => State.ibi_work s c) _ _
@[simp] theorem State.ibiRelease_flash (s : State) : s.ibiRelease.flash = s.flash :=
  State.ibis_frame State.flash (fun s c => State.ibi_flash s c) _ _
@[simp] theorem State.ibiRelease_mem (s : State) : s.ibiRelease.mem = s.mem :=
  State.ibis_frame State.mem (fun s c => State.ibi_mem s c) _ _
@[simp] theorem State.ibiRelease_hostMem (s : State) : s.ibiRelease.hostMem = s.hostMem :=
  State.ibis_frame State.hostMem (fun s c => State.ibi_hostMem s c) _ _
@[simp] theorem State.ibiRelease_gcs (s : State) : s.ibiRelease.gcs = s.gcs :=
  State.ibis_frame State.gcs (fun s c => State.ibi_gcs s c) _ _
@[simp] theorem State.ibiRelease_fsu (s : State) : s.ibiRelease.fsu = s.fsu :=
  State.ibis_frame State.fsu (fun s c => State.ibi_fsu s c) _ _

@[simp] theorem State.healthNew_env (s : State) (i : Nat) : (s.healthNew i).env = s.env := by
  unfold State.healthNew; split <;> simp
@[simp] theorem State.healthNew_freeCount (s : State) (i : Nat) : (s.healthNew i).freeCount = s.freeCount := by
  unfold State.healthNew; split <;> simp
@[simp] theorem State.healthNew_pending (s : State) (i : Nat) : (s.healthNew i).pending = s.pending := by
  unfold State.healthNew; split <;> simp
@[simp] theorem State.healthNew_cfe (s : State) (i : Nat) : (s.healthNew i).cfe = s.cfe := by
  unfold State.healthNew; split <;> simp
@[simp] theorem State.healthNew_ctxs (s : State) (i : Nat) : (s.healthNew i).ctxs = s.ctxs := by
  unfold State.healthNew; split <;> simp
@[simp] theorem State.healthNew_gd (s : State) (i : Nat) : (s.healthNew i).gd = s.gd := by
  unfold State.healthNew; split <;> simp
@[simp] theorem State.healthNew_csq (s : State) (i : Nat) : (s.healthNew i).csq = s.csq := by
  unfold State.healthNew; split <;> simp
@[simp] theorem State.healthNew_ctu (s : State) (i : Nat) : (s.healthNew i).ctu = s.ctu := by
  unfold State.healthNew; split <;> simp
@[simp] theorem State.healthNew_plu (s : State) (i : Nat) : (s.healthNew i).plu = s.plu := by
  unfold State.healthNew; split <;> simp
@[simp] theorem State.healthNew_dcache (s : State) (i : Nat) : (s.healthNew i).dcache = s.dcache := by
  unfold State.healthNew; split <;> simp
@[simp] theorem State.healthNew_ges (s : State) (i : Nat) : (s.healthNew i).ges = s.ges := by
  unfold State.healthNew; split <;> simp
@[simp] theorem State.healthNew_car (s : State) (i : Nat) : (s.healthNew i).car = s.car := by
  unfold State.healthNew; split <;> simp
@[simp] theorem State.healthNew_rly (s : State) (i : Nat) : (s.healthNew i).rly = s.rly := by
  unfold State.healthNew; split <;> simp
@[simp] theorem State.healthNew_stat (s : State) (i : Nat) : (s.healthNew i).stat = s.stat := by
  unfold State.healthNew; split <;> simp
@[simp] theorem State.healthNew_tth (s : State) (i : Nat) : (s.healthNew i).tth = s.tth := by
  unfold State.healthNew; split <;> simp
@[simp] theorem State.healthNew_fwc (s : State) (i : Nat) : (s.healthNew i).fwc = s.fwc := by
  unfold State.healthNew; split <;> simp
@[simp] theorem State.healthNew_work (s : State) (i : Nat) : (s.healthNew i).work = s.work := by
  unfold State.healthNew; split <;> simp
@[simp] theorem State.healthNew_flash (s : State) (i : Nat) : (s.healthNew i).flash = s.flash := by
  unfold State.healthNew; split <;> simp
@[simp] theorem State.healthNew_mem (s : State) (i : Nat) : (s.healthNew i).mem = s.mem := by
  unfold State.healthNew; split <;> simp
@[simp] theorem State.healthNew_hostMem (s : State) (i : Nat) : (s.healthNew i).hostMem = s.hostMem := by
  unfold State.healthNew; split <;> simp

@[simp] theorem State.setTack_env (s : State) (x : Tack) : (s.setTack x).env = s.env := by
  rfl
@[simp] theorem State.setTack_freeCount (s : State) (x : Tack) : (s.setTack x).freeCount = s.freeCount := by
  rfl
@[simp] theorem State.setTack_pending (s : State) (x : Tack) : (s.setTack x).pending = s.pending := by
  rfl
@[simp] theorem State.setTack_cfe (s : State) (x : Tack) : (s.setTack x).cfe = s.cfe := by
  rfl
@[simp] theorem State.setTack_ctxs (s : State) (x : Tack) : (s.setTack x).ctxs = s.ctxs := by
  rfl
@[simp] theorem State.setTack_gd (s : State) (x : Tack) : (s.setTack x).gd = s.gd := by
  rfl
@[simp] theorem State.setTack_csq (s : State) (x : Tack) : (s.setTack x).csq = s.csq := by
  rfl
@[simp] theorem State.setTack_ctu (s : State) (x : Tack) : (s.setTack x).ctu = s.ctu := by
  rfl
@[simp] theorem State.setTack_plu (s : State) (x : Tack) : (s.setTack x).plu = s.plu := by
  rfl
@[simp] theorem State.setTack_dcache (s : State) (x : Tack) : (s.setTack x).dcache = s.dcache := by
  rfl
@[simp] theorem State.setTack_ges (s : State) (x : Tack) : (s.setTack x).ges = s.ges := by
  rfl
@[simp] theorem State.setTack_car (s : State) (x : Tack) : (s.setTack x).car = s.car := by
  rfl
@[simp] theorem State.setTack_rly (s : State) (x : Tack) : (s.setTack x).rly = s.rly := by
  rfl
@[simp] theorem State.setTack_stat (s : State) (x : Tack) : (s.setTack x).stat = s.stat := by
  rfl
@[simp] theorem State.setTack_tth (s : State) (x : Tack) : (s.setTack x).tth = s.tth := by
  rfl
@[simp] theorem State.setTack_fwc (s : State) (x : Tack) : (s.setTack x).fwc = s.fwc := by
  rfl
@[simp] theorem State.setTack_work (s : State) (x : Tack) : (s.setTack x).work = s.work := by
  rfl
@[simp] theorem State.setTack_mem (s : State) (x : Tack) : (s.setTack x).mem = s.mem := by
  rfl
@[simp] theorem State.setTack_hostMem (s : State) (x : Tack) : (s.setTack x).hostMem = s.hostMem := by
  rfl
@[simp] theorem State.setTack_out (s : State) (x : Tack) : (s.setTack x).out = s.out := by
  rfl
@[simp] theorem State.setTack_i3c (s : State) (x : Tack) : (s.setTack x).i3c = s.i3c := by
  rfl
@[simp] theorem State.setTack_fsu (s : State) (x : Tack) : (s.setTack x).fsu = s.fsu := by
  rfl

@[simp] theorem State.stageRaw_env (s : State) (w : Nat) (p : List Word) : (s.stageRaw w p).env = s.env := by
  unfold State.stageRaw; split <;> rfl
@[simp] theorem State.stageRaw_freeCount (s : State) (w : Nat) (p : List Word) : (s.stageRaw w p).freeCount = s.freeCount := by
  unfold State.stageRaw; split <;> rfl
@[simp] theorem State.stageRaw_pending (s : State) (w : Nat) (p : List Word) : (s.stageRaw w p).pending = s.pending := by
  unfold State.stageRaw; split <;> rfl
@[simp] theorem State.stageRaw_cfe (s : State) (w : Nat) (p : List Word) : (s.stageRaw w p).cfe = s.cfe := by
  unfold State.stageRaw; split <;> rfl
@[simp] theorem State.stageRaw_ctxs (s : State) (w : Nat) (p : List Word) : (s.stageRaw w p).ctxs = s.ctxs := by
  unfold State.stageRaw; split <;> rfl
@[simp] theorem State.stageRaw_gd (s : State) (w : Nat) (p : List Word) : (s.stageRaw w p).gd = s.gd := by
  unfold State.stageRaw; split <;> rfl
@[simp] theorem State.stageRaw_csq (s : State) (w : Nat) (p : List Word) : (s.stageRaw w p).csq = s.csq := by
  unfold State.stageRaw; split <;> rfl
@[simp] theorem State.stageRaw_ctu (s : State) (w : Nat) (p : List Word) : (s.stageRaw w p).ctu = s.ctu := by
  unfold State.stageRaw; split <;> rfl
@[simp] theorem State.stageRaw_plu (s : State) (w : Nat) (p : List Word) : (s.stageRaw w p).plu = s.plu := by
  unfold State.stageRaw; split <;> rfl
@[simp] theorem State.stageRaw_dcache (s : State) (w : Nat) (p : List Word) : (s.stageRaw w p).dcache = s.dcache := by
  unfold State.stageRaw; split <;> rfl
@[simp] theorem State.stageRaw_ges (s : State) (w : Nat) (p : List Word) : (s.stageRaw w p).ges = s.ges := by
  unfold State.stageRaw; split <;> rfl
@[simp] theorem State.stageRaw_car (s : State) (w : Nat) (p : List Word) : (s.stageRaw w p).car = s.car := by
  unfold State.stageRaw; split <;> rfl
@[simp] theorem State.stageRaw_rly (s : State) (w : Nat) (p : List Word) : (s.stageRaw w p).rly = s.rly := by
  unfold State.stageRaw; split <;> rfl
@[simp] theorem State.stageRaw_stat (s : State) (w : Nat) (p : List Word) : (s.stageRaw w p).stat = s.stat := by
  unfold State.stageRaw; split <;> rfl
@[simp] theorem State.stageRaw_tth (s : State) (w : Nat) (p : List Word) : (s.stageRaw w p).tth = s.tth := by
  unfold State.stageRaw; split <;> rfl
@[simp] theorem State.stageRaw_fwc (s : State) (w : Nat) (p : List Word) : (s.stageRaw w p).fwc = s.fwc := by
  unfold State.stageRaw; split <;> rfl
@[simp] theorem State.stageRaw_work (s : State) (w : Nat) (p : List Word) : (s.stageRaw w p).work = s.work := by
  unfold State.stageRaw; split <;> rfl
@[simp] theorem State.stageRaw_flash (s : State) (w : Nat) (p : List Word) : (s.stageRaw w p).flash = s.flash := by
  unfold State.stageRaw; split <;> rfl
@[simp] theorem State.stageRaw_mem (s : State) (w : Nat) (p : List Word) : (s.stageRaw w p).mem = s.mem := by
  unfold State.stageRaw; split <;> rfl
@[simp] theorem State.stageRaw_hostMem (s : State) (w : Nat) (p : List Word) : (s.stageRaw w p).hostMem = s.hostMem := by
  unfold State.stageRaw; split <;> rfl
@[simp] theorem State.stageRaw_out (s : State) (w : Nat) (p : List Word) : (s.stageRaw w p).out = s.out := by
  unfold State.stageRaw; split <;> rfl
@[simp] theorem State.stageRaw_i3c (s : State) (w : Nat) (p : List Word) : (s.stageRaw w p).i3c = s.i3c := by
  unfold State.stageRaw; split <;> rfl
@[simp] theorem State.stageRaw_gcs (s : State) (w : Nat) (p : List Word) : (s.stageRaw w p).gcs = s.gcs := by
  unfold State.stageRaw; split <;> rfl

@[simp] theorem State.stage_env (s : State) (w : Nat) (p : List Word) : (s.stage w p).env = s.env := by
  unfold State.stage; simp
@[simp] theorem State.stage_freeCount (s : State) (w : Nat) (p : List Word) : (s.stage w p).freeCount = s.freeCount := by
  unfold State.stage; simp
@[simp] theorem State.stage_pending (s : State) (w : Nat) (p : List Word) : (s.stage w p).pending = s.pending := by
  unfold State.stage; simp
@[simp] theorem State.stage_cfe (s : State) (w : Nat) (p : List Word) : (s.stage w p).cfe = s.cfe := by
  unfold State.stage; simp
@[simp] theorem State.stage_ctxs (s : State) (w : Nat) (p : List Word) : (s.stage w p).ctxs = s.ctxs := by
  unfold State.stage; simp
@[simp] theorem State.stage_gd (s : State) (w : Nat) (p : List Word) : (s.stage w p).gd = s.gd := by
  unfold State.stage; simp
@[simp] theorem State.stage_csq (s : State) (w : Nat) (p : List Word) : (s.stage w p).csq = s.csq := by
  unfold State.stage; simp
@[simp] theorem State.stage_ctu (s : State) (w : Nat) (p : List Word) : (s.stage w p).ctu = s.ctu := by
  unfold State.stage; simp
@[simp] theorem State.stage_plu (s : State) (w : Nat) (p : List Word) : (s.stage w p).plu = s.plu := by
  unfold State.stage; simp
@[simp] theorem State.stage_dcache (s : State) (w : Nat) (p : List Word) : (s.stage w p).dcache = s.dcache := by
  unfold State.stage; simp
@[simp] theorem State.stage_ges (s : State) (w : Nat) (p : List Word) : (s.stage w p).ges = s.ges := by
  unfold State.stage; simp
@[simp] theorem State.stage_car (s : State) (w : Nat) (p : List Word) : (s.stage w p).car = s.car := by
  unfold State.stage; simp
@[simp] theorem State.stage_rly (s : State) (w : Nat) (p : List Word) : (s.stage w p).rly = s.rly := by
  unfold State.stage; simp
@[simp] theorem State.stage_stat (s : State) (w : Nat) (p : List Word) : (s.stage w p).stat = s.stat := by
  unfold State.stage; simp
@[simp] theorem State.stage_tth (s : State) (w : Nat) (p : List Word) : (s.stage w p).tth = s.tth := by
  unfold State.stage; simp
@[simp] theorem State.stage_fwc (s : State) (w : Nat) (p : List Word) : (s.stage w p).fwc = s.fwc := by
  unfold State.stage; simp
@[simp] theorem State.stage_work (s : State) (w : Nat) (p : List Word) : (s.stage w p).work = s.work := by
  unfold State.stage; simp
@[simp] theorem State.stage_flash (s : State) (w : Nat) (p : List Word) : (s.stage w p).flash = s.flash := by
  unfold State.stage; simp
@[simp] theorem State.stage_mem (s : State) (w : Nat) (p : List Word) : (s.stage w p).mem = s.mem := by
  unfold State.stage; simp
@[simp] theorem State.stage_hostMem (s : State) (w : Nat) (p : List Word) : (s.stage w p).hostMem = s.hostMem := by
  unfold State.stage; simp
@[simp] theorem State.stage_out (s : State) (w : Nat) (p : List Word) : (s.stage w p).out = s.out := by
  unfold State.stage; simp
@[simp] theorem State.stage_i3c (s : State) (w : Nat) (p : List Word) : (s.stage w p).i3c = s.i3c := by
  unfold State.stage; simp
@[simp] theorem State.stage_gcs (s : State) (w : Nat) (p : List Word) : (s.stage w p).gcs = s.gcs := by
  unfold State.stage; simp

@[simp] theorem State.stageLost_env (s : State) : (s.stageLost).env = s.env := by
  unfold State.stageLost; split <;> simp
@[simp] theorem State.stageLost_freeCount (s : State) : (s.stageLost).freeCount = s.freeCount := by
  unfold State.stageLost; split <;> simp
@[simp] theorem State.stageLost_pending (s : State) : (s.stageLost).pending = s.pending := by
  unfold State.stageLost; split <;> simp
@[simp] theorem State.stageLost_cfe (s : State) : (s.stageLost).cfe = s.cfe := by
  unfold State.stageLost; split <;> simp
@[simp] theorem State.stageLost_ctxs (s : State) : (s.stageLost).ctxs = s.ctxs := by
  unfold State.stageLost; split <;> simp
@[simp] theorem State.stageLost_gd (s : State) : (s.stageLost).gd = s.gd := by
  unfold State.stageLost; split <;> simp
@[simp] theorem State.stageLost_csq (s : State) : (s.stageLost).csq = s.csq := by
  unfold State.stageLost; split <;> simp
@[simp] theorem State.stageLost_ctu (s : State) : (s.stageLost).ctu = s.ctu := by
  unfold State.stageLost; split <;> simp
@[simp] theorem State.stageLost_plu (s : State) : (s.stageLost).plu = s.plu := by
  unfold State.stageLost; split <;> simp
@[simp] theorem State.stageLost_dcache (s : State) : (s.stageLost).dcache = s.dcache := by
  unfold State.stageLost; split <;> simp
@[simp] theorem State.stageLost_ges (s : State) : (s.stageLost).ges = s.ges := by
  unfold State.stageLost; split <;> simp
@[simp] theorem State.stageLost_car (s : State) : (s.stageLost).car = s.car := by
  unfold State.stageLost; split <;> simp
@[simp] theorem State.stageLost_rly (s : State) : (s.stageLost).rly = s.rly := by
  unfold State.stageLost; split <;> simp
@[simp] theorem State.stageLost_stat (s : State) : (s.stageLost).stat = s.stat := by
  unfold State.stageLost; split <;> simp
@[simp] theorem State.stageLost_tth (s : State) : (s.stageLost).tth = s.tth := by
  unfold State.stageLost; split <;> simp
@[simp] theorem State.stageLost_fwc (s : State) : (s.stageLost).fwc = s.fwc := by
  unfold State.stageLost; split <;> simp
@[simp] theorem State.stageLost_work (s : State) : (s.stageLost).work = s.work := by
  unfold State.stageLost; split <;> simp
@[simp] theorem State.stageLost_flash (s : State) : (s.stageLost).flash = s.flash := by
  unfold State.stageLost; split <;> simp
@[simp] theorem State.stageLost_mem (s : State) : (s.stageLost).mem = s.mem := by
  unfold State.stageLost; split <;> simp
@[simp] theorem State.stageLost_hostMem (s : State) : (s.stageLost).hostMem = s.hostMem := by
  unfold State.stageLost; split <;> simp
@[simp] theorem State.stageLost_out (s : State) : (s.stageLost).out = s.out := by
  unfold State.stageLost; split <;> simp
@[simp] theorem State.stageLost_i3c (s : State) : (s.stageLost).i3c = s.i3c := by
  unfold State.stageLost; split <;> simp
@[simp] theorem State.stageLost_gcs (s : State) : (s.stageLost).gcs = s.gcs := by
  unfold State.stageLost; split <;> simp

@[simp] theorem State.errRing_env (s : State) (w : List Word) : (s.errRing w).env = s.env := by
  unfold State.errRing; dsimp only; split <;> (try split) <;> (try split) <;> simp
@[simp] theorem State.errRing_freeCount (s : State) (w : List Word) : (s.errRing w).freeCount = s.freeCount := by
  unfold State.errRing; dsimp only; split <;> (try split) <;> (try split) <;> simp
@[simp] theorem State.errRing_pending (s : State) (w : List Word) : (s.errRing w).pending = s.pending := by
  unfold State.errRing; dsimp only; split <;> (try split) <;> (try split) <;> simp
@[simp] theorem State.errRing_cfe (s : State) (w : List Word) : (s.errRing w).cfe = s.cfe := by
  unfold State.errRing; dsimp only; split <;> (try split) <;> (try split) <;> simp
@[simp] theorem State.errRing_ctxs (s : State) (w : List Word) : (s.errRing w).ctxs = s.ctxs := by
  unfold State.errRing; dsimp only; split <;> (try split) <;> (try split) <;> simp
@[simp] theorem State.errRing_gd (s : State) (w : List Word) : (s.errRing w).gd = s.gd := by
  unfold State.errRing; dsimp only; split <;> (try split) <;> (try split) <;> simp
@[simp] theorem State.errRing_csq (s : State) (w : List Word) : (s.errRing w).csq = s.csq := by
  unfold State.errRing; dsimp only; split <;> (try split) <;> (try split) <;> simp
@[simp] theorem State.errRing_ctu (s : State) (w : List Word) : (s.errRing w).ctu = s.ctu := by
  unfold State.errRing; dsimp only; split <;> (try split) <;> (try split) <;> simp
@[simp] theorem State.errRing_plu (s : State) (w : List Word) : (s.errRing w).plu = s.plu := by
  unfold State.errRing; dsimp only; split <;> (try split) <;> (try split) <;> simp
@[simp] theorem State.errRing_dcache (s : State) (w : List Word) : (s.errRing w).dcache = s.dcache := by
  unfold State.errRing; dsimp only; split <;> (try split) <;> (try split) <;> simp
@[simp] theorem State.errRing_ges (s : State) (w : List Word) : (s.errRing w).ges = s.ges := by
  unfold State.errRing; dsimp only; split <;> (try split) <;> (try split) <;> simp
@[simp] theorem State.errRing_car (s : State) (w : List Word) : (s.errRing w).car = s.car := by
  unfold State.errRing; dsimp only; split <;> (try split) <;> (try split) <;> simp
@[simp] theorem State.errRing_rly (s : State) (w : List Word) : (s.errRing w).rly = s.rly := by
  unfold State.errRing; dsimp only; split <;> (try split) <;> (try split) <;> simp
@[simp] theorem State.errRing_stat (s : State) (w : List Word) : (s.errRing w).stat = s.stat := by
  unfold State.errRing; dsimp only; split <;> (try split) <;> (try split) <;> simp
@[simp] theorem State.errRing_tth (s : State) (w : List Word) : (s.errRing w).tth = s.tth := by
  unfold State.errRing; dsimp only; split <;> (try split) <;> (try split) <;> simp
@[simp] theorem State.errRing_fwc (s : State) (w : List Word) : (s.errRing w).fwc = s.fwc := by
  unfold State.errRing; dsimp only; split <;> (try split) <;> (try split) <;> simp
@[simp] theorem State.errRing_work (s : State) (w : List Word) : (s.errRing w).work = s.work := by
  unfold State.errRing; dsimp only; split <;> (try split) <;> (try split) <;> simp
@[simp] theorem State.errRing_flash (s : State) (w : List Word) : (s.errRing w).flash = s.flash := by
  unfold State.errRing; dsimp only; split <;> (try split) <;> (try split) <;> simp

@[simp] theorem State.stageErr_env (s : State) (e : Err) (w : List Word) : (s.stageErr e w).env = s.env := by
  unfold State.stageErr; dsimp only; split <;> (try split) <;> (try split) <;> simp
@[simp] theorem State.stageErr_freeCount (s : State) (e : Err) (w : List Word) : (s.stageErr e w).freeCount = s.freeCount := by
  unfold State.stageErr; dsimp only; split <;> (try split) <;> (try split) <;> simp
@[simp] theorem State.stageErr_pending (s : State) (e : Err) (w : List Word) : (s.stageErr e w).pending = s.pending := by
  unfold State.stageErr; dsimp only; split <;> (try split) <;> (try split) <;> simp
@[simp] theorem State.stageErr_cfe (s : State) (e : Err) (w : List Word) : (s.stageErr e w).cfe = s.cfe := by
  unfold State.stageErr; dsimp only; split <;> (try split) <;> (try split) <;> simp
@[simp] theorem State.stageErr_ctxs (s : State) (e : Err) (w : List Word) : (s.stageErr e w).ctxs = s.ctxs := by
  unfold State.stageErr; dsimp only; split <;> (try split) <;> (try split) <;> simp
@[simp] theorem State.stageErr_gd (s : State) (e : Err) (w : List Word) : (s.stageErr e w).gd = s.gd := by
  unfold State.stageErr; dsimp only; split <;> (try split) <;> (try split) <;> simp
@[simp] theorem State.stageErr_csq (s : State) (e : Err) (w : List Word) : (s.stageErr e w).csq = s.csq := by
  unfold State.stageErr; dsimp only; split <;> (try split) <;> (try split) <;> simp
@[simp] theorem State.stageErr_ctu (s : State) (e : Err) (w : List Word) : (s.stageErr e w).ctu = s.ctu := by
  unfold State.stageErr; dsimp only; split <;> (try split) <;> (try split) <;> simp
@[simp] theorem State.stageErr_plu (s : State) (e : Err) (w : List Word) : (s.stageErr e w).plu = s.plu := by
  unfold State.stageErr; dsimp only; split <;> (try split) <;> (try split) <;> simp
@[simp] theorem State.stageErr_dcache (s : State) (e : Err) (w : List Word) : (s.stageErr e w).dcache = s.dcache := by
  unfold State.stageErr; dsimp only; split <;> (try split) <;> (try split) <;> simp
@[simp] theorem State.stageErr_ges (s : State) (e : Err) (w : List Word) : (s.stageErr e w).ges = s.ges := by
  unfold State.stageErr; dsimp only; split <;> (try split) <;> (try split) <;> simp
@[simp] theorem State.stageErr_car (s : State) (e : Err) (w : List Word) : (s.stageErr e w).car = s.car := by
  unfold State.stageErr; dsimp only; split <;> (try split) <;> (try split) <;> simp
@[simp] theorem State.stageErr_rly (s : State) (e : Err) (w : List Word) : (s.stageErr e w).rly = s.rly := by
  unfold State.stageErr; dsimp only; split <;> (try split) <;> (try split) <;> simp
@[simp] theorem State.stageErr_stat (s : State) (e : Err) (w : List Word) : (s.stageErr e w).stat = s.stat := by
  unfold State.stageErr; dsimp only; split <;> (try split) <;> (try split) <;> simp
@[simp] theorem State.stageErr_tth (s : State) (e : Err) (w : List Word) : (s.stageErr e w).tth = s.tth := by
  unfold State.stageErr; dsimp only; split <;> (try split) <;> (try split) <;> simp
@[simp] theorem State.stageErr_fwc (s : State) (e : Err) (w : List Word) : (s.stageErr e w).fwc = s.fwc := by
  unfold State.stageErr; dsimp only; split <;> (try split) <;> (try split) <;> simp
@[simp] theorem State.stageErr_work (s : State) (e : Err) (w : List Word) : (s.stageErr e w).work = s.work := by
  unfold State.stageErr; dsimp only; split <;> (try split) <;> (try split) <;> simp
@[simp] theorem State.stageErr_flash (s : State) (e : Err) (w : List Word) : (s.stageErr e w).flash = s.flash := by
  unfold State.stageErr; dsimp only; split <;> (try split) <;> (try split) <;> simp
@[simp] theorem State.stageErr_mem (s : State) (e : Err) (w : List Word) : (s.stageErr e w).mem = s.mem := by
  unfold State.stageErr; dsimp only; split <;> (try split) <;> (try split) <;> simp
@[simp] theorem State.stageErr_hostMem (s : State) (e : Err) (w : List Word) : (s.stageErr e w).hostMem = s.hostMem := by
  unfold State.stageErr; dsimp only; split <;> (try split) <;> (try split) <;> simp
@[simp] theorem State.stageErr_out (s : State) (e : Err) (w : List Word) : (s.stageErr e w).out = s.out := by
  unfold State.stageErr; dsimp only; split <;> (try split) <;> (try split) <;> simp
@[simp] theorem State.stageErr_i3c (s : State) (e : Err) (w : List Word) : (s.stageErr e w).i3c = s.i3c := by
  unfold State.stageErr; dsimp only; split <;> (try split) <;> (try split) <;> simp
@[simp] theorem State.stageErr_gcs (s : State) (e : Err) (w : List Word) : (s.stageErr e w).gcs = s.gcs := by
  unfold State.stageErr; dsimp only; split <;> (try split) <;> (try split) <;> simp

@[simp] theorem State.err_env (s : State) (e : Err) : (s.err e).env = s.env := by
  unfold State.err; dsimp only; split <;> split <;> simp
@[simp] theorem State.err_freeCount (s : State) (e : Err) : (s.err e).freeCount = s.freeCount := by
  unfold State.err; dsimp only; split <;> split <;> simp
@[simp] theorem State.err_pending (s : State) (e : Err) : (s.err e).pending = s.pending := by
  unfold State.err; dsimp only; split <;> split <;> simp
@[simp] theorem State.err_cfe (s : State) (e : Err) : (s.err e).cfe = s.cfe := by
  unfold State.err; dsimp only; split <;> split <;> simp
@[simp] theorem State.err_ctxs (s : State) (e : Err) : (s.err e).ctxs = s.ctxs := by
  unfold State.err; dsimp only; split <;> split <;> simp
@[simp] theorem State.err_gd (s : State) (e : Err) : (s.err e).gd = s.gd := by
  unfold State.err; dsimp only; split <;> split <;> simp
@[simp] theorem State.err_csq (s : State) (e : Err) : (s.err e).csq = s.csq := by
  unfold State.err; dsimp only; split <;> split <;> simp
@[simp] theorem State.err_ctu (s : State) (e : Err) : (s.err e).ctu = s.ctu := by
  unfold State.err; dsimp only; split <;> split <;> simp
@[simp] theorem State.err_plu (s : State) (e : Err) : (s.err e).plu = s.plu := by
  unfold State.err; dsimp only; split <;> split <;> simp
@[simp] theorem State.err_dcache (s : State) (e : Err) : (s.err e).dcache = s.dcache := by
  unfold State.err; dsimp only; split <;> split <;> simp
@[simp] theorem State.err_ges (s : State) (e : Err) : (s.err e).ges = s.ges := by
  unfold State.err; dsimp only; split <;> split <;> simp
@[simp] theorem State.err_car (s : State) (e : Err) : (s.err e).car = s.car := by
  unfold State.err; dsimp only; split <;> split <;> simp
@[simp] theorem State.err_rly (s : State) (e : Err) : (s.err e).rly = s.rly := by
  unfold State.err; dsimp only; split <;> split <;> simp
@[simp] theorem State.err_stat (s : State) (e : Err) : (s.err e).stat = s.stat := by
  unfold State.err; dsimp only; split <;> split <;> simp
@[simp] theorem State.err_tth (s : State) (e : Err) : (s.err e).tth = s.tth := by
  unfold State.err; dsimp only; split <;> split <;> simp
@[simp] theorem State.err_fwc (s : State) (e : Err) : (s.err e).fwc = s.fwc := by
  unfold State.err; dsimp only; split <;> split <;> simp
@[simp] theorem State.err_flash (s : State) (e : Err) : (s.err e).flash = s.flash := by
  unfold State.err; dsimp only; split <;> split <;> simp

/-- A record that is not UNCONTAINED hands on nothing. -/
theorem State.err_work (s : State) (e : Err) (h : e.cls ≠ 3) : (s.err e).work = s.work := by
  unfold State.err
  dsimp only
  rw [if_neg (by simp [h])]
  split <;> simp

theorem ite_frame {α : Type} (f : State → α) {x : α} {c : Prop} [Decidable c] {a b : State} (ha : f a = x) (hb : f b = x) :
    f (if c then a else b) = x := by
  split
  · exact ha
  · exact hb

theorem State.health_frame {α : Type} (f : State → α) (hm : ∀ (s : State) (a : Fsu) (b : Gcs), f { s with fsu := a, gcs := b } = f s)
    (hn : ∀ (s : State) (i : Nat), f (s.healthNew i) = f s) (hs : ∀ (s : State) (w : Nat) (l : List Word), f (s.stage w l) = f s)
    (hi : ∀ (s : State) (c : Nat), f (s.ibi c) = f s) (s : State) (b : Bool) : f (s.health b) = f s := by
  unfold State.health
  dsimp only
  repeat' first
    | with_reducible apply ite_frame
    | with_reducible refine (hi _ _).trans ?_
    | with_reducible refine (hs _ _ _).trans ?_
    | with_reducible refine (hn _ _).trans ?_
  all_goals exact hm _ _ _

@[simp] theorem State.health_env (s : State) (b : Bool) : (s.health b).env = s.env :=
  s.health_frame State.env (fun _ _ _ => rfl) (fun s i => s.healthNew_env i) (fun s w l => s.stage_env w l) (fun s c => s.ibi_env c) b
@[simp] theorem State.health_freeCount (s : State) (b : Bool) : (s.health b).freeCount = s.freeCount :=
  s.health_frame State.freeCount (fun _ _ _ => rfl) (fun s i => s.healthNew_freeCount i) (fun s w l => s.stage_freeCount w l) (fun s c => s.ibi_freeCount c) b
@[simp] theorem State.health_pending (s : State) (b : Bool) : (s.health b).pending = s.pending :=
  s.health_frame State.pending (fun _ _ _ => rfl) (fun s i => s.healthNew_pending i) (fun s w l => s.stage_pending w l) (fun s c => s.ibi_pending c) b
@[simp] theorem State.health_cfe (s : State) (b : Bool) : (s.health b).cfe = s.cfe :=
  s.health_frame State.cfe (fun _ _ _ => rfl) (fun s i => s.healthNew_cfe i) (fun s w l => s.stage_cfe w l) (fun s c => s.ibi_cfe c) b
@[simp] theorem State.health_ctxs (s : State) (b : Bool) : (s.health b).ctxs = s.ctxs :=
  s.health_frame State.ctxs (fun _ _ _ => rfl) (fun s i => s.healthNew_ctxs i) (fun s w l => s.stage_ctxs w l) (fun s c => s.ibi_ctxs c) b
@[simp] theorem State.health_gd (s : State) (b : Bool) : (s.health b).gd = s.gd :=
  s.health_frame State.gd (fun _ _ _ => rfl) (fun s i => s.healthNew_gd i) (fun s w l => s.stage_gd w l) (fun s c => s.ibi_gd c) b
@[simp] theorem State.health_csq (s : State) (b : Bool) : (s.health b).csq = s.csq :=
  s.health_frame State.csq (fun _ _ _ => rfl) (fun s i => s.healthNew_csq i) (fun s w l => s.stage_csq w l) (fun s c => s.ibi_csq c) b
@[simp] theorem State.health_ctu (s : State) (b : Bool) : (s.health b).ctu = s.ctu :=
  s.health_frame State.ctu (fun _ _ _ => rfl) (fun s i => s.healthNew_ctu i) (fun s w l => s.stage_ctu w l) (fun s c => s.ibi_ctu c) b
@[simp] theorem State.health_plu (s : State) (b : Bool) : (s.health b).plu = s.plu :=
  s.health_frame State.plu (fun _ _ _ => rfl) (fun s i => s.healthNew_plu i) (fun s w l => s.stage_plu w l) (fun s c => s.ibi_plu c) b
@[simp] theorem State.health_dcache (s : State) (b : Bool) : (s.health b).dcache = s.dcache :=
  s.health_frame State.dcache (fun _ _ _ => rfl) (fun s i => s.healthNew_dcache i) (fun s w l => s.stage_dcache w l) (fun s c => s.ibi_dcache c) b
@[simp] theorem State.health_ges (s : State) (b : Bool) : (s.health b).ges = s.ges :=
  s.health_frame State.ges (fun _ _ _ => rfl) (fun s i => s.healthNew_ges i) (fun s w l => s.stage_ges w l) (fun s c => s.ibi_ges c) b
@[simp] theorem State.health_car (s : State) (b : Bool) : (s.health b).car = s.car :=
  s.health_frame State.car (fun _ _ _ => rfl) (fun s i => s.healthNew_car i) (fun s w l => s.stage_car w l) (fun s c => s.ibi_car c) b
@[simp] theorem State.health_rly (s : State) (b : Bool) : (s.health b).rly = s.rly :=
  s.health_frame State.rly (fun _ _ _ => rfl) (fun s i => s.healthNew_rly i) (fun s w l => s.stage_rly w l) (fun s c => s.ibi_rly c) b
@[simp] theorem State.health_stat (s : State) (b : Bool) : (s.health b).stat = s.stat :=
  s.health_frame State.stat (fun _ _ _ => rfl) (fun s i => s.healthNew_stat i) (fun s w l => s.stage_stat w l) (fun s c => s.ibi_stat c) b
@[simp] theorem State.health_tth (s : State) (b : Bool) : (s.health b).tth = s.tth :=
  s.health_frame State.tth (fun _ _ _ => rfl) (fun s i => s.healthNew_tth i) (fun s w l => s.stage_tth w l) (fun s c => s.ibi_tth c) b
@[simp] theorem State.health_fwc (s : State) (b : Bool) : (s.health b).fwc = s.fwc :=
  s.health_frame State.fwc (fun _ _ _ => rfl) (fun s i => s.healthNew_fwc i) (fun s w l => s.stage_fwc w l) (fun s c => s.ibi_fwc c) b
@[simp] theorem State.health_work (s : State) (b : Bool) : (s.health b).work = s.work :=
  s.health_frame State.work (fun _ _ _ => rfl) (fun s i => s.healthNew_work i) (fun s w l => s.stage_work w l) (fun s c => s.ibi_work c) b
@[simp] theorem State.health_flash (s : State) (b : Bool) : (s.health b).flash = s.flash :=
  s.health_frame State.flash (fun _ _ _ => rfl) (fun s i => s.healthNew_flash i) (fun s w l => s.stage_flash w l) (fun s c => s.ibi_flash c) b
@[simp] theorem State.health_mem (s : State) (b : Bool) : (s.health b).mem = s.mem :=
  s.health_frame State.mem (fun _ _ _ => rfl) (fun s i => s.healthNew_mem i) (fun s w l => s.stage_mem w l) (fun s c => s.ibi_mem c) b
@[simp] theorem State.health_hostMem (s : State) (b : Bool) : (s.health b).hostMem = s.hostMem :=
  s.health_frame State.hostMem (fun _ _ _ => rfl) (fun s i => s.healthNew_hostMem i) (fun s w l => s.stage_hostMem w l) (fun s c => s.ibi_hostMem c) b

@[simp] theorem State.sbRetire_env (s : State) (i p : Nat) : (s.sbRetire i p).env = s.env := by
  unfold State.sbRetire; dsimp only; split <;> simp
@[simp] theorem State.sbRetire_freeCount (s : State) (i p : Nat) : (s.sbRetire i p).freeCount = s.freeCount := by
  unfold State.sbRetire; dsimp only; split <;> simp
@[simp] theorem State.sbRetire_pending (s : State) (i p : Nat) : (s.sbRetire i p).pending = s.pending := by
  unfold State.sbRetire; dsimp only; split <;> simp
@[simp] theorem State.sbRetire_cfe (s : State) (i p : Nat) : (s.sbRetire i p).cfe = s.cfe := by
  unfold State.sbRetire; dsimp only; split <;> simp
@[simp] theorem State.sbRetire_ctxs (s : State) (i p : Nat) : (s.sbRetire i p).ctxs = s.ctxs := by
  unfold State.sbRetire; dsimp only; split <;> simp
@[simp] theorem State.sbRetire_gd (s : State) (i p : Nat) : (s.sbRetire i p).gd = s.gd := by
  unfold State.sbRetire; dsimp only; split <;> simp
@[simp] theorem State.sbRetire_csq (s : State) (i p : Nat) : (s.sbRetire i p).csq = s.csq := by
  unfold State.sbRetire; dsimp only; split <;> simp
@[simp] theorem State.sbRetire_ctu (s : State) (i p : Nat) : (s.sbRetire i p).ctu = s.ctu := by
  unfold State.sbRetire; dsimp only; split <;> simp
@[simp] theorem State.sbRetire_plu (s : State) (i p : Nat) : (s.sbRetire i p).plu = s.plu := by
  unfold State.sbRetire; dsimp only; split <;> simp
@[simp] theorem State.sbRetire_dcache (s : State) (i p : Nat) : (s.sbRetire i p).dcache = s.dcache := by
  unfold State.sbRetire; dsimp only; split <;> simp
@[simp] theorem State.sbRetire_ges (s : State) (i p : Nat) : (s.sbRetire i p).ges = s.ges := by
  unfold State.sbRetire; dsimp only; split <;> simp
@[simp] theorem State.sbRetire_car (s : State) (i p : Nat) : (s.sbRetire i p).car = s.car := by
  unfold State.sbRetire; dsimp only; split <;> simp
@[simp] theorem State.sbRetire_rly (s : State) (i p : Nat) : (s.sbRetire i p).rly = s.rly := by
  unfold State.sbRetire; dsimp only; split <;> simp
@[simp] theorem State.sbRetire_stat (s : State) (i p : Nat) : (s.sbRetire i p).stat = s.stat := by
  unfold State.sbRetire; dsimp only; split <;> simp
@[simp] theorem State.sbRetire_tth (s : State) (i p : Nat) : (s.sbRetire i p).tth = s.tth := by
  unfold State.sbRetire; dsimp only; split <;> simp
@[simp] theorem State.sbRetire_fwc (s : State) (i p : Nat) : (s.sbRetire i p).fwc = s.fwc := by
  unfold State.sbRetire; dsimp only; split <;> simp
@[simp] theorem State.sbRetire_work (s : State) (i p : Nat) : (s.sbRetire i p).work = s.work := by
  unfold State.sbRetire; dsimp only; split <;> simp [State.err_work]

theorem State.sbReady_frame {α : Type} (s : State) (f : State → α) (hf : ∀ (s : State) (i p : Nat), f (s.sbRetire i p) = f s) (n : Nat) :
    f (s.sbReady n) = f s := by
  induction n generalizing s with
  | zero => rfl
  | succ n ih =>
    unfold State.sbReady
    dsimp only
    split
    · rw [ih, hf]
    · rfl

@[simp] theorem State.sbWrite_env (s : State) (x : List Word) : (s.sbWrite x).env = s.env := 
  s.sbReady_frame State.env State.sbRetire_env 2048
@[simp] theorem State.sbWrite_freeCount (s : State) (x : List Word) : (s.sbWrite x).freeCount = s.freeCount := 
  s.sbReady_frame State.freeCount State.sbRetire_freeCount 2048
@[simp] theorem State.sbWrite_pending (s : State) (x : List Word) : (s.sbWrite x).pending = s.pending := 
  s.sbReady_frame State.pending State.sbRetire_pending 2048
@[simp] theorem State.sbWrite_cfe (s : State) (x : List Word) : (s.sbWrite x).cfe = s.cfe := 
  s.sbReady_frame State.cfe State.sbRetire_cfe 2048
@[simp] theorem State.sbWrite_ctxs (s : State) (x : List Word) : (s.sbWrite x).ctxs = s.ctxs := 
  s.sbReady_frame State.ctxs State.sbRetire_ctxs 2048
@[simp] theorem State.sbWrite_gd (s : State) (x : List Word) : (s.sbWrite x).gd = s.gd := 
  s.sbReady_frame State.gd State.sbRetire_gd 2048
@[simp] theorem State.sbWrite_csq (s : State) (x : List Word) : (s.sbWrite x).csq = s.csq := 
  s.sbReady_frame State.csq State.sbRetire_csq 2048
@[simp] theorem State.sbWrite_ctu (s : State) (x : List Word) : (s.sbWrite x).ctu = s.ctu := 
  s.sbReady_frame State.ctu State.sbRetire_ctu 2048
@[simp] theorem State.sbWrite_plu (s : State) (x : List Word) : (s.sbWrite x).plu = s.plu := 
  s.sbReady_frame State.plu State.sbRetire_plu 2048
@[simp] theorem State.sbWrite_dcache (s : State) (x : List Word) : (s.sbWrite x).dcache = s.dcache := 
  s.sbReady_frame State.dcache State.sbRetire_dcache 2048
@[simp] theorem State.sbWrite_ges (s : State) (x : List Word) : (s.sbWrite x).ges = s.ges := 
  s.sbReady_frame State.ges State.sbRetire_ges 2048
@[simp] theorem State.sbWrite_car (s : State) (x : List Word) : (s.sbWrite x).car = s.car := 
  s.sbReady_frame State.car State.sbRetire_car 2048
@[simp] theorem State.sbWrite_rly (s : State) (x : List Word) : (s.sbWrite x).rly = s.rly := 
  s.sbReady_frame State.rly State.sbRetire_rly 2048
@[simp] theorem State.sbWrite_stat (s : State) (x : List Word) : (s.sbWrite x).stat = s.stat := 
  s.sbReady_frame State.stat State.sbRetire_stat 2048
@[simp] theorem State.sbWrite_tth (s : State) (x : List Word) : (s.sbWrite x).tth = s.tth := 
  s.sbReady_frame State.tth State.sbRetire_tth 2048
@[simp] theorem State.sbWrite_fwc (s : State) (x : List Word) : (s.sbWrite x).fwc = s.fwc := 
  s.sbReady_frame State.fwc State.sbRetire_fwc 2048
@[simp] theorem State.sbWrite_work (s : State) (x : List Word) : (s.sbWrite x).work = s.work := 
  s.sbReady_frame State.work State.sbRetire_work 2048

/-- What each record's write leaves, writing the staged records leaves. -/
theorem State.flushStudbook_frame {α : Type} (f : State → α) (hu : ∀ (s : State) (a : Fsu), f { s with fsu := a } = f s)
    (hw : ∀ (s : State) (x : List Word), f (s.sbWrite x) = f s) (hl : ∀ s : State, f s.stageLost = f s) (s : State) :
    f s.flushStudbook = f s := by
  have hf : ∀ (l : List (List Word)) (s : State), f (l.foldl State.sbWrite s) = f s := by
    intro l
    induction l with
    | nil => intro s; rfl
    | cons x r ih => intro s; exact (ih _).trans (hw s x)
  exact (hl _).trans ((hf _ _).trans (hu s _))

@[simp] theorem State.flushStudbook_env (s : State) : s.flushStudbook.env = s.env :=
  s.flushStudbook_frame State.env (fun _ _ => rfl) State.sbWrite_env State.stageLost_env
@[simp] theorem State.flushStudbook_freeCount (s : State) : s.flushStudbook.freeCount = s.freeCount :=
  s.flushStudbook_frame State.freeCount (fun _ _ => rfl) State.sbWrite_freeCount State.stageLost_freeCount
@[simp] theorem State.flushStudbook_pending (s : State) : s.flushStudbook.pending = s.pending :=
  s.flushStudbook_frame State.pending (fun _ _ => rfl) State.sbWrite_pending State.stageLost_pending
@[simp] theorem State.flushStudbook_cfe (s : State) : s.flushStudbook.cfe = s.cfe :=
  s.flushStudbook_frame State.cfe (fun _ _ => rfl) State.sbWrite_cfe State.stageLost_cfe
@[simp] theorem State.flushStudbook_ctxs (s : State) : s.flushStudbook.ctxs = s.ctxs :=
  s.flushStudbook_frame State.ctxs (fun _ _ => rfl) State.sbWrite_ctxs State.stageLost_ctxs
@[simp] theorem State.flushStudbook_gd (s : State) : s.flushStudbook.gd = s.gd :=
  s.flushStudbook_frame State.gd (fun _ _ => rfl) State.sbWrite_gd State.stageLost_gd
@[simp] theorem State.flushStudbook_csq (s : State) : s.flushStudbook.csq = s.csq :=
  s.flushStudbook_frame State.csq (fun _ _ => rfl) State.sbWrite_csq State.stageLost_csq
@[simp] theorem State.flushStudbook_ctu (s : State) : s.flushStudbook.ctu = s.ctu :=
  s.flushStudbook_frame State.ctu (fun _ _ => rfl) State.sbWrite_ctu State.stageLost_ctu
@[simp] theorem State.flushStudbook_plu (s : State) : s.flushStudbook.plu = s.plu :=
  s.flushStudbook_frame State.plu (fun _ _ => rfl) State.sbWrite_plu State.stageLost_plu
@[simp] theorem State.flushStudbook_dcache (s : State) : s.flushStudbook.dcache = s.dcache :=
  s.flushStudbook_frame State.dcache (fun _ _ => rfl) State.sbWrite_dcache State.stageLost_dcache
@[simp] theorem State.flushStudbook_ges (s : State) : s.flushStudbook.ges = s.ges :=
  s.flushStudbook_frame State.ges (fun _ _ => rfl) State.sbWrite_ges State.stageLost_ges
@[simp] theorem State.flushStudbook_car (s : State) : s.flushStudbook.car = s.car :=
  s.flushStudbook_frame State.car (fun _ _ => rfl) State.sbWrite_car State.stageLost_car
@[simp] theorem State.flushStudbook_rly (s : State) : s.flushStudbook.rly = s.rly :=
  s.flushStudbook_frame State.rly (fun _ _ => rfl) State.sbWrite_rly State.stageLost_rly
@[simp] theorem State.flushStudbook_stat (s : State) : s.flushStudbook.stat = s.stat :=
  s.flushStudbook_frame State.stat (fun _ _ => rfl) State.sbWrite_stat State.stageLost_stat
@[simp] theorem State.flushStudbook_tth (s : State) : s.flushStudbook.tth = s.tth :=
  s.flushStudbook_frame State.tth (fun _ _ => rfl) State.sbWrite_tth State.stageLost_tth
@[simp] theorem State.flushStudbook_fwc (s : State) : s.flushStudbook.fwc = s.fwc :=
  s.flushStudbook_frame State.fwc (fun _ _ => rfl) State.sbWrite_fwc State.stageLost_fwc
@[simp] theorem State.flushStudbook_work (s : State) : s.flushStudbook.work = s.work :=
  s.flushStudbook_frame State.work (fun _ _ => rfl) State.sbWrite_work State.stageLost_work

end Sys2Proof.Machine
end

