-- ==== Sys2Proof/Machine/FlashLayout.lean ====
section
/-!
DEFINITION. The flash as R305 lays it out: its partitions, and the bytes of a tack-store copy. State holds a copy by its
sections' contents; this file gives their offsets, the header and its check. The spec gives no layout inside the repair map
and the training section, so their bytes are arguments here (assumption 26).
-/
namespace Sys2Proof.Machine

/-- The partitions that the block uses (Table 13.7). -/
inductive FlashPart where
  | tack0 | tack1 | imageA | imageB | studBook | reserve
deriving DecidableEq, Repr

/-- A partition's offset and size (Table 13.7). -/
def FlashPart.span : FlashPart → Nat × Nat
  | .tack0 => (0x00100000, 0x00100000)
  | .tack1 => (0x00200000, 0x00100000)
  | .imageA => (0x00400000, 0x00800000)
  | .imageB => (0x00C00000, 0x00800000)
  | .studBook => (0x01400000, 0x00800000)
  | .reserve => (0x01C00000, 0x00010000)

/-- The partition of a flash offset; none in a range that the block neither reads nor writes. -/
def flashPart? (off : Nat) : Option FlashPart :=
  [.tack0, .tack1, .imageA, .imageB, .studBook, .reserve].find? fun p =>
    decide (p.span.1 ≤ off) && decide (off < p.span.1 + p.span.2)

/-- MAGIC of a tack-store copy. -/
def tackMagic : Word := 0x0000000054434B31#64

/-- Section offsets of a copy (Table 13.8): start record, herd identity, policy, repair map, training, generation marks. -/
def tackStartAt : Nat := 0x0020
def tackHerdAt : Nat := 0x0040
def tackPolicyAt : Nat := 0x0100
def tackRepairAt : Nat := 0x1000
def tackTrainAt : Nat := 0x10000
def tackMarksAt : Nat := 0xFE000

/-- Bytes of a whole copy. -/
def tackSize : Nat := 0x100000

/-- The start record (Table 13.9). -/
def Tack.startWords (x : Tack) : List Word :=
  [wd (fld (b2n x.prefB) 1 16 + fld x.failB 8 8 + fld x.failA 8 0), wd (fld x.warm 32 32 + fld x.cold 32 0), 0, 0]

/-- The herd identity. -/
def Tack.herdWords (x : Tack) : List Word := [wd (fld x.group 4 0), 0]

/-- The policy section: words 0 to 479. -/
def Tack.policyWords (x : Tack) : List Word := (List.range 480).map fun i => AL.get x.policy i

/-- The generation marks, 16 bits an id (R140), four to a word. -/
def Tack.markWords (x : Tack) : List Word := (List.range 1024).map fun i =>
  wd (((List.range 4).map fun j => fld (x.mark (4 * i + j)) 16 (16 * j)).sum)

/-- Bytes of a section, padded with zeros to `n`. -/
def sectionBytes (n : Nat) (bs : List Byte) : List Byte := (bs ++ List.replicate (n - bs.length) 0).take n

/-- The header's 32 bytes: MAGIC, SEQ, then LENGTH and CRC. -/
def tackHeader (seq len crc : Nat) : List Byte :=
  [tackMagic, wd seq, wd (fld crc 32 32 + fld len 32 0), 0].flatMap wordBytes

/-- Everything of a copy behind its header, over the bytes of its repair map and training. -/
def Tack.body (x : Tack) (repair train : List Byte) : List Byte :=
  x.startWords.flatMap wordBytes ++ sectionBytes (tackPolicyAt - tackHerdAt) (x.herdWords.flatMap wordBytes) ++
    sectionBytes (tackRepairAt - tackPolicyAt) (x.policyWords.flatMap wordBytes) ++
    sectionBytes (tackTrainAt - tackRepairAt) repair ++ sectionBytes (tackMarksAt - tackTrainAt) train ++
    x.markWords.flatMap wordBytes

/-- A copy as the block writes it: CRC-32C of its bytes with the CRC field zero (R305). -/
def Tack.bytes (x : Tack) (repair train : List Byte) : List Byte :=
  let body := x.body repair train
  tackHeader x.seq tackSize (crc32c (tackHeader x.seq tackSize 0 ++ body)) ++ body

/-- A copy is valid when its MAGIC and CRC are correct. -/
def tackValid (bs : List Byte) : Bool :=
  let len := leNat ((bs.drop 16).take 4)
  let zeroed := bs.take 20 ++ [0, 0, 0, 0] ++ bs.drop 24
  decide (bs.take 8 = wordBytes tackMagic) && decide (crc32c (zeroed.take len) = leNat ((bs.drop 20).take 4))

end Sys2Proof.Machine
end

