-- ==== Sys2Proof/Tests/Slice0.lean ====
section
/-!
SUPPORT. Tests: ill-formed commands, a few results worked out by hand from the manual, and for every statement with hypotheses a
state and operands that meet them.
-/
namespace Sys2Proof.Tests
set_option Elab.async false
open Sys2Proof.Machine

/-! ## States to test on -/

/-- An XS-144 that runs: READY, its firmware cores running, its units enabled. -/
def on : State :=
  let s := State.reset
  { s with
    gcs := { s.gcs with state := 2, gait := 1 }
    fsu := { s.fsu with power := true }
    fwc := { s.fwc with cores := [(0, 1), (1, 1), (2, 1), (3, 1), (4, 3)] }
    gd := { s.gd with run := true }
    ctu := { s.ctu with run := true }
    car := { s.car with en := true }
    rly := { s.rly with en := true } }

/-- A packet: its word 0 of opcode, EXTRA and CTX, and its words 1 to 7. -/
def pk (code extra c : Nat) (ws : List Word) : List Word :=
  BitVec.ofNat 64 (code + 256 * extra + 2 ^ 32 * c) :: (ws ++ List.replicate (7 - ws.length) 0)

/-- Queue `q` of `s` mapped to a slot, with the command `w` fetched and nothing started. -/
def put (s : State) (q : Nat) (w : List Word) : State :=
  let x : Queue := { ring := 0xC#64, cpl := 0x10000C#64, ctxReg := 0x800001#64, st := .slotted, tail := BitVec.ofNat 32 (w.length / 8), fetched := w }
  (s.setQueue q x).setSlot q { valid := true, queue := q, st := .fetching }

/-- Context 1 resident at place 0: 16 counters, 64 frames, 4 task-state slots. -/
def c1 : Ctx := { st := .resident, place := some 0, gen := 1, idLog := 4, frames := 64, nslots := 4, gsBase := 0x100000, gsSize := 0x100000,
                  saveBase := 0x200000, slotBase := 0x201000, ctBase := 0x300000, mapBase := 0x400000, mapLog := 10 }

def ctx1 : State := on.setCtx 1 c1

/-! ## Ill-formed commands (WellFormed) -/

theorem test_wf_command : (Instr.nop 1 (pk 0 0 1 [])).wf .xs144 = true ∧ (Instr.nop 1 (pk 3 0 1 [])).wf .xs144 = false ∧
    (Instr.nop 1024 (pk 0 0 1 [])).wf .xs144 = false ∧ (Instr.nop 512 (pk 0 0 1 [])).wf .xs64 = false ∧
    (Instr.nop 1 (pk 0 1 1 [])).wf .xs144 = false := by decide
theorem test_wf_time : (Instr.gdPop (2 ^ 64 - 1)).wf .xs144 = true ∧ (Instr.gdPop (2 ^ 64)).wf .xs144 = false := by decide
theorem test_wf_core : (Instr.coreDone 143 0 0).wf .xs144 = true ∧ (Instr.coreDone 144 0 0).wf .xs144 = false ∧
    (Instr.coreDone 64 0 0).wf .xs64 = false := by decide
theorem test_wf_region : (Instr.geNop 18).wf .xs64 = true ∧ (Instr.geNop 8).wf .xs64 = false ∧ (Instr.geNop 19).wf .xs144 = false := by decide
theorem test_wf_reg : (Instr.add 0 31 31 31).wf .xs144 = true ∧ (Instr.add 0 32 0 0).wf .xs144 = false ∧
    (Instr.add 0 0 32 0).wf .xs144 = false ∧ (Instr.add 0 0 0 32).wf .xs144 = false := by decide
theorem test_wf_line : (Instr.evtCountWrite 7 0).wf .xs144 = true ∧ (Instr.evtCountWrite 8 0).wf .xs144 = false := by decide
theorem test_wf_tag : (Instr.ccRead 0 15 31).wf .xs144 = true ∧ (Instr.ccRead 0 16 31).wf .xs144 = false ∧
    (Instr.ccRead 0 15 32).wf .xs144 = false := by decide
theorem test_wf_wear : (Instr.wearDetect ⟨38399, 8, 0, 3, 4⟩ 0).wf .xs144 = true ∧ (Instr.wearDetect ⟨38400, 8, 0, 3, 4⟩ 0).wf .xs144 = false ∧
    (Instr.wearDetect ⟨0, 9, 0, 3, 4⟩ 0).wf .xs144 = false ∧ (Instr.wearDetect ⟨0, 0, 0, 3, 4⟩ 0).wf .xs144 = false := by decide
theorem test_wf_role_slot : (Instr.fwTakeUp 4 0).wf .xs144 = false ∧ (Instr.displace 32).wf .xs144 = false ∧
    (Instr.dbTailWrite 1024 0).wf .xs144 = false ∧ (Instr.specOffer 18 0).wf .xs144 = false ∧ (Instr.descFill 8).wf .xs144 = false := by decide
theorem test_wf_fields : (Instr.coreSig 0 (2 ^ 24) 1).wf .xs144 = false ∧ (Instr.coreSig 0 0 (2 ^ 32)).wf .xs144 = false ∧
    (Instr.quantumWindowEnd 4096 0).wf .xs144 = false ∧ (Instr.delayTick (2 ^ 54)).wf .xs144 = false ∧
    (Instr.registerWrite (2 ^ 24) 0 64).wf .xs144 = false ∧ (Instr.registerWrite 0 0 24).wf .xs144 = false := by decide
theorem test_wf_units : (Instr.portFault 0 9 0).wf .xs144 = false ∧ (Instr.portFault 0 0 0).wf .xs144 = false ∧
    (Instr.sramError 17 0 0 true 0).wf .xs144 = false ∧ (Instr.remount 9 0 1 0).wf .xs144 = false ∧
    (Instr.ptrMismatch 10 0 0 0).wf .xs144 = false ∧ (Instr.ibiAcknowledge 6).wf .xs144 = false ∧ (Instr.entdaa 128).wf .xs144 = false := by decide
theorem test_wf_relay : (Instr.relaySend 0 0 0x100000#64 [1, 2]).wf .xs144 = true ∧ (Instr.relaySend 0 0 0x100000#64 [1]).wf .xs144 = false ∧
    (Instr.relayDeliver 0 16).wf .xs144 = false ∧ (Instr.operandPortRead 0 64 0).wf .xs144 = false ∧
    (Instr.operandPortRead 0 0 4).wf .xs144 = false := by decide
theorem test_wf_pins : (Instr.gaitReq 4 0).wf .xs144 = false ∧ (Instr.tthGaitReq 4).wf .xs144 = false ∧
    (Instr.tetherNoAnswer 10000).wf .xs144 = false ∧ (Instr.fwWatchdog 6 0).wf .xs144 = false ∧ (Instr.ping 65536).wf .xs144 = false ∧
    (Instr.trailTimeout 1024 0 0).wf .xs144 = false ∧ (Instr.linkReset 1024).wf .xs144 = false ∧ (Instr.i3cCcc 256 0).wf .xs144 = false := by decide

/-! ## The whole block -/

theorem witness_step_goes_on : ∃ t, step { on with pending := [.evtCountWrite 7 5#64, .geNop 0] } = .next t ∧ t.pending = [.geNop 0] :=
  ⟨_, rfl, rfl⟩
theorem witness_sound : on.sound ∧ ∃ t, step on = .next t := ⟨by unfold State.sound; decide, _, rfl⟩
theorem witness_stored : on.sound ∧ 0x1000 % 8 = 0 ∧ on.place false 0x1000 ≠ on.place true 0x1000 := ⟨by unfold State.sound; decide, by decide, by decide⟩


/-! ## The control core -/

/-- The word of a control-core instruction, field by field (R223). -/
def insn (op d a b imm : Nat) : Word := BitVec.ofNat 64 (2 ^ 56 * op + 2 ^ 51 * d + 2 ^ 46 * a + 2 ^ 41 * b + imm)
/-- Engine 0 runs `y`; its program, at 0, begins with the word `w`. -/
def ge0 (y : GeRun) (w : Word := 0) : State := { ctx1 with mem := (ctx1.wr64 0 w).mem }.setGe 0 { en := true, run := some y }

/-- A GATE task of context 1, at the first of two instructions. -/
def y0 : GeRun := { e := { ref := { ctx := 1, inst := 1, idx := 0 } }, regs := [(1, 0x3#64), (2, 0xFFFFFFFFFFFFFFFF#64)], count := 2 }

theorem at0 (y : GeRun) (h : y.pass = none) (w : Word := 0) : (ge0 y w).atInsn 0 y := ⟨⟨rfl, rfl⟩, rfl, h⟩
/-- Nothing is refused, so that the line of an instruction below `count` can be read. -/
theorem may0 (y : GeRun) (pc : Nat) (h : pc < y.count) (w : Word := 0) : (ge0 y w).mayGo 0 y pc := ⟨h, .inr rfl⟩

/-- Each row of Table 9.6, with D 5, A 1, B 2 and IMM 8 or what the fields of the row say; END and LAUNCH are decoded at time 0. The
premises of the statements hold with any of these words at the task's first instruction (`at0`, `may0`). -/
def rows : List (Word × Instr) :=
  [(insn 0x00 0 0 0 0, .geNop 0), (insn 0x01 5 0 0 8, .li 0 5 8#32), (insn 0x02 5 0 0 8, .lih 0 5 8#32), (insn 0x03 5 1 2 0, .add 0 5 1 2),
   (insn 0x04 5 1 0 8, .addi 0 5 1 8#32), (insn 0x05 5 1 2 0, .sub 0 5 1 2), (insn 0x06 5 1 2 0, .and 0 5 1 2), (insn 0x07 5 1 2 0, .or 0 5 1 2),
   (insn 0x08 5 1 2 0, .xor 0 5 1 2), (insn 0x09 5 1 2 0, .shl 0 5 1 2), (insn 0x0A 5 1 2 0, .shr 0 5 1 2), (insn 0x0B 5 1 2 0, .mul 0 5 1 2),
   (insn 0x0C 5 1 0 0, .ctz 0 5 1), (insn 0x10 5 1 2 0, .fadd 0 5 1 2), (insn 0x11 5 1 2 0, .fsub 0 5 1 2), (insn 0x12 5 1 2 0, .fmul 0 5 1 2),
   (insn 0x13 5 1 3 0, .fdiv 0 5 1 3), (insn 0x14 5 1 0 0, .fsqrt 0 5 1), (insn 0x15 5 1 2 0, .flt 0 5 1 2), (insn 0x16 5 1 2 0, .fle 0 5 1 2),
   (insn 0x17 5 1 0 0, .fcvt 0 5 1), (insn 0x18 5 2 0 0, .icvt 0 5 2)]
def rows' : List (Word × Instr) :=
  [(insn 0x20 5 1 0 8, .ld 0 5 1 8#32), (insn 0x21 0 1 2 8, .st 0 1 2 8#32), (insn 0x22 5 0 0 0, .bind 0 5 0#32), (insn 0x28 0 1 2 1, .beq 0 1 2 1#32),
   (insn 0x29 0 1 2 1, .bne 0 1 2 1#32), (insn 0x2A 0 1 2 1, .blt 0 1 2 1#32), (insn 0x2B 0 1 2 1, .bge 0 1 2 1#32), (insn 0x2C 0 1 2 1, .bltu 0 1 2 1#32),
   (insn 0x2D 0 0 0 2, .jmp 0 2#32), (insn 0x30 0 1 2 0, .run 0 1 2), (insn 0x31 5 0 0 3, .sum 0 5 3#32), (insn 0x38 0 1 2 0, .geSig 0 1 2),
   (insn 0x39 5 4 3 0, .geLaunch 0 5 4 3 0), (insn 0x3A 5 1 2 0, .shape 0 5 1 2), (insn 0x3B 5 4 0 0, .skip 0 5 4), (insn 0x3F 0 0 0 1, .endTask 0 1#32 0),
   (insn 0x31 5 0 0 0, .sum 0 5 0#32), (insn 0x31 5 0 0 7, .sum 0 5 7#32), (insn 0x3F 0 0 0 2, .endTask 0 2#32 0), (insn 0x18 5 1 0 0, .icvt 0 5 1)]
theorem witness_rows : ∀ p ∈ rows ++ rows', (ge0 y0 p.1).geRow 0 = some p.2 := by decide +kernel
/-- A word whose OP Table 9.6 does not list, and one whose reserved field is not zero. -/
theorem witness_illegal_word : (ge0 y0 (insn 0x0D 0 0 0 0)).geRow 0 = none ∧ (ge0 y0 (insn 0 0 0 0 (2 ^ 32))).geRow 0 = none ∧
    ((ge0 y0 (insn 0 0 0 0 (2 ^ 32))).rd64 (y0.prog + 8 * y0.pc)).extractLsb' 32 9 ≠ 0 := by decide +kernel

theorem witness_integer : (ge0 y0).atInsn 0 y0 ∧ (ge0 y0).mayGo 0 y0 (y0.pc + 1) ∧ y0.reg 0 = 0 ∧ y0.reg 1 ≠ 0 :=
  ⟨at0 _ rfl, may0 _ _ (by decide), rfl, by decide +kernel⟩
theorem witness_branch : (ge0 y0).atInsn 0 y0 ∧ (ge0 y0).mayGo 0 y0 (y0.pc + 1) ∧
    (ge0 y0).mayGo 0 y0 (BitVec.ofNat 64 y0.pc + (1#32).signExtend 64).toNat := ⟨at0 _ rfl, may0 _ _ (by decide), may0 _ _ (by decide +kernel)⟩
theorem witness_outside : (ge0 y0).atInsn 0 y0 ∧ y0.count ≤ (BitVec.ofNat 64 y0.pc + (2#32).signExtend 64).toNat ∧
    (ge0 { y0 with pc := 1 }).atInsn 0 { y0 with pc := 1 } ∧ y0.count ≤ 1 + 1 := ⟨at0 _ rfl, by decide +kernel, at0 _ rfl, by decide +kernel⟩

/-- A device that refuses the line of the program; the line is not in the instruction cache. -/
def noLine : State := { ge0 y0 with env := { on.env with refused := [(0, 64)] } }
theorem witness_line_refused : noLine.atInsn 0 y0 ∧ y0.pc + 1 < y0.count ∧ (noLine.ge 0).icache.contains (y0.line (y0.pc + 1)) = false ∧
    noLine.refuses (y0.line (y0.pc + 1)).2.2 64 = true := ⟨⟨⟨rfl, rfl⟩, rfl, rfl⟩, by decide, by decide +kernel, by decide +kernel⟩

/-- s1 = 1.5, s2 = NaN, s3 = 0. -/
def yF : GeRun := { y0 with regs := [(1, 0x3FF8000000000000#64), (2, 0x7FF8000000000000#64)] }
/-- Engine 0 with every flag trapped. -/
def ge0t (y : GeRun) : State := ctx1.setGe 0 { en := true, trapEn := 0x1F, run := some y }

theorem witness_float : (ge0 yF).atInsn 0 yF ∧ (ge0 yF).mayGo 0 yF (yF.pc + 1) ∧
    (fp64.addV {} (f64 (yF.reg 1)) (f64 (yF.reg 1))).2 &&& ((ge0 yF).ge 0).trapEn = 0 ∧
    (f64 (yF.reg 1)).cmp? (f64 (yF.reg 3)) = some .gt ∧ (f64 (yF.reg 1)).cmp? (f64 (yF.reg 2)) = none ∧
    1 &&& ((ge0 yF).ge 0).trapEn = 0 ∧ (f64 (yF.reg 1)).isNan = false ∧ (f64 (yF.reg 2)).isNan = true :=
  ⟨at0 _ rfl, may0 _ _ (by decide), by decide +kernel, by decide +kernel, by decide +kernel, by decide +kernel, by decide +kernel, by decide +kernel⟩
theorem witness_float_traps : (ge0t yF).atInsn 0 yF ∧ (fp64.divV {} (f64 (yF.reg 1)) (f64 (yF.reg 3))).2 = 2 ∧
    2 &&& ((ge0t yF).ge 0).trapEn ≠ 0 ∧ (f64 (yF.reg 1)).cmp? (f64 (yF.reg 2)) = none ∧ 1 &&& ((ge0t yF).ge 0).trapEn ≠ 0 :=
  ⟨⟨⟨rfl, rfl⟩, rfl, rfl⟩, by decide +kernel, by decide +kernel, by decide +kernel, by decide +kernel⟩
/-- s1 = the last 8 bytes of the address space. -/
def yA : GeRun := { y0 with regs := [(1, 0x1000#64), (2, 0x88#64), (4, 0xFFFFFFFFFFFFFFF8#64)], inB := [7#64], outs := [(0, false)] }
theorem witness_access : (ge0 yA).atInsn 0 yA ∧ (ge0 yA).mayGo 0 yA (yA.pc + 1) ∧ (yA.reg 1 + (8#32).signExtend 64).toNat % 8 = 0 ∧
    (ge0 yA).refuses (yA.reg 1 + (8#32).signExtend 64).toNat 8 = false ∧ (0#32).toNat % 256 < yA.inB.length ∧
    (yA.reg 1 + (9#32).signExtend 64).toNat % 8 ≠ 0 ∧ (ge0 yA (insn 0x20 5 1 0 9)).geRow 0 = some (.ld 0 5 1 9#32) :=
  ⟨at0 _ rfl, may0 _ _ (by decide), by decide +kernel, by decide +kernel, by decide +kernel, by decide +kernel, by decide +kernel⟩

theorem test_mul_wraps : ∃ t, exec (.mul 0 3 2 2) (ge0 y0 (insn 0x0B 3 2 2 0)) = .next t ∧ (t.ge 0).run.map (fun y => (y.reg 3, y.pc)) = some (1#64, 1) := ⟨_, rfl, rfl⟩
theorem test_shr_count_mod_64 : ∃ t, exec (.shr 0 2 2 2) (ge0 y0 (insn 0x0A 2 2 2 0)) = .next t ∧ (t.ge 0).run.map (fun y => y.reg 2) = some 1#64 := ⟨_, rfl, rfl⟩
theorem test_blt_signed : ∃ t, exec (.blt 0 2 1 0#32) (ge0 y0 (insn 0x2A 0 2 1 0)) = .next t ∧ (t.ge 0).run.map (fun y => y.pc) = some 0 := ⟨_, rfl, rfl⟩
theorem test_bltu_unsigned : ∃ t, exec (.bltu 0 2 1 0#32) (ge0 y0 (insn 0x2C 0 2 1 0)) = .next t ∧ (t.ge 0).run.map (fun y => y.pc) = some 1 := ⟨_, rfl, rfl⟩
theorem test_lih_keeps_low : ∃ t, exec (.lih 0 2 5#32) (ge0 y0 (insn 0x02 2 0 0 5)) = .next t ∧ (t.ge 0).run.map (fun y => y.reg 2) = some 0x5FFFFFFFF#64 := ⟨_, rfl, rfl⟩
theorem test_fadd : ∃ t, exec (.fadd 0 5 1 1) (ge0 yF (insn 0x10 5 1 1 0)) = .next t ∧ (t.ge 0).run.map (fun y => y.reg 5) = some 0x4008000000000000#64 := ⟨_, rfl, rfl⟩
theorem test_fdiv_by_zero : ∃ t, exec (.fdiv 0 5 1 3) (ge0 yF (insn 0x13 5 1 3 0)) = .next t ∧ (t.ge 0).run.map (fun y => (y.reg 5, y.flags)) = some (0x7FF0000000000000#64, 2) := ⟨_, rfl, rfl⟩
theorem test_ctz_zero : ∃ t, exec (.ctz 0 5 3) (ge0 y0 (insn 0x0C 5 3 0 0)) = .next t ∧ (t.ge 0).run.map (fun y => y.reg 5) = some 64#64 := ⟨_, rfl, rfl⟩

/-- A descriptor of 16 words: kind, DEP_INIT, index, entry; the rest zero. -/
def desc (kind dep idx entry : Nat) : List Word :=
  BitVec.ofNat 64 (kind + 65536 * dep + 2 ^ 32 * idx) :: BitVec.ofNat 64 entry :: List.replicate 14 0

def graph1 : Graph := { template := true, descs := [(0, desc 1 0 0 0)] }
/-- An instance of graph 1 with a ready GATE task 0, a waiting COMPUTE task 1 and a CONTROL task 2. -/
def inst1 : Inst := { gid := 1, base := 8, num := 3, span := 4, owner := some (1, 0), launchAt := 0,
                      tasks := [(0, { desc := desc 2 0 0 3, st := .placed }), (1, { desc := desc 1 1 1 0, count := 1 }),
                                (2, { desc := desc 3 0 2 0, st := .ready })] }
/-- Context 1 with a graph, its instance and gate program 3. -/
def c1g : Ctx := { c1 with graphs := [(1, graph1)], insts := [(1, inst1)], progs := [(3, (0x8000, 2))] }
def ctx1g : State := on.setCtx 1 c1g

/-- A pass of one row, one column and no stage; s1 its block, s2 an IMM that replaces operand A's input. -/
def passCfg : List Word := 0x100000001#64 :: List.replicate 31 0
def runS (y : GeRun) : State := (ctx1.wr64 0x1000 0x100000001#64).setGe 0 { en := true, run := some y }

theorem witness_run : (runS yA).atInsn 0 yA ∧ (yA.reg 1).toNat % 64 = 0 ∧ (runS yA).refuses (yA.reg 1).toNat 256 = false ∧
    cfgOk ((runS yA).geCfg (yA.reg 1).toNat (yA.reg 3)) ((runS yA).geIo yA) = true ∧
    cfgOk ((ge0 yA).geCfg (yA.reg 1).toNat (yA.reg 3)) ((ge0 yA).geIo yA) = false ∧ (yA.reg 2).toNat % 64 ≠ 0 ∧
    (ge0 yA).refuses (yA.reg 2).toNat 256 = false :=
  ⟨⟨⟨rfl, rfl⟩, rfl, rfl⟩, by decide, by decide, by decide +kernel, by decide +kernel, by decide, by decide⟩
/-- A device that refuses the 256 bytes at s1. -/
def bad (s : State) : State := { s with env := { s.env with refused := [(0x1000, 0x100)] } }
theorem witness_refused : (bad (runS yA)).atInsn 0 yA ∧ (bad (runS yA)).refuses (yA.reg 1).toNat 256 = true ∧
    (yA.reg 1 + (0xF8#32).signExtend 64).toNat % 8 = 0 ∧ (bad (runS yA)).refuses (yA.reg 1 + (0xF8#32).signExtend 64).toNat 8 = true ∧
    (bad (runS yA)).refuses (yA.reg 1 + (0x100#32).signExtend 64).toNat 8 = false :=
  ⟨⟨⟨rfl, rfl⟩, rfl, rfl⟩, by decide, by decide, by decide, by decide⟩

/-- Engine 0 in the pass. -/
def yP : GeRun := { yA with pass := some passCfg }
theorem witness_pass_end : (ge0 yP).steady ∧ ((ge0 yP).ge 0).run = some yP ∧ yP.pass = some passCfg ∧ (ge0 yP).mayGo 0 yP (yP.pc + 1) ∧
    let s1 := (ge0 yP).at 5
    let o := s1.pass passCfg (s1.geIo yP) (s1.ge 0).trapEn yP.outs 8 []
    (∀ z ∈ zeroTiles (s1.geIo yP) o.writes (passOuts passCfg yP.outs o.writes), s1.refuses z.1 z.2 = false) ∧ o.partly = false ∧ o.access = false ∧ o.config = false ∧ o.flags &&& ((s1.ge 0).trapEn ||| Cfg.trap passCfg) = 0 :=
  ⟨⟨rfl, rfl⟩, rfl, rfl, may0 _ _ (by decide), fun _ _ => rfl, by decide +kernel, by decide +kernel, by decide +kernel, by decide +kernel⟩
theorem witness_sum : (ge0 { y0 with sums := [(0, 9#64)] }).atInsn 0 { y0 with sums := [(0, 9#64)] } ∧
    (ge0 { y0 with sums := [(0, 9#64)] }).mayGo 0 { y0 with sums := [(0, 9#64)] } 1 ∧
    AL.get? (0#32).toNat [(0, 9#64)] = some 9#64 ∧ AL.get? (7#32).toNat [(0, 9#64)] = (none : Option Word) :=
  ⟨⟨⟨rfl, rfl⟩, rfl, rfl⟩, may0 _ _ (by decide), rfl, rfl⟩

/-- s1 = counter 15, the last of the limit 16; s2 = 16; s3 = 0; s4 = graph 1; s5 = one instance. -/
def yS : GeRun := { y0 with regs := [(1, 15#64), (2, 16#64), (4, 1#64), (5, 1#64), (6, 2#64), (7, 0x80000000#64)] }
def geG (y : GeRun) : State := ctx1g.setGe 0 { en := true, run := some y }
theorem witness_sig : (geG yS).atInsn 0 yS ∧ (geG yS).mayGo 0 yS (yS.pc + 1) ∧ bits (yS.reg 3) 31 0 = 0 ∧ bits (yS.reg 2) 31 0 ≠ 0 ∧
    bits (yS.reg 1) 23 0 < (geG yS).idLimit yS.e.ref.ctx ∧ (geG yS).idLimit yS.e.ref.ctx ≤ bits (yS.reg 2) 23 0 :=
  ⟨⟨⟨rfl, rfl⟩, rfl, rfl⟩, ⟨by decide, .inr rfl⟩, by decide, by decide, by decide, by decide⟩
/-- The counter that s1 names is on chip, at 5, with no waiter. -/
def sigS : State := { (geG yS).wr64 0 (insn 0x38 0 1 2 0) with ctu := { on.ctu with phys := [{ ctx := 1, vid := 15, val := 5 }] } }
theorem witness_sig_counter : sigS.atInsn 0 yS ∧ sigS.mayGo 0 yS (yS.pc + 1) ∧ 15 < sigS.idLimit 1 ∧
    sigS.phys? 1 15 = some { ctx := 1, vid := 15, val := 5 } ∧ sigS.defined 1 = true ∧
    sigS.holds (.signal 1 15 16 { code := 6, arg := sigS.effOf yS.e.ref } none) = false ∧ (sigS.ctx 1).st.inPlace = true ∧
    sigS.ctu.waiters = [] ∧ 5 + 16 < 2 ^ 64 :=
  ⟨⟨⟨rfl, rfl⟩, rfl, rfl⟩, ⟨by decide, .inr rfl⟩, by decide, by decide, by decide, by decide, by decide, rfl, by decide⟩
/-- SIG of s2 = 16 on counter 15 at 5. -/
theorem test_sig : sigS.geRow 0 = some (.geSig 0 1 2) ∧ ∃ t, exec (.geSig 0 1 2) sigS = .next t ∧ (t.phys? 1 15).map Phys.val = some 21 ∧ (t.ge 0).run = some { yS with pc := 1 } :=
  ⟨by decide +kernel, _, rfl, by decide +kernel, by decide +kernel⟩
theorem witness_launch : (geG yS).atInsn 0 yS ∧ bits (yS.reg 5) 31 0 ≠ 0 ∧ bits (yS.reg 3) 31 0 = 0 ∧
    ((geG yS).at 1).launchCheck 1 (bits (yS.reg 4) 15 0) true 0 (bits (yS.reg 5) 31 0) = 0 ∧
    ((geG yS).at 1).launchCheck 1 (bits (yS.reg 6) 15 0) true 0 (bits (yS.reg 5) 31 0) ≠ 0 ∧
    ((geG yS).at 1).launchCheck 1 (bits (yS.reg 4) 15 0) true 8 (bits (yS.reg 5) 31 0) ≠ 0 :=
  ⟨⟨⟨rfl, rfl⟩, rfl, rfl⟩, by decide, by decide, by decide, by decide, by decide⟩

/-- The tile of effective handle 15 is a shape slot of 16 bytes at 0x5000. -/
def slotS : State := (((ge0 yS).wr64 0x4000F0 (0x100000000005000#64)).wr64 0x4000F8 16#64)
theorem witness_shape : slotS.atInsn 0 yS ∧ slotS.mayGo 0 yS (yS.pc + 1) ∧ slotS.refuses (slotS.tile 1 (bits (yS.reg 1) 31 0)).addr 16 = false ∧
    { slotS with env := { on.env with refused := [(0x5000, 1)] } }.refuses (slotS.tile 1 (bits (yS.reg 1) 31 0)).addr 16 = true ∧
    slotS.slotOk 1 (bits (yS.reg 1) 31 0) = true ∧ slotS.slotOk 1 (bits (yS.reg 2) 31 0) = false :=
  ⟨⟨⟨rfl, rfl⟩, rfl, rfl⟩, ⟨by decide, .inr rfl⟩, rfl, by decide +kernel, by decide +kernel, by decide +kernel⟩
theorem witness_skip : (geG yS).atInsn 0 yS ∧ (geG yS).mayGo 0 yS (yS.pc + 1) ∧
    (let r : TaskRef := { yS.e.ref with idx := (yS.reg 4).toNat }
     ∃ x t, (geG yS).inst? r.ctx r.inst = some x ∧ (geG yS).task? r = some t ∧ r.idx < x.span ∧ Desc.kind t.desc = 1 ∧
      (t.st = .waiting ∨ t.st = .spec) ∧ t.count ≠ 0) ∧
    (let r : TaskRef := { yS.e.ref with idx := (yS.reg 3).toNat }
     ∃ x t, (geG yS).inst? r.ctx r.inst = some x ∧ (geG yS).task? r = some t ∧ r.idx < x.span ∧ Desc.kind t.desc = 2 ∧
      ¬ ((t.st = .waiting ∨ t.st = .spec) ∧ t.count ≠ 0)) ∧
    (let r : TaskRef := { yS.e.ref with idx := (yS.reg 6).toNat }
     ∃ x t, (geG yS).inst? r.ctx r.inst = some x ∧ (geG yS).task? r = some t ∧ Desc.kind t.desc ≠ 1 ∧ Desc.kind t.desc ≠ 2) ∧
    (geG yS).task? { yS.e.ref with idx := (yS.reg 1).toNat } = none :=
  ⟨⟨⟨rfl, rfl⟩, rfl, rfl⟩, ⟨by decide, .inr rfl⟩, ⟨_, _, rfl, rfl, by decide, by decide, by decide, by decide⟩, ⟨_, _, rfl, rfl, by decide, by decide, by decide⟩,
   ⟨_, _, rfl, rfl, by decide, by decide⟩, rfl⟩

/-- Engine 0 free, with the GATE task queued; `p` its programs. -/
def gate0 (p : List (Nat × (Nat × Nat))) : State :=
  (on.setCtx 1 { c1g with progs := p }).setGe 0 { en := true, queue := [{ ref := { ctx := 1, inst := 1, idx := 0 } }] }
def e0 : Entry := { ref := { ctx := 1, inst := 1, idx := 0 } }
def k0 : Task := { desc := desc 2 0 0 3, st := .placed }
theorem witness_task_start (p : List (Nat × (Nat × Nat))) : let s1 := (gate0 p).at 9
    (s1.ge 0).en = true ∧ (s1.ge 0).run = none ∧ (gate0 p).steady ∧ (gate0 p).up = true ∧ (gate0 p).fsu.paused.any (fun _ => true) = false ∧
    (gate0 p).fsu.remounts.any (fun _ => true) = false ∧
    (s1.ge 0).queue.find? (fun e => !(s1.ctx e.ref.ctx).halted) = some e0 ∧ s1.inst? 1 1 = some inst1 ∧ s1.task? e0.ref = some k0 :=
  ⟨rfl, rfl, ⟨rfl, rfl⟩, rfl, rfl, rfl, rfl, rfl, rfl⟩
theorem witness_task_program : AL.get? (bits (Desc.entry k0.desc) 7 0) ((gate0 []).ctx 1).progs = none ∧
    AL.get? (bits (Desc.entry k0.desc) 7 0) ((gate0 [(3, (0x8000, 1))]).ctx 1).progs = some (0x8000, 1) ∧ Desc.trace k0.desc = false := ⟨rfl, rfl, rfl⟩
theorem witness_task_outputs : let s2 := ((gate0 [(3, (0x8000, 1))]).at 9).descRead e0.ref
    (s2.allocAll e0.ref (s2.sliceOrder 1 (Desc.sliceHint k0.desc) (s2.homeOf e0)) (s2.outputs k0.desc inst1.base)).1 = true := by decide +kernel
theorem witness_task_end : (ge0 y0).atInsn 0 y0 ∧ (2#32).getLsbD 0 = false ∧ (1#32).getLsbD 0 = true ∧
    (geG y0).steady ∧ y0.startAt + ((geG y0).at 1000000000000).budgetNs (((geG y0).at 1000000000000).descOf y0.e) ≤
      ((geG y0).at 1000000000000).env.now := ⟨at0 _ rfl, by decide, by decide, ⟨rfl, rfl⟩, by decide +kernel⟩
/-- Engine 0 at an END 0 of task 0. -/
def endS : State := { geG y0 with mem := (ctx1.wr64 0 (insn 0x3F 0 0 0 2)).mem }
theorem witness_task_end_normal : endS.atInsn 0 y0 ∧ (endS.at 5).geRow 0 = some (.endTask 0 2#32 5) ∧ (endS.at 5).inst? 1 1 = some inst1 ∧
    (endS.at 5).task? y0.e.ref = some k0 := ⟨⟨⟨rfl, rfl⟩, rfl, rfl⟩, by decide +kernel, rfl, rfl⟩
/-- A task with one output on a context without a pool: no granule is free. -/
def k1 : Task := { desc := desc 2 0 0 3 |>.set 11 0x10000#64 |>.set 12 0x9000#64, st := .placed }
def gateFull : State :=
  let s := gate0 [(3, (0x8000, 1))]
  s.setCtx 1 { s.ctx 1 with insts := [(1, { inst1 with tasks := [(0, k1)] })] }
theorem witness_task_waits : let s2 := (gateFull.at 9).descRead e0.ref
    (s2.allocAll e0.ref (s2.sliceOrder 1 (Desc.sliceHint k1.desc) (s2.homeOf e0)) (s2.outputs k1.desc inst1.base)).1 = false := by decide +kernel

/-! ## Pins, gaits, power and starts -/

/-- Line 7 enabled, low; its last accepted edge at 100. -/
def line7 (x : EvtLine) : State :=
  { on with gcs := { on.gcs with evtEn := 0x80, lines := [(7, x)] } }
theorem witness_edge : (line7 {}).work = [] ∧ (7 : Nat) < 8 ∧ (line7 {}).gcs.state ≠ 0 ∧ (line7 {}).gcs.evtEn.getLsbD 7 = true ∧
    (line7 {}).gcs.evtStuck.getLsbD 7 = false ∧ ((line7 {}).line 7).level = false ∧ ((line7 {}).line 7).lastEdge = none := by decide
theorem witness_edge_late : (¬ ∃ p, ((line7 { lastEdge := some 100 }).line 7).lastEdge = some p ∧
    ((line7 { lastEdge := some 100 }).at 150).env.now < p + 50) :=
  fun ⟨p, h, k⟩ => by cases (show some 100 = some p from h); exact absurd k (by decide)
theorem witness_edge_early : ∃ p, ((line7 { lastEdge := some 100 }).line 7).lastEdge = some p ∧
    ((line7 { lastEdge := some 100 }).at 149).env.now < p + 50 := ⟨100, rfl, by decide⟩
theorem witness_edge_dead : ((line7 { level := true }).line 7).level = true ∧ on.gcs.evtEn.getLsbD 0 = false ∧ (on.line 0).level = false := by decide
/-- The action register asks for nothing, for a signal of counter 15 of context 1, or for a launch of graph 1. -/
def sigA : Word := 0x800100000F000000#64
def launchA : Word := 0xC001000000000001#64
theorem witness_add_action : bit (0 : Word) 63 = false ∧ bit launchA 63 = true ∧ bit launchA 62 = true ∧ bit sigA 63 = true ∧ bit sigA 62 = false ∧
    ({ act := sigA, pend := [(launchA, 3, 1), (sigA, 4, 1)] } : EvtLine).pend = [(launchA, 3, 1)] ++ (sigA, 4, 1) :: [] ∧
    (∀ p ∈ [(launchA, 3, 1)] ++ ([] : List (Word × Nat × Nat)), p.1 ≠ sigA) := by decide
/-- Line 7 has the action `a` pending, in the state `s`. -/
def acting (s : State) (a : Word) : State := s.setLine 7 { pend := [(a, 7, 1)] }
theorem witness_event_action : ((acting ctx1g sigA).line 7).pend = [(sigA, 7, 1)] ∧ (acting ctx1g sigA).defined (bits sigA 59 48) = true ∧
    ((acting ctx1g sigA).ctx 1).st ≠ .faulted ∧ bits sigA 47 24 < (acting ctx1g sigA).idLimit 1 ∧
    (acting ctx1g sigA).idLimit 1 ≤ bits (sigA + 0x1000000#64) 47 24 ∧ (acting on sigA).defined 1 = false ∧
    ((acting (on.setCtx 1 { c1 with st := .faulted }) sigA).ctx 1).st = .faulted ∧
    AL.get? (bits launchA 15 0) ((acting ctx1 launchA).ctx 1).graphs = none ∧
    AL.get? (bits launchA 15 0) ((acting ctx1g launchA).ctx 1).graphs = some graph1 ∧
    ((acting ctx1g launchA).setLine 7 {}).launchCheck 1 1 true (graph1.seq * graph1.span % 2 ^ 32) 1 = 0 ∧
    ((acting (on.setCtx 1 { c1g with frames := 0 }) launchA).setLine 7 {}).launchCheck 1 1 true (graph1.seq * graph1.span % 2 ^ 32) 1 ≠ 0 := by
  decide +kernel
theorem witness_line_registers : on.gcs.evtEn.getLsbD 7 = false ∧ (line7 {}).gcs.evtEn.getLsbD 7 = true ∧ (line7 {}).up = true ∧
    (line7 {}).roleRuns 2 = true ∧ ((line7 {}).line 7).level = false := by decide
/-- High since the edge accepted at 100; the limit is 10 ms. -/
def stuck7 : State := line7 { level := true, held := true, lastEdge := some 100 }
theorem witness_stuck : (stuck7.line 7).lastEdge = some 100 ∧ (stuck7.line 7).held = true ∧ (stuck7.line 7).level = true ∧
    stuck7.gcs.stuckMs ≠ 0 ∧ stuck7.gcs.evtStuck.getLsbD 7 = false ∧ 100 + 1000000 * stuck7.gcs.stuckMs < (stuck7.at 10000101).env.now := by decide
theorem test_stuck_sets_irq : ∃ t, exec (.evtStuck 7 10000101) stuck7 = .next t ∧ t.gcs.irqStatus.getLsbD 4 = true ∧ t.gcs.evtStuck = 0x80 :=
  ⟨_, rfl, by decide +kernel, by decide +kernel⟩

def changing (a : Bool) (n : Option Nat) : State := { on with gcs := { on.gcs with changing := true, gaitSel := 2, gaitAck := a, gaitNext := n } }
theorem witness_gait : on.work = [] ∧ (2 : Nat) < 3 ∧ on.fsu.power = true ∧ on.gcs.changing = false ∧ on.gcs.state = 2 ∧ on.up = true ∧
    on.roleRuns 3 = true ∧ (changing false none).gcs.changing = true ∧ (changing false none).gcs.gaitAck = false ∧
    (changing true none).gcs.gaitAck = true ∧ (changing true none).gcs.gaitNext = none := by decide
/-- Power is good and the block is OFF, BOOTING or SAFE. -/
def booting (n : Nat) : State := { on with gcs := { on.gcs with state := n } }
theorem witness_gait_undrained : (booting 0).gcs.state = 0 ∧ (booting 1).gcs.state = 1 ∧ (booting 4).gcs.state = 4 ∧ (booting 4).fsu.power = true ∧
    (booting 4).gcs.changing = false := by decide
theorem witness_gait_answer : { on with tth := { on.tth with req := true } }.tth.req = true := rfl
/-- The change held a trailing record, behind an action that its cause still holds. -/
def heldWork : State := { changing true none with work := [.signal 1 15 1 { code := 4, arg := 0 } none, .trailIn 1#64 0 0], ctu := { on.ctu with run := false } }
theorem witness_gait_work : heldWork.gcs.changing = true ∧ heldWork.gcs.gaitAck = true ∧
    takeWork { heldWork with gcs := { heldWork.gcs with changing := false } }.holds heldWork.work =
      some (.trailIn 1#64 0 0, [.signal 1 15 1 { code := 4, arg := 0 } none]) ∧
    (changing true (some 2)).gcs.gaitNext = some 2 ∧
    { on with fwc := { on.fwc with cores := [(2, 2)] } }.roleRuns 2 = false ∧ on.up = true ∧ on.roleRuns 2 = true := ⟨rfl, rfl, rfl, by decide⟩

/-- Power failed 1 s ago, and was released. -/
def drain : State := { on with env := { on.env with now := 1000000100 }, fsu := { on.fsu with pfHighAt := some 100 } }
theorem witness_power : State.reset.fsu.power = false ∧ on.fsu.power = true ∧ on.fsu.pfAsserted = false ∧ drain.work = [] ∧
    drain.fsu.pfHighAt = some 100 ∧ drain.up = true ∧ drain.roleRuns 2 = true ∧ 100 + 1000000000 ≤ (drain.at 5).env.now ∧
    { on with fsu := { on.fsu with pfAsserted := true } }.fsu.pfAsserted = true ∧ on.gcs.state ≠ 0 ∧ on.env.sfdpOk = true := by decide
/-- Sector 0 of the ring has failed, is retired, or is sound; the reserve holds a record and the block boots. -/
def sector0 (bad gone : Bool) : State :=
  { on with env := { on.env with defects := if bad then [(8, 0)] else [] }, fsu := { on.fsu with retired := if gone then [(8, 0)] else [] } }
theorem witness_studbook : on.flash.reserve.length + on.fsu.staging.length ≤ 1024 ∧ on.fsu.lostPend = 0 ∧
    on.fsu.lostUnits.contains (8, on.flash.ringPos / 64 % 2032) = false ∧ on.env.defects.contains (8, on.physOf 8 0) = false ∧
    (sector0 true false).env.defects.contains (8, (sector0 true false).physOf 8 0) = true ∧
    (sector0 true false).fsu.retired.contains (8, (sector0 true false).physOf 8 0) = false ∧
    (sector0 true true).fsu.retired.contains (8, (sector0 true true).physOf 8 0) = true ∧
    { booting 1 with flash := { on.flash with reserve := [[]] } }.flash.reserve ≠ [] ∧ (booting 1).gcs.state = 1 := by decide

theorem witness_resets : on.gcs.state = 2 ∧ (booting 3).gcs.state = 3 ∧ (booting 1).gcs.state = 1 ∧ (booting 4).gcs.state = 4 ∧
    State.reset.gcs.state = 0 := by decide
def watched : State := { booting 1 with fwc := { on.fwc with watchdog := some 7 } }
theorem witness_watchdog : watched.fwc.watchdog = some 7 ∧ 7 + 10000000000 ≤ (watched.at 10000000007).env.now ∧ watched.gcs.state ≠ 0 ∧
    watched.gcs.state ≠ 4 := by decide
/-- In safe mode, memory holds no image: check 1 fails. -/
theorem witness_recover_bad : (booting 4).gcs.state = 4 ∧ (booting 4).gcs.recoverBusy = false ∧
    { on with gcs := { on.gcs with recoverBusy := true } }.gcs.recoverBusy = true ∧
    { on with env := { on.env with flashOk := false } }.env.flashOk = false ∧ (booting 4).env.flashOk = true ∧
    ((booting 4).at 5).imageFail? (((booting 4).at 5).readImage ((booting 4).gcs.recoverBase * 4096)) = some 1 := by decide +kernel
/-- SHA-384 of "abc" begins as the example of FIPS 180-4 says, and the base point lies on the curve. -/
theorem test_sha384 : (sha384 [0x61, 0x62, 0x63]).take 4 = [0xCB, 0x00, 0x75, 0x3F] ∧ onCurve p384g = true := by decide +kernel
/-- What the checks find is an image that they accept: no key's hash is known to be the ROM mask's (assumption 14). -/
theorem witness_image_good (x : Image) (h1 : x.keyOk = true) (h2 : x.sigOk = true) (h3 : x.bodyOk = true) :
    (booting 4).imageFail? { x with formOk := true, secVer := 0 } = none := by
  unfold State.imageFail?; simp only [h1, h2, h3]; rfl

/-- Step 8 of a cold start, with a bank and a cluster. -/
def startS : State := { booting 1 with gcs := { on.gcs with state := 1, kind := 1, step := 8 } }
theorem witness_start : startS.work = [] ∧ startS.fsu.heldWear = [] ∧ startS.startReady = true ∧ startS.startFails = false := by decide +kernel
/-- Every cluster is lost. -/
def startLost : State := { startS with fsu := { on.fsu with lostUnits := (List.range 18).map fun n => (2, n) } }
theorem witness_start_lost : startLost.work = [] ∧ startLost.fsu.heldWear = [] ∧ startLost.startReady = true ∧ startLost.startFails = true := by decide +kernel

def step7 : State := { booting 1 with gcs := { on.gcs with state := 1, kind := 1, step := 7 } }
theorem witness_tether : step7.work = [] ∧ step7.gcs.state = 1 ∧ step7.gcs.kind ≠ 3 ∧ step7.gcs.step = 7 ∧ 19 < step7.env.dev.positions ∧
    19 ∉ step7.tth.noAnswer ∧ startS.gcs.step = 8 ∧ startS.gcs.kind ≠ 3 ∧ 19 < startS.env.dev.positions ∧ 19 ∉ startS.tth.noAnswer := by decide
theorem witness_no_answer : startS.tth.enumAt + 20000 ≤ { startS with env := { on.env with now := 20000 } }.env.now ∧
    startS.env.now < startS.tth.enumAt + 20000 := by decide
/-- Cluster 0's place has failed, as has the spare of the second row. -/
def placesBad : State := { on with env := { on.env with defects := [(2, homePos 0), (2, on.rowSpare (homePos on.env.dev.rowLen))] } }
theorem witness_roles : let bad (p : Nat) : Bool := placesBad.tack.repair.contains (2, p) || placesBad.remounting 2 p || placesBad.unreached p || placesBad.env.defects.contains (2, p)
    bad (homePos 0) = true ∧ bad (homePos 1) = false ∧ bad (placesBad.rowSpare (homePos 0)) = false ∧
    bad (placesBad.rowSpare (homePos placesBad.env.dev.rowLen)) = true ∧ 1 < placesBad.env.dev.rows ∧ 1 < placesBad.env.dev.rowLen ∧
    (((List.range placesBad.env.dev.rowLen).map fun i => 0 * placesBad.env.dev.rowLen + i).find? fun n => bad (homePos n)) = some 0 ∧
    (((List.range placesBad.env.dev.rowLen).map fun i => 1 * placesBad.env.dev.rowLen + i).find? fun n => bad (homePos n)) = none := by decide +kernel
theorem witness_groom : on.work = [] ∧ on.up = true ∧ on.roleRuns 2 = true ∧ on.fsu.remounts = [] ∧ on.groomDue = false := by decide

/-! ## Firmware and the management interface -/

/-- Core 0 has crashed twice within 600 s, the first time at 1. -/
def crashed : State := { on with fwc := { on.fwc with crashes := [(0, 1), (0, 2)] } }
theorem witness_crash : on.fwAlive = true ∧ AL.get on.fwc.cores 0 = 1 ∧ on.fwc.sramOk = true ∧
    (((on.fwc.crashes.filter fun (p : Nat × Nat) => decide ((on.at 5).env.now < p.2 + 600000000000)) ++ [(0, (on.at 5).env.now)]).filter fun (p : Nat × Nat) => p.1 = 0).length < 3 ∧
    crashed.fwAlive = true ∧ AL.get crashed.fwc.cores 0 = 1 ∧
    3 ≤ (((crashed.fwc.crashes.filter fun (p : Nat × Nat) => decide ((crashed.at 600000000000).env.now < p.2 + 600000000000)) ++
      [(0, (crashed.at 600000000000).env.now)]).filter fun (p : Nat × Nat) => p.1 = 0).length := by decide +kernel
theorem witness_crash_other : AL.get on.fwc.petAt 0 + 50000000 ≤ (on.at 50000000).env.now ∧
    { on with fwc := { on.fwc with sramOk := false } }.fwc.sramOk = false ∧ { on with fwc := { on.fwc with sramOk := false } }.fwAlive = true := by decide
def restarting : State := { on with fwc := { on.fwc with cores := [(0, 2), (1, 1), (2, 1), (3, 1)], frozen := true } }
theorem witness_restart : restarting.fwAlive = true ∧ AL.get restarting.fwc.cores 0 = 2 ∧ restarting.fwc.upd = none ∧
    restarting.fwc.pendingRestart = false ∧ on.work = [] ∧ on.up = true ∧ on.fwc.upd = none ∧ on.fwc.sramOk = true := by decide

theorem witness_mailbox : on.work = [] ∧ on.unitsOn = true ∧ on.roleRuns 3 = true ∧ on.fwc.mboxBusy = false ∧ AL.get on.fwc.cores 3 = 1 ∧
    on.fwc.sramOk = true ∧ AL.get on.fwc.cores 5 ≠ 1 ∧ (479 : Nat) < 480 ∧ (15#64).toNat < 16 ∧ 16 ≤ (16#64).toNat := by decide
theorem witness_target : on.work = [] ∧ on.up = true ∧ on.roleRuns 3 = true ∧ on.gcs.herdValid = false ∧ 0x08 ≤ 0x47 ∧ on.gcs.state ≠ 0 ∧
    { on with gcs := { on.gcs with herdValid := true } }.gcs.herdValid = true ∧ (127 : Nat) < 128 ∧ 1 % 2 = 1 := by decide
theorem witness_endpoint : on.work = [] ∧ on.endpointUp = true ∧ (booting 4).endpointUp = true := by decide
/-- R310: group 15, address 0x47 give 15 × 64 + 0x3F = 1023, the highest herd address. -/
theorem test_entdaa : ∃ t, exec (.entdaa 0x47) { on with fwc := { on.fwc with group := 15 } } = .next t ∧
    t.gcs.herdAddr = 1023 ∧ t.gcs.herdValid = true := ⟨_, rfl, by decide, rfl⟩

/-! ## Commands -/

/-- A started command passes every check, as a Bool. -/
def startsB (s : State) (q code : Nat) (w : List Word) : Bool :=
  Op.code w = code && (s.waiting? q w).isNone && s.canStart q w && (s.outside? q w).isNone && (badWord? s.env.dev w).isNone &&
    (!opManaged code || q = 0) && decide (q ≠ 0)

theorem starts_of {s : State} {q code : Nat} {w : List Word} (h : startsB s q code w = true) : s.startsAs q code w := by
  simp only [startsB, Bool.and_eq_true, Bool.or_eq_true, decide_eq_true_eq, Bool.not_eq_true', Option.isNone_iff_eq_none] at h
  obtain ⟨⟨⟨⟨⟨⟨h1, h2⟩, h3⟩, h4⟩, h5⟩, h6⟩, h7⟩ := h
  exact ⟨⟨h1, h2, h3⟩, h4, h5, fun m => by simpa [m] using h6, fun z => absurd z h7⟩

/-- Queue 1 of context 1 with `w` at its head. -/
def at1 (s : State) (c : Ctx) (w : List Word) : State := put (s.setCtx 1 c) 1 w

def wNop := pk 0x00 0 1 []
theorem witness_head : packetsOf? (.nop 1 wNop) = some (0x00, 1, wNop) ∧ (at1 on c1 wNop).atHead 1 0x00 wNop ∧
    (at1 on c1 wNop).startsAs 1 0x00 wNop := ⟨rfl, ⟨by decide +kernel, by decide +kernel, by decide +kernel⟩, starts_of (by decide +kernel)⟩
/-- SIGNAL of counter 16, at the limit 16 (word 1). -/
def wOut := pk 0x03 0 1 [0x1000010#64]
theorem witness_guilty : (at1 on c1 wOut).atHead 1 0x03 wOut ∧ (at1 on c1 wOut).outside? 1 wOut = some 1 :=
  ⟨⟨by decide +kernel, by decide +kernel, by decide +kernel⟩, by decide +kernel⟩
/-- TILE_POOL of a size that is no multiple of 64 KiB: word 2. -/
def wBad := pk 0x0D 0 1 [1#64, 0x8000#64]
theorem witness_bad_word : (at1 on c1 wBad).atHead 1 0x0D wBad ∧ (at1 on c1 wBad).outside? 1 wBad = none ∧ (at1 on c1 wBad).firstBad? wBad = some 2 :=
  ⟨⟨by decide +kernel, by decide +kernel, by decide +kernel⟩, by decide +kernel, by decide +kernel⟩
def wAck := pk 0x1A 0 1 [0x1F0000#64]
theorem witness_managed : (at1 on c1 wAck).atHead 1 0x1A wAck ∧ (at1 on c1 wAck).outside? 1 wAck = none ∧
    (at1 on c1 wAck).firstBad? wAck = none ∧ opManaged 0x1A = true ∧ (1 : Nat) ≠ 0 :=
  ⟨⟨by decide +kernel, by decide +kernel, by decide +kernel⟩, by decide +kernel, by decide +kernel, rfl, by decide⟩
/-- TILE_POOL of queue 0 on a faulted context. -/
def wPool := pk 0x0D 0 1 [1#64, 0#64]
theorem witness_faulted : (put (on.setCtx 1 { c1 with st := .faulted }) 0 wPool).atHead 0 0x0D wPool ∧
    (put (on.setCtx 1 { c1 with st := .faulted }) 0 wPool).outside? 0 wPool = none ∧
    (put (on.setCtx 1 { c1 with st := .faulted }) 0 wPool).firstBad? wPool = none ∧ needsCtx wPool = true ∧
    (put (on.setCtx 1 { c1 with st := .destroying }) 0 wPool).atHead 0 0x0D wPool ∧
    (put (on.setCtx 1 { c1 with st := .destroying }) 0 wPool).outside? 0 wPool = none ∧
    (put (on.setCtx 1 { c1 with st := .destroying }) 0 wPool).firstBad? wPool = none :=
  ⟨⟨by decide +kernel, by decide +kernel, by decide +kernel⟩, by decide +kernel, by decide +kernel, by decide +kernel,
   ⟨by decide +kernel, by decide +kernel, by decide +kernel⟩, by decide +kernel, by decide +kernel⟩
theorem witness_fw_path : (at1 on c1 wPool).startsAs 1 0x0D wPool ∧ opFw 0x0D = true := ⟨starts_of (by decide +kernel), by decide⟩

def done1 : State := (at1 on c1 wNop).entered 1 wNop
/-- A SIGNAL with completion packets that signal counter 15, while the counter unit does not run; a record held for want of room. -/
def wExt : List Word := (pk 0x03 0x41 1 [0x100000F#64] ++ pk 0 0 0 [0x100000F#64]).set 8 1#64
def extS : State := ({ at1 on c1 [] with ctu := { on.ctu with run := false } }).updQueue 1 fun y =>
  { y with cmds := [(0, { words := wExt })], reserved := 1, heldRec := some [0, 0, 0, 0] }
theorem witness_complete : (∃ x, done1.cmd? 1 0 = some x ∧ done1.completionWaits 1 x = false ∧ (done1.queue 1).heldRec = none ∧
    (∀ p ∈ (done1.queue 1).cmds, 0 ∉ p.2.targets)) ∧
    (∃ x, extS.cmd? 1 0 = some x ∧ extS.completionWaits 1 x = true ∧ Op.local x.words = true) ∧
    (extS.queue 1).heldRec = some [0, 0, 0, 0] ∧ (extS.queue 1).cplRoom = true :=
  ⟨⟨_, rfl, by decide +kernel, by decide +kernel, by decide +kernel⟩, ⟨_, rfl, by decide +kernel, by decide +kernel⟩, by decide +kernel, by decide +kernel⟩

/-- PEER_WRITE of 4 bytes at 0x7000, in a window of 4 KiB there or in none. -/
def wPeer := pk 0x06 0 1 [0x7000#64, 5#64]
def cPeer : Ctx := { c1 with peerBase := 0x7000, peerSize := 4 }
theorem witness_peer : (at1 on cPeer wPeer).startsAs 1 0x06 wPeer ∧ ((at1 on cPeer wPeer).entered 1 wPeer).peerOk 1 1 0x7000 4 = true ∧
    (at1 on c1 wPeer).startsAs 1 0x06 wPeer ∧ ((at1 on c1 wPeer).entered 1 wPeer).peerOk 1 1 0x7000 4 = false :=
  ⟨starts_of (by decide +kernel), by decide +kernel, starts_of (by decide +kernel), by decide +kernel⟩
def wSig := pk 0x03 0 1 [0x100000F#64]
theorem witness_signal : (at1 on c1 wSig).startsAs 1 0x03 wSig := starts_of (by decide +kernel)
/-- WAIT on counter 15 for 5. -/
def wWait := pk 0x04 0 1 [15#64, 5#64]
def waitS (p : Phys) : State := at1 { on with ctu := { on.ctu with phys := [p] } } c1 wWait
theorem witness_wait (p : Phys) (h : p ∈ [({ ctx := 1, vid := 15, val := 5 } : Phys), { ctx := 1, vid := 15, val := 4 },
      { ctx := 1, vid := 15, val := 4, poison := true }]) : (waitS p).startsAs 1 0x04 wWait := by
  simp only [List.mem_cons, List.not_mem_nil, or_false] at h
  rcases h with rfl | rfl | rfl <;> exact starts_of (by decide +kernel)
def waitE (p : Phys) : State := (waitS p).entered 1 wWait
/-- The state in which counter `v` of context `c` is on chip and an operation on it takes place. -/
def onChip (s : State) (c v : Nat) : State := (((s.makeCtrResident c v).map fun r => r.touchCtr c v).getD s)
theorem counterAt_of {s : State} {c v : Nat} (h1 : (s.ctx c).st.inPlace = true) (h2 : (s.makeCtrResident c v).isSome = true) :
    s.counterAt c v (onChip s c v) := by
  obtain ⟨m, h⟩ := Option.isSome_iff_exists.mp h2
  unfold State.counterAt onChip; rw [if_pos h1, h]; rfl
theorem witness_wait_value :
    ((waitE { ctx := 1, vid := 15, val := 5 }).cmd? 1 0).map Cmd.words = some wWait ∧
    (waitE { ctx := 1, vid := 15, val := 5 }).counterAt 1 15 (onChip (waitE { ctx := 1, vid := 15, val := 5 }) 1 15) ∧
    ((onChip (waitE { ctx := 1, vid := 15, val := 5 }) 1 15).ctr 1 15).val = 5 ∧
    ((waitE { ctx := 1, vid := 15, val := 4 }).cmd? 1 0).map Cmd.words = some wWait ∧
    (waitE { ctx := 1, vid := 15, val := 4 }).counterAt 1 15 (onChip (waitE { ctx := 1, vid := 15, val := 4 }) 1 15) ∧
    ((onChip (waitE { ctx := 1, vid := 15, val := 4 }) 1 15).ctr 1 15).val = 4 ∧
    ((onChip (waitE { ctx := 1, vid := 15, val := 4 }) 1 15).ctr 1 15).poison = false ∧
    (waitE { ctx := 1, vid := 15, poison := true }).counterAt 1 15 (onChip (waitE { ctx := 1, vid := 15, poison := true }) 1 15) ∧
    ((onChip (waitE { ctx := 1, vid := 15, poison := true }) 1 15).ctr 1 15).poison = true :=
  ⟨by decide +kernel, counterAt_of (by decide +kernel) (by decide +kernel), by decide +kernel, by decide +kernel,
   counterAt_of (by decide +kernel) (by decide +kernel), by decide +kernel, by decide +kernel, counterAt_of (by decide +kernel) (by decide +kernel),
   by decide +kernel⟩
/-- SIGNAL_REMOTE of one target at 0x6000: increment 1 or 0, herd address 1023. -/
def wRem := pk 0x05 0 1 [0x6000#64, 1#64]
theorem witness_remote (inc : Nat) (h : inc < 2) : let s := at1 (on.wr64 0x6000 (BitVec.ofNat 64 (2 ^ 32 * inc + 1023))) c1 wRem
    s.startsAs 1 0x05 wRem ∧ (((s.entered 1 wRem).remoteTargets wRem).any fun p => bits p.1 63 32 = 0 || bits p.1 31 10 ≠ 0) = decide (inc = 0) := by
  have : inc = 0 ∨ inc = 1 := by omega
  rcases this with rfl | rfl <;> exact ⟨starts_of (by decide +kernel), by decide +kernel⟩
theorem witness_counter : (waitS { ctx := 1, vid := 15, val := 2 ^ 64 - 1 }).phys? 1 15 = some { ctx := 1, vid := 15, val := 2 ^ 64 - 1 } ∧
    (waitS { ctx := 1, vid := 15, poison := true }).phys? 1 15 = some { ctx := 1, vid := 15, poison := true } := ⟨by rfl, by rfl⟩

/-- GRAPH_LOAD of the descriptor at 0x9000 at position `first`, as graph `gid` (w3). -/
def wLoad (first : Nat) (w3 : Word) := pk 0x01 0 1 [0x9000#64, BitVec.ofNat 64 (2 ^ 32 + first), w3]
/-- Memory with a COMPUTE descriptor of position 7 at 0x9000. -/
def memD (s : State) : State := s.wr64 0x9000 (BitVec.ofNat 64 (7 * 2 ^ 32 + 1))
def loadS (c : Ctx) (first : Nat) (w3 : Word) : State := at1 (memD on) c (wLoad first w3)
theorem witness_load : (loadS c1 7 1#64).startsAs 1 0x01 (wLoad 7 1#64) ∧ bit (wordAt (wLoad 7 1#64) 3) 17 = false ∧
    (let e := (loadS c1 7 1#64).entered 1 (wLoad 7 1#64)
     let ds := [e.rdWords false 0x9000 16]
     (e.ctx 1).liveOf 1 = 0 ∧ loadBad? 7 0 ds = none ∧ loadBad? 6 0 ds ≠ none ∧ (e.ctx 1).descRoom 8 = true ∧ (e.ctx 1).framesUsed ≤ (e.ctx 1).frames) :=
  ⟨starts_of (by decide +kernel), by decide, by decide +kernel⟩
theorem witness_load_refused : (loadS c1g 7 1#64).startsAs 1 0x01 (wLoad 7 1#64) ∧ (loadS c1 6 1#64).startsAs 1 0x01 (wLoad 6 1#64) ∧
    ((loadS c1g 7 1#64).entered 1 (wLoad 7 1#64)).ctx 1 = c1g ∧ c1g.liveOf 1 ≠ 0 ∧ { c1 with gsSize := 4096 }.descRoom 8 = false ∧
    (loadS { c1 with gsSize := 4096 } 7 1#64).startsAs 1 0x01 (wLoad 7 1#64) :=
  ⟨starts_of (by decide +kernel), starts_of (by decide +kernel), rfl, by decide, by decide, starts_of (by decide +kernel)⟩
/-- Graph 2, one-shot, with a live instance. -/
def cOne : Ctx := { c1 with graphs := [(2, { descs := [(0, desc 1 0 0 0)] })], insts := [(1, { inst1 with gid := 2, span := 1 })] }
theorem witness_append : (loadS cOne 7 0x20002#64).startsAs 1 0x01 (wLoad 7 0x20002#64) ∧ bit (wordAt (wLoad 7 0x20002#64) 3) 17 = true ∧
    AL.get? 3 cOne.graphs = none ∧ AL.get? 2 cOne.graphs = some { descs := [(0, desc 1 0 0 0)] } ∧
    bit (wordAt (wLoad 7 0x30002#64) 3) 16 = true ∧ (loadS cOne 7 0x30002#64).startsAs 1 0x01 (wLoad 7 0x30002#64) ∧
    (loadS cOne 7 0x20003#64).startsAs 1 0x01 (wLoad 7 0x20003#64) ∧ (loadS cOne 0 0x20002#64).startsAs 1 0x01 (wLoad 0 0x20002#64) ∧
    (cOne.insts.find? fun p => p.2.gid = 2) = some (1, { inst1 with gid := 2, span := 1 }) ∧ cOne.descRoom 8 = true ∧
    cOne.framesUsed + (8 - 1) ≤ cOne.frames ∧ (loadS c1g 7 0x30001#64).startsAs 1 0x01 (wLoad 7 0x30001#64) ∧
    c1g.descRoom 8 = true ∧ c1g.framesUsed ≤ c1g.frames :=
  ⟨starts_of (by decide +kernel), by decide, by decide, by decide, by decide, starts_of (by decide +kernel), starts_of (by decide +kernel),
   starts_of (by decide +kernel), rfl, by decide, by decide, starts_of (by decide +kernel), by decide, by decide⟩
/-- An APPEND without a descriptor's place, without frames for the growth, and to a template without frames. -/
theorem witness_append_refused (c : Ctx) (h : c ∈ [{ cOne with gsSize := 4096 }, { cOne with frames := 1 }]) :
    (loadS c 7 0x20002#64).startsAs 1 0x01 (wLoad 7 0x20002#64) ∧ ({ cOne with gsSize := 4096 } : Ctx).descRoom 8 = false ∧
    ({ cOne with frames := 1 } : Ctx).descRoom 8 = true ∧ 1 < ({ cOne with frames := 1 } : Ctx).framesUsed + (8 - 1) ∧
    ({ c1g with frames := 1 } : Ctx).frames < ({ c1g with frames := 1 } : Ctx).framesUsed ∧ ({ c1g with frames := 1 } : Ctx).descRoom 8 = true ∧
    (loadS { c1g with frames := 1 } 7 0x30001#64).startsAs 1 0x01 (wLoad 7 0x30001#64) := by
  simp only [List.mem_cons, List.not_mem_nil, or_false] at h
  rcases h with rfl | rfl <;>
    exact ⟨starts_of (by decide +kernel), by decide, by decide, by decide, by decide, by decide, starts_of (by decide +kernel)⟩

/-- GRAPH_LAUNCH of graph 1 of TEMPLATE w1, base w2, count w3. -/
def wLaunch (w1 : Word) (base count : Nat) := pk 0x02 0 1 [w1, BitVec.ofNat 64 base, BitVec.ofNat 64 count]
def launchS (w : List Word) : State := at1 on c1g w
theorem witness_graph_launch (w : List Word) (h : w ∈ [wLaunch 0x10001#64 12 1, wLaunch 0x10005#64 12 1, wLaunch 0x10001#64 11 1,
      wLaunch 0x10001#64 12 61, wLaunch 0x30001#64 12 1]) : (launchS w).startsAs 1 0x02 w := by
  simp only [List.mem_cons, List.not_mem_nil, or_false] at h
  rcases h with rfl | rfl | rfl | rfl | rfl <;> exact starts_of (by decide +kernel)
theorem witness_launch_checks : (launchS (wLaunch 0x10001#64 12 1)).launchCheck 1 1 true 12 1 = 0 ∧
    (launchS (wLaunch 0x10001#64 12 1)).launchCheck 1 5 true 12 1 = 1 ∧ (launchS (wLaunch 0x10001#64 12 1)).launchCheck 1 1 true 11 1 = 2 ∧
    (launchS (wLaunch 0x10001#64 12 1)).launchCheck 1 1 true 12 61 = 3 ∧
    ((launchS (wLaunch 0x30001#64 12 1)).entered 1 (wLaunch 0x30001#64 12 1)).shape? 1 0 = none := by decide +kernel

/-- DELAY_POST at 5 of a signal, and of a launch. -/
def wPost := pk 0x13 0 1 [5#64, 0#64, 0x100000F#64]
def wPostL := pk 0x13 0 1 [5#64, 1#64, 0x1#64, 12#64, 1#64]
theorem witness_post : (at1 on c1g wPost).startsAs 1 0x13 wPost ∧ c1g.framesUsed + 1 ≤ c1g.frames ∧ (at1 on c1g wPostL).startsAs 1 0x13 wPostL ∧
    (at1 on { c1g with posted := 60 } wPost).startsAs 1 0x13 wPost ∧ 64 < { c1g with posted := 60 }.framesUsed + 1 :=
  ⟨starts_of (by decide +kernel), by decide, starts_of (by decide +kernel), starts_of (by decide +kernel), by decide⟩

/-- CANCEL by tag 7, by sequence 9, and by epoch 2. -/
def wCan (scope v : Nat) := pk 0x07 0 1 [BitVec.ofNat 64 scope, BitVec.ofNat 64 v]
def canS (w : List Word) (cmds : List (Nat × Cmd)) (slot : SeqSlot) (k : CarCtx) : State :=
  let s := at1 on c1 w
  let s := s.setQueue 1 { s.queue 1 with cmds := cmds, reserved := cmds.length }
  { s with car := { s.car with slots := [(3, slot)], ctxs := [(1, k)] }, cfe := { s.cfe with nextSeq := 1 } }
/-- A started GRAPH_LAUNCH of tag 7. -/
def tagged : Cmd := { words := pk 0x02 0 1 [0x10001#64, 0#64, 1#64] |>.set 0 (BitVec.ofNat 64 (0x02 + 2 ^ 32 + 7 * 2 ^ 16)), watched := true, insts := 1 }
def seq9 : SeqSlot := { st := .active, ctx := 1, id := 9#64 }
def live1 : LiveStep := { q := 1, seq := 0, list := 0x6000, inst := some 1, members := [3] }
theorem witness_cancel : (canS (wCan 0 7) [(0, tagged)] seq9 {}).startsAs 1 0x07 (wCan 0 7) ∧
    ((canS (wCan 0 7) [(0, tagged)] seq9 {}).entered 1 (wCan 0 7)).cancelTargets 1 1 0 7 = [0] ∧
    (canS (wCan 0 8) [(0, tagged)] seq9 {}).startsAs 1 0x07 (wCan 0 8) ∧
    ((canS (wCan 0 8) [(0, tagged)] seq9 {}).entered 1 (wCan 0 8)).cancelTargets 1 1 0 8 = [] ∧
    ((canS (wCan 1 1) [(0, tagged)] seq9 {}).entered 1 (wCan 1 1)).cancelTargets 1 1 1 1 = [0] :=
  ⟨starts_of (by decide +kernel), by decide +kernel, starts_of (by decide +kernel), by decide +kernel, by decide +kernel⟩
theorem witness_cancel_seq : (canS (wCan 2 9) [] seq9 {}).startsAs 1 0x07 (wCan 2 9) ∧
    ((canS (wCan 2 9) [] seq9 {}).entered 1 (wCan 2 9)).carFind 1 9#64 = some 3 ∧
    ((canS (wCan 2 9) [] seq9 {}).entered 1 (wCan 2 9)).inStep 3 = false ∧
    ((canS (wCan 2 8) [] seq9 {}).entered 1 (wCan 2 8)).carFind 1 8#64 = none ∧
    (canS (wCan 2 9) [] seq9 { live := some live1 }).startsAs 1 0x07 (wCan 2 9) ∧
    ((canS (wCan 2 9) [] seq9 { live := some live1 }).entered 1 (wCan 2 9)).inStep 3 = true :=
  ⟨starts_of (by decide +kernel), by decide +kernel, by decide +kernel, by decide +kernel, starts_of (by decide +kernel), by decide +kernel⟩
theorem witness_cancel_epoch : (canS (wCan 3 2) [] seq9 { epoch := 2, live := some live1 }).startsAs 1 0x07 (wCan 3 2) ∧
    (((canS (wCan 3 2) [] seq9 { epoch := 2, live := some live1 }).entered 1 (wCan 3 2)).carCtx 1).live = some live1 ∧
    (((canS (wCan 3 2) [] seq9 { epoch := 2, live := some live1 }).entered 1 (wCan 3 2)).carCtx 1).epoch = bits (wordAt (wCan 3 2) 2) 15 0 ∧
    (((canS (wCan 3 3) [] seq9 { epoch := 2, live := some live1 }).entered 1 (wCan 3 3)).carCtx 1).epoch ≠ bits (wordAt (wCan 3 3) 2) 15 0 ∧
    (((canS (wCan 3 2) [] seq9 {}).entered 1 (wCan 3 2)).carCtx 1).live = none :=
  ⟨starts_of (by decide +kernel), by decide +kernel, by decide +kernel, by decide +kernel, by decide +kernel⟩
/-- A step whose instance has retired is live, but no target; CANCELs of command 0 wait for it. -/
def over1 : LiveStep := { live1 with ended := true, cancels := [(1, 5)] }
theorem witness_cancel_over : (canS (wCan 3 2) [] seq9 { epoch := 2, live := some over1 }).startsAs 1 0x07 (wCan 3 2) ∧
    (((canS (wCan 3 2) [] seq9 { epoch := 2, live := some over1 }).entered 1 (wCan 3 2)).carCtx 1).live = some over1 ∧ over1.ended = true ∧
    Op.code (pk 0x12 0 1 []) = 0x12 ∧ over1.q = 1 ∧ over1.seq = 0 ∧
    (let s := canS (wCan 0 7) [(0, tagged), (3, { words := wCan 0 7, targets := [0] })] seq9 {}
     ((s.queue 1).cmds.map Prod.fst).Nodup ∧ (∃ x, s.cmd? 1 3 = some x ∧ x.targets = [0]) ∧
       ∀ p ∈ (s.queue 1).cmds, p.1 ≠ 3 → 0 ∉ p.2.targets) :=
  ⟨starts_of (by decide +kernel), by decide +kernel, rfl, by decide, rfl, rfl, by decide +kernel, ⟨_, rfl, rfl⟩, by decide +kernel⟩

/-- A Carousel command that starts while the Carousel is enabled. -/
theorem carTakes_of {s : State} {code q : Nat} {w : List Word} (h : startsB s q code w = true) (e : s.car.en = true) (g : s.gcs.changing = false) :
    s.carTakes q code s.cfe.nextSeq w (s.entered q w) :=
  ⟨e, (starts_of h).1.1, .inl ⟨starts_of h, rfl, rfl, fun _ => g⟩⟩

def wJoin (id : Nat) := pk 0x10 0 1 [BitVec.ofNat 64 id, 100#64, 0#64]
def wLeave (id : Nat) := pk 0x11 0 1 [BitVec.ofNat 64 id]
theorem witness_join : (canS (wJoin 8) [] seq9 {}).carTakes 1 0x10 1 (wJoin 8) ((canS (wJoin 8) [] seq9 {}).entered 1 (wJoin 8)) ∧
    ((canS (wJoin 8) [] seq9 {}).entered 1 (wJoin 8)).carFind 1 8#64 = none ∧
    ((canS (wJoin 9) [] seq9 {}).entered 1 (wJoin 9)).carFind 1 9#64 = some 3 ∧
    lowestFree 4096 ((canS (wJoin 8) [] seq9 {}).car.slots.map Prod.fst) = some 0 :=
  ⟨carTakes_of (by decide +kernel) rfl rfl, by decide +kernel, by decide +kernel, by decide +kernel⟩
/-- Every slot of the Carousel is taken, by sequence 9. -/
def full : State := at1 { on with car := { on.car with slots := (List.range 4096).map fun i => (i, seq9) } } c1 (wJoin 8)
theorem witness_join_full : full.carTakes 1 0x10 0 (wJoin 8) (full.entered 1 (wJoin 8)) ∧ (full.entered 1 (wJoin 8)).car = full.car ∧
    full.carFind 1 8#64 = none ∧ lowestFree 4096 (full.car.slots.map Prod.fst) = none := by
  refine ⟨carTakes_of (by decide +kernel) rfl rfl, rfl, ?_, ?_⟩
  · simp [State.carFind, full, at1, put, State.setQueue, State.setSlot, State.setCtx, seq9]
  · simp [lowestFree, full, at1, put, State.setQueue, State.setSlot, State.setCtx]
theorem witness_leave : (canS (wLeave 9) [] seq9 {}).carTakes 1 0x11 1 (wLeave 9) ((canS (wLeave 9) [] seq9 {}).entered 1 (wLeave 9)) ∧
    ((canS (wLeave 9) [] seq9 { live := some live1 }).entered 1 (wLeave 9)).inStep 3 = true ∧
    ((canS (wLeave 9) [] seq9 {}).entered 1 (wLeave 9)).inStep 3 = false ∧
    ((canS (wLeave 8) [] seq9 {}).entered 1 (wLeave 8)).carFind 1 8#64 = none :=
  ⟨carTakes_of (by decide +kernel) rfl rfl, by decide +kernel, by decide +kernel, by decide +kernel⟩
/-- CAR_STEP of graph `gid` with the list at 0x6000: capacity `cap`, a base step number `base`, no shape slot. -/
def wStep (gid : Nat) := pk 0x12 0 1 [BitVec.ofNat 64 gid, 0x6000#64]
def stepS (gid cap : Nat) (slot : SeqSlot) : State :=
  let s := (on.wr64 0x6000 (BitVec.ofNat 64 cap)).wr64 0x6008 0x14FFFFFFFF#64
  let s := at1 s c1g (wStep gid)
  { s with car := { s.car with slots := [(3, slot)] } }
theorem witness_step : (stepS 1 1 seq9).carTakes 1 0x12 0 (wStep 1) ((stepS 1 1 seq9).entered 1 (wStep 1)) ∧
    (let e := (stepS 1 1 seq9).entered 1 (wStep 1)
     let h := e.rdWords false 0x6000 8
     e.batchOk 1 h = true ∧ e.launchCheck 1 1 true (20 + 1) 1 = 0 ∧ bits (wordAt h 0) 31 0 = 1 ∧ bits (wordAt h 1) 31 0 = 0xFFFFFFFF ∧
       e.carOf 1 .joining ++ e.carOf 1 .active = [3]) :=
  ⟨carTakes_of (by decide +kernel) rfl rfl, by decide +kernel⟩
theorem witness_step_refused :
    (let e := (stepS 1 0 seq9).entered 1 (wStep 1); e.batchOk 1 (e.rdWords false 0x6000 8) = false) ∧
    (let e := (stepS 5 1 seq9).entered 1 (wStep 5); e.batchOk 1 (e.rdWords false 0x6000 8) = true ∧ e.launchCheck 1 5 true 21 1 ≠ 0) ∧
    (let e := (stepS 1 1 {}).entered 1 (wStep 1); e.carOf 1 .joining ++ e.carOf 1 .active = []) ∧
    startsB (stepS 1 0 seq9) 1 0x12 (wStep 1) = true ∧ startsB (stepS 5 1 seq9) 1 0x12 (wStep 5) = true ∧
    startsB (stepS 1 1 {}) 1 0x12 (wStep 1) = true := by decide +kernel

/-- A firmware-path command taken up, as a Bool. -/
def takenB (s : State) (q code n : Nat) (w : List Word) : Bool :=
  Op.code w = code && s.waiting? q w = some n && s.up && s.roleRuns (opRole code) && (!opResidence code || s.fwActs)
theorem taken_of {s : State} {q code n : Nat} {w : List Word} (h : takenB s q code n w = true) : s.takenAs q code n w := by
  simp only [takenB, Bool.and_eq_true, Bool.or_eq_true, Bool.not_eq_true', decide_eq_true_eq] at h
  obtain ⟨⟨⟨⟨h1, h2⟩, h3⟩, h4⟩, h5⟩ := h
  exact ⟨h1, h2, h3, h4, fun k => h5.resolve_left (by simp [k])⟩
/-- Queue `q` with the command `w` taken up as number 0. -/
def take (s : State) (q : Nat) (w : List Word) : State :=
  let s := put s q []
  s.setQueue q { s.queue q with cmds := [(0, { words := w, phase := .takenUp })], reserved := 1 }

/-- CTX_CREATE of context 2 with `frames` instance-frame entries. -/
def wCreate (frames : Nat) : List Word :=
  pk 0x08 1 1 [0x0C0A0002#64, 0x100000#64, 0x100000#64, BitVec.ofNat 64 (2 ^ 48 * 16 + 2 ^ 32 + frames), 0x200000#64, 0x300000#64, 0x400000#64] ++
    List.replicate 8 0
/-- A paddock of 16 MiB. -/
def padd (s : State) : State := { s with gd := { s.gd with spillLog := 24 } }
theorem witness_create : (take (padd on) 0 (wCreate 349525)).takenAs 0 0x08 0 (wCreate 349525) ∧
    ((take (padd on) 0 (wCreate 349525)).setPhase 0 0 .running).paddockRoom = some 16777216 ∧
    48 * bits (wordAt (wCreate 349525) 4) 31 0 ≤ 16777216 ∧ 16777216 < 48 * bits (wordAt (wCreate 349526) 4) 31 0 ∧
    ((take (padd on) 0 (wCreate 349525)).ctx 2).st = .free ∧ (take on 0 (wCreate 64)).takenAs 0 0x08 0 (wCreate 64) ∧
    ((take on 0 (wCreate 64)).setPhase 0 0 .running).paddockRoom = none ∧
    (take (padd on) 0 (wCreate 349526)).takenAs 0 0x08 0 (wCreate 349526) ∧
    (take (on.setCtx 2 c1) 0 (wCreate 64)).takenAs 0 0x08 0 (wCreate 64) :=
  ⟨taken_of (by decide +kernel), by decide +kernel, by decide +kernel, by decide +kernel, by decide +kernel, taken_of (by decide +kernel),
   by decide +kernel, taken_of (by decide +kernel), taken_of (by decide +kernel)⟩
/-- CTX_DESTROY, CTX_SUSPEND and CTX_RESUME of context 1 in each state. -/
def wOn1 (code : Nat) := pk code 0 1 [1#64]
def inSt (x : CtxState) (code : Nat) : State := take (on.setCtx 1 { c1 with st := x }) 0 (wOn1 code)
theorem witness_ctx_state (x : CtxState) (code : Nat) (h : code = 0x09 ∨ code = 0x0A ∨ code = 0x0B) :
    (inSt x code).takenAs 0 code 0 (wOn1 code) ∧ (((inSt x code).setPhase 0 0 .running).ctx 1).st = x := by
  rcases h with rfl | rfl | rfl <;> cases x <;> exact ⟨taken_of (by decide +kernel), by decide +kernel⟩

/-- COUNTER_MAP of counter 15 to 15, with UNMAP in w1 bit 25. -/
def wMap (w1 : Word) := pk 0x0C 0 1 [w1, 1#64]
/-- All MAPPED counters that the device allows are resident. -/
theorem witness_map : (take ctx1 1 (wMap 15#64)).takenAs 1 0x0C 0 (wMap 15#64) ∧ bit (wordAt (wMap 15#64) 1) 25 = false ∧
    (let r := (take ctx1 1 (wMap 15#64)).setPhase 1 0 .running
     ¬ ((r.ctx 1).st.inPlace = true ∧ r.mapLimit < r.mappedResident + 1)) ∧
    (take ctx1 1 (wMap 0x200000F#64)).takenAs 1 0x0C 0 (wMap 0x200000F#64) ∧ bit (wordAt (wMap 0x200000F#64) 1) 25 = true :=
  ⟨taken_of (by decide +kernel), by decide, by decide +kernel, taken_of (by decide +kernel), by decide⟩
/-- Every bank of counters is lost, so that no counter may be mapped. -/
def noBanks (s : State) : State := { s with fsu := { s.fsu with lostUnits := (List.range 256).map fun n => (4, n) } }
theorem witness_map_full : (take (noBanks ctx1) 1 (wMap 15#64)).takenAs 1 0x0C 0 (wMap 15#64) ∧
    (let r := (take (noBanks ctx1) 1 (wMap 15#64)).setPhase 1 0 .running
     (r.ctx 1).st.inPlace = true ∧ r.mapLimit < r.mappedResident + 1) := ⟨taken_of (by decide +kernel), by decide +kernel⟩

/-- Counter 15 becomes resident; or it is MAPPED already and no bank is left; or the context is not at a place. -/
def marked (s : State) : State := ((take s 1 (wMap 15#64)).setPhase 1 0 .running).setMapped 1 15 true false
def mapped15 : State := noBanks (ctx1.setMapped 1 15 true false)
theorem witness_map_resident : ((marked ctx1).residentAll 1 [15]).isLeft = true ∧ (take mapped15 1 (wMap 15#64)).takenAs 1 0x0C 0 (wMap 15#64) ∧
    (let r := (take mapped15 1 (wMap 15#64)).setPhase 1 0 .running
     (r.ctr 1 15).mapped = true ∧ ¬ (r.mapLimit < r.mappedResident + 0) ∧ ((marked mapped15).residentAll 1 [15]).isRight = true) ∧
    (take (on.setCtx 1 { c1 with st := .waiting, place := none }) 1 (wMap 15#64)).takenAs 1 0x0C 0 (wMap 15#64) ∧
    CtxState.waiting.inPlace = false :=
  ⟨by decide +kernel, taken_of (by decide +kernel), by decide +kernel, taken_of (by decide +kernel), rfl⟩

/-- TILE_POOL of w2 bytes on slices 0 and 1. -/
def wTile (bytes : Nat) := pk 0x0D 0 1 [3#64, BitVec.ofNat 64 bytes]
/-- The slices whose reservation fails. -/
def failsTile (s : State) (bytes : Nat) : List Nat :=
  (([0, 1] : List Nat).foldl (fun (p : State × List Nat) sl =>
    let k := p.1.reserve 1 sl (bytes / 32768)
    (k.2, if k.1 then p.2 else p.2 ++ [sl])) ((take s 1 (wTile bytes)).setPhase 1 0 .running, [])).2
/-- Context 2 holds all of slice 0. -/
def slice0 : State := { ctx1 with plu := { on.plu with pools := [((2, 0), { target := 1, used := [0, 1, 2, 3] })] }, env := { on.env with sliceSize := 131072 } }
theorem witness_tile : (take ctx1 1 (wTile 65536)).takenAs 1 0x0D 0 (wTile 65536) ∧ failsTile ctx1 65536 = [] ∧
    (take ctx1 1 (wTile (2 ^ 63))).takenAs 1 0x0D 0 (wTile (2 ^ 63)) ∧ failsTile ctx1 (2 ^ 63) = [0, 1] ∧
    (take slice0 1 (wTile 65536)).takenAs 1 0x0D 0 (wTile 65536) ∧ failsTile slice0 65536 = [0] ∧
    ((List.range on.env.dev.slices).filter fun i => bit 3#64 i) = [0, 1] :=
  ⟨taken_of (by decide +kernel), by decide +kernel, taken_of (by decide +kernel), by decide +kernel, taken_of (by decide +kernel),
   by decide +kernel, by decide +kernel⟩

/-- GE_PROGRAM_LOAD of program 3, two instructions at 0x8000. -/
def wProg := pk 0x0E 0 1 [0x8000#64, 0x30002#64]
def badProg (s : State) : State := s.wr64 0x8008 0xFF00000000000000#64
theorem witness_program : (take ctx1 1 wProg).takenAs 1 0x0E 0 wProg ∧
    (((take ctx1 1 wProg).setPhase 1 0 .running).rdWords false 0x8000 2).zipIdx.all (fun p => geInsnOk 2 p.2 p.1) = true ∧
    (take (badProg ctx1) 1 wProg).takenAs 1 0x0E 0 wProg ∧
    (((take (badProg ctx1) 1 wProg).setPhase 1 0 .running).rdWords false 0x8000 2).zipIdx.all (fun p => geInsnOk 2 p.2 p.1) = false ∧
    (∀ p ∈ (take ctx1 1 wProg).ges, p.2.run = none) ∧
    (take (geG { y0 with pid := 3 }) 1 wProg).takenAs 1 0x0E 0 wProg ∧
    (∃ p ∈ (take (geG { y0 with pid := 3 }) 1 wProg).ges, p.2.run = some { y0 with pid := 3 }) :=
  ⟨taken_of (by decide +kernel), by decide +kernel, taken_of (by decide +kernel), by decide +kernel, by decide, taken_of (by decide +kernel),
   ⟨_, List.mem_singleton.mpr rfl, rfl⟩⟩

/-- FLOW_CONFIG of flow 5: pin, and unpin. -/
def wFlow (w1 : Word) := pk 0x0F 0 1 [w1]
/-- The flows of context 2 that `l` lists are pinned. -/
def pinned (l : List Nat) : State :=
  take { ctx1 with gd := { on.gd with flows := l.map fun i => ((2, i), { pinned := true }) } } 1 (wFlow 5#64)
theorem witness_flow : (take ctx1 1 (wFlow 5#64)).takenAs 1 0x0F 0 (wFlow 5#64) ∧ bit (wordAt (wFlow 5#64) 1) 24 = false ∧
    (take ctx1 1 (wFlow 0x1000005#64)).takenAs 1 0x0F 0 (wFlow 0x1000005#64) ∧ bit (wordAt (wFlow 0x1000005#64) 1) 24 = true ∧
    ((take ctx1 1 (wFlow 5#64)).gd.flows.filter fun p => p.2.pinned).length = 0 :=
  ⟨taken_of (by decide +kernel), by decide, taken_of (by decide +kernel), by decide, by decide⟩
theorem flow_absent (l : List Nat) : AL.get? (1, 5) (l.map fun i => ((2, i), ({ pinned := true } : Flow))) = none := by
  induction l with
  | nil => rfl
  | cons a l ih => simpa [AL.get?] using ih
theorem witness_flow_full (l : List Nat) : (pinned l).takenAs 1 0x0F 0 (wFlow 5#64) ∧ ((pinned l).flow (1, 5)).pinned = false ∧
    ((pinned l).gd.flows.filter fun p => p.2.pinned).length = l.length := by
  have h : takenB (pinned []) 1 0x0F 0 (wFlow 5#64) = true := by decide +kernel
  refine ⟨taken_of h, ?_, ?_⟩
  · show (AL.get (l.map fun i => ((2, i), ({ pinned := true } : Flow))) (1, 5)).pinned = false
    unfold AL.get; rw [flow_absent]; rfl
  · show ((l.map fun i => ((2, i), ({ pinned := true } : Flow))).filter fun p => p.2.pinned).length = l.length
    rw [List.filter_eq_self.mpr (by simp)]; simp
theorem witness_flow_count : 32768 ≤ (List.range 32768).length := Nat.le_of_eq List.length_range.symm

/-- QUERY of item w1 with w3 bytes of room. -/
def wQry (item room : Nat) := pk 0x14 0 1 [BitVec.ofNat 64 item, 0x6000#64, BitVec.ofNat 64 room]
def qry (q item room : Nat) : State := take ctx1 q (wQry item room)
theorem witness_query : (qry 1 0x10001 16).takenAs 1 0x14 0 (wQry 0x10001 16) ∧
    (∃ ws, ((qry 1 0x10001 16).setPhase 1 0 .running).queryItem 1 0x10001#64 = .inr ws ∧ (16#64).toNat < 16 + 8 * ws.length ∧
      16 + 8 * ws.length ≤ (4096#64).toNat) ∧
    (qry 1 0x10001 4096).takenAs 1 0x14 0 (wQry 0x10001 4096) ∧
    (qry 0 0x20002 4096).takenAs 0 0x14 0 (wQry 0x20002 4096) ∧
    ((qry 0 0x20002 4096).setPhase 0 0 .running).queryItem 0 0x20002#64 = .inl 0 ∧
    (qry 1 3 4096).takenAs 1 0x14 0 (wQry 3 4096) ∧ ((qry 1 3 4096).setPhase 1 0 .running).queryItem 1 3#64 = .inl 1 := by
  refine ⟨taken_of (by decide +kernel), ⟨_, rfl, ?_, ?_⟩, taken_of (by decide +kernel), taken_of (by decide +kernel), by decide +kernel,
    taken_of (by decide +kernel), by decide +kernel⟩ <;> decide +kernel
/-- QUERY of counter 15 of context 1, with a place for it or none. -/
def qryC : Nat := 15 * 2 ^ 28 + 65536 + 5
theorem witness_query_counter : (qry 1 qryC 4096).takenAs 1 0x14 0 (wQry qryC 4096) ∧
    bits (wordAt (wQry qryC 4096) 1) 7 0 = 5 ∧ bits (wordAt (wQry qryC 4096) 1) 27 16 = 1 ∧ bits (wordAt (wQry qryC 4096) 1) 51 28 = 15 ∧
    (let r := (qry 1 qryC 4096).setPhase 1 0 .running
     r.counterAt 1 15 (onChip r 1 15) ∧ ((onChip r 1 15).queryItem 1 (BitVec.ofNat 64 qryC)).isRight = true) ∧
    (take (noBanks ctx1) 1 (wQry qryC 4096)).takenAs 1 0x14 0 (wQry qryC 4096) ∧
    (let r := (take (noBanks ctx1) 1 (wQry qryC 4096)).setPhase 1 0 .running
     (r.ctx 1).st.inPlace = true ∧ r.makeCtrResident 1 15 = none ∧ (r.queryItem 1 (BitVec.ofNat 64 qryC)).isRight = true) :=
  ⟨taken_of (by decide +kernel), by decide, by decide, by decide,
   ⟨counterAt_of (by decide +kernel) (by decide +kernel), by decide +kernel⟩, taken_of (by decide +kernel), by decide +kernel⟩
/-- STAT_SNAPSHOT of sections w2. -/
def wSnap (m : Nat) := pk 0x15 0 1 [0x6000#64, BitVec.ofNat 64 m]
theorem witness_snapshot : (take ctx1 1 (wSnap 128)).takenAs 1 0x15 0 (wSnap 128) ∧ (take ctx1 1 (wSnap 1)).takenAs 1 0x15 0 (wSnap 1) ∧
    bits 1#64 5 0 ≠ 0 ∧ (take ctx1 1 (wSnap 64)).takenAs 1 0x15 0 (wSnap 64) ∧ bits 64#64 5 0 = 0 ∧
    (take ctx1 0 (wSnap 127)).takenAs 0 0x15 0 (wSnap 127) :=
  ⟨taken_of (by decide +kernel), taken_of (by decide +kernel), by decide, taken_of (by decide +kernel), by decide, taken_of (by decide +kernel)⟩
def wBook := pk 0x19 0 1 [0#64, 65536#64, 0x6000#64]
theorem witness_book : (take ctx1 0 wBook).takenAs 0 0x19 0 wBook ∧ (take ctx1 0 wAck).takenAs 0 0x1A 0 wAck ∧
    (take ctx1 0 (pk 0x1B 0 0 [])).takenAs 0 0x1B 0 (pk 0x1B 0 0 []) := ⟨taken_of (by decide +kernel), taken_of (by decide +kernel), taken_of (by decide +kernel)⟩
theorem test_health_ack : ∃ t, exec (.healthAck 0 (pk 0x1A 0 1 [0x110000#64])) (take { ctx1 with fsu := { on.fsu with newBits := 0x1F } } 0
    (pk 0x1A 0 1 [0x110000#64])) = .next t ∧ t.fsu.newBits = 0x0E ∧ (t.queue 0).cmds = [] := ⟨_, rfl, by decide +kernel, by decide +kernel⟩

/-- QUEUE_RESET of queue 5, which is GUILTY at head 2, tail 4, to HEAD `h`. -/
def wReset (h : Nat) := pk 0x16 0 0 [0x10005#64, BitVec.ofNat 64 h]
def guilty5 (h : Nat) : State := take (ctx1.setQueue 5 { ring := 0xC#64, cpl := 0xC#64, st := .guilty, head := 2, tail := 4 }) 0 (wReset h)
theorem witness_queue_reset (h : Nat) (hh : h = 2 ∨ h = 4 ∨ h = 5 ∨ h = 1) : (guilty5 h).takenAs 0 0x16 0 (wReset h) ∧
    (let y := ((guilty5 h).setPhase 0 0 .running).queue 5
     y.st = .guilty ∧ y.ctxStopped = false ∧ (decide ((y.tail - y.head).toNat < (BitVec.ofNat 32 h - y.head).toNat) = decide (h = 5 ∨ h = 1))) := by
  rcases hh with rfl | rfl | rfl | rfl <;> exact ⟨taken_of (by decide +kernel), by decide +kernel⟩
/-- DEBUG_SET_COUNTER of counter `v` of context `c` to 5. -/
def wSet (c v : Nat) := pk 0x17 0 0 [BitVec.ofNat 64 c, BitVec.ofNat 64 v, 5#64]
def setS (halted : Bool) (val : Nat) (c v : Nat) : State :=
  take { on.setCtx 1 { c1 with halted := halted } with ctu := { on.ctu with phys := [{ ctx := 1, vid := 15, val := val }] } } 0 (wSet c v)
theorem witness_set : (setS true 5 1 15).takenAs 0 0x17 0 (wSet 1 15) ∧
    (let r := (setS true 5 1 15).setPhase 0 0 .running
     (r.cmd? 0 0).map Cmd.words = some (wSet 1 15) ∧
     r.defined 1 = true ∧ r.defined 2 = false ∧ r.idLimit 1 = 16 ∧ (r.ctx 1).halted = true ∧ (r.ctr 1 15).val = 5) ∧
    (setS true 6 1 15).takenAs 0 0x17 0 (wSet 1 15) ∧ (((setS true 6 1 15).setPhase 0 0 .running).ctr 1 15).val = 6 ∧
    (setS false 6 1 15).takenAs 0 0x17 0 (wSet 1 15) ∧ (setS true 5 1 16).takenAs 0 0x17 0 (wSet 1 16) ∧ (setS true 5 2 0).takenAs 0 0x17 0 (wSet 2 0) :=
  ⟨taken_of (by decide +kernel), by decide +kernel, taken_of (by decide +kernel), by decide +kernel, taken_of (by decide +kernel),
   taken_of (by decide +kernel), taken_of (by decide +kernel)⟩
/-- FW_UPDATE to slot B, and to the running slot A. -/
def wUpd (w3 : Word) := pk 0x18 0 0 [0x700000#64, 0x400#64, w3]
theorem witness_update : (take ctx1 0 (wUpd 1#64)).takenAs 0 0x18 0 (wUpd 1#64) ∧ ctx1.fwc.upd = none ∧ ctx1.gcs.image = false ∧
    ctx1.env.flashOk = true ∧ (take ctx1 0 (wUpd 0#64)).takenAs 0 0x18 0 (wUpd 0#64) ∧
    ((take ctx1 0 (wUpd 1#64)).setPhase 0 0 .running).imageFail? (((take ctx1 0 (wUpd 1#64)).setPhase 0 0 .running).readImage 0x700000) = some 1 ∧
    (take { ctx1 with fwc := { on.fwc with upd := some {} } } 0 (wUpd 1#64)).takenAs 0 0x18 0 (wUpd 1#64) :=
  ⟨taken_of (by decide +kernel), rfl, rfl, rfl, taken_of (by decide +kernel), by decide +kernel, taken_of (by decide +kernel)⟩

/-- FW_UPDATE goes on with its own programming, checked or erased, or finds another command's. -/
def updating (seq phase : Nat) (ok : Bool) : State :=
  take { ctx1 with fwc := { on.fwc with prog := some { q := 0, seq := seq, base := 0x700000, target := true }, updPhase := phase }
                   env := { on.env with flashOk := ok } } 0 (wUpd 1#64)
theorem witness_update_goes_on (seq phase : Nat) (ok : Bool) (h : seq = 0 ∨ seq = 5) (h' : phase = 1 ∨ phase = 2) :
    (updating seq phase ok).takenAs 0 0x18 0 (wUpd 1#64) ∧ (updating seq phase ok).fwc.upd = none ∧
    (updating seq phase ok).fwc.prog = some { q := 0, seq := seq, base := 0x700000, target := true } ∧
    (updating seq phase ok).fwc.updPhase = phase ∧ (updating seq phase ok).env.flashOk = ok := by
  rcases h with rfl | rfl <;> rcases h' with rfl | rfl <;> cases ok <;> exact ⟨taken_of (by decide +kernel), rfl, rfl, rfl, rfl⟩

/-! ## Packets, queues and slots -/

/-- CRC-16/CCITT-FALSE of the bytes "123456789" is 0x29B1, its published check value. -/
theorem test_crc16 : crc16 [0x31, 0x32, 0x33, 0x34, 0x35, 0x36, 0x37, 0x38, 0x39] = 0x29B1 := by decide +kernel

/-- Packet 0 with the CRC `x`, worked out outside the model. -/
def crcd (x : Nat) (p : List Word) : List Word := p.set 0 (wordAt p 0 ||| BitVec.ofNat 64 (2 ^ 48 * x))
/-- Queue 1, bound to context 1, with the packets `p` in its ring at 0x20000 and `got` fetched. -/
def ringS (p got : List Word) : State :=
  let s := (put (on.setCtx 1 c1) 1 got).wrWords false (0x20000 + 8 * got.length) p
  s.setQueue 1 { s.queue 1 with ring := 0x2000C#64, tail := BitVec.ofNat 32 ((got.length + p.length) / 8) }
/-- The premises of CFE_PACKET_CHECK, and what they say of the next packet. -/
def packetView (p got : List Word) : Bool × List Word × Bool × Option Nat :=
  let u := (ringS p got).at 5
  let x := u.queue 1
  let i := x.fetched.length / 8
  (x.st = .slotted && decide (i < x.have) && u.up, fetchTail x.fetched (x.fetched.length + 1), packetCrcOk (fetchTail x.fetched (x.fetched.length + 1) = []) (u.packetAt 1 i),
   u.laterCrcBad 1 i (u.packetAt 1 i))
theorem witness_packet : packetView (crcd 0x6D95 wNop) [] = (true, [], true, none) ∧ packetView (crcd 0x6D94 wNop) [] = (true, [], false, none) := by
  decide +kernel
theorem witness_packet_causes : packetView (crcd 0x8265 (pk 0x1C 0 1 [])) [] = (true, [], true, none) ∧ opcodes = 0x1C ∧
    packetView (crcd 0x7E69 (pk 0 1 1 [])) [] = (true, [], true, none) ∧ cmdPackets (pk 0 1 1 []) = 1 := by decide +kernel
theorem witness_packet_context : packetView (crcd 0xB065 (pk 0 0 2 [])) [] = (true, [], true, none) ∧
    (((ringS (crcd 0x6D95 wNop) []).at 5).queue 1).ctxId = 1 ∧ ((ringS (crcd 0x6D95 wNop) []).at 5).defined 1 = true := by decide +kernel
/-- The second packet of a CTX_CREATE, whose CRC stands in its word 7. -/
theorem witness_packet_second : packetView (List.replicate 7 0 ++ [0xD6DA000000000000#64]) (pk 0x08 1 1 []) = (true, pk 0x08 1 1 [], true, none) ∧
    Op.local (pk 0x08 1 1 [] ++ List.replicate 7 0 ++ [0xD6DA000000000000#64]) = false ∧
    packetView (List.replicate 8 0) (pk 0x08 1 1 []) = (true, pk 0x08 1 1 [], false, none) := by decide +kernel
/-- A queue that is contained already, and one whose error record is to be written; core 143 runs a task of queue 1. -/
def held1 : State := (at1 on c1 []).updQueue 1 fun y => { y with contain := some [] }
theorem witness_contain : (held1.queue 1).contain ≠ none ∧ ((at1 on c1 []).queue 1).contain = none ∧ (held1.queue 1).ctxStopped = false ∧
    ((held1.updQueue 1 fun y => { y with ctxStopped := true }).queue 1).ctxStopped = true ∧ causeCode 1 = 0x05 := by decide +kernel

/-- A command in role 1's queue. -/
def queued : State := { at1 on c1 wPool with fwc := { on.fwc with roleQ := [(1, [(1, 0)])] } }
theorem witness_take_up : (queued.at 5).fwActs = true ∧ (queued.at 5).roleRuns 1 = true ∧ AL.get (queued.at 5).fwc.roleQ 1 = [(1, 0)] := by decide +kernel
/-- Queue 1 with the command `x` started, limits 10. -/
def limits (x : Cmd) : State :=
  let s := put (on.setCtx 1 c1) 1 []
  s.setQueue 1 { s.queue 1 with cmds := [(0, x)], reserved := 1, waitNs := 10, graphNs := 10 }
theorem witness_timers : (∃ x, ((limits { words := wPool, phase := .fwQueued }).at 10).cmd? 1 0 = some x ∧ x.phase = .fwQueued ∧ x.start + 10 ≤ 10) ∧
    (∃ x, (((limits { words := wWait }).at 10).queue 1).cmds.find? (fun p => Op.code p.2.words = 0x04) = some (0, x) ∧
      10 ≤ ((limits { words := wWait }).at 10).runTime x) ∧
    (∃ x, ((limits tagged).at 10).cmd? 1 0 = some x ∧ x.watched = true ∧ Op.code x.words ≠ 0x12 ∧ 10 ≤ ((limits tagged).at 10).runTime x) :=
  ⟨⟨_, rfl, rfl, by decide⟩, ⟨_, rfl, by decide +kernel⟩, ⟨_, rfl, rfl, by decide, by decide +kernel⟩⟩

/-- Queue 5 in state `x`, of 64 packets, head 2. -/
def q5 (x : QState) : State := on.setQueue 5 { ring := 0xC#64, cpl := 0xC#64, st := x, head := 2, tail := 4 }
theorem witness_doorbell : (q5 .disabled).unitsOn = true ∧ 5 < (q5 .disabled).env.dev.queues ∧ ((q5 .disabled).queue 5).st = .disabled ∧
    ringSizeOk ((q5 .disabled).queue 5).ring = true ∧ ringSizeOk ((q5 .disabled).queue 5).cpl = true ∧ ((q5 .guilty).queue 5).st = .guilty ∧
    ((q5 .idle).queue 5).packets = 64 ∧ (66#32 - 2#32).toNat = 64 ∧ 64 < (67#32 - 2#32).toNat ∧ ((q5 .idle).queue 5).ctxStopped = false := by decide +kernel
theorem witness_queue0 : (on.setQueue 0 { st := .slotted }).unitsOn = true ∧ ((on.setQueue 0 { st := .slotted }).queue 0).st = .slotted ∧
    ((on.setQueue 0 { st := .slotted }).queue 0).cmds = [] ∧ ((on.setQueue 0 { st := .guilty }).queue 0).st = .guilty ∧ on.cfe.qsel = 0 ∧
    (on.queue 0).st = .disabled ∧ { on with cfe := { on.cfe with qsel := 5 } }.cfe.qsel = 5 := by decide +kernel

/-- Slot 31 empty or given to queue 1; queue 5 PENDING. -/
def slots (valid : Bool) : State :=
  let s := (q5 .pending).setQueue 1 { st := .slotted, idleAt := some 7, blockAt := some 7 }
  (s.setSlot 31 { valid := valid, queue := 1 })
theorem witness_slot : (slots true).unitsOn = true ∧ 31 < (slots true).env.dev.slots ∧ ((slots true).slot 31).valid = true ∧
    (let r := (slots true).release 31 .pending
     (r.queue 5).st = .pending ∧ r.slotOf? 5 = none ∧ (r.slot 31).enable = true) ∧ bit 0x8005#64 15 = true ∧ bits 0x8005#64 9 0 = 5 := by decide +kernel
theorem witness_slot_grant : ((slots false).at 5).fwActs = true ∧ ((slots false).at 5).roleRuns 0 = true ∧ ((slots false).slot 31).enable = true ∧
    ((slots false).slot 31).valid = false ∧ ((slots false).at 5).pendingQueues = [5] := by decide +kernel
/-- Every slot is given to queue 1 of class 2, slot 31 to one of a later deadline; queue 5 waits. -/
def crowded : State :=
  let s := { slots true with cfe := { (slots true).cfe with slots := (List.range 32).map fun n => (n, { valid := true, queue := if n = 31 then 1 else 100 + n }) } }
  s.updQueue 5 fun x => { x with pendDl := 50 }
theorem witness_slot_displace : (crowded.at 100000).fwActs = true ∧ (crowded.at 100000).roleRuns 0 = true ∧ (crowded.at 100000).freeSlots' = [] ∧
    (crowded.at 100000).pendingQueues = [5] ∧ ((crowded.at 100000).displaceSlot? 5).isSome = true := by decide +kernel
theorem witness_slot_release : ((slots true).at 50007).fwActs = true ∧ (((slots true).at 50007).queue 1).st = .slotted ∧
    (((slots true).at 50007).queue 1).idleAt = some 7 ∧ ((slots true).at 50007).whole 1 = false ∧ 7 + 50000 ≤ ((slots true).at 50007).env.now ∧
    (let s := (slots true).updQueue 1 fun x => { x with cmds := [(0, { words := wWait })] }
     ((s.at 50007).queue 1).blockAt = some 7 ∧ (s.at 50007).blocking 1 ((s.at 50007).headWord 1) ≠ 0) := by decide +kernel

/-! ## Dispatch, cores and core ports -/

/-- One ready task with descriptor `d`, at the top of bank 0. -/
def popS (d : List Word) : State :=
  (on.setCtx 1 { c1g with insts := [(1, { inst1 with tasks := [(0, { desc := d, st := .ready })] })] }).setBank 0 { on := [e0] }
/-- What GD_POP finds: the top, whether it may be popped, what a shape slot says, and whether its first offer prunes it. -/
def popView (s : State) : Bool × Option (Nat × Entry) × Bool × Option Nat × Bool :=
  let u := s.at 5
  let v := u.settleBanks
  let p := v.setBank 0 { v.bank 0 with on := [] }
  let d := v.descOf e0
  let n := if Desc.shapeDyn d then (p.shape? 1 (Desc.shapeSlot d)).map Shape.count else some 1
  (u.dispatching, v.bestTop?, v.poppable e0, n,
   e0.slot = 0 && !((p.task? e0.ref).map Task.tested).getD true && (p.prunable 1 d 8 || (Desc.shapeDyn d && decide (n = some 0))))
/-- A descriptor with SHAPE_DYN of slot 15; one with PRUNE_OK and one input. -/
def dynD : List Word := (desc (1 + 1024) 0 0 0).set 6 0xF00000000#64
def pruD : List Word := (desc (1 + 256) 0 0 0).set 11 1#64
/-- Slot 15 valid with COUNT `n`; the tile of handle 0 valid and empty. -/
def shaped (s : State) (n : Nat) : State := ((s.wr64 0x4000F0 0x100000000005000#64).wr64 0x4000F8 16#64).wr64 0x5008 (BitVec.ofNat 64 (2 ^ 32 + n))
def emptied (s : State) : State := s.wr64 0x400000 0x100000000000000#64
theorem witness_pop : popView (popS (desc 1 0 0 0)) = (true, some (0, e0), true, some 1, false) := by decide +kernel
theorem witness_pop_no_shape : popView (popS dynD) = (true, some (0, e0), true, none, false) := by decide +kernel
theorem witness_pop_no_rows : popView (shaped (popS dynD) 0) = (true, some (0, e0), true, some 0, true) := by decide +kernel
theorem witness_pop_pruned : popView (emptied (popS pruD)) = (true, some (0, e0), true, some 1, true) := by decide +kernel
theorem witness_pop_kind : popView (popS (desc 2 0 0 0)) = (true, some (0, e0), true, some 1, false) ∧
    popView (popS (desc 3 0 0 0)) = (true, some (0, e0), true, some 1, false) ∧ Desc.kind (desc 2 0 0 0) = 2 ∧ Desc.kind (desc 3 0 0 0) = 3 := by
  decide +kernel
/-- The input queue of the home engine holds 15 or 16 tasks. -/
def gateQ (n : Nat) : State := (popS (desc 2 0 0 0)).setGe ((popS (desc 2 0 0 0)).gateRegion e0) { en := true, queue := List.replicate n {} }
theorem witness_pop_gate : popView (gateQ 16) = (true, some (0, e0), true, some 1, false) ∧ ((gateQ 16).ge ((gateQ 16).gateRegion e0)).queue.length = 16 ∧
    ((gateQ 15).ge ((gateQ 15).gateRegion e0)).queue.length = 15 := by decide +kernel
/-- A cluster takes the COMPUTE task; with every cluster lost, one with PRUNE_OK is popped and declined. -/
def lostAll (s : State) : State := { s with fsu := { s.fsu with lostUnits := (List.range 18).map fun n => (2, n) } }
theorem witness_pop_placed : (let p := ((popS (desc 1 0 0 0)).at 5).settleBanks.setBank 0 {}
     ((p.countWait 0 e0).placeTask e0 (p.homeOf e0) 0).isSome = true) ∧
    popView (lostAll (popS pruD)) = (true, some (0, e0), true, some 1, false) ∧
    (let p := ((lostAll (popS pruD)).at 5).settleBanks.setBank 0 {}
     ((p.countWait 0 e0).placeTask e0 (p.homeOf e0) 0).isNone = true) := by decide +kernel

theorem witness_pop_held_back : popView (lostAll (popS (desc 1 0 0 0))) = (true, some (0, e0), false, some 1, false) := by decide +kernel
/-- A CONTROL task 2 with the operand block `ws`; a POST_DELAY finds a frame or none. -/
def ctlD : List Word := (desc 3 0 2 0).set 2 0x9100#64
def ctlS (frames : Nat) (ws : List Word) : State :=
  (on.wrWords false 0x9100 ws).setCtx 1 { c1g with frames := frames, insts := [(1, { inst1 with tasks := [(2, { desc := ctlD, st := .ready })] })] }
/-- The words of the operand block, and what the operation finds. -/
def ctlView (s : State) : Nat × Bool × Nat × Bool × Option Nat :=
    let k := (s.task? { ctx := 1, inst := 1, idx := 2 }).getD {}
    let w := wordAt (s.rdWords false (Desc.operands k.desc) 8)
    (bits (w 0) 7 0, decide (bits (w 1) 23 0 < s.idLimit 1), s.launchCheck 1 (bits (w 1) 15 0) true (bits (w 2) 31 0) (bits (w 3) 31 0),
     (s.postAction 1 { wake := 0, act := .signal 0 0 }).isSome, (s.shape? 1 (bits (w 3) 31 0)).map Shape.count)
theorem witness_control : ([[], [1#64, 15#64], [1#64, 16#64], [2#64, 1#64, 12#64, 1#64], [2#64, 5#64, 12#64, 1#64], [3#64], [4#64]].map
      fun ws => ctlView (ctlS 64 ws)) =
    [(0, true, 1, true, none), (1, true, 1, true, none), (1, false, 1, true, none), (2, true, 0, true, none),
     (2, true, 1, true, none), (3, true, 1, true, none), (4, true, 1, true, none)] ∧
    ctlView (ctlS 0 [3#64]) = (3, true, 1, false, none) ∧ bit (0x10001#64) 16 = true ∧ ((ctlS 64 []).inst? 1 1).isSome = true := by decide +kernel

/-- Task 1 waits for its GATE predecessor 0 alone; its site 5 is predicted. -/
def specD : List Word := ((desc (1 + 512) 1 1 0).set 11 1#64).set 13 0x500000000#64
def e1 : Entry := { ref := { ctx := 1, inst := 1, idx := 1 } }
def specS : State :=
  let x : Inst := { inst1 with step := some 1, tasks := [(0, { desc := desc 2 0 0 3, st := .placed }), (1, { desc := specD, count := 1 })] }
  let s := (on.setCtx 1 { c1g with insts := [(1, x)] }).setCluster 17 { cands := [e1] }
  { s with plu := { s.plu with specEn := true, preds := [{ ctx := 1, gen := 1, site := 5, step := 0, conf := 3, gran := some (0, 1) }] } }
theorem witness_spec_offer : (specS.at 5).dispatching = true ∧ (specS.at 5).present 17 = true ∧ (specS.at 5).clusterIdle 17 = true ∧
    (specS.at 5).workFor 17 = false ∧ ((specS.at 5).cluster 17).hold.length < 16 ∧
    ((specS.at 5).cluster 17).cands.find? (fun e => (specS.at 5).specEligible e.ref && !(specS.at 5).slotsFull e.ref.ctx) = some e1 ∧
    ((specS.at 5).coresOf 17).find? (specS.at 5).coreIdle = some 136 ∧ ((specS.at 5).stageSpec 17 136 e1).isSome = true := by decide +kernel

/-- Core 143 with task 1 of context 1 in its saddle or running. -/
def e1p : Placed := { e := e1, staged := true }
def coreS (k : Core) : State := (ctx1g.setCore 143 k)
theorem witness_spur : ((coreS { saddle := some e1p }).at 5 |>.core 143).saddle = some e1p ∧ ((coreS { saddle := some e1p }).at 5 |>.core 143).running = none ∧
    e1p.staged = true ∧ (coreS { saddle := some e1p }).gcs.changing = false ∧ (((coreS { saddle := some e1p }).at 5).coresOf 17).contains 143 = true := by decide +kernel
theorem witness_fill : { on with dcache := { on.dcache with lanes := [(7, [7])] } }.work = [] ∧ AL.get [(7, [7])] 7 = [7] := by decide

def r1 : Running := { p := e1p, spurAt := 0, budget := 1000 }
def run1 (y : Running) : State := coreS { running := some y }
theorem run_steady (y : Running) : (run1 y).steady ∧ (run1 y).seqPaused 143 = false ∧ ((run1 y).core 143).running = some y := ⟨⟨rfl, rfl⟩, rfl, rfl⟩
/-- The core is free: its completion stands at the port. -/
def offS (s : State) : State := (((s.at 5).xferClose 143 [2, 4, 5, 8]).xferOpen 143 3).coreOff 143 1
theorem witness_done : (run1 r1).holdFull 143 = false ∧ (let off := offS (run1 r1)
     (off.inst? 1 1).isSome = true ∧ (off.task? e1.ref).isSome = true ∧ ((off.inst? 1 1).map Inst.cancelled) = some false) ∧
    r1.discard = false ∧ r1.suppressed = false ∧ r1.p.spec = none := by decide +kernel
/-- Its instance is cancelled. -/
def runCan : State := (run1 r1).setCtx 1 { c1g with insts := [(1, { inst1 with cancelled := true })] }
theorem witness_done_late : runCan.steady ∧ (runCan.core 143).running = some r1 ∧
    ((offS runCan).inst? 1 1).map Inst.cancelled = some true := ⟨⟨rfl, rfl⟩, rfl, by decide +kernel⟩
def spec1 (z : Spec) : Running := { r1 with p := { e1p with spec := some z } }
theorem witness_done_other : ({ r1 with discard := true } : Running).discard = true ∧ ({ r1 with suppressed := true } : Running).suppressed = true ∧
    (spec1 {}).p.spec = some {} ∧ (spec1 { confirmed := true }).p.spec = some { confirmed := true } ∧ (spec1 {}).discard = false ∧
    (spec1 {}).suppressed = false := by decide
/-- Its cluster's hold is full, and it runs an unconfirmed speculative task. -/
theorem witness_done_hold_full : ((run1 (spec1 {})).setCluster 17 { hold := List.replicate 16 {} }).holdFull 143 = true ∧
    (run1 (spec1 {})).holdFull 143 = false := by decide +kernel
/-- Task 1 of `inst1`, with descriptor `d` and what `f` says, runs speculatively on core 143 with the predicted digest `dig`; its GATE
predecessor has retired as `how` says. -/
def confS (d : List Word) (f : Task → Task) (how : How) (dig : Word) : State :=
  let x : Inst := { inst1 with step := some 1, tasks := [(0, { desc := desc 2 0 0 3, st := .gone how }), (1, f { desc := d, st := .spec })] }
  ((run1 (spec1 { digest := dig, sigs := [(15, 1), (16, 1)] })).setCtx 1 { c1g with insts := [(1, x)] })
/-- What the confirmation of task 1 finds: whether its gate retired normally, SKIP, the digest, the shape, and whether it is prunable. -/
def confView (s : State) : Bool × Bool × Bool × Bool × Bool :=
  match s.inst? 1 1, s.task? e1.ref, s.spec? e1.ref with
  | some x, some k, some sp =>
    let p := s.resolve 1 k.desc x.base (x.step.getD 0)
    let shape := p.2.shape? 1 (Desc.shapeSlot k.desc)
    (decide ((AL.get? (Desc.gatePred k.desc) x.tasks).map Task.st = some (.gone .normal)), k.skip, decide (p.1 = sp.digest),
      !Desc.shapeDyn k.desc || (shape.isSome && decide (shape = sp.shape)),
      p.2.prunable 1 k.desc x.base || (Desc.shapeDyn k.desc && decide ((shape.getD {}).count = 0)))
  | _, _, _ => default
def confDig : Word := (confS specD id .normal 0).digest ((confS specD id .normal 0).tile 1 ((((confS specD id .normal 0).inputs specD 8)).headD 0))
/-- The same with PRUNE_OK, its input empty. -/
def specP : List Word := specD.set 0 (wordAt specD 0 + 0x100#64)
def confDig' : Word := (emptied (confS specP id .normal 0)).digest ((emptied (confS specP id .normal 0)).tile 1 (((confS specP id .normal 0).inputs specP 8).headD 0))
theorem witness_confirm : confView (confS specD id .failed confDig) = (false, false, true, true, false) ∧
    confView (confS specD (fun k => { k with skip := true }) .normal confDig) = (true, true, true, true, false) ∧
    confView (confS specD id .normal (confDig + 1)) = (true, false, false, true, false) ∧
    confView (confS specD id .normal confDig) = (true, false, true, true, false) ∧
    confView (emptied (confS specP id .normal confDig')) = (true, false, true, true, true) := by decide +kernel
theorem witness_refute : (∀ b, (confS specD (fun k => { k with skip := b }) .normal 0).task? e1.ref =
      some { desc := specD, st := .spec, skip := b }) ∧ ((confS specD (fun k => { k with count := 1 }) .normal 0).task? e1.ref).map Task.count = some 1 ∧
    (confS specD id .normal 0).spec? e1.ref = some { digest := 0, sigs := [(15, 1), (16, 1)] } :=
  ⟨fun b => by cases b <;> decide +kernel, by decide +kernel, by decide +kernel⟩
/-- A completion held for its commit. -/
def heldDone : Held := { run := spec1 { shadows := [(9, 0, 1)], sigs := [(15, 1)] }, core := 7 }
theorem witness_commit : ((run1 r1).inst? 1 1).isSome = true ∧ ((run1 r1).task? heldDone.run.p.e.ref).isSome = true ∧
    heldDone.run.p.spec = some { shadows := [(9, 0, 1)], sigs := [(15, 1)] } := by decide +kernel
/-- Task 1 before it retires and after; with a target on the herd, one in the context, and one past its limit. -/
def r1t : TaskRef := { ctx := 1, inst := 1, idx := 1 }
theorem witness_retire : ctx1g.inst? 1 1 = some inst1 ∧ ctx1g.task? r1t = some { desc := desc 1 1 1 0, count := 1 } ∧
    ({ desc := desc 1 1 1 0, count := 1 } : Task).isGone = false ∧ ({ desc := [], st := .gone .normal } : Task).isGone = true ∧
    bit (0x100000000000000#64) 56 = true ∧ bit (15#64) 56 = false ∧ bits 15#64 23 0 < ctx1g.idLimit 1 ∧ ctx1g.idLimit 1 ≤ bits 16#64 23 0 ∧
    (let s := ctx1g.setCtx 1 { c1g with insts := [(1, { inst1 with tasks := [(1, { desc := (desc 1 1 1 0).set 9 0x100000003#64 }), (3, { desc := [] })] })] }
     (s.owner? 1 1 3).getD (s.presentList.headD 0) < s.env.dev.clusters) := by decide +kernel
/-- Task 1 with `n` predecessors left, in state `st`. -/
def countS (f : Task → Task) : State := ctx1g.setCtx 1 { c1g with insts := [(1, { inst1 with step := some 1, tasks :=
  [(0, { desc := desc 2 0 0 3, st := .gone .normal }), (1, f { desc := specD })] })] }
theorem witness_decrement : ∀ f ∈ [(fun k => k), (fun k => { k with count := 1 }), (fun k => { k with count := 2 }), (fun k => { k with count := 3 }),
      (fun k => { k with count := 1, fail := true }), (fun k => { k with count := 1, st := .spec }), (fun k => { k with count := 1, skip := true }),
      (fun k => { k with count := 1, st := .gone .normal })], ((countS f).inst? 1 1).map (fun x => AL.get? 1 x.tasks) = some (some (f { desc := specD })) ∧
    AL.get? 7 inst1.tasks = none ∧ Desc.specOk specD = true ∧ Desc.specOk (desc 1 1 1 0) = false := by decide +kernel
/-- Its port, after it has yielded. -/
def yieldS (s : State) : State := ((s.at 5).xferClose 143 [2, 4, 5, 8]).xferOpen 143 6
theorem witness_yield_saved : (yieldS (run1 r1)).unsaved r1 = false ∧ (yieldS runCan).unsaved r1 = true ∧
    ((yieldS (run1 r1)).inst? 1 1).isSome = true ∧ ((yieldS runCan).inst? 1 1).isSome = true := by decide +kernel
theorem witness_yield : ({ r1 with rein := true } : Running).rein = true ∧ ({ r1 with rein := true } : Running).trap = false ∧
    ({ r1 with trap := true } : Running).trap = true ∧ r1.rein = false ∧ (((run1 r1).at 5).inst? 1 1).isSome = true := by decide
theorem witness_budget : (run1 r1).work = [] ∧ (run1 r1).runningOn 143 = some r1 ∧ r1.trap = false ∧ ((run1 r1).at 999).env.now < r1.spurAt + r1.budget ∧
    r1.spurAt + r1.budget ≤ ((run1 r1).at 1000).env.now ∧ (run1 (spec1 {})).runningOn 143 = some (spec1 {}) ∧ (spec1 {}).p.spec ≠ none := by decide

def stalled : Placed := { e1p with stall := some 7 }
theorem witness_stall : ((coreS { saddle := some stalled }).core 143).saddle = some stalled ∧ stalled.stall = some 7 ∧ c1g.stallLimit = 100000000 ∧
    7 + c1g.stallLimit ≤ ((coreS { saddle := some stalled }).at 100000007).env.now ∧ ((coreS { saddle := some stalled }).at 100000006).env.now < 7 + c1g.stallLimit ∧
    (((coreS { saddle := some stalled }).at 100000007).task? e1.ref).isSome = true := by decide
/-- A transfer has stood on channel 8 since 0, at a core that runs a task or none. -/
def lateS (y : Option Running) : State := coreS { running := y, xfer := [(8, 0)] }
theorem witness_port_fault (y : Option Running) (_h : y ∈ [none, some r1, some (spec1 {}), some { r1 with discard := true }]) :
    ((lateS y).at 1000000).up = true ∧ ((lateS y).at 1000000).coreOk 143 = true ∧ (((lateS y).at 1000000).core 143).running = y ∧
    AL.get? 8 (((lateS y).at 1000000).core 143).xfer = some 0 ∧ 0 + 1000000 ≤ ((lateS y).at 1000000).env.now := by
  refine ⟨rfl, (by rfl : ((lateS none).at 1000000).coreOk 143 = true), rfl, rfl, (show 0 + 1000000 ≤ max 0 1000000 by decide)⟩
theorem witness_port_early : ((lateS (some r1)).at 999999).xferLate 143 8 = false ∧ ((lateS (some r1)).at 1000000).unsaved r1 = false ∧
    (({ lateS (some r1) with ctxs := runCan.ctxs }).at 1000000).unsaved r1 = true ∧
    { lateS (some r1) with fwc := { on.fwc with cores := [(0, 1), (1, 1), (2, 2), (3, 1)] } }.roleRuns 2 = false := by decide +kernel
/-- A context in each state; a task that stands on a core, one that has run and is saved or not, and one that has not run. -/
theorem witness_context_fault (x : CtxState) : ((on.setCtx 1 { c1 with st := x }).ctx 1).st = x := by cases x <;> rfl
theorem witness_discard : (run1 r1).onCore e1.ref = true ∧ (run1 r1).spec? e1.ref = none ∧ (run1 r1).onGe? e1.ref = none ∧
    ctx1g.onCore e1.ref = false ∧ ctx1g.onGe? e1.ref = none ∧ (ctx1g.task? e1.ref).map Task.isGone = some false ∧
    (ctx1g.task? e1.ref).map Task.ran = some false ∧ ctx1g.savedTask e1.ref = false ∧
    (ctx1g.setCtx 1 { c1g with slots := [(2, { ref := e1.ref, saved := true })] }).savedTask e1.ref = true ∧
    ((countS fun k => { k with ran := true }).task? e1.ref).map Task.ran = some true := by decide +kernel

theorem witness_port : (run1 r1).steady ∧ (run1 r1).seqPaused 143 = false ∧ (run1 r1).ctrWaits 1 15 = false ∧
    (run1 r1).reqSuppressed 143 { ref := e1.ref } = false ∧ (run1 r1).runningOn 143 = some r1 ∧ ¬ ((run1 r1).ctx 1).st = .faulted ∧
    (run1 r1).idLimit 1 = 16 ∧ (run1 r1).coreWaits 143 < 8 ∧ 1 % 2 ^ 32 ≠ 0 :=
  ⟨⟨rfl, rfl⟩, by decide, by decide, by decide, by decide, by decide, by decide, by decide, by decide⟩
theorem witness_port_faulted : (((run1 r1).setCtx 1 { c1g with st := .faulted }).ctx 1).st = .faulted ∧
    ((run1 r1).setCtx 1 { c1g with st := .faulted }).runningOn 143 = some r1 ∧ ((run1 r1).setCtx 1 { c1g with st := .faulted }).steady :=
  ⟨by decide, by decide, ⟨rfl, rfl⟩⟩
theorem witness_port_spec : (spec1 { sigs := List.replicate 15 (0, 1) }).p.spec = some { sigs := List.replicate 15 (0, 1) } ∧
    (List.replicate 15 ((0, 1) : Nat × Nat)).length < 16 ∧ 16 ≤ (List.replicate 16 ((0, 1) : Nat × Nat)).length := by decide
/-- The counter 15 that the port names is on chip. -/
def portC (p : Phys) : State := { run1 r1 with ctu := { on.ctu with phys := [p] } }
theorem witness_port_counter (p : Phys) (h : p ∈ [({ ctx := 1, vid := 15, val := 5 } : Phys), { ctx := 1, vid := 15, poison := true }]) :
    let q := (portC p).xferOpen 143 7
    q.counterAt 1 15 (onChip q 1 15) ∧ ((onChip q 1 15).ctr 1 15).val = p.val ∧ ((onChip q 1 15).ctr 1 15).poison = p.poison := by
  simp only [List.mem_cons, List.not_mem_nil, or_false] at h
  rcases h with rfl | rfl <;> exact ⟨counterAt_of (by decide +kernel) (by decide +kernel), by decide +kernel, by decide +kernel⟩
/-- Every bank of counters is withdrawn, so that counter 15 finds no place; eight waiters of the core stand. -/
theorem witness_port_no_room : (((noBanks (run1 r1)).xferOpen 143 7).ctx 1).st.inPlace = true ∧
    ((noBanks (run1 r1)).xferOpen 143 7).makeCtrResident 1 15 = none ∧
    8 ≤ State.coreWaits { run1 r1 with ctu := { on.ctu with waiters := List.replicate 8 { who := .core 143 0 } } } 143 := by decide +kernel

/-- Core counter 31 of core 143 at `v`. -/
def ccS (v : Nat) (full : Bool) : State := (coreS { running := some r1, cc := [(31, v)] }).updTask e1.ref fun t => { t with ccOver := full }
theorem witness_core_counter : (ccS 5 false).work = [] ∧ (ccS 5 false).runningOn 143 = some r1 ∧ ((ccS 5 false).ctx 1).st ≠ .faulted ∧
    (ccS (2 ^ 32 - 2) false).cc 143 31 + 1 < 2 ^ 32 ∧ 2 ^ 32 ≤ (ccS (2 ^ 32 - 1) false).cc 143 31 + 1 ∧ ((ccS 5 true).task? e1.ref).map Task.ccOver = some true ∧
    ((ccS 5 false).task? e1.ref).map Task.ccOver ≠ some true ∧ (ccS 5 false).cc 143 31 ≠ 0 ∧ (ccS 5 false).cc 143 30 = 0 := by decide
theorem witness_core_counter_faulted : (((ccS 5 false).setCtx 1 { c1g with st := .faulted }).ctx 1).st = .faulted ∧
    ((ccS 5 false).setCtx 1 { c1g with st := .faulted }).runningOn 143 = some r1 ∧ ((ccS 5 false).setCtx 1 { c1g with st := .faulted }).work = [] := by decide
theorem test_cc_take : ∃ t, exec (.ccTake 143 1 31 6) (ccS 1 false) = .next t ∧ t.cc 143 31 = 0 ∧ t.out.rsp = [(143, 1, 0, 0)] := ⟨_, rfl, rfl, rfl⟩

/-! ## Delay list, context timers, relay and herd link -/

/-- The head of the delay list does `a` at 1024. -/
def delayS (a : Action) (cmd owner : Option (Nat × Nat)) : State :=
  { ctx1g with gd := { on.gd with delays := [{ wake := 1024, ctx := 1, act := a, cmd := cmd, owner := owner }, { wake := 2048 }] } }
theorem witness_delay (a : Action) (cmd : Option (Nat × Nat)) (_h : a ∈ [Action.task e1.ref, .signal 15 1, .launch 1 12 1 none, .launch 5 12 1 none]) :
    (delayS a cmd none).steady ∧ (delayS a cmd none).up = true ∧
    (delayS a cmd none).delayList = { wake := 1024, ctx := 1, act := a, cmd := cmd } :: [{ wake := 2048 }] ∧
    1024 ≤ ((delayS a cmd none).at 1024).env.now / 1024 * 1024 ∧ 0 < ((delayS a cmd none).at 1024).env.now / 1024 * 1024 ∧
    15 < (delayS a cmd none).idLimit 1 := by
  refine ⟨⟨rfl, rfl⟩, rfl, rfl, (show 1024 ≤ max 0 1024 / 1024 * 1024 by decide), (show 0 < max 0 1024 / 1024 * 1024 by decide),
    Nat.lt_of_le_of_lt (Nat.le_refl _) (show 15 < 2 ^ 4 by decide)⟩
theorem witness_delay_launch : (let u := (delayS (.launch 1 12 1 none) none none).at 1024
     let out := (u.delayRefill 1).delayDrop fun x => decide (x.wake = 1024)
     let freed := out.updCtx 1 fun x => { x with posted := x.posted - 1 }
     freed.launchCheck 1 1 true 12 1 = 0 ∧ freed.launchCheck 1 5 true 12 1 = 1) := by decide +kernel

/-- Context 1 in a window of 10 from 7. -/
def window1 (x : CtxState) : State := on.setCtx 1 { c1 with st := x, windowAt := 7, windowLen := 10 }
theorem witness_window : ((window1 .resident).at 17 |>.ctx 1).st = .resident ∧ 7 + 10 ≤ ((window1 .resident).at 17).env.now ∧
    ((window1 .suspending).at 17 |>.ctx 1).st = .suspending ∧ ((window1 .suspending).at 17).coresHolding 1 = [] ∧
    ((window1 .suspending).at 17).onGes 1 = false ∧ ((window1 .suspending).at 17 |>.ctx 1).suspFailed = [] ∧
    (let s := (run1 { r1 with discard := true }).setCtx 1 { c1g with st := .suspending, suspFailed := [17] }
     (s.at 17 |>.ctx 1).st = .suspending ∧ (∀ k ∈ (s.at 17).coresHolding 1, k / 8 ∈ (s.at 17 |>.ctx 1).suspFailed) ∧ (s.at 17).onGes 1 = false) := by decide
/-- Context 2 waits with a saved task; a place is free, or every place is taken. -/
def waits : State := ctx1.setCtx 2 { c1 with st := .waiting, place := none, saved := [{}] }
def packed : State := { on with ctxs := (List.range on.env.dev.places).map fun i => (i + 8, { c1 with place := some i }) }
theorem witness_place : (waits.at 5).fwActs = true ∧ (waits.at 5).gd.heirs = [] ∧ (waits.at 5).freePlaces.head? = some 1 ∧
    (waits.at 5).candidates = [2] ∧ (packed.at 5).fwActs = true ∧ (packed.at 5).gd.heirs = [] ∧ (packed.at 5).freePlaces = [] ∧
    (waits.at 5).freePlaces.isEmpty = false ∧ (let h := { waits with gd := { on.gd with heirs := [(7, 2)] } }
     (h.at 5).fwActs = true ∧ (h.at 5).gd.heirs = [(7, 2)] ∧ (h.at 5).wantsPlace 2 = true ∧ ((h.at 5).ctx 7).place = none ∧ (h.at 5).freePlaces ≠ []) := by
  decide +kernel
/-- Core 143 has not drained 1 ms past the bound. -/
def undrained : State := (run1 r1).setCtx 1 { c1g with st := .suspending, suspBound := 7, suspCmd := [(0, 0)] }
theorem witness_drain : (undrained.at 1000007 |>.ctx 1).st = .suspending ∧ 7 + 1000000 ≤ (undrained.at 1000007).env.now ∧
    (undrained.at 1000007).coresHolding 1 = [143] ∧ (undrained.at 1000007 |>.core 143).running = some r1 ∧ r1.discard = false ∧
    (undrained.at 1000007).unsaved r1 = false ∧ (undrained.at 1000007).unsaved { r1 with suppressed := true } = true ∧
    ({ r1 with discard := true } : Running).discard = true ∧ r1.p.e.slot = 0 ∧ ({ e1 with slot := 5 } : Entry).slot ≠ 0 ∧
    (undrained.at 1000007 |>.ctx 1).suspCmd ≠ [] ∧ undrained.gcs.changing = false := by
  decide +kernel

/-- Header of a message of one word to core 143, channel 15, slot 63, port 3. -/
def hdr : Word := 0xFFF8F#64
def msg : Msg := { ctx := 1, slot := 63, port := 3, chan := 15, data := [5#64] }
def sendS (ch : Chan) (rings : Nat) : State :=
  let s := (padd (run1 r1)).setChan (16 * 143 + 15) ch
  { s with rly := { s.rly with rings := rings } }
theorem witness_send : (sendS {} 0).steady ∧ (sendS {} 0).relayPaused 143 = false ∧ (((sendS {} 0).refill (16 * 143 + 15) 8).chan (16 * 143 + 15)).spilled 1 = [] ∧
    (sendS {} 0).reqSuppressed 143 { ref := e1.ref } = false ∧ (sendS {} 0).runningOn 143 = some r1 ∧ (sendS {} 0).rly.en = true ∧ r1.p.spec = none ∧
    r1.suppressed = false ∧ bits hdr 63 22 = 0 ∧ bits hdr 7 0 = 143 ∧ bits hdr 11 8 = 15 ∧ (sendS {} 0).present (143 / 8) = true ∧
    (sendS {} 0).curCtx 143 = some r1.p.e.ref.ctx ∧ ((sendS {} 0).chan (16 * 143 + 15)).chains = [] ∧ (sendS {} 0).creditsUsed (16 * 143 + 15) < 8 :=
  ⟨⟨rfl, rfl⟩, by decide +kernel, by decide +kernel, by decide +kernel, by decide, rfl, by decide, by decide, by decide, by decide, by decide,
   by decide +kernel, by decide, by decide, by decide +kernel⟩
theorem witness_send_full : 8 ≤ (sendS { credits := List.replicate 8 msg } 0).creditsUsed (16 * 143 + 15) ∧
    ((sendS { credits := List.replicate 8 msg } 0).spill (16 * 143 + 15) msg).isNone = true ∧
    ((sendS { credits := List.replicate 8 msg } 1).spill (16 * 143 + 15) msg).isSome = true := by decide +kernel
theorem witness_send_wrong : bits 0x400000#64 63 22 ≠ 0 ∧ (sendS {} 0).present (bits 0xFF#64 7 0 / 8) = false ∧
    ((sendS {} 0).setCore 0 { running := some { p := { e := { ref := { ctx := 2 } } } } }).curCtx 0 = some 2 := by decide +kernel
theorem witness_send_waits : { sendS {} 0 with rly := { (sendS {} 0).rly with en := false } }.rly.en = false ∧
    { sendS {} 0 with rly := { (sendS {} 0).rly with en := false } }.steady ∧ { sendS {} 0 with rly := { (sendS {} 0).rly with en := false } }.runningOn 143 = some r1 ∧
    { sendS {} 0 with rly := { (sendS {} 0).rly with en := false } }.relayPaused 143 = false ∧
    (run1 (spec1 {})).steady ∧ (run1 (spec1 {})).rly.en = true ∧ (run1 (spec1 {})).relayPaused 143 = false ∧ (run1 (spec1 {})).runningOn 143 = some (spec1 {}) :=
  ⟨rfl, ⟨rfl, rfl⟩, by decide, by decide +kernel, ⟨rfl, rfl⟩, rfl, by decide +kernel, by decide⟩
theorem witness_deliver : (let s := ((run1 r1).setChan (16 * 143 + 15) { credits := [msg] }).refill (16 * 143 + 15) 8
     (s.chan (16 * 143 + 15)).chains = [] ∧ (s.chan (16 * 143 + 15)).credits = [msg] ∧ s.runningOn 143 = some r1 ∧ r1.p.e.ref.ctx = msg.ctx ∧
       AL.has s.rly.ports (256 * 143 + 4 * 63 + 3) = false) ∧ AL.get? (256 * 143 + 4 * 63 + 3) [(36863, msg)] = some msg := by decide +kernel

/-- A trailing signal to send, and one sent at 7. -/
def trail : Trail := { dest := 1023, inc := 1, handle := mkHandle 1 15 1, seq := 3, sentAt := 7 }
def trailS : State := { ctx1 with ctu := { on.ctu with trailEn := true, toSend := [trail], sent := [trail] } }
/-- Counter 15 of context 1 is exported. -/
def exported : State := trailS.setMapped 1 15 true true
theorem witness_trail_send : trailS.steady ∧ trailS.up = true ∧ trailS.ctu.toSend = trail :: [] := ⟨⟨rfl, rfl⟩, rfl, rfl⟩
theorem witness_trail_in : exported.steady ∧ bits 1#64 7 0 = 1 ∧ (0, 0) ∉ exported.ctu.seen ∧ exported.trailTest (mkHandle 1 15 1) = 0 ∧
    exported.trailTest (mkHandle 1 15 2) = 1 ∧ (0, 0) ∈ [((0, 0) : Nat × Nat)] := ⟨⟨by decide +kernel, by decide +kernel⟩, by decide, by decide +kernel, by decide +kernel, by decide +kernel, by decide⟩
theorem witness_trail_sent : trailS.ctu.sent.find? (fun x => decide (x.dest = 1023) && decide (x.seq = 3)) = some trail ∧
    (∀ y ∈ trailS.ctu.sent, y.dest = 1023 → y.seq = 3 → y = trail) ∧ 7 + 1000000 ≤ (trailS.at 1000007).env.now ∧ (trailS.at 1000006).env.now < 7 + 1000000 :=
  ⟨by decide +kernel, by simp [trailS], by decide, by decide⟩
/-- R139: the handle's check byte. A handle of another check is refused. -/
theorem test_handle_check : exported.trailTest (mkHandle 1 15 1 ^^^ 1#64) = 1 := by decide +kernel

/-! ## Faults, the debug window and registers -/

def msg0 : Msg := { ctx := 1 }
/-- Corrections of row 9 of storage 16, the last record at 7. -/
def counted : State := { on with fsu := { on.fsu with ces := [((16, 5 * 2 ^ 32 + 9), (1, 7))] } }
theorem witness_correction : on.work = [] ∧ on.gcs.state ≠ 0 ∧ AL.get? (16, 5 * 2 ^ 32 + 9) on.fsu.ces = none ∧
    AL.get? (16, 5 * 2 ^ 32 + 9) counted.fsu.ces = some (1, 7) ∧ 7 + 1000000000 ≤ (counted.at 1000000007).env.now ∧
    (counted.at 1000000006).env.now < 7 + 1000000000 ∧ ctx1.defined 1 = true := by decide
/-- Row 5 of bank 3 has been corrected 63 times within the hour; bank 3 serves as itself, or is lost. -/
def often : State := { on with fsu := { on.fsu with ceHour := [((3, 3 * 2 ^ 32 + 5), List.replicate 63 0)] } }
theorem witness_corrections : (((AL.get often.fsu.ceHour (3, 3 * 2 ^ 32 + 5)).filter fun t => (often.at 1).env.now < t + 3600000000000) ++ [(often.at 1).env.now]).length = 64 ∧
    (often.at 1).logicalOf 3 3 = some 3 ∧ { often with fsu := { often.fsu with lostUnits := [(3, 3)] } }.logicalOf 3 3 = none := by decide +kernel
/-- What the entries of the storages of Table 15.4 hold: an occupied row, and one that is free. -/
def stored : State :=
  { ((ctx1g.setCore 0 { saddle := some e1p }).setSeqr 7 { valid := true, role := 0, cluster := 0 }) with
    dcache := { on.dcache with lines := [((0, 5), 77)] }, ctu := { on.ctu with waiters := [{ ctx := 1, vid := 15, who := .cmd 1 0 }] }
    gd := { on.gd with flows := [((1, 5), {})] }, car := { on.car with slots := [(3, seq9)] }
    plu := { on.plu with preds := [{ ctx := 1, gen := 1, site := 5 }] }, rly := { on.rly with chans := [(2, { credits := [msg0] })] } }
theorem witness_stored_entries : stored.work = [] ∧ stored.gcs.state ≠ 0 ∧ AL.get? (5 / 16, 5 % 16) stored.dcache.lines = some 77 ∧
    AL.get? (6 / 16, 6 % 16) stored.dcache.lines = none ∧ stored.entryTask (8 * (stored.seqr 7).cluster + 0 / 16) (0 % 16) = some e1.ref ∧
    stored.entryTask (8 * (stored.seqr 7).cluster + 1 / 16) (1 % 16) = none ∧ (stored.ctu.waiters.filter Waiter.cached).drop 0 ≠ [] ∧
    (stored.ctu.waiters.filter Waiter.cached).drop 1 = [] ∧ stored.defined 1 = true ∧ stored.defined 2 = false ∧
    (stored.gd.flows.filter fun p => !p.2.spilled).drop 0 ≠ [] ∧ (stored.gd.flows.filter fun p => !p.2.spilled).drop 1 = [] ∧
    (stored.carSlot 3).st ≠ .free ∧ (stored.carSlot 4).st = .free ∧ stored.plu.preds.drop 0 ≠ [] ∧ stored.plu.preds.drop 1 = [] ∧
    (AL.get stored.rly.chans (16 / 8)).credits.drop (16 % 8) = [msg0] ∧ (AL.get stored.rly.chans (17 / 8)).credits.drop (17 % 8) = [] := by decide +kernel
theorem witness_worn : on.up = true ∧ on.fsu.wearLimit = 16 ∧ 16 ≤ 16 ∧ 15 < 16 ∧ on.roleRuns 2 = true ∧
    ((on.at 5).logicalOf 3 0).isSome = true ∧ (restarting.roleRuns 2 = true ∧
    { on with fwc := { on.fwc with cores := [(2, 2)] } }.roleRuns 2 = false) := by decide +kernel
/-- A stage of bank 3 with 9 of margin at code 63, below the limit of 16, is worn; a spare is free, or none is; it is kept, or
withdrawn. -/
def wear3 (m : Nat) : Wear := ⟨5, 3, 3, 9, m⟩
def noSpare : State := { on with fsu := { on.fsu with retired := (List.range 64).map fun i => (3, on.env.dev.banks + i) } }
theorem witness_worn_spare : (wear3 9).margin < on.fsu.wearLimit ∧ (wear3 9).margin63 < on.fsu.wearLimit ∧ on.fsu.wearLimit ≤ (wear3 16).margin63 ∧
    (on.at 5).remounting 3 3 = false ∧ (on.at 5).logicalOf 3 3 = some 3 ∧ (on.at 5).spareFor 3 3 ≠ none ∧ (noSpare.at 5).spareFor 3 3 = none ∧
    (noSpare.at 5).freeSpare 3 3 = false ∧ { noSpare with fsu := { noSpare.fsu with margins := [((3, 3), (9, 5))] } }.keeps 3 3 0x14 = true ∧
    { noSpare with fsu := { noSpare.fsu with margins := [((3, 3), (0, 5))] } }.keeps 3 3 0x14 = false := by decide +kernel
/-- Bank 3's remount was decided before. -/
def noted : State := { on with fsu := { on.fsu with remounts := [(3, 3, 0x14)] } }
theorem witness_remount : (3, 3, 0x14) ∈ noted.fsu.remounts ∧ (noted.at 5).drained 3 3 = true ∧ noted.up = true ∧ noted.roleRuns 2 = true ∧
    noted.gcs.changing = false ∧
    (let f : Fsu := { noted.fsu with remounts := noted.fsu.remounts.filter fun p => p ≠ (3, 3, 0x14) }
     State.logicalOf { noted.at 5 with fsu := f } 3 3 = some 3 ∧ (State.spareOf? { noted.at 5 with fsu := f } 3 3).isSome = true) ∧
    (3, 3) ∉ noted.fsu.leaving ∧ noted.gcs.state ≠ 1 ∧ (noSpare.at 5).spareOf? 3 3 = none ∧
    (let s := { noted with fsu := { noted.fsu with chosen := [((3, 3), on.env.dev.banks)] }, fwc := { on.fwc with cores := [(2, 2)] } }
     s.roleRuns 2 = false ∧ AL.get? (3, 3) s.fsu.chosen = some on.env.dev.banks ∧ (s.at 5).freeSpare 3 on.env.dev.banks = true) := by decide +kernel

/-- The debug window on counter 15 of context 1, at 5; the window's value is `v`. -/
def dbg (en : Bool) (halted : Bool) (c i v : Nat) : State :=
  { on.setCtx 1 { c1 with halted := halted } with ctu := { on.ctu with dbgEn := en, dbgCtx := c, dbgId := i, dbgValue := BitVec.ofNat 64 v, phys := [{ ctx := 1, vid := 15, val := 5 }] } }
theorem witness_debug : (dbg true true 1 15 5).unitsOn = true ∧ (dbg true true 1 15 5).ctu.dbgBusy = false ∧
    { dbg true true 1 15 5 with ctu := { (dbg true true 1 15 5).ctu with dbgBusy := true } }.ctu.dbgBusy = true ∧ (dbg false true 1 15 5).ctu.dbgEn = false ∧ (dbg true true 1 15 5).defined 1 = true ∧
    (dbg true true 2 15 5).defined 2 = false ∧ (dbg true true 1 16 5).idLimit 1 = 16 ∧ ((dbg true true 1 15 5).ctx 1).halted = true ∧
    ((dbg true false 1 15 5).ctx 1).halted = false ∧ ((dbg true true 1 15 5).ctr 1 15).val = 5 ∧
    (dbg true true 1 15 4).ctu.dbgValue.toNat < 5 ∧ 5 ≤ (dbg true true 1 15 5).ctu.dbgValue.toNat := by decide +kernel

theorem witness_register : on.work = [] ∧ on.unitsOn = true ∧ 17 < on.env.dev.geRegions ∧ on.fsu.errEn = false ∧
    { on with fsu := { on.fsu with errEn := true, errLog := 12, errTail := 64 } }.fsu.errEn = true ∧ (64#32 - 0#32).toNat ≤ 2 ^ 12 / 64 ∧
    2 ^ 12 / 64 < (65#32 - 0#32).toNat := by decide
theorem witness_absent : (State.resetOn .xs64).work = [] ∧ (State.resetOn .xs64).env.dev.queues = 512 ∧
    0x200000 + 0x1000 * 512 ≤ 0x400000 ∧ (State.resetOn .xs64).env.dev.geRegions = 8 ∧ (State.resetOn .xs64).env.dev.slots = 16 := by decide
/-- R360: REV_LETTER 0x44 and REV_STEP 0x02 (Table 17.3). -/
theorem test_gcs_id : bits (on.windowRead 0 64) 15 8 = 0x44 ∧ bits (on.windowRead 0 64) 7 0 = 0x02 ∧ bits (on.windowRead 0 64) 47 32 = 0x144 ∧ bits (on.windowRead 4 32) 15 0 = 0x144 := by decide +kernel
/-- IEEE 754-2019, 9.2.1: ln 0 is minus infinity with divide-by-zero, ln -1 is invalid, ln 1 is +0. -/
theorem test_log_special : expLog {} logSpecial logOf Config.logLane 0 = (0xFF800000, 2) ∧
    (expLog {} logSpecial logOf Config.logLane 0xBF800000).2 = 1 ∧ expLog {} logSpecial logOf Config.logLane 0x3F800000 = (0, 0) := by decide +kernel
/-- Table 9.6, words written out field by field: ADD s3, s1, s2; LI s31, -1; BNE s31, s30, -1; END 1. -/
theorem test_ge_words : geInstr 0 9 0x0318440000000000#64 = some (.add 0 3 1 2) ∧
    geInstr 0 9 0x01F80000FFFFFFFF#64 = some (.li 0 31 0xFFFFFFFF#32) ∧ geInstr 0 9 0x2907FC00FFFFFFFF#64 = some (.bne 0 31 30 0xFFFFFFFF#32) ∧
    geInstr 0 9 0x3F00000000000001#64 = some (.endTask 0 1#32 9) := by decide +kernel
/-- R223: an OP that Table 9.6 does not list, and a reserved bit that is set. -/
theorem test_ge_illegal : geInstr 0 9 0x0D00000000000000#64 = none ∧ geInstr 0 9 0x0000000100000000#64 = none ∧
    geInstr 0 9 0x0000010000000000#64 = none := by decide +kernel
/-- Table 13.7: the last byte of a partition and the byte after it. -/
theorem test_flash_parts : flashPart? 0x00BFFFFF = some .imageA ∧ flashPart? 0x00C00000 = some .imageB ∧ flashPart? 0x01C0FFFF = some .reserve ∧
    flashPart? 0x01C10000 = none ∧ flashPart? 0 = none := by decide +kernel

/-! ## Boundary cases of the statements' premises -/

/-- s2 = NaN: ICVT of it raises invalid, which engine 0 traps. -/
def icvtS : State := (ge0 yF (insn 0x18 5 2 0 0)).setGe 0 { en := true, trapEn := 0x1F, run := some yF }
theorem witness_icvt_traps : icvtS.atInsn 0 yF ∧ icvtS.geRow 0 = some (.icvt 0 5 2) ∧ (f64 (yF.reg 2)).isNan = true ∧
    1 &&& (icvtS.ge 0).trapEn ≠ 0 := ⟨⟨⟨rfl, rfl⟩, rfl, rfl⟩, by decide +kernel, by decide +kernel, by decide +kernel⟩
/-- A pass that reads its one element, of format `f`, at 0x5000; `st` are its stages; one bucket. -/
def passOf (st f : Nat) : List Word :=
  [BitVec.ofNat 64 (2 ^ 48 * st + 0x100000001), 0x5000#64, BitVec.ofNat 64 (2 ^ 55 + 2 ^ 50 * f)] ++ List.replicate 7 0 ++ [0x101#64] ++
    List.replicate 21 0
def inPass (s : State) (c : List Word) : State :=
  (s.wr64 0x5000 0x7F800001#64).setGe 0 { en := true, trapEn := 0x1F, run := some { y0 with pass := some c } }
/-- What the pass finds at its end: a flag that is trapped, an access that is refused, a configuration error. -/
def passView (s : State) (c : List Word) : Bool × Bool × Bool :=
  let s1 := (inPass s c).at 5
  let o := s1.pass c (s1.geIo { y0 with pass := some c }) (s1.ge 0).trapEn y0.outs 8 []
  (decide (o.flags &&& ((s1.ge 0).trapEn ||| Cfg.trap c) ≠ 0), o.access, o.config)
theorem witness_pass_stops (c : List Word) : (inPass ctx1 c).steady ∧ ((inPass ctx1 c).ge 0).run = some { y0 with pass := some c } ∧
    passView ctx1 (passOf 1 0) = (true, false, false) ∧ passView ctx1 (passOf 8 8) = (false, false, true) ∧
    passView { ctx1 with env := { on.env with refused := [(0x5000, 1)] } } (passOf 0 1) = (false, true, false) :=
  ⟨⟨rfl, rfl⟩, rfl, by decide +kernel, by decide +kernel, by decide +kernel⟩
/-- The waiter of another counter does not shut the signal out. -/
theorem witness_sig_waiter : ∀ w ∈ [({ ctx := 1, vid := 14, who := .cmd 1 0 } : Waiter)], ¬ (w.ctx = 1 ∧ w.vid = 15) := by decide

/-- A start whose token is out, and one that has groomed. -/
def tokenS : State := { startS with tth := { on.tth with enumReq := true }, env := { on.env with now := 20000 } }
theorem witness_start_token : tokenS.work = [] ∧ tokenS.fsu.heldWear = [] ∧ tokenS.startReady = true ∧
    (let m := (tokenS.at 5).enumEnd; m.startFails = false ∧ m.fsu.remounts = []) := by decide +kernel
/-- A warm start whose retained image still matches; with the codes in force or without; without counter-store rows. -/
def warmS (s : State) : State := { s with fwc := { on.fwc with digest := some (on.imageSlot false).digest, sramOk := true } }
/-- Steps 1 to 6 of a warm start: whether an image was found, and what step 7 finds. -/
def warmView (s : State) : Bool × Bool × Bool × Nat :=
  let begun := State.hotJoin { s with gcs := { s.gcs with state := 1, kind := 3, step := 1 }, fsu := { s.fsu with nextSeq := s.nextSbSeq } }
  let read := (if begun.tack? = none then begun.stage 0x07 [1, 0, 0, 0] else begun).setStep 3
  let k := read.tack
  let policy : State := { read with fwc := { read.fwc with resetCold := bit (AL.get k.policy 479) 0 } }
  let b := (policy.setTack { k with warm := (k.warm + 1) % 2 ^ 32 }).bootImage true 7
  let pet := (List.range s.env.dev.fwCores).foldl State.pet b.2
  let d := State.setStep { pet with fwc := { pet.fwc with watchdog := some pet.env.now } } 6
  (b.1, d.storesMissing, d.groomKept, d.gcs.kind)
def trained : State := { on with tth := { on.tth with groomGait := 1, groomTemp := on.env.temp } }
def noImage : State := { on with flash := { on.flash with copy0 := some { failA := 3, failB := 3 } } }
def badImage : State := { on with flash := { on.flash with imgA := { on.flash.imgA with formOk := false } } }
theorem witness_warm : warmView (warmS on) = (true, false, false, 3) ∧ warmView (warmS trained) = (true, false, true, 3) ∧
    (warmView (warmS (noBanks on))).2.1 = true ∧ (warmView noImage).1 = false ∧ noImage.tack.choose = none ∧ on.tack.choose = some false ∧
    { on with env := { on.env with sfdpOk := false } }.env.sfdpOk = false ∧
    (on.setTack (on.tack.setFails false 1)).imageFail? (on.imageSlot false) = none ∧ on.fwc.digest ≠ some (on.imageSlot false).digest ∧
    (let s := badImage; ((s.setTack (s.tack.setFails false 1)).imageFail? (s.imageSlot false)).isSome = true) := by decide +kernel
theorem witness_choose : ({} : Tack).fails ({} : Tack).prefB < 3 ∧ 3 ≤ ({ failA := 3 } : Tack).fails ({ failA := 3 } : Tack).prefB ∧
    ({ failA := 3 } : Tack).fails (!({ failA := 3 } : Tack).prefB) < 3 ∧ 3 ≤ ({ failA := 3, failB := 3 } : Tack).fails true := by decide
theorem witness_repair : on.logicalOf 3 3 = some 3 ∧ on.spareFor 3 3 ≠ none ∧ noSpare.logicalOf 3 3 = some 3 ∧ noSpare.spareFor 3 3 = none ∧
    on.logicalOf 3 on.env.dev.banks = none ∧ on.freeSpare 3 on.env.dev.banks = true ∧
    ((on.env.defects.filter fun p => (p.1 = 3 || p.1 = 4) && !on.tack.repair.contains p).eraseDups) = [] := by decide +kernel

/-- A cold start at step 7, groomed or not; cluster 0's place is found worn by grooming, and every place of its row has failed. -/
theorem witness_enum : step7.tth.enumReq = false ∧ step7.tth.groomReq = false ∧ tokenS.gcs.state = 1 ∧ tokenS.tth.enumReq = true ∧
    tokenS.tth.enumAt + 20000 ≤ tokenS.env.now ∧ 19 < tokenS.env.dev.positions ∧ 19 ∉ tokenS.tth.noAnswer := by decide
def wornPlace : State := { tokenS with fsu := { on.fsu with remounts := [(2, homePos 0, 0x14)] } }
def lostRow : State := { tokenS with env := { on.env with defects := [(2, homePos 0), (2, on.rowSpare (homePos 0))] } }
theorem witness_enum_finds : wornPlace.remounting 2 (homePos 0) = true ∧ wornPlace.enumEnd.csq.seqrs ≠ [] ∧
    wornPlace.enumEnd.roleRuns 2 = true ∧ wornPlace.enumEnd.rowSpare (homePos 0) ≠ homePos 0 ∧
    ((wornPlace.enumEnd.csq.seqrs.find? fun x => x.2.valid && decide (x.2.role = 0) && decide (homePos x.2.cluster = homePos 0)).map Prod.fst).isSome = true ∧
    ((lostRow.absentBy lostRow.posFailed).filter fun n => !(lostRow.absentBy fun p => lostRow.tack.repair.contains (2, p)).contains n) = [0] := by
  decide +kernel
def step7g : State := { step7 with tth := { step7.tth with groomReq := true } }
theorem witness_groom_due (t : Int) : (let m : State := { step7g with env := { step7g.env with temp := t } }; m.groomDue = true) ∧ step7g.work = [] ∧
    step7g.fsu.remounts = [] ∧ step7g.storesMissing = false := ⟨rfl, by decide +kernel⟩

/-- SIGNAL's counter is within the limit of a defined context. -/
theorem witness_signal_applied : 15 < (waitS {}).idLimit 1 ∧ (waitS {}).defined 1 = true := by decide +kernel
/-- A WAIT with ON_POISON_FAULT, and one without. -/
theorem witness_wait_released : (limits { words := wWait }).cmd? 1 0 = some { words := wWait } ∧ Op.onPoison wWait = false ∧
    Op.onPoison ((pk 0x04 0 1 [15#64, 5#64]).set 0 (BitVec.ofNat 64 (0x04 + 2 ^ 32 + 2 ^ 13))) = true := by decide

theorem witness_launch_makes : AL.get? 1 (ctx1g.ctx 1).graphs = some graph1 ∧ 12 < 2 ^ 32 ∧ graph1.seq < 2 ^ 32 ∧ (graph1.descs.map Prod.fst).Nodup ∧
    AL.get? 0 graph1.descs = some (desc 1 0 0 0) ∧ AL.get? 1 graph1.descs = none ∧ AL.get? 5 (ctx1g.ctx 1).graphs = none ∧
    (graph1.template = true ∧ (true = false → (ctx1g.ctx 1).liveOf 1 = 0 ∧ 1 ≤ 1)) ∧ ¬ (graph1.template = false ∧ True) ∧
    1 * graph1.span ≤ 2 ^ 32 := by decide

/-- What CANCEL finds of a command: a DELAY_POST of a signal not yet posted or posted, and of a launch; a CAR_STEP whose step is live or
over; a firmware command waiting or taken up; a root with instances or none, cancelled. -/
def canView (y : Cmd) (k : CarCtx) : Bool := (canS (wCan 0 7) [(0, y)] seq9 k).cancellable 1 (0, y)
def stepCmd : Cmd := { words := wCan 0 7 |>.set 0 (BitVec.ofNat 64 (0x12 + 2 ^ 32)) }
theorem witness_cancellable : canView { words := wPost } {} = false ∧ canView { words := wPost, posted := true } {} = true ∧
    canView { words := wPostL } {} = true ∧ canView stepCmd { live := some live1 } = true ∧ canView stepCmd { live := some over1 } = false ∧
    canView { words := wPool, phase := .fwQueued } {} = true ∧ canView { words := wPool, phase := .takenUp } {} = false ∧ canView tagged {} = true := by
  decide +kernel
theorem witness_cancel_one : (∀ y ∈ [tagged, stepCmd, { words := wPool, phase := .fwQueued }, { words := wPost, posted := true },
      { tagged with insts := 0, cancelled := true }], (canS (wCan 0 7) [(0, y)] seq9 {}).cmd? 1 0 = some y) ∧ tagged.insts ≠ 0 ∧
    tagged.posted = false ∧ tagged.phase ≠ .fwQueued ∧ Op.code tagged.words ≠ 0x12 ∧ Op.code stepCmd.words = 0x12 := by decide +kernel

/-- A bad packet behind packet 0, which passes its checks, has the wrong length, or names another context. -/
theorem witness_packet_later : packetView (crcd 0xEC3F (pk 0x08 1 1 []) ++ List.replicate 8 0) [] = (true, [], true, some 1) ∧
    packetView (crcd 0x7E69 (pk 0 1 1 []) ++ List.replicate 8 0) [] = (true, [], true, some 1) ∧
    packetView (crcd 0x31CF (pk 0x08 1 2 []) ++ List.replicate 8 0) [] = (true, [], true, some 1) := by decide +kernel
/-- A SIGNAL with a local completion signal, of a context that is not defined, or of a counter past the limit. -/
def wLocal (c v : Nat) : List Word := (pk 0x03 0x41 c [0x100000F#64] ++ pk 0 0 0 [BitVec.ofNat 64 v]).set 8 1#64
theorem witness_packet_local : (let s := (ringS (List.replicate 8 0) ((wLocal 2 15).take 8)).at 5
     s.defined (Op.ctx (wLocal 2 15)) = false ∧ s.idLimit (Op.ctx (wLocal 1 16)) ≤ bits (Op.cpl (wLocal 1 16) 1) 23 0 ∧
       s.defined (Op.ctx (wLocal 1 15)) = true ∧ bits (Op.cpl (wLocal 1 15) 1) 23 0 < s.idLimit (Op.ctx (wLocal 1 15))) ∧
    Op.local (wLocal 2 15) = true ∧ (wLocal 2 15).length = 8 * cmdPackets (wLocal 2 15) := by decide +kernel
/-- A WAIT whose release stands in the work, one with ON_POISON_FAULT, and a CAR_STEP whose instance runs. -/
def freedS : State := { limits { words := wWait } with work := [.release (.cmd 1 0) false] }
def stepping : State :=
  let s := limits { stepCmd with watched := true }
  { s.setCtx 1 c1g with car := { s.car with ctxs := [(1, { live := some live1 })] } }
theorem witness_timers_more : (∀ p ∈ ((freedS.at 10).queue 1).cmds, Op.code p.2.words = 0x04 →
      ∃ w ∈ (freedS.at 10).work, (∃ b, w = .release (.cmd 1 p.1) b) ∨ ∃ st d, w = .complete 1 p.1 st d) ∧
    ((stepping.at 10).cmd? 1 0).map Cmd.watched = some true ∧ ((stepping.at 10).cmd? 1 0).map (fun x => decide (10 ≤ (stepping.at 10).runTime x)) = some true ∧
    (stepping.carCtx (Op.ctx stepCmd.words)).live = some live1 ∧ (stepping.inst? (Op.ctx stepCmd.words) 1).isSome = true ∧
    Op.code stepCmd.words = 0x12 := by
  refine ⟨fun p _ _ => ⟨_, List.mem_singleton.mpr rfl, .inl ⟨false, ?_⟩⟩, by decide +kernel⟩
  have : p.1 = 0 := by
    have h : p ∈ [((0, { words := wWait }) : Nat × Cmd)] := ‹_›
    rw [List.mem_singleton.mp h]
  rw [this]

/-- A ring size field out of range, and one in range. -/
theorem witness_ring_size : ringSizeOk 11#64 = false ∧ ringSizeOk 27#64 = false ∧ ringSizeOk 26#64 = true ∧ ¬ (12 ≤ bits 11#64 4 0) := by decide
/-- Queue 5 is being reset to 3; its suppressed tasks, a command or a held record hold it back, or nothing does. -/
def resetting (x : Queue) : State := on.setQueue 5 { x with ring := 0xC#64, cpl := 0xC#64, st := .resetting, resetTo := some 3, tail := 4 }
theorem witness_reset_step : ((resetting {}).queue 5).st = .resetting ∧ ((resetting {}).queue 5).resetTo = some 3 ∧
    ¬ ((resetting {}).suppressedOn 5 = true ∨ ((resetting {}).queue 5).heldRec ≠ none ∨ ((resetting {}).queue 5).cmds ≠ []) ∧
    ((resetting { heldRec := some [] }).queue 5).heldRec ≠ none ∧ ((resetting { resetBy := some 0 }).queue 5).resetBy = some 0 ∧
    ((resetting {}).queue 5).contain = none := by decide +kernel
/-- An IDLE queue, one whose containment is not over, and queue 0 with a command. -/
theorem witness_disable : ((q5 .idle).queue 5).contain = none ∧ ((q5 .idle).queue 5).st = .idle ∧
    (((q5 .idle).updQueue 5 fun y => { y with contain := some [] }).queue 5).contain ≠ none ∧ ((q5 .pending).queue 5).st ≠ .idle := by decide +kernel

/-- Three pending queues of one deadline: of class 1, of class 0, and of a context that is not defined. -/
def three : State :=
  let s := (on.setCtx 1 { c1 with cls := 1 }).setCtx 2 { c1 with cls := 0 }
  ((s.setQueue 5 { ctxReg := 1#64, st := .pending }).setQueue 6 { ctxReg := 2#64, st := .pending }).setQueue 7 { ctxReg := 9#64, st := .pending }
theorem witness_pending_order : (three.cfe.queues.map Prod.fst).Nodup ∧ three.pendingQueues = [6, 5, 7] ∧ on.pendingQueues = [] := by decide +kernel
theorem witness_displace_choice : (let u := crowded.at 100000
     (∀ m < u.env.dev.slots, (u.queue (u.slot m).queue).pendDl < 2 ^ 64 ∧ (u.queue (u.slot m).queue).slotAt < 2 ^ 64 ∧
       (if u.defined (u.queue (u.slot m).queue).ctxId = true then (u.ctx (u.queue (u.slot m).queue).ctxId).cls else 4) < 8) ∧
     u.displaceSlot? 5 ≠ none ∧ (crowded.at 99999).displaceSlot? 5 = none) := by decide +kernel

/-- The sequencer of the home cluster is paused. -/
def pausedHome (s : State) : State := { s with fsu := { s.fsu with paused := [(2, s.seqPos ((popS (desc 3 0 0 0)).homeOf e0))] } }
theorem witness_pop_paused : popView (pausedHome (popS (desc 3 0 0 0))) = (true, some (0, e0), true, some 1, false) ∧
    (let o := pausedHome (popS (desc 3 0 0 0)); decide (o.homeOf e0 < o.env.dev.clusters) && o.fsu.paused.contains (2, o.seqPos (o.homeOf e0))) = true ∧
    (let o := popS (desc 2 0 0 0); (2, o.seqPos (o.gateRegion e0)) ∉ o.fsu.leaving) := by decide +kernel
/-- The port of core 143 has failed: its completion is not taken. -/
theorem witness_lost : ({ r1 with lost := true } : Running).lost = true ∧ r1.lost = false ∧ (run1 { r1 with lost := true }).holdFull 143 = false := by
  decide +kernel
theorem witness_no_spec_task : (∀ p ∈ ((window1 .suspending).at 17).specTasks, p.1.ctx ≠ 1) ∧
    (let s := (run1 { r1 with discard := true }).setCtx 1 { c1g with st := .suspending, suspFailed := [17] }
     ∀ p ∈ (s.at 17).specTasks, p.1.ctx ≠ 1) := by decide +kernel
theorem witness_send_spec : (run1 (spec1 {})).reqSuppressed 143 { ref := e1.ref, spec := true } = false ∧
    (run1 { r1 with suppressed := true }).reqSuppressed 143 { ref := e1.ref, suppressed := true } = true ∧ (spec1 {}).p.e.ref = e1.ref := by decide +kernel
/-- The record of a signal that has waited: its counter is exported, or no longer; trailing signals are disabled. -/
theorem witness_trail_late : exported.trailTest trail.handle = 0 ∧ trailS.trailTest trail.handle = 1 ∧
    { exported with ctu := { exported.ctu with trailEn := false } }.trailTest trail.handle = 2 ∧
    (let h := trail.handle; bits h 63 60 = 1 ∧ bits h 7 0 = handleCheck h ∧ exported.defined (bits h 59 48) = true ∧
      (exported.ctx (bits h 59 48)).gen = bits h 23 8 ∧ bits h 47 24 < exported.idLimit (bits h 59 48) ∧
      (exported.ctr (bits h 59 48) (bits h 47 24)).exported = true) := by decide +kernel
/-- Position 7 serves cluster 0, whose core 0 has a staged task; a bank that serves, an unused spare, and a retired bank. -/
theorem witness_used : (stored.logicalOf 2 7).isSome = true ∧
    (((stored.logicalOf 2 7).bind fun n => (stored.entryTask (8 * n + 0 / 16) (0 % 16)).map fun r => (n, r)) = some (0, e1.ref)) ∧
    ((stored.logicalOf 2 7).bind fun n => (stored.entryTask (8 * n + 1 / 16) (1 % 16)).map fun r => (n, r)) = none ∧
    on.logicalOf 3 3 ≠ none ∧ on.freeSpare 3 on.env.dev.banks = true ∧ noSpare.freeSpare 3 on.env.dev.banks = false ∧
    noSpare.logicalOf 3 on.env.dev.banks = none := by decide +kernel

end Sys2Proof.Tests
end

namespace Sys2Proof.Machine

/-! ## A byte's place -/

/-- A store leaves the outbound window where it is, so every address keeps its place (R365). -/
@[simp] theorem State.place_wr8 (s : State) (host : Bool) (a : Nat) (b : Byte) : (s.wr8 host a b).place = s.place := by
  funext h c
  simp [State.place, State.inWindow]

/-- The memory that a place lies in. -/
def State.memOf (s : State) (host : Bool) : List Host.Cell := if host then s.hostMem else s.mem

/-- A byte read is what its place holds. -/
theorem State.rd8_eq_place (s : State) (host : Bool) (a : Nat) :
    s.rd8 host a = Memory.read (s.memOf (s.place host a).1) (s.place host a).2 := by
  cases host
  · cases hw : s.inWindow (addr a) <;> simp [State.rd8, State.place, State.memOf, hw]
  · rfl

/-- A byte stored changes its place's memory, at its place. -/
theorem State.memOf_wr8 (s : State) (host m : Bool) (a : Nat) (b : Byte) :
    (s.wr8 host a b).memOf m =
      if m = (s.place host a).1 then Memory.write (s.memOf m) (s.place host a).2 b else s.memOf m := by
  cases host
  · cases hw : s.inWindow (addr a) <;> cases m <;> simp [State.wr8, State.place, State.memOf, hw]
  · cases m <;> simp [State.wr8, State.place, State.memOf]

/-- A store keeps both memories canonical. -/
theorem State.sound_wr8 {s : State} (h : s.sound) (host : Bool) (a : Nat) (b : Byte) : (s.wr8 host a b).sound := by
  have k : Keeps s (s.wr8 host a b) := State.wr8_keeps (Keeps.refl s)
  exact ⟨k.mem h.1, k.hostMem h.2⟩

theorem State.wf_memOf {s : State} (h : s.sound) (m : Bool) : Memory.wf (s.memOf m) = true := by
  cases m
  · exact h.1
  · exact h.2

theorem State.rd8_wr8_same {s : State} (h : s.sound) (host : Bool) (a : Nat) (b : Byte) :
    (s.wr8 host a b).rd8 host a = b := by
  rw [State.rd8_eq_place, State.place_wr8, State.memOf_wr8, if_pos rfl]
  exact Memory.read_write_same _ _ _ (State.wf_memOf h _)

theorem State.rd8_wr8_other {s : State} {host host' : Bool} {a a' : Nat} (b : Byte)
    (h : s.place host' a' ≠ s.place host a) : (s.wr8 host a b).rd8 host' a' = s.rd8 host' a' := by
  rw [State.rd8_eq_place, State.rd8_eq_place, State.place_wr8, State.memOf_wr8]
  split
  · next hm => exact Memory.read_write_other _ _ _ _ fun ha => h (Prod.ext hm ha)
  · rfl

/-! ## Runs of bytes and words -/

/-- Bytes stored leave every byte at another place alone. -/
theorem State.rd8_wrBytes_other {host host' : Bool} {a' : Nat} (l : List Byte) :
    ∀ {s : State} {a : Nat}, (∀ k < l.length, s.place host' a' ≠ s.place host (a + k)) →
      (s.wrBytes host a l).rd8 host' a' = s.rd8 host' a' := by
  induction l with
  | nil => intros; rfl
  | cons b r ih =>
    intro s a h
    rw [State.wrBytes, ih, State.rd8_wr8_other b (by simpa using h 0 (by simp))]
    intro k hk
    rw [State.place_wr8, show a + 1 + k = a + (k + 1) by omega]
    exact h (k + 1) (by simpa using hk)

/-- Bytes stored at places of their own are read back in order. -/
theorem State.rdBytes_wrBytes {host : Bool} (l : List Byte) :
    ∀ {s : State} {a : Nat}, s.sound →
      (∀ i j, i < j → j < l.length → s.place host (a + i) ≠ s.place host (a + j)) →
      (s.wrBytes host a l).rdBytes host a l.length = l := by
  induction l with
  | nil => intros; rfl
  | cons b r ih =>
    intro s a hs h
    have first : (s.wrBytes host a (b :: r)).rd8 host a = b := by
      rw [State.wrBytes, State.rd8_wrBytes_other, State.rd8_wr8_same hs]
      intro k hk
      rw [State.place_wr8, show a + 1 + k = a + (k + 1) by omega]
      exact h 0 (k + 1) (by omega) (by simpa using hk)
    have rest : (s.wrBytes host a (b :: r)).rdBytes host (a + 1) r.length = r := by
      refine ih (State.sound_wr8 hs host a b) ?_
      intro i j hij hj
      rw [State.place_wr8, show a + 1 + i = a + (i + 1) by omega, show a + 1 + j = a + (j + 1) by omega]
      exact h (i + 1) (j + 1) (by omega) (by simpa using hj)
    rw [List.length_cons, State.rdBytes, List.range_succ_eq_map, List.map_cons, List.map_map, Nat.add_zero, first]
    refine congrArg (b :: ·) (Eq.trans ?_ rest)
    exact List.map_congr_left fun i _ => by rw [Function.comp, show a + (i + 1) = a + 1 + i by omega]

@[simp] theorem wordBytes_length (w : Word) : (wordBytes w).length = 8 := by simp [wordBytes]

/-- A word's bytes spell it. -/
theorem leNat_wordBytes (w : Word) : leNat (wordBytes w) = w.toNat := by
  have hw : w.toNat < 2 ^ 64 := w.isLt
  simp only [wordBytes, List.range, List.range.loop, List.map_cons, List.map_nil, leNat, BitVec.toNat_ofNat,
    Nat.shiftRight_eq_div_pow]
  omega

/-- The eight bytes of an aligned word lie at eight places, even where the outbound window begins or ends among them. -/
theorem State.place_aligned_ne {s : State} {p i j : Nat} (hp : p % 8 = 0) (hij : i < j) (h8 : j < 8) :
    s.place false (p + i) ≠ s.place false (p + j) := by
  have hi : addr (p + i) = addr p + i := by unfold addr; omega
  have hj : addr (p + j) = addr p + j := by unfold addr; omega
  have hq : addr p + j < 2 ^ 64 := by unfold addr; omega
  intro h
  simp only [State.place, State.inWindow, hi, hj, Bool.false_eq_true, if_false, Bool.and_eq_true, decide_eq_true_eq] at h
  generalize addr p = q at h hq
  split at h <;> split at h <;> simp only [Prod.mk.injEq, reduceCtorEq, false_and, true_and] at h
  · unfold addr at h; omega
  · omega

theorem State.rd64_wr64 {s : State} {p : Nat} (hs : s.sound) (hp : p % 8 = 0) (w : Word) : (s.wr64 p w).rd64 p = w := by
  have h : (s.wr64 p w).rdBytes false p 8 = wordBytes w := by
    rw [← wordBytes_length w]
    exact State.rdBytes_wrBytes (wordBytes w) hs fun i j hij hj =>
      State.place_aligned_ne hp hij (by simpa using hj)
  rw [State.rd64, h, leNat_wordBytes]
  exact BitVec.ofNat_toNat 64 w

/-- Settles O7: a store is a write at its place, and the bytes of an aligned word lie at places of their own. -/
theorem storedBytesAreReadBack : Obligations.StoredBytesAreReadBack := by
  unfold Obligations.StoredBytesAreReadBack
  constructor
  · intro s host a b hs
    exact ⟨State.rd8_wr8_same hs host a b, fun _ _ h => State.rd8_wr8_other b h⟩
  · intro s p w hs hp
    exact ⟨State.rd64_wr64 hs hp w, fun _ _ h => State.rd8_wrBytes_other _ (by simpa using h)⟩

end Sys2Proof.Machine

namespace Sys2Proof.Machine

/-! ## Offsets without a register (R4) -/

/-- The offset lies in a region or page that the device does not have (R4). -/
def State.absentAt (s : State) (off : Nat) : Prop :=
  0x100000 + 0x1000 * s.env.dev.slots ≤ off ∧ off < 0x120000 ∨
    0x200000 + 0x1000 * s.env.dev.queues ≤ off ∧ off < 0x600000 ∨
    0x800000 + 0x10000 * s.env.dev.positions ≤ off ∧ off < 0xA00000 ∨
    ∃ g, s.env.dev.geRegions ≤ g ∧ g < 18 ∧ 0xA00000 + 0x10000 * g ≤ off ∧ off < 0xA10000 + 0x10000 * g

/-- The offset lies in none of the block window's instances from the slot pages up (Table 17.1). -/
structure State.Unmapped (s : State) (off : Nat) : Prop where
  low : 0x40000 ≤ off
  slots : ¬ (0x100000 ≤ off ∧ off < 0x100000 + 0x1000 * s.env.dev.slots)
  qattr : ¬ (0x120000 ≤ off ∧ off < 0x121000)
  doorbells : ¬ (0x200000 ≤ off ∧ off < 0x200000 + 0x1000 * s.env.dev.queues)
  units : ¬ (0x600000 ≤ off ∧ off < 0x650000)
  sequencers : ¬ (0x800000 ≤ off ∧ off < 0x800000 + 0x10000 * s.env.dev.positions)
  engines : ¬ (0xA00000 ≤ off ∧ off < 0xB30000 ∧ s.geIdx ((off - 0xA00000) / 0x10000) = true)
  stat : ¬ (0xC00000 ≤ off ∧ off < 0xC10000)

theorem Device.slots_le (d : Device) : d.slots ≤ 32 := by cases d <;> decide
theorem Device.queues_le (d : Device) : d.queues ≤ 1024 := by cases d <;> decide
theorem Device.positions_le (d : Device) : d.positions ≤ 20 := by cases d <;> decide

theorem State.geIdx_iff (s : State) (g : Nat) : s.geIdx g = true ↔ g < s.env.dev.geRegions ∨ g = 18 := by
  simp [State.geIdx]

theorem State.Unmapped.of_absentAt {s : State} {off : Nat} (h : s.absentAt off) : s.Unmapped off := by
  have hs := Device.slots_le s.env.dev
  have hq := Device.queues_le s.env.dev
  have hp := Device.positions_le s.env.dev
  obtain h | h | h | ⟨g, hg, hg', h⟩ := h
  case inr.inr.inr =>
    have e : (off - 0xA00000) / 0x10000 = g := by omega
    constructor
    case engines => rw [e, State.geIdx_iff]; omega
    all_goals omega
  all_goals constructor <;> omega

/-- A half of a word of an absent region lies in it too. -/
theorem State.absentAt_sub_four {s : State} {off : Nat} (h : s.absentAt off) (h4 : off % 8 = 4) : s.absentAt (off - 4) := by
  obtain h | h | h | ⟨g, hg, hg', h⟩ := h
  · exact .inl (by omega)
  · exact .inr (.inl (by omega))
  · exact .inr (.inr (.inl (by omega)))
  · exact .inr (.inr (.inr ⟨g, hg, hg', by omega⟩))

theorem State.read64_unmapped {s : State} {off : Nat} (u : s.Unmapped off) : s.read64 off = 0 := by
  obtain ⟨hl, hs, hq, hd, hu, hp, hg, ht⟩ := u
  unfold State.read64
  dsimp only
  by_cases h0 : s.gcs.state = 0
  · rw [if_pos h0]
  rw [if_neg h0, if_neg (by omega), if_neg (by omega)]
  by_cases h4 : s.gcs.state = 4
  · rw [if_pos h4]
  rw [if_neg h4, if_neg (by omega), if_neg (by omega), if_neg hs, if_neg hq, if_neg hd]
  iterate 5 rw [if_neg (by omega)]
  rw [if_neg hp, if_neg hg, if_neg ht]

theorem State.write64_unmapped {s : State} {off : Nat} (u : s.Unmapped off) (v : Word) : s.write64 off v = s := by
  obtain ⟨hl, hs, hq, hd, hu, -, hg, ht⟩ := u
  unfold State.write64
  dsimp only
  by_cases h0 : s.gcs.state = 0
  · rw [if_pos h0]
  rw [if_neg h0, if_neg (by omega), if_neg (by omega)]
  by_cases h4 : s.gcs.state = 4
  · rw [if_pos h4]
  rw [if_neg h4, if_neg (by omega), if_neg (by omega), if_neg (by omega), if_neg hs, if_neg hq, if_neg hd]
  iterate 5 rw [if_neg (by omega)]
  rw [if_neg hg, if_neg (by omega)]

theorem State.windowRead_absent {s : State} {off : Nat} (h : s.absentAt off) (width : Nat) : s.windowRead off width = 0 := by
  unfold State.windowRead
  split
  · exact State.read64_unmapped (.of_absentAt h)
  · split
    · split
      · rw [State.read64_unmapped (.of_absentAt h)]; rfl
      · rw [State.read64_unmapped (.of_absentAt (State.absentAt_sub_four h (by omega)))]; rfl
    · rfl

theorem State.regWrite_absent {s : State} {off : Nat} (h : s.absentAt off) (v : Word) (width : Nat) :
    s.regWrite off v width = s := by
  unfold State.regWrite
  split
  · exact State.write64_unmapped (.of_absentAt h) v
  · rfl

/-! ## Pages and slots that the device lacks -/

theorem State.dbTail_absent {s : State} {q : Nat} (h : s.env.dev.queues ≤ q) (v : Word) : s.dbTail q v = s :=
  if_pos (.inr h)

theorem State.dbCplHead_absent {s : State} {q : Nat} (h : s.env.dev.queues ≤ q) (v : Word) : s.dbCplHead q v = s :=
  if_pos (.inr h)

theorem State.slotQueue_absent {s : State} {n : Nat} (h : s.env.dev.slots ≤ n) (v : Word) : s.slotQueue n v = s :=
  if_pos (.inr h)

theorem State.displaceBit_absent {s : State} {n : Nat} (h : s.env.dev.slots ≤ n) : s.displaceBit n = s :=
  if_pos (.inr (.inr h))

theorem State.slotEnable_absent {s : State} {n : Nat} (h : s.env.dev.slots ≤ n) (b : Bool) : s.slotEnable n b = s :=
  if_pos h

theorem State.icacheInv_absent {s : State} {g : Nat} (h : s.env.dev.geRegions ≤ g) (h' : g < 18) : s.icacheInv g = s := by
  have hg : ¬ s.geIdx g = true := by rw [State.geIdx_iff]; omega
  simp [State.icacheInv, hg]

theorem State.onUnits_self {s : State} {f : State → State} (h : f s = s) : s.onUnits f = s := by
  unfold State.onUnits
  split
  · exact h
  · rfl

/-- A meaning that changes nothing, where no action waits, leaves the state as it is. -/
theorem exec_next {i : Instr} {s u v : State} (he : exec i s = .next (settle u)) (h : u = v) (hw : v.work = []) :
    exec i s = .next v := by
  rw [he, h, settle_nil hw]

/-- Settles O49: every access to a region, page, slot or engine that the device lacks finds nothing there. -/
theorem absentRegisters : Obligations.AbsentRegisters := by
  unfold Obligations.AbsentRegisters
  intro s hw
  refine ⟨fun off width v h => ?_, fun q v h => ?_, fun n v b h => ?_, fun g h h' => ?_⟩
  · have ha : s.absentAt off := h
    exact ⟨State.windowRead_absent ha width, exec_next rfl (State.regWrite_absent ha v width) hw⟩
  · exact ⟨exec_next rfl (State.onUnits_self (State.dbTail_absent h v)) hw,
      exec_next rfl (State.onUnits_self (State.dbCplHead_absent h v)) hw⟩
  · exact ⟨exec_next rfl (State.onUnits_self (State.slotQueue_absent h v)) hw,
      exec_next rfl (State.onUnits_self (State.displaceBit_absent h)) hw,
      exec_next rfl (State.onUnits_self (State.slotEnable_absent h b)) hw⟩
  · exact exec_next rfl (State.icacheInv_absent h h') hw

end Sys2Proof.Machine

namespace Sys2Proof.Machine

/-! ## Register fields as words -/

/-- A field put back where it was read is the word with the other bits cleared. -/
theorem fld_bits (w : Word) (hi lo n : Nat) (h : n = hi + 1 - lo) :
    fld (bits w hi lo) n lo = w.toNat &&& ((2 ^ n - 1) <<< lo) := by
  subst h
  refine Nat.eq_of_testBit_eq fun i => ?_
  simp only [fld, bits, Nat.testBit_shiftLeft, Nat.testBit_mod_two_pow, Nat.testBit_shiftRight, Nat.testBit_and,
    Nat.testBit_two_pow_sub_one]
  by_cases hi : lo ≤ i
  · rw [Nat.add_sub_cancel' hi]
    cases w.toNat.testBit i <;> simp [hi]
  · simp [hi]

theorem wd_toNat (w : Word) : wd w.toNat = w := BitVec.ofNat_toNat 64 w

theorem wd_toNat_and (w : Word) (n : Nat) : wd (w.toNat &&& n) = w &&& wd n := by
  rw [wd, BitVec.ofNat_and, ← wd, wd_toNat]; rfl

/-- A field at bit 0 is the word with the bits above it cleared. -/
theorem wd_bits_low (w : Word) (hi : Nat) : wd (bits w hi 0) = w &&& wd (2 ^ (hi + 1) - 1) := by
  rw [bits, Nat.shiftRight_zero, Nat.sub_zero, ← Nat.and_two_pow_sub_one_eq_mod, wd_toNat_and]

theorem wd_bits_high (w : Word) : wd (bits w 63 32) = w >>> 32 := by
  have hw : w.toNat < 2 ^ 64 := w.isLt
  apply BitVec.eq_of_toNat_eq
  simp only [wd, bits, BitVec.toNat_ofNat, BitVec.toNat_ushiftRight, Nat.shiftRight_eq_div_pow]
  omega

/-- `PLU_POOL_CTL` reads back its two fields (Table 4.9). -/
theorem wd_pool_fields (w : Word) : wd (fld (bits w 27 24) 4 24 + fld (bits w 11 0) 12 0) = w &&& 0xF000FFF#64 := by
  have low : fld (bits w 11 0) 12 0 < 2 ^ 24 := by
    simp only [fld, Nat.shiftLeft_zero]; omega
  have add_or : fld (bits w 27 24) 4 24 + fld (bits w 11 0) 12 0 = fld (bits w 27 24) 4 24 ||| fld (bits w 11 0) 12 0 :=
    Nat.shiftLeft_add_eq_or_of_lt low _
  rw [add_or, fld_bits w 27 24 4 rfl, fld_bits w 11 0 12 rfl, ← Nat.and_or_distrib_left, wd_toNat_and]
  rfl

/-! ## Reads and writes by region (Table 17.1) -/

/-- What places a region among the others: the units are on, and the slot and doorbell pages end below the next region. -/
theorem State.window_facts {s : State} (on : s.unitsOn = true) :
    s.gcs.state ≠ 0 ∧ s.gcs.state ≠ 4 ∧ s.env.dev.slots ≤ 32 ∧ s.env.dev.queues ≤ 1024 := by
  simp only [State.unitsOn, State.up, Bool.or_eq_true, decide_eq_true_eq] at on
  exact ⟨by omega, by omega, Device.slots_le _, Device.queues_le _⟩

section
variable {s : State} {off : Nat} (on : s.unitsOn = true)
include on

theorem State.write64_gcs (h : off < 0x10000) (v : Word) : s.write64 off v = s.writeGcs (off % 0x10000) v := by
  obtain ⟨h0, h4, hs, hq⟩ := window_facts on
  rw [State.write64]
  repeat rw [if_neg (by omega)]
  exact if_pos h

theorem State.write64_fsu (h : 0x10000 ≤ off) (h' : off < 0x20000) (v : Word) :
    s.write64 off v = s.writeFsu (off % 0x10000) v := by
  obtain ⟨h0, h4, hs, hq⟩ := window_facts on
  rw [State.write64]
  repeat rw [if_neg (by omega)]
  exact if_pos h'

theorem State.write64_tth (h : 0x30000 ≤ off) (h' : off < 0x40000) (v : Word) :
    s.write64 off v = s.writeTth (off % 0x10000) v := by
  obtain ⟨h0, h4, hs, hq⟩ := window_facts on
  rw [State.write64]
  repeat rw [if_neg (by omega)]
  exact if_pos ⟨h, h'⟩

theorem State.write64_qattr (h : 0x120000 ≤ off) (h' : off < 0x121000) (v : Word) :
    s.write64 off v = s.writeQattr (off % 0x1000) v := by
  obtain ⟨h0, h4, hs, hq⟩ := window_facts on
  rw [State.write64]
  repeat rw [if_neg (by omega)]
  exact if_pos ⟨h, h'⟩

theorem State.write64_db (h : 0x200000 ≤ off) (h' : off < 0x200000 + 0x1000 * s.env.dev.queues) (v : Word) :
    s.write64 off v = s.writeDb ((off - 0x200000) / 0x1000) (off % 0x1000) v := by
  obtain ⟨h0, h4, hs, hq⟩ := window_facts on
  rw [State.write64]
  repeat rw [if_neg (by omega)]
  exact if_pos ⟨h, h'⟩

theorem State.write64_gd (h : 0x600000 ≤ off) (h' : off < 0x610000) (v : Word) :
    s.write64 off v = s.writeGd (off % 0x10000) v := by
  obtain ⟨h0, h4, hs, hq⟩ := window_facts on
  rw [State.write64]
  repeat rw [if_neg (by omega)]
  exact if_pos ⟨h, h'⟩

theorem State.write64_plu (h : 0x610000 ≤ off) (h' : off < 0x620000) (v : Word) :
    s.write64 off v = s.writePlu (off % 0x10000) v := by
  obtain ⟨h0, h4, hs, hq⟩ := window_facts on
  rw [State.write64]
  repeat rw [if_neg (by omega)]
  exact if_pos ⟨h, h'⟩

theorem State.write64_ctu (h : 0x620000 ≤ off) (h' : off < 0x630000) (v : Word) :
    s.write64 off v = s.writeCtu (off % 0x10000) v := by
  obtain ⟨h0, h4, hs, hq⟩ := window_facts on
  rw [State.write64]
  repeat rw [if_neg (by omega)]
  exact if_pos ⟨h, h'⟩

theorem State.write64_rly (h : 0x640000 ≤ off) (h' : off < 0x650000) (v : Word) :
    s.write64 off v = s.writeRly (off % 0x10000) v := by
  obtain ⟨h0, h4, hs, hq⟩ := window_facts on
  rw [State.write64]
  repeat rw [if_neg (by omega)]
  exact if_pos ⟨h, h'⟩

theorem State.write64_ge (h : 0xA00000 ≤ off) (h' : off < 0xB30000)
    (hg : s.geIdx ((off - 0xA00000) / 0x10000) = true) (v : Word) :
    s.write64 off v = s.writeGe ((off - 0xA00000) / 0x10000) (off % 0x10000) v := by
  obtain ⟨h0, h4, hs, hq⟩ := window_facts on
  rw [State.write64]
  repeat rw [if_neg (by omega)]
  exact if_pos ⟨h, h', hg⟩

theorem State.read64_qattr (h : 0x120000 ≤ off) (h' : off < 0x121000) : s.read64 off = s.readQattr (off % 0x1000) := by
  obtain ⟨h0, h4, hs, hq⟩ := window_facts on
  rw [State.read64]
  repeat rw [if_neg (by omega)]
  exact if_pos ⟨h, h'⟩

theorem State.read64_plu (h : 0x610000 ≤ off) (h' : off < 0x620000) : s.read64 off = s.readPlu (off % 0x10000) := by
  obtain ⟨h0, h4, hs, hq⟩ := window_facts on
  rw [State.read64]
  repeat rw [if_neg (by omega)]
  exact if_pos ⟨h, h'⟩

theorem State.read64_ctu (h : 0x620000 ≤ off) (h' : off < 0x630000) : s.read64 off = s.readCtu (off % 0x10000) := by
  obtain ⟨h0, h4, hs, hq⟩ := window_facts on
  rw [State.read64]
  repeat rw [if_neg (by omega)]
  exact if_pos ⟨h, h'⟩

theorem State.read64_rly (h : 0x640000 ≤ off) (h' : off < 0x650000) : s.read64 off = s.readRly (off % 0x10000) := by
  obtain ⟨h0, h4, hs, hq⟩ := window_facts on
  rw [State.read64]
  repeat rw [if_neg (by omega)]
  exact if_pos ⟨h, h'⟩

end

theorem State.regWrite_aligned {s : State} {off : Nat} (h : off % 8 = 0) (v : Word) : s.regWrite off v 64 = s.write64 off v :=
  if_pos ⟨rfl, h⟩

/-- A write of 8, 16 or 32 bits, or a misaligned one, is discarded (R5, assumption 31). -/
theorem State.regWrite_other {s : State} {off width : Nat} (h : width ≠ 64 ∨ off % 8 ≠ 0) (v : Word) :
    s.regWrite off v width = s :=
  if_neg (by omega)

theorem State.windowRead_64 {s : State} {off : Nat} (h : off % 8 = 0) : s.windowRead off 64 = s.read64 off :=
  if_pos ⟨rfl, h⟩

theorem leads_write {s u : State} {off : Nat} {v : Word} (h8 : off % 8 = 0) (h : s.write64 off v = u) :
    Leads (.registerWrite off v 64) s u :=
  leads_eq rfl ((State.regWrite_aligned h8 v).trans h)

/-! ## What a register write does -/

/-- `GCS_CTL` with the recovery that its bit 8 asks for begun (Table 13.12, R312). -/
def State.recoverAsked (s : State) (v : Word) : State :=
  let based : State := { s with gcs := { s.gcs with recoverBase := bits v 63 12 } }
  if bit v 8 = true ∧ s.gcs.recoverBusy = false then based.recover else based

theorem State.gcsCtl_eq (s : State) (v : Word) :
    s.gcsCtl v = match bits v 2 0 with
      | 1 => (s.recoverAsked v).resetReq false 2 0
      | 2 => (s.recoverAsked v).resetReq true 2 0
      | 3 => (s.recoverAsked v).firmwareRestart
      | _ => s.recoverAsked v := by
  have asked : s.recoverAsked v =
      let based : State := { s with gcs := { s.gcs with recoverBase := bits v 63 12 } }
      if bit v 8 && !based.gcs.recoverBusy then based.recover else based := by
    unfold State.recoverAsked
    simp only [Bool.and_eq_true, Bool.not_eq_true']
  rw [asked]
  rfl

/-- `GCS_CTL.RESET` of another value than 1 to 3 resets nothing (Table 13.12). -/
theorem State.gcsCtl_none (s : State) {v : Word} (h : bits v 2 0 = 0 ∨ 3 < bits v 2 0) : s.gcsCtl v = s.recoverAsked v := by
  rw [State.gcsCtl_eq]
  split
  case h_4 => rfl
  all_goals omega

theorem State.endRetention_preds (s : State) (c : Nat) (g : Nat × Nat) :
    (s.endRetention c g).plu.preds = s.plu.preds := by
  unfold State.endRetention State.returnGranule
  dsimp only
  split
  · split
    · rfl
    · split
      · rfl
      · split <;> rfl
  · rfl

theorem foldl_keeps_preds {α : Type} {f : State → α → State} (hf : ∀ u x, (f u x).plu.preds = u.plu.preds) (l : List α)
    (u : State) : (l.foldl f u).plu.preds = u.plu.preds := by
  induction l generalizing u with
  | nil => rfl
  | cons x r ih => rw [List.foldl_cons, ih, hf]

/-- What a flush keeps in the table are the entries that it does not pick (R192). -/
theorem State.flushPreds_preds (s : State) (f : Pred → Bool) :
    (s.flushPreds f).plu.preds = s.plu.preds.filter fun p => !f p := by
  unfold State.flushPreds
  rw [foldl_keeps_preds]
  intro u p
  split
  · exact State.endRetention_preds _ _ _
  · rfl

/-- Messages of one vector are recorded in order. -/
theorem State.foldl_msix (l : List Nat) (k : Nat) (s : State) :
    l.foldl (fun s _ => s.msix k) s = { s with out := { s.out with msix := s.out.msix ++ l.map fun _ => k } } := by
  induction l generalizing s with
  | nil => simp
  | cons i r ih =>
    rw [List.foldl_cons, ih]
    simp [State.msix]

/-! ## Keyed lists changed value by value -/

theorem AL.get?_map {κ α β : Type} [DecidableEq κ] (k : κ) (f : α → β) (m : List (κ × α)) :
    AL.get? k (m.map fun p => (p.1, f p.2)) = (AL.get? k m).map f := by
  induction m with
  | nil => rfl
  | cons p r ih =>
    obtain ⟨j, x⟩ := p
    rw [List.map_cons, AL.get?, AL.get?, ih]
    split <;> rfl

/-! ## O48, clause by clause -/

/-- A register that a write fills whole and that reads back masked (R5). -/
theorem write_reads_back {s u : State} {off : Nat} {v m : Word} (h8 : off % 8 = 0) (hu : s.write64 off v = u)
    (hw : u.work = []) (hr : u.read64 off = v &&& m) :
    exec (.registerWrite off v 64) s = .next u ∧ u.windowRead off 64 = v &&& m :=
  ⟨exec_next rfl ((State.regWrite_aligned h8 v).trans hu) hw, (State.windowRead_64 h8).trans hr⟩

theorem registers_read_back {s : State} (v : Word) (hw : s.work = []) (on : s.unitsOn = true) :
    ∀ r ∈ [(0x120000, 0x3FF#64), (0x610000, 0xF000FFF#64), (0x620018, 0xFFFFFFFFFFFFFFFF#64), (0x640010, 0x3FFFFFF#64)],
      ∃ u, exec (.registerWrite r.1 v 64) s = .next u ∧ u.windowRead r.1 64 = v &&& r.2 ∧ u.mem = s.mem ∧
        u.hostMem = s.hostMem ∧ u.out = s.out ∧ u.ctxs = s.ctxs := by
  intro r hr
  simp only [List.mem_cons, List.not_mem_nil, or_false] at hr
  obtain rfl | rfl | rfl | rfl := hr
  · let u : State := { s with cfe := { s.cfe with qsel := bits v 9 0 } }
    have hu : s.write64 0x120000 v = u := State.write64_qattr on (by decide) (by decide) v
    have hr : u.read64 0x120000 = wd (bits v 9 0) := State.read64_qattr (s := u) on (by decide) (by decide)
    obtain ⟨he, hv⟩ := write_reads_back (by decide) hu hw (hr.trans (wd_bits_low v 9))
    exact ⟨u, he, hv, rfl, rfl, rfl, rfl⟩
  · let u : State := { s with plu := { s.plu with ctlSlice := bits v 27 24, ctlCtx := bits v 11 0 } }
    have hu : s.write64 0x610000 v = u := State.write64_plu on (by decide) (by decide) v
    have hr : u.read64 0x610000 = wd (fld (bits v 27 24) 4 24 + fld (bits v 11 0) 12 0) :=
      State.read64_plu (s := u) on (by decide) (by decide)
    obtain ⟨he, hv⟩ := write_reads_back (by decide) hu hw (hr.trans (wd_pool_fields v))
    exact ⟨u, he, hv, rfl, rfl, rfl, rfl⟩
  · let u : State := { s with ctu := { s.ctu with dbgValue := v } }
    have hu : s.write64 0x620018 v = u := State.write64_ctu on (by decide) (by decide) v
    have hr : u.read64 0x620018 = v := State.read64_ctu (s := u) on (by decide) (by decide)
    obtain ⟨he, hv⟩ := write_reads_back (by decide) hu hw (hr.trans ((BitVec.and_allOnes (x := v)).symm))
    exact ⟨u, he, hv, rfl, rfl, rfl, rfl⟩
  · let u : State := { s with rly := { s.rly with level := bits v 25 0 } }
    have hu : s.write64 0x640010 v = u := State.write64_rly on (by decide) (by decide) v
    have hr : u.read64 0x640010 = wd (bits v 25 0) := State.read64_rly (s := u) on (by decide) (by decide)
    obtain ⟨he, hv⟩ := write_reads_back (by decide) hu hw (hr.trans (wd_bits_low v 25))
    exact ⟨u, he, hv, rfl, rfl, rfl, rfl⟩

/-! ### Writes by register -/

section
variable {s : State} (on : s.unitsOn = true) (v : Word)
include on

theorem leads_gcsCtl {u : State} (h : s.gcsCtl v = u) : Leads (.registerWrite 0x20 v 64) s u :=
  leads_write (by decide) ((State.write64_gcs on (by decide) v).trans h)

theorem leads_tthCtl {u : State} (h : s.writeTth 0 v = u) : Leads (.registerWrite 0x30000 v 64) s u :=
  leads_write (by decide) ((State.write64_tth on (by decide) (by decide) v).trans h)

theorem leads_specCtl {u : State} (h : s.writePlu 0x10 v = u) : Leads (.registerWrite 0x610010 v 64) s u :=
  leads_write (by decide) ((State.write64_plu on (by decide) (by decide) v).trans h)

theorem leads_geCtl {g : Nat} (hg : g < s.env.dev.geRegions ∨ g = 18) :
    Leads (.registerWrite (0xA00008 + 0x10000 * g) v 64) s
      (s.setGe g { s.ge g with en := bit v 0, icache := if bit v 1 then [] else (s.ge g).icache }) := by
  have hr : s.env.dev.geRegions ≤ 18 := by cases s.env.dev <;> decide
  have region : (0xA00008 + 0x10000 * g - 0xA00000) / 0x10000 = g := by omega
  have offset : (0xA00008 + 0x10000 * g) % 0x10000 = 8 := by omega
  refine leads_write (by omega) ((State.write64_ge on (by omega) (by omega) ?_ v).trans ?_)
  · rw [region, State.geIdx_iff]; exact hg
  · rw [region, offset]; rfl

theorem leads_dbDeadline {q : Nat} (hq : q < s.env.dev.queues) {u : State} (h : s.dbDeadline q v = u) :
    Leads (.registerWrite (0x200010 + 0x1000 * q) v 64) s u := by
  have page : (0x200010 + 0x1000 * q - 0x200000) / 0x1000 = q := by omega
  have offset : (0x200010 + 0x1000 * q) % 0x1000 = 0x10 := by omega
  refine leads_write (by omega) ((State.write64_db on (by omega) (by omega) v).trans ?_)
  rw [page, offset]; exact h

end

/-- A 32-bit read gives a half of the register; a misaligned read gives zero (R5). -/
theorem State.windowRead_halves (s : State) (off : Nat) :
    (off % 4 ≠ 0 → s.windowRead off 32 = 0) ∧ (off % 8 ≠ 0 → s.windowRead off 64 = 0) ∧
      (off % 8 = 0 → s.windowRead off 32 = s.windowRead off 64 &&& 0xFFFFFFFF#64 ∧
        s.windowRead (off + 4) 32 = s.windowRead off 64 >>> 32) := by
  refine ⟨fun h => ?_, fun h => ?_, fun h => ⟨?_, ?_⟩⟩
  · rw [State.windowRead, if_neg (by omega), if_neg (by omega)]
  · rw [State.windowRead, if_neg (by omega), if_neg (by omega)]
  · rw [State.windowRead_64 h, State.windowRead, if_neg (by omega), if_pos (by omega), if_pos h, wd_bits_low]; rfl
  · rw [State.windowRead_64 h, State.windowRead, if_neg (by omega), if_pos (by omega), if_neg (by omega),
      Nat.add_sub_cancel, wd_bits_high]

theorem statClear_clears {s : State} (hw : s.work = []) (on : s.unitsOn = true) :
    ∃ u, exec .statClear s = .next u ∧ u.stat = { s.stat with hist := [] } ∧ (∀ c, (u.core c).busyNs = 0) ∧
      (∀ c, u.core c = { s.core c with busyNs := (u.core c).busyNs, loadAt := (u.core c).loadAt }) ∧
      (∀ p ∈ u.csq.cores, p.2.loadAt = s.env.now) ∧ u.mem = s.mem ∧ u.gd = s.gd ∧ u.ctxs = s.ctxs := by
  let cores := s.csq.cores.map fun (p : Nat × Core) => (p.1, { p.2 with busyNs := 0, loadAt := s.env.now })
  let u : State := { s with stat := { s.stat with hist := [] }, csq := { s.csq with cores := cores } }
  have cleared : s.statClear = u := by rw [State.statClear, if_neg (by simp [on])]
  have lookup (c : Nat) : AL.get? c cores = (AL.get? c s.csq.cores).map fun x : Core => { x with busyNs := 0, loadAt := s.env.now } :=
    AL.get?_map c (fun x : Core => { x with busyNs := 0, loadAt := s.env.now }) s.csq.cores
  have core (c : Nat) : u.core c = { s.core c with busyNs := 0, loadAt := (u.core c).loadAt } := by
    show AL.get cores c = { AL.get s.csq.cores c with busyNs := 0, loadAt := (AL.get cores c).loadAt }
    rw [AL.get, AL.get, lookup]
    cases AL.get? c s.csq.cores <;> rfl
  refine ⟨u, exec_next rfl cleared hw, rfl, fun c => by rw [core c], fun c => ?_, ?_, rfl, rfl, rfl⟩
  · rw [core c]
  · intro p hp
    obtain ⟨x, -, rfl⟩ := List.mem_map.1 hp
    rfl

/-! ### Interrupt and error-ring registers -/

/-- Setting the enable bit of a set event sends vector 0, once an event (R362). -/
theorem State.irqEnableWrite_eq {s : State} (h0 : s.gcs.state ≠ 0) (v : Word) :
    let new : BitVec 7 := BitVec.ofNat 7 v.toNat
    let rise := (List.range 7).filter fun i => s.gcs.irqStatus.getLsbD i && new.getLsbD i && !s.gcs.irqEnable.getLsbD i
    s.irqEnableWrite v = { s with
      gcs := { s.gcs with irqEnable := new }, out := { s.out with msix := s.out.msix ++ rise.map fun _ => 0 } } := by
  rw [State.irqEnableWrite, if_neg h0]
  exact State.foldl_msix _ 0 _

section
variable {s : State} (h0 : s.gcs.state ≠ 0) (v : Word)
include h0

theorem State.errBaseWrite_enabled (he : s.fsu.errEn = true) :
    s.errBaseWrite v = { s with fsu := { s.fsu with errEn := bit v 0 } } := by
  rw [State.errBaseWrite, if_neg h0, if_pos he]

/-- EN is set only with a size in range, and zeroes the ring's pointers (R337). -/
theorem State.errBaseWrite_enables (he : s.fsu.errEn = false) (hv : bit v 0 = true) (hl : 12 ≤ s.fsu.errLog)
    (hu : s.fsu.errLog ≤ 26) :
    s.errBaseWrite v = { s with fsu := { s.fsu with
      errBase := bits v 63 12, errHost := bit v 11, errEn := true, errHead := 0, errTail := 0, errArmed := true } } := by
  rw [State.errBaseWrite, if_neg h0, if_neg (by simp [he])]
  exact if_pos (by simp [hv, hl, hu])

theorem State.errBaseWrite_stays (he : s.fsu.errEn = false)
    (h : bit v 0 = false ∨ s.fsu.errLog < 12 ∨ 26 < s.fsu.errLog) :
    s.errBaseWrite v = { s with fsu := { s.fsu with errBase := bits v 63 12, errHost := bit v 11 } } := by
  rw [State.errBaseWrite, if_neg h0, if_neg (by simp [he])]
  refine if_neg ?_
  simp only [Bool.and_eq_true, decide_eq_true_eq]
  rintro ⟨⟨hv, hl⟩, hu⟩
  rw [hv] at h
  simp only [Bool.true_eq_false, false_or] at h
  omega

/-- A head that the ring can have re-arms the level interrupt when it takes the fill below the level (R272). -/
theorem State.errHeadWrite_within
    (h : s.fsu.errEn = false ∨ (s.fsu.errTail - BitVec.ofNat 32 v.toNat).toNat ≤ s.errCap) :
    s.errHeadWrite v = { s with fsu := { s.fsu with
      errHead := BitVec.ofNat 32 v.toNat
      errArmed := s.fsu.errArmed || decide ((s.fsu.errTail - BitVec.ofNat 32 v.toNat).toNat < s.fsu.errLevel) } } := by
  have fits : ¬ (s.fsu.errEn = true ∧ s.errCap < (s.fsu.errTail - BitVec.ofNat 32 v.toNat).toNat) := by
    rintro ⟨he, hc⟩
    rw [he] at h
    simp only [Bool.true_eq_false, false_or] at h
    omega
  rw [State.errHeadWrite, if_neg h0]
  dsimp only
  rw [if_neg fits, State.errFill]
  by_cases hf : (s.fsu.errTail - BitVec.ofNat 32 v.toNat).toNat < s.fsu.errLevel
  · rw [if_pos hf, decide_eq_true hf, Bool.or_true]
  · rw [if_neg hf, decide_eq_false hf, Bool.or_false]

theorem State.errHeadWrite_beyond (he : s.fsu.errEn = true)
    (h : s.errCap < (s.fsu.errTail - BitVec.ofNat 32 v.toNat).toNat) : s.errHeadWrite v = s.errReset := by
  rw [State.errHeadWrite, if_neg h0]
  exact if_pos ⟨he, h⟩

end

/-- Settles O48: each clause is the equation of its register's write, and a write leads to what it does. -/
theorem registerCommands : Obligations.RegisterCommands := by
  unfold Obligations.RegisterCommands
  intro s v hw on
  obtain ⟨h0, -⟩ := State.window_facts on
  refine ⟨fun off width h => exec_next rfl (State.regWrite_other h v) hw, registers_read_back v hw on, ?_,
    s.windowRead_halves, ?_, ?_, fun g hg => ?_, statClear_clears hw on, ⟨?_, ?_⟩, fun he => ?_, fun he => ⟨fun hv hl hu => ?_,
    fun h => ?_⟩, fun h => ?_, fun he h => ?_⟩
  · refine ⟨fun h => leads_gcsCtl on v ?_, fun h => leads_gcsCtl on v ?_, fun h => leads_gcsCtl on v ?_,
      fun h => leads_gcsCtl on v (State.gcsCtl_none s h), fun h => leads_tthCtl on v (if_neg (by simp [h])),
      fun h => leads_tthCtl on v (if_pos h),
      leads_write (by decide) (State.write64_gd on (by decide) (by decide) v),
      fun h => leads_specCtl on v (if_neg (by simp [h])), fun h => leads_specCtl on v ((if_pos h).trans (if_pos on)),
      leads_write (by decide) (State.write64_ctu on (by decide) (by decide) v), fun g hg => leads_geCtl on v hg,
      leads_write (by decide) (State.write64_fsu on (by decide) (by decide) v),
      fun q hq => ⟨fun h => leads_dbDeadline on v hq (if_pos h), fun h => leads_dbDeadline on v hq (if_neg h)⟩⟩
    all_goals rw [State.gcsCtl_eq, h]; rfl
  · exact leads_eq rfl (if_pos on)
  · rw [State.flushPreds_preds]; simp
  · refine exec_next rfl ?_ hw
    rw [State.icacheInv, if_pos]
    rw [on, (State.geIdx_iff s g).2 hg]; rfl
  · exact exec_next rfl (State.irqEnableWrite_eq h0 v) hw
  · exact exec_next rfl (if_neg h0) hw
  · exact exec_next rfl (State.errBaseWrite_enabled h0 v he) hw
  · exact exec_next rfl (State.errBaseWrite_enables h0 v he hv hl hu) hw
  · exact exec_next rfl (State.errBaseWrite_stays h0 v he h) hw
  · exact exec_next rfl (State.errHeadWrite_within h0 v h) hw
  · exact leads_eq rfl (State.errHeadWrite_beyond h0 v he h)

end Sys2Proof.Machine

namespace Sys2Proof.Machine

/-! ## What asks for a reset, and which (R295, R307, R311) -/

/-- Quiesced for a reset that `GCS_CTL` asks for: the cores trapped, the RESET record staged and the stud book written (Table 13.2). -/
def State.resetDrained (s : State) (cold : Bool) : State :=
  (State.stage ((s.csq.cores.map Prod.fst).foldl (State.quiesceCore s.env.now) s) 0x03
    [wd (0x200 + if cold then 1 else 2), 0, 0, 0]).flushOrdered

/-- What a cold reset leaves of a quiesced block. -/
def State.coldCleared (s : State) : State := s.cleared.keepPins s

/-- What a warm reset leaves of a quiesced block. -/
def State.warmCleared (s : State) : State := s.coldCleared.keepSticky s

theorem State.resetNow_cold (s : State) : s.resetNow true 2 0 = (s.resetDrained true).coldCleared.startSteps 2 := rfl

theorem State.resetNow_warm (s : State) : s.resetNow false 2 0 = (s.resetDrained false).warmCleared.startSteps 3 := by
  unfold State.resetNow
  dsimp only
  rw [if_neg (by decide), if_neg (by decide), if_neg (by decide)]
  rfl

theorem State.resetReq_off {s : State} (h : s.gcs.state = 0) (cold : Bool) (trigger code : Nat) :
    s.resetReq cold trigger code = s :=
  if_pos h

theorem State.resetReq_cold {s : State} (h : s.gcs.state ≠ 0) (trigger code : Nat) :
    s.resetReq true trigger code = s.resetNow true trigger code := by
  simp [State.resetReq, h]

/-- While the block boots, `GCS_CTL` resets it cold whatever it asks for (R307). -/
theorem State.resetReq_booting {s : State} (h : s.gcs.state = 1) (cold : Bool) (code : Nat) :
    s.resetReq cold 2 code = s.resetNow true 2 code := by
  simp [State.resetReq, h]

theorem State.resetReq_warm {s : State} (h : s.gcs.state = 2 ∨ s.gcs.state = 3) (code : Nat) :
    s.resetReq false 2 code = s.resetNow false 2 code := by
  obtain h | h := h <;> simp [State.resetReq, h]

/-- In safe mode a warm reset does not act (R311). -/
theorem State.resetReq_warm_safe {s : State} (h : s.gcs.state = 4) (code : Nat) :
    s.resetReq false 2 code = { s with fsu := { s.fsu with resetPending := false } } := by
  simp [State.resetReq, h]

theorem leads_coldReset {s v : State} {t : Nat} (h : (s.at t).resetReq true 2 0 = v) : Leads (.coldReset t) s v :=
  leads_eq rfl h

theorem leads_warmReset {s v : State} {t : Nat} (h : (s.at t).resetReq false 2 0 = v) : Leads (.warmReset t) s v :=
  leads_eq rfl h

/-! ## What a reset clears and keeps (R296, R297, Table 13.3) -/

/-- A key's value that a filter lets through is still the one found under the key. -/
theorem AL.get?_filter {κ α : Type} [DecidableEq κ] {k : κ} {x : α} {f : κ × α → Bool} {m : List (κ × α)}
    (h : AL.get? k m = some x) (hf : f (k, x) = true) : AL.get? k (m.filter f) = some x := by
  induction m with
  | nil => cases h
  | cons p r ih =>
    obtain ⟨j, y⟩ := p
    rw [AL.get?] at h
    by_cases e : j = k
    · rw [if_pos e] at h
      obtain rfl := e
      obtain rfl := Option.some.inj h
      rw [List.filter_cons_of_pos hf, AL.get?, if_pos rfl]
    · rw [if_neg e] at h
      rw [List.filter_cons]
      split
      · rw [AL.get?, if_neg e]; exact ih h
      · exact ih h

/-- A warm reset keeps of the cores those out of service, and of each that alone (R8, Table 13.3). -/
theorem State.get?_cores_warmCleared (o : State) (k : Nat) : AL.get? k o.warmCleared.csq.cores =
    (AL.get? k (o.csq.cores.filter fun p => p.2.withdrawn)).map fun _ => ({ withdrawn := true } : Core) :=
  AL.get?_map k (fun _ : Core => ({ withdrawn := true } : Core)) _

/-- Of a core a warm reset keeps at most that it is out of service (R8, Table 13.3). -/
theorem State.core_warmCleared (o : State) (k : Nat) :
    o.warmCleared.core k = { withdrawn := true } ∨ o.warmCleared.core k = {} := by
  rw [State.core, AL.get, State.get?_cores_warmCleared]
  cases AL.get? k (o.csq.cores.filter fun p => p.2.withdrawn)
  · exact .inr rfl
  · exact .inl rfl

/-- A core out of service stays so over a warm reset. -/
theorem State.core_warmCleared_withdrawn {o : State} {k : Nat} (h : (o.core k).withdrawn = true) :
    (o.warmCleared.core k).withdrawn = true := by
  rw [State.core, AL.get] at h ⊢
  rw [State.get?_cores_warmCleared]
  cases hc : AL.get? k o.csq.cores with
  | none => rw [hc] at h; cases h
  | some x =>
    rw [hc] at h
    rw [AL.get?_filter hc h]
    rfl

/-- What a reset of either kind clears and keeps. -/
theorem State.reset_clears (o : State) {v : State} (hv : v = o.coldCleared ∨ v = o.warmCleared) :
    let z := State.resetOn o.env.dev
    v.cfe = z.cfe ∧ v.ctxs = [] ∧ v.ctu = z.ctu ∧ v.gd = z.gd ∧ v.car = z.car ∧ v.rly = z.rly ∧ v.plu = z.plu ∧
      v.dcache = z.dcache ∧ v.stat = z.stat ∧ (∀ k, (v.core k).running = none ∧ (v.core k).saddle = none ∧ (v.core k).lq = []) ∧
      v.work = [] ∧ v.mem = o.mem ∧ v.hostMem = o.hostMem ∧ v.flash = o.flash ∧ v.gcs.gait = o.gcs.gait ∧ v.gcs.irqStatus = 0 := by
  obtain rfl | rfl := hv
  · exact ⟨rfl, rfl, rfl, rfl, rfl, rfl, rfl, rfl, rfl, fun _ => ⟨rfl, rfl, rfl⟩, rfl, rfl, rfl, rfl, rfl, rfl⟩
  · refine ⟨rfl, rfl, rfl, rfl, rfl, rfl, rfl, rfl, rfl, fun k => ?_, rfl, rfl, rfl, rfl, rfl, rfl⟩
    obtain h | h := o.core_warmCleared k <;> rw [h] <;> exact ⟨rfl, rfl, rfl⟩

/-! ## The start watchdog and RECOVER (R307, R312) -/

theorem State.startWatchdog_expired {s : State} {p : Nat} (hp : s.fwc.watchdog = some p) (ht : p + 10000000000 ≤ s.env.now)
    (h0 : s.gcs.state ≠ 0) (h4 : s.gcs.state ≠ 4) : s.startWatchdog = s.resetNow false 4 0 := by
  unfold State.startWatchdog
  rw [hp]
  exact if_pos ⟨ht, h0, h4⟩

section
variable {s : State} (h4 : s.gcs.state = 4)
include h4

/-- An image that passes the checks is programmed when RECOVER is presented again (assumption 36). -/
theorem State.recover_checked (hx : s.imageFail? (s.readImage (s.gcs.recoverBase * 4096)) = none)
    (hb : s.gcs.recoverBusy = false) : s.recover = { s with gcs := { s.gcs with recoverBusy := true } } := by
  rw [State.recover, if_neg (not_not.2 h4)]
  simp only [hb, hx, Bool.false_eq_true, if_false]

theorem State.recover_programs {x : Image} (e : s.readImage (s.gcs.recoverBase * 4096) = x)
    (hx : s.imageFail? x = none) (hb : s.gcs.recoverBusy = true) (hf : s.env.flashOk = true) :
    s.recover = ((s.setImage false x).setTack { (s.setImage false x).tack with failA := 0, prefB := false }).resetNow true 5 0 := by
  rw [State.recover, if_neg (not_not.2 h4)]
  simp only [e, hb, hx, hf, Bool.not_true, Bool.false_eq_true, if_true, if_false]

theorem State.recover_unprogrammed {x : Image} (e : s.readImage (s.gcs.recoverBase * 4096) = x)
    (hx : s.imageFail? x = none) (hb : s.gcs.recoverBusy = true) (hf : s.env.flashOk = false) :
    s.recover = (s.setImage false {}).recoverRefuse 6 x := by
  rw [State.recover, if_neg (not_not.2 h4)]
  simp only [e, hb, hx, hf, Bool.not_false, if_true]

/-- A refused image ends the recovery; its slot has been erased if the programming had begun. -/
theorem State.recover_refused {x : Image} {k : Nat} (e : s.readImage (s.gcs.recoverBase * 4096) = x)
    (hx : s.imageFail? x = some k) :
    s.recover = (if s.gcs.recoverBusy then s.setImage false {} else s).recoverRefuse k x := by
  rw [State.recover, if_neg (not_not.2 h4)]
  cases hb : s.gcs.recoverBusy <;> simp only [e, hx, Bool.false_eq_true, if_true, if_false]

end

/-- Settles O25: which reset a request makes, what either kind clears and keeps, and how the start watchdog and RECOVER end. -/
theorem resetsAndRecovery : Obligations.ResetsAndRecovery := by
  unfold Obligations.ResetsAndRecovery
  intro s t
  refine ⟨fun h => ⟨?_, ?_⟩, fun h => ⟨?_, ?_⟩, fun h => ⟨?_, ?_⟩, fun h => ⟨?_, ?_⟩, fun o => ⟨fun v => o.reset_clears, ?_⟩,
    fun p hp ht h0 h4 => ?_, fun h => ⟨fun hx hb => ?_, fun hx hb hf => ?_, fun hx hb hf => ?_, fun k hx => ?_⟩⟩
  · exact leads_warmReset ((State.resetReq_warm (s := s.at t) h 0).trans (State.resetNow_warm _))
  · exact leads_coldReset ((State.resetReq_cold (s := s.at t) (by rw [State.at_gcs]; omega) 2 0).trans (State.resetNow_cold _))
  · exact leads_warmReset ((State.resetReq_booting (s := s.at t) h false 0).trans (State.resetNow_cold _))
  · exact leads_coldReset ((State.resetReq_booting (s := s.at t) h true 0).trans (State.resetNow_cold _))
  · exact leads_coldReset ((State.resetReq_cold (s := s.at t) (by rw [State.at_gcs]; omega) 2 0).trans (State.resetNow_cold _))
  · exact leads_warmReset (State.resetReq_warm_safe (s := s.at t) h 0)
  · exact leads_warmReset (State.resetReq_off (s := s.at t) h false 2 0)
  · exact leads_coldReset (State.resetReq_off (s := s.at t) h true 2 0)
  · exact ⟨rfl, rfl, rfl, rfl, rfl, rfl, rfl, rfl, rfl, fun _ => State.core_warmCleared_withdrawn, rfl, rfl, rfl, rfl, rfl⟩
  · exact leads_eq rfl (State.startWatchdog_expired hp ht h0 h4)
  · exact leads_eq rfl (State.recover_checked (s := s.at t) h hx hb)
  · exact leads_eq rfl (State.recover_programs (s := s.at t) h rfl hx hb hf)
  · exact leads_eq rfl (State.recover_unprogrammed (s := s.at t) h rfl hx hb hf)
  · exact leads_eq rfl (State.recover_refused (s := s.at t) h rfl hx)

end Sys2Proof.Machine

namespace Sys2Proof.Machine

/-! ## A core that hands back its task (R113, R122, R174) -/

/-- The state in which a core has completed or yielded its task on channel `ch` of its port. -/
def State.answered (s : State) (c ch : Nat) : State := (s.xferClose c [2, 4, 5, 8]).xferOpen c ch

/-- On the core itself an answer changes only the transfers at its port. -/
theorem State.core_answered (s : State) (c ch : Nat) : ∃ l, (s.answered c ch).core c = { s.core c with xfer := l } := by
  rw [State.answered, State.xferOpen, State.core_updCore_self, State.xferClose, State.core_updCore_self]
  split
  · exact ⟨_, rfl⟩
  · exact ⟨_, rfl⟩

theorem State.core_coreOff_self (s : State) (c ctx : Nat) :
    (s.coreOff c ctx).core c = { s.core c with running := none, cc := [], ccWaits := [], busyNs := s.busyOf c } :=
  State.core_updCore_self s c fun k => { k with running := none, cc := [], ccWaits := [], busyNs := s.busyOf c }

/-- A core that runs a task has spent the time since its load was last taken on it (Table 4.11). -/
theorem State.busyOf_running {s : State} {c : Nat} {y : Running} (hy : (s.core c).running = some y) :
    s.busyOf c = ((s.core c).busyNs + (s.env.now - (s.core c).loadAt)) % 2 ^ 64 := by
  simp [State.busyOf, hy]

/-- An answer takes nothing from the load that the core hands back (R122). -/
theorem State.core_answered_coreOff {s : State} {c : Nat} {y : Running} (hy : (s.core c).running = some y) (ch ctx : Nat) :
    (((s.answered c ch).coreOff c ctx).core c).busyNs = ((s.core c).busyNs + (s.env.now - (s.core c).loadAt)) % 2 ^ 64 ∧
      (((s.answered c ch).coreOff c ctx).core c).running = none := by
  obtain ⟨l, hcore⟩ := s.core_answered c ch
  rw [State.core_coreOff_self, State.busyOf_running (y := y) (by rw [hcore]; exact hy), hcore]
  exact ⟨rfl, rfl⟩

/-! ## Completions (R113, R200, R279) -/

theorem State.holds_coreDone {s : State} (c t : Nat) (occ : Word) (ws : List Work) (hg : s.gcs.changing = false)
    (hp : s.seqPaused c = false) : ((s.at t).push ws).holds (.done c occ) = s.holdFull c := by
  change (s.gcs.changing || s.holdFull c || s.seqPaused c) = s.holdFull c
  rw [hg, hp, Bool.false_or, Bool.or_false]

theorem State.holds_coreYield {s : State} (c t : Nat) (ws : List Work) (hg : s.gcs.changing = false)
    (hp : s.seqPaused c = false) : ((s.at t).push ws).holds (.yield c) = false := by
  change (s.gcs.changing || s.seqPaused c) = false
  rw [hg, hp, Bool.false_or]

theorem leads_coreDone {s v : State} {c t : Nat} {occ : Word} (hs : s.steady) (hp : s.seqPaused c = false)
    (hf : s.holdFull c = false) (hv : (s.at t).coreDone c occ = v) : Leads (.coreDone c occ t) s v :=
  leads_push rfl hs.1 ((State.holds_coreDone c t occ _ hs.2 hp).trans hf) hv

theorem coreDone_waits {s : State} {c t : Nat} {occ : Word} (hs : s.steady) (hp : s.seqPaused c = false)
    (hf : s.holdFull c = true) : exec (.coreDone c occ t) s = .next ((s.at t).push [.done c occ]) :=
  next_held rfl hs.1 ((State.holds_coreDone c t occ _ hs.2 hp).trans hf)

theorem leads_coreYield {s v : State} {c t : Nat} (hs : s.steady) (hp : s.seqPaused c = false)
    (hv : (s.at t).coreYield c = v) : Leads (.coreYield c t) s v :=
  leads_push rfl hs.1 (State.holds_coreYield c t _ hs.2 hp) hv

section
variable {s : State} {c : Nat} {y : Running} (hy : (s.core c).running = some y)
include hy

theorem State.coreDone_lost (occ : Word) (hl : y.lost = true) : s.coreDone c occ = s := by
  simp only [State.coreDone, hy, hl, if_true]

theorem State.coreDone_discarded (occ : Word) (hl : y.lost = false) (hd : y.discard = true) :
    s.coreDone c occ = (s.answered c 3).coreOff c y.p.e.ref.ctx := by
  simp only [State.coreDone, hy, hl, hd, Bool.false_eq_true, if_true, if_false, State.answered]

theorem State.coreDone_plain (occ : Word) (hl : y.lost = false) (hd : y.discard = false) (hz : y.p.spec = none) :
    s.coreDone c occ = ((s.answered c 3).coreOff c y.p.e.ref.ctx).finishTask c y.p.e.ref occ y.suppressed := by
  simp only [State.coreDone, hy, hl, hd, hz, Bool.false_eq_true, if_false, State.answered]

/-- A speculative task's completion: suppressed, committed as its confirmation has come, or held for it. -/
theorem State.coreDone_spec (occ : Word) {z : Spec} (hl : y.lost = false) (hd : y.discard = false) (hz : y.p.spec = some z) :
    s.coreDone c occ =
      let off := (s.answered c 3).coreOff c y.p.e.ref.ctx
      let h : Held := { run := y, occ := occ, core := c % 8 }
      if y.suppressed then off.retireTask y.p.e.ref .suppressed (some (c / 8)) (some (c % 8))
      else if z.confirmed then off.push [.commit (c / 8) h]
      else off.setCluster (c / 8) { off.cluster (c / 8) with hold := (off.cluster (c / 8)).hold ++ [h] } := by
  simp only [State.coreDone, hy, hl, hd, hz, Bool.false_eq_true, if_false, State.answered]

end

section
variable {s : State} {r : TaskRef} {x : Inst} {k : Task} (hx : s.inst? r.ctx r.inst = some x) (hk : s.task? r = some k)
include hx hk

/-- A completed task: suppressed, late as its step has been cancelled, or normal with its occupancies recorded (R113, R252). -/
theorem State.finishTask_eq (c : Nat) (occ : Word) (suppressed : Bool) : s.finishTask c r occ suppressed =
    if suppressed then s.retireTask r .suppressed (some (c / 8)) (some (c % 8))
    else if x.cancelled then s.lateResult r
    else (s.recordOcc r.ctx (s.outputs k.desc x.base) (bit occ)).retireTask r .normal (some (c / 8)) (some (c % 8)) := by
  simp only [State.finishTask, hx, hk]

end

/-! ## Yields (R174, R175) -/

theorem State.effOf_inst {s : State} {r : TaskRef} {x : Inst} (hx : s.inst? r.ctx r.inst = some x) : s.effOf r = effIdx x r.idx := by
  simp only [State.effOf, hx]

section
variable {s : State} {c : Nat} {y : Running} (hy : (s.core c).running = some y)
include hy

theorem State.coreYield_unasked (h : y.lost = true ∨ y.rein = false ∧ y.trap = false) : s.coreYield c = s := by
  simp only [State.coreYield, hy]
  rw [if_pos (by simpa using h)]

variable (hl : y.lost = false) (h : y.rein = true ∨ y.trap = true)
include hl h

/-- A yield that answers a rein or a trap. -/
theorem State.coreYield_asked : s.coreYield c =
    let o := s.answered c 6
    let r := y.p.e.ref
    let gone := (o.coreOff c r.ctx).taskGone r .discarded
    if y.discard then o.coreOff c r.ctx
    else if o.unsaved y then if y.trap then gone.overrun r (o.effOf r) c 3 (o.seqPos (c / 8)) else gone
    else if y.trap then ((o.updTask r fun t => { t with overruns := sat 0xFFFF (t.overruns + 1) }).saveTask c y).overrun r (o.effOf r)
      c 3 (o.seqPos (c / 8))
    else o.saveTask c y := by
  have asked : ¬ (y.lost || !y.rein && !y.trap) = true := by
    rw [hl]; obtain h | h := h <;> simp [h]
  simp only [State.coreYield, hy]
  rw [if_neg asked]
  rfl

theorem State.coreYield_discarded (hd : y.discard = true) : s.coreYield c = (s.answered c 6).coreOff c y.p.e.ref.ctx :=
  (State.coreYield_asked hy hl h).trans (if_pos hd)

variable (hd : y.discard = false)
include hd

section
variable (hv : (s.answered c 6).unsaved y = false)
include hv

theorem State.coreYield_reined_saved (ht : y.trap = false) : s.coreYield c = (s.answered c 6).saveTask c y := by
  rw [State.coreYield_asked hy hl h]
  simp only [hd, hv, ht, Bool.false_eq_true, if_false]

theorem State.coreYield_trapped_saved (ht : y.trap = true) {x : Inst}
    (hx : (s.answered c 6).inst? y.p.e.ref.ctx y.p.e.ref.inst = some x) : s.coreYield c =
      (((s.answered c 6).updTask y.p.e.ref fun t => { t with overruns := min (t.overruns + 1) 0xFFFF }).saveTask c y).overrun y.p.e.ref
        (effIdx x y.p.e.ref.idx) c 3 ((s.answered c 6).seqPos (c / 8)) := by
  rw [State.coreYield_asked hy hl h, ← State.effOf_inst hx]
  simp only [hd, hv, ht, Bool.false_eq_true, if_true, if_false, sat]

end

section
variable (hv : (s.answered c 6).unsaved y = true)
include hv

theorem State.coreYield_reined_unsaved (ht : y.trap = false) :
    s.coreYield c = ((s.answered c 6).coreOff c y.p.e.ref.ctx).taskGone y.p.e.ref .discarded := by
  rw [State.coreYield_asked hy hl h]
  simp only [hd, hv, ht, Bool.false_eq_true, if_true, if_false]

theorem State.coreYield_trapped_unsaved (ht : y.trap = true) {x : Inst}
    (hx : (s.answered c 6).inst? y.p.e.ref.ctx y.p.e.ref.inst = some x) : s.coreYield c =
      (((s.answered c 6).coreOff c y.p.e.ref.ctx).taskGone y.p.e.ref .discarded).overrun y.p.e.ref
        (effIdx x y.p.e.ref.idx) c 3 ((s.answered c 6).seqPos (c / 8)) := by
  rw [State.coreYield_asked hy hl h, ← State.effOf_inst hx]
  simp only [hd, hv, ht, Bool.false_eq_true, if_true, if_false]

end
end

/-! ## Budgets (R175) -/

theorem State.core_of_runningOn {s : State} {c : Nat} {y : Running} (h : s.runningOn c = some y) :
    (s.core c).running = some y ∧ y.discard = false := by
  unfold State.runningOn at h
  split at h
  · next z hz =>
    split at h
    · cases h
    · next hd => cases h; exact ⟨hz, by simpa using hd⟩
  · cases h

theorem State.toPort_work (s : State) (c : Nat) (l : List PortOut) : (s.toPort c l).work = s.work := by
  unfold State.toPort
  exact List.foldlRecOn (motive := fun (u : State) => u.work = s.work) l _ rfl fun _ h _ _ => h

section
variable {s : State} {c : Nat} {y : Running} (hy : s.runningOn c = some y)
include hy

theorem State.raiseTrap_saving : s.raiseTrap c false =
    (s.updCore c fun k => { k with running := some { y with trap := true } }).toPort c [.trap (s.runSlot y) false] := by
  simp only [State.raiseTrap, (State.core_of_runningOn hy).1, Bool.or_false]

theorem State.budgetExpiry_early (h : s.env.now < y.spurAt + y.budget) : s.budgetExpiry c = s := by
  simp only [State.budgetExpiry, hy]
  exact if_pos (.inl h)

theorem State.budgetExpiry_late (h : y.spurAt + y.budget ≤ s.env.now) (ht : y.trap = false) : s.budgetExpiry c =
    if y.p.spec.isSome then s.push [.refute y.p.e.ref 4] else s.raiseTrap c false := by
  simp only [State.budgetExpiry, hy]
  exact if_neg (by simp [ht, h])

end

/-! ## Retirement (R58, R76, R83, R186, R187) -/

/-- What a task that retires normal, pruned or failed does once its outputs stand: it signals or poisons its targets, is gone, and
sends its decrements, which follow the signals to the counters of `after`. -/
def State.retireActing (s : State) (r : TaskRef) (how : How) (d : List Word) (eff : Nat) (after : List Nat) : State :=
  let failed : Bool := decide (how = .failed)
  ((((s.signals d).foldl (fun u p => u.taskSignal r.ctx eff failed p) s).markGone r how).sendDecrements r d eff failed after).instCheck r

theorem State.markGone_gone {s : State} {r : TaskRef} {k : Task} (hk : s.task? r = some k) (hg : k.isGone = true) (how : How) :
    s.markGone r how = s := by
  simp only [State.markGone, hk, hg, if_true]

theorem State.markGone_live {s : State} {r : TaskRef} {k : Task} (hk : s.task? r = some k) (hg : k.isGone = false) (how : How) :
    s.markGone r how = ((((((s.updTask r fun t => { t with st := .gone how, goneAt := s.env.now }).freeSlots r).nearDrop r).dropCands
      fun e => e.ref = r).flowNext r k.desc).testPlace r.ctx) := by
  simp only [State.markGone, hk, hg, Bool.false_eq_true, if_false]

section
variable {s : State} {r : TaskRef} {x : Inst} {k : Task} (hx : s.inst? r.ctx r.inst = some x) (hk : s.task? r = some k)
include hx hk

theorem State.retireTask_gone (hg : k.isGone = true) (how : How) (cl co : Option Nat) : s.retireTask r how cl co = s := by
  simp only [State.retireTask, hx, hk, hg, if_true]

section
variable (hg : k.isGone = false) (cl co : Option Nat)
include hg

theorem State.retireTask_normal :
    s.retireTask r .normal cl co = (s.trace r 3 cl co).retireActing r .normal k.desc (effIdx x r.idx) [] := by
  simp [State.retireTask, State.retireActing, hx, hk, hg]

theorem State.retireTask_failed :
    s.retireTask r .failed cl co = (s.trace r 5 cl co).retireActing r .failed k.desc (effIdx x r.idx) [] := by
  simp [State.retireTask, State.retireActing, hx, hk, hg]

/-- A pruned task's outputs become empty first, and its decrements follow its signals to the context's own counters (R187). -/
theorem State.retireTask_pruned {v m : State} (hv : s.trace r 4 cl co = v)
    (hm : { v.emptyOutputs r.ctx (v.outputs k.desc x.base) with stat := { v.stat with pruned := v.stat.pruned + 1 } } = m) :
    s.retireTask r .pruned cl co = m.retireActing r .pruned k.desc (effIdx x r.idx)
      (((m.signals k.desc).filter fun p => !bit p.1 56).map fun p => bits p.1 23 0) := by
  subst hv hm
  simp [State.retireTask, State.retireActing, hx, hk, hg]

theorem State.retireTask_suppressed :
    s.retireTask r .suppressed cl co = ((s.trace r 6 cl co).markGone r .suppressed).instCheck r := by
  simp [State.retireTask, hx, hk, hg]

theorem State.retireTask_unseen {how : How} (h : how = .discarded ∨ how = .late) :
    s.retireTask r how cl co = (s.markGone r how).instCheck r := by
  obtain rfl | rfl := h <;> simp [State.retireTask, hx, hk, hg]

end
end

theorem State.taskSignal_remote (s : State) (c eff : Nat) (poison : Bool) {p : Word × Word} (h : bit p.1 56 = true) :
    s.taskSignal c eff poison p = s.push
      [.trail { dest := bits p.1 9 0, inc := bits p.1 55 24, handle := p.2, poison := poison, sender := .task c }] :=
  if_pos h

section
variable {s : State} {c : Nat} {p : Word × Word} (hl : bit p.1 56 = false)
include hl

theorem State.taskSignal_outside (eff : Nat) (poison : Bool) (h : s.idLimit c ≤ bits p.1 23 0) :
    s.taskSignal c eff poison p = s.push [.faultCtx c 0x04 (bits p.1 23 0) 1 eff] := by
  rw [State.taskSignal, if_neg (by simp [hl]), if_pos h]

theorem State.taskSignal_own (eff : Nat) (poison : Bool) (h : bits p.1 23 0 < s.idLimit c) :
    s.taskSignal c eff poison p = s.push
      [if poison then .poison c (bits p.1 23 0) else .signal c (bits p.1 23 0) (bits p.1 55 24) { code := 2, arg := eff } none] := by
  rw [State.taskSignal, if_neg (by simp [hl]), if_neg (by omega)]
  cases poison <;> rfl

end

/-- Decrements alone are sent, and each successor is named in one to the sequencer that owns its line (R94, R113). -/
theorem State.sendDecrements_pushes (s : State) (r : TaskRef) (d : List Word) (eff : Nat) (failed : Bool) (after : List Nat) :
    ∃ l, s.sendDecrements r d eff failed after = s.push l ∧
      (∀ w ∈ l, ∃ o is, w = .decr o r.ctx r.inst eff failed after is) ∧
      ∀ i ∈ s.successors d, ∀ o, (s.owner? r.ctx r.inst i).getD (s.presentList.headD 0) = o → o < s.env.dev.clusters →
        ∃ is, i ∈ is ∧ .decr o r.ctx r.inst eff failed after is ∈ l := by
  refine ⟨_, rfl, fun w hw => ?_, fun i hi o ho hlt => ?_⟩
  · obtain ⟨o, -, hw⟩ := List.mem_filterMap.1 hw
    dsimp only at hw
    split at hw
    · cases hw
    · exact ⟨o, _, (Option.some.inj hw).symm⟩
  · have mine : i ∈ ((((s.successors d).map fun i => ((s.owner? r.ctx r.inst i).getD (s.presentList.headD 0), i)).filter
        fun p => p.1 = o).map Prod.snd) :=
      List.mem_map.2 ⟨(o, i), List.mem_filter.2 ⟨List.mem_map.2 ⟨i, hi, by rw [ho]⟩, by simp⟩, rfl⟩
    exact ⟨_, mine, List.mem_filterMap.2 ⟨o, List.mem_range.2 hlt, if_neg (List.ne_nil_of_mem mine)⟩⟩

/-! ## Decrements (R21, R83, R84, R193) -/

/-- The last decrement of a task resolves its prediction site: its gate has retired normal, and it has not been dispatched
speculatively (R193). -/
def Task.resolvesSite (k : Task) (x : Inst) : Bool :=
  Desc.specOk k.desc && (AL.get? (Desc.gatePred k.desc) x.tasks).any (fun g => decide (g.st = .gone .normal)) && decide (k.st ≠ .spec)

theorem Task.resolvesSite_iff (k : Task) (x : Inst) : k.resolvesSite x = true ↔
    Desc.specOk k.desc = true ∧ (AL.get? (Desc.gatePred k.desc) x.tasks).map Task.st = some (.gone .normal) ∧ k.st ≠ .spec := by
  simp [Task.resolvesSite, and_assoc, Option.any_eq_true]

/-- The site resolved, where the last decrement of a step's task does so (R193). -/
def State.resolveSite (m : State) (c : Nat) (x : Inst) (k : Task) : State := match x.step with
  | some n => if k.resolvesSite x then (m.resolve c k.desc x.base n).2 else m
  | none => m

/-- Whether the site resolves decides the state. -/
theorem State.eq_resolveSite {m o : State} {c : Nat} {x : Inst} {k : Task}
    (hres : k.resolvesSite x = true → o = match x.step with
      | some n => (m.resolve c k.desc x.base n).2
      | none => m)
    (hnot : ¬ k.resolvesSite x = true → o = m) : o = m.resolveSite c x k := by
  unfold State.resolveSite
  by_cases h : k.resolvesSite x = true
  · rw [hres h, h]; rfl
  · rw [hnot h, eq_false_of_ne_true h]
    cases x.step <;> rfl

/-- What follows the last decrement: the task fails, is confirmed, is pruned or becomes ready (R83, R199, R225). -/
def State.decideTask (o : State) (r : TaskRef) (k : Task) (failed : Bool) : State :=
  if k.fail || failed then o.push [.retire r .failed]
  else if k.st = .spec then o.push [.confirm r]
  else if k.skip then o.push [.retire r .pruned] else o.becomeReady r

section
variable {s : State} {c i idx : Nat} {x : Inst} (hx : s.inst? c i = some x) (pred : Nat) (failed : Bool)
include hx

theorem State.decrement_zero (h : ((AL.get? idx x.tasks).map Task.count).getD 0 = 0) : s.decrement c i idx pred failed =
    s.push [.faultCtx c 0x01 ((x.base + idx) % 2 ^ 32) (fld x.num 32 32 + fld x.gid 16 0) pred] := by
  simp only [State.decrement, hx]
  cases hk : AL.get? idx x.tasks with
  | none => rfl
  | some k =>
    rw [hk] at h
    exact if_pos h

variable {k : Task} (hk : AL.get? idx x.tasks = some k)
include hk

theorem State.decrement_undecided (h0 : k.count ≠ 0) (h : k.isGone = true ∨ 2 < k.count) : s.decrement c i idx pred failed =
    s.updTask { ctx := c, inst := i, idx := idx } fun t => { t with count := t.count - 1, fail := t.fail || failed } := by
  simp only [State.decrement, hx, hk]
  rw [if_neg h0]
  obtain hg | h2 := h
  · exact if_pos hg
  · rw [if_neg (by omega : ¬ k.count = 1), if_neg (by omega : ¬ k.count = 2), ite_self]

/-- One predecessor is left: the task may speculate (R112, R195). -/
theorem State.decrement_two (hg : k.isGone = false) (h : k.count = 2) :
    let r : TaskRef := { ctx := c, inst := i, idx := idx }
    s.decrement c i idx pred failed =
      ((s.updTask r fun t => { t with count := t.count - 1, fail := t.fail || failed }).nearAdd r).addCandidate r := by
  simp [State.decrement, hx, hk, hg, h]

/-- The last decrement: the task's site resolves, and the task is decided. -/
theorem State.decrement_last (hg : k.isGone = false) (h : k.count = 1) :
    let r : TaskRef := { ctx := c, inst := i, idx := idx }
    let m := (s.updTask r fun t => { t with count := t.count - 1, fail := t.fail || failed }).dropCands fun e => e.ref = r
    ∀ {o : State}, o = m.resolveSite c x k → s.decrement c i idx pred failed = o.decideTask r k failed := by
  rintro r m _ rfl
  simp only [State.decrement, hx, hk]
  rw [if_neg (by omega), if_neg (by simp [hg]), if_pos h]
  unfold State.decideTask State.resolveSite Task.resolvesSite
  cases AL.get? (Desc.gatePred k.desc) x.tasks <;> cases k.st <;> rfl

end

section
variable (o : State) (r : TaskRef) {k : Task} {failed : Bool}

theorem State.decideTask_failed (h : k.fail = true ∨ failed = true) : o.decideTask r k failed = o.push [.retire r .failed] :=
  if_pos (by simpa using h)

variable (hf : k.fail = false) (hn : failed = false)
include hf hn

theorem State.decideTask_confirmed (h : k.st = .spec) : o.decideTask r k failed = o.push [.confirm r] := by
  rw [State.decideTask, if_neg (by simp [hf, hn]), if_pos h]

theorem State.decideTask_unstarted (h : k.st ≠ .spec) :
    o.decideTask r k failed = if k.skip then o.push [.retire r .pruned] else o.becomeReady r := by
  rw [State.decideTask, if_neg (by simp [hf, hn]), if_neg h]

end

/-- Settles O52: a completion, a yield and a budget lead to what their equations say, for each state of the task; a retirement
and a decrement are their equations, case by case. -/
theorem coresEndTasks : Obligations.CoresEndTasks := by
  unfold Obligations.CoresEndTasks
  refine ⟨fun s c t occ y hs hp hy => ?completion, fun s c t y hs hp hy => ?yield, fun s c t y hw hy ht => ?budget,
    fun s r how cl co x k hx hk => ?retirement, fun s c i idx pred failed x hx => ?decrement⟩
  case completion =>
    have hu : ((s.at t).core c).running = some y := hy
    refine ⟨State.core_answered_coreOff hu _ _, coreDone_waits hs hp,
      fun hf hl => leads_coreDone hs hp hf (State.coreDone_lost hu occ hl),
      fun hf hl => ⟨fun hd => leads_coreDone hs hp hf (State.coreDone_discarded hu occ hl hd), fun hd hz x k hx hk => ?_,
        fun hd z hz => ?_⟩⟩
    · have done := (State.coreDone_plain hu occ hl hd hz).trans (State.finishTask_eq hx hk c occ y.suppressed)
      refine ⟨fun h => ?_, fun h hc => ?_, fun h hc => ?_⟩
      · exact leads_coreDone hs hp hf (done.trans (if_pos h))
      · exact leads_coreDone hs hp hf (done.trans (by rw [h, hc]; rfl))
      · exact leads_coreDone hs hp hf (done.trans (by rw [h, hc]; rfl))
    · have done := State.coreDone_spec hu occ hl hd hz
      refine ⟨fun h => ?_, fun h hc => ?_, fun h hc => ?_⟩
      · exact leads_coreDone hs hp hf (done.trans (if_pos h))
      · exact leads_coreDone hs hp hf (done.trans (by rw [h, hc]; rfl))
      · exact leads_coreDone hs hp hf (done.trans (by rw [h, hc]; rfl))
  case yield =>
    have hu : ((s.at t).core c).running = some y := hy
    refine ⟨fun h => leads_coreYield hs hp (State.coreYield_unasked hu h), fun hl h => ?_⟩
    refine ⟨fun hd => ?_, fun hd ht hv => ?_, fun hd ht hv => ?_, fun hd ht x hx => ⟨fun hv => ?_, fun hv => ?_⟩⟩
    · exact leads_coreYield hs hp (State.coreYield_discarded hu hl h hd)
    · exact leads_coreYield hs hp (State.coreYield_reined_saved hu hl h hd hv ht)
    · exact leads_coreYield hs hp (State.coreYield_reined_unsaved hu hl h hd hv ht)
    · exact leads_coreYield hs hp (State.coreYield_trapped_unsaved hu hl h hd hv ht hx)
    · exact leads_coreYield hs hp (State.coreYield_trapped_saved hu hl h hd hv ht hx)
  case budget =>
    have hu : (s.at t).runningOn c = some y := hy
    refine ⟨fun h => exec_next rfl (State.budgetExpiry_early hu h) hw, fun h => ⟨fun hz => ?_, fun hz => ?_⟩⟩
    · refine exec_next rfl ?_ ((State.toPort_work _ _ _).trans hw)
      rw [State.budgetExpiry_late hu h ht, hz, State.raiseTrap_saving hu]
      rfl
    · exact leads_eq rfl ((State.budgetExpiry_late hu h ht).trans (if_pos (Option.isSome_iff_ne_none.2 hz)))
  case retirement =>
    refine ⟨fun hg => ⟨State.retireTask_gone hx hk hg how cl co, State.markGone_gone hk hg how⟩,
      fun hg => ⟨?_, ?_, ?_, ?_, State.retireTask_unseen hx hk hg cl co, State.markGone_live hk hg how⟩,
      fun p => ⟨State.taskSignal_remote s _ _ _, fun hl => State.taskSignal_outside hl _ _, fun hl => State.taskSignal_own hl _ _⟩,
      s.sendDecrements_pushes r k.desc _ _⟩
    · rintro rfl; exact State.retireTask_normal hx hk hg cl co
    · rintro rfl; exact State.retireTask_failed hx hk hg cl co
    · rintro rfl; exact State.retireTask_pruned hx hk hg cl co rfl rfl
    · rintro rfl; exact State.retireTask_suppressed hx hk hg cl co
  case decrement =>
    refine ⟨fun k hk h => State.decrement_zero hx pred failed (by rw [hk]; exact h), fun k hk h0 =>
      ⟨State.decrement_undecided hx pred failed hk h0, State.decrement_two hx pred failed hk, fun hg h1 o hres hnot => ?_⟩⟩
    have resolved := State.eq_resolveSite (fun h => hres (k.resolvesSite_iff x |>.1 h)) fun h => hnot (h ∘ (k.resolvesSite_iff x).2)
    have last := State.decrement_last hx pred failed hk hg h1 resolved
    refine ⟨fun h => last.trans (o.decideTask_failed _ h), fun hf hn => ⟨fun h => ?_, fun h => ?_⟩⟩
    · exact last.trans (o.decideTask_confirmed _ hf hn h)
    · exact last.trans (o.decideTask_unstarted _ hf hn h)

end Sys2Proof.Machine

namespace Sys2Proof.Machine

/-! ## How an opcode's command runs, by its path (R47, R254, R317) -/

/-- A command of Table 2.11 runs on the hardware path, on firmware's, or on the Carousel's. -/
theorem exec_packets {i : Instr} {q code : Nat} {w : List Word} (h : packetsOf? i = some (code, q, w)) (s : State) :
    (∃ eff, exec i s = .next (settle (s.hwCmd code q w eff)) ∧ opFw code = false) ∨
      (∃ eff, exec i s = .next (settle (s.fwCmd code q w eff)) ∧ opFw code = true) ∨
      ∃ eff, exec i s = .next (settle (s.carCmd code q w eff)) ∧ opFw code = false := by
  unfold packetsOf? at h
  split at h <;> cases h
  case h_9 | h_10 | h_11 | h_12 | h_13 | h_14 | h_15 | h_16 => exact .inr (.inl ⟨_, rfl, rfl⟩)
  case h_17 | h_18 | h_19 => exact .inr (.inr ⟨_, rfl, rfl⟩)
  case h_21 | h_22 | h_23 | h_24 | h_25 | h_26 | h_27 | h_28 => exact .inr (.inl ⟨_, rfl, rfl⟩)
  all_goals exact .inl ⟨_, rfl, rfl⟩

/-- A command that its checks turn away does what the check says, whatever its path (R45, R46). -/
theorem leads_refused {i : Instr} {s v : State} {q code : Nat} {w : List Word} (hi : packetsOf? i = some (code, q, w))
    (h : s.atHead q code w) (hv : s.begin q w = (none, v)) : Leads i s v := by
  obtain ⟨hc, hn, -⟩ := h
  have path : ¬ Op.code w ≠ code := not_not.2 hc
  obtain ⟨eff, he, -⟩ | ⟨eff, he, -⟩ | ⟨eff, he, -⟩ := exec_packets hi s
  · exact leads_eq he (by rw [State.hwCmd, if_neg path, hv])
  · exact leads_eq he (by simp only [State.fwCmd, if_neg path, hn, hv])
  · exact leads_eq he (by simp only [State.carCmd, if_neg path, hn, hv])

/-! ## The checks at a start, in their order (R45, R46, R131, R366) -/

section
variable {s : State} {q : Nat} {w : List Word} (hs : s.canStart q w = true)
include hs

theorem State.begin_outside {k : Nat} (h : s.outside? q w = some k) :
    s.begin q w = (none, s.guilty q 5 none w k 5 (((s.queue q).head.toNat + k / 8) % 2 ^ 32) 0) := by
  simp only [State.begin, hs, h, Bool.not_true, Bool.false_eq_true, if_false]

variable (ho : s.outside? q w = none)
include ho

theorem State.begin_badWord {k : Nat} (h : s.firstBad? w = some k) :
    s.begin q w = (none, (s.entered q w).complete q s.cfe.nextSeq .badParam k) := by
  simp only [State.begin, hs, ho, h, Bool.not_true, Bool.false_eq_true, if_false]
  rfl

variable (hb : s.firstBad? w = none)
include hb

/-- A command whose words are in range is denied, ended with its context, or goes on (R46, R65, R180). -/
theorem State.begin_inRange : s.begin q w =
    let e := s.entered q w
    let n := s.cfe.nextSeq
    let x := s.ctx (Op.ctx w)
    if opManaged (Op.code w) ∧ q ≠ 0 then (none, e.complete q n .denied 0)
    else if q = 0 ∧ needsCtx w ∧ x.st = .faulted then (none, e.complete q n .ctxFault x.faultCode)
    else if q = 0 ∧ needsCtx w ∧ x.st = .destroying then (none, e.complete q n .cancelled 0)
    else (some n, e) := by
  simp only [State.begin, hs, ho, hb, Bool.not_true, Bool.false_eq_true, if_false]
  rfl

theorem State.begin_managed (hm : opManaged (Op.code w) = true) (hq : q ≠ 0) :
    s.begin q w = (none, (s.entered q w).complete q s.cfe.nextSeq .denied 0) :=
  (State.begin_inRange hs ho hb).trans (if_pos ⟨hm, hq⟩)

theorem State.begin_faulted (hq : q = 0) (hw : needsCtx w = true) (hx : (s.ctx (Op.ctx w)).st = .faulted) :
    s.begin q w = (none, (s.entered q w).complete q s.cfe.nextSeq .ctxFault (s.ctx (Op.ctx w)).faultCode) :=
  (State.begin_inRange hs ho hb).trans ((if_neg fun h => h.2 hq).trans (if_pos ⟨hq, hw, hx⟩))

theorem State.begin_destroying (hq : q = 0) (hw : needsCtx w = true) (hx : (s.ctx (Op.ctx w)).st = .destroying) :
    s.begin q w = (none, (s.entered q w).complete q s.cfe.nextSeq .cancelled 0) :=
  (State.begin_inRange hs ho hb).trans
    ((if_neg fun h => h.2 hq).trans ((if_neg fun h => by simp [hx] at h).trans (if_pos ⟨hq, hw, hx⟩)))

end

/-- A firmware-path command that passes waits in its role's queue, and every queue sees how full that is (R41, R317). -/
theorem State.fwCmd_queued {s : State} {q code : Nat} {w : List Word} (h : s.startsAs q code w) (eff : Nat → State → State) :
    s.fwCmd code q w eff =
      let p := (s.entered q w).setPhase q s.cfe.nextSeq .fwQueued
      State.refreshAll { p with fwc := { p.fwc with
        roleQ := AL.upd p.fwc.roleQ (opRole code) fun l => l ++ [(q, s.cfe.nextSeq)] } } := by
  obtain ⟨hc, hn, -⟩ := h.1
  simp only [State.fwCmd, if_neg (not_not.2 hc), hn, begin_passes h]

theorem leads_fwQueued {i : Instr} {s v : State} {q code : Nat} {w : List Word} (hi : packetsOf? i = some (code, q, w))
    (hf : opFw code = true) (hv : ∀ eff, s.fwCmd code q w eff = v) : Leads i s v := by
  obtain ⟨eff, -, hn⟩ | ⟨eff, he, -⟩ | ⟨eff, -, hn⟩ := exec_packets hi s
  · rw [hf] at hn; cases hn
  · exact leads_eq he (hv eff)
  · rw [hf] at hn; cases hn

/-- Settles O32: the checks at a start turn a command away, each as its equation says, or let it go on to its role's queue. -/
theorem commandsStartOrAreRefused : Obligations.CommandsStartOrAreRefused := by
  unfold Obligations.CommandsStartOrAreRefused
  intro i s q code w hi h
  have hs := h.2.2
  refine ⟨fun k hk => ?outside, fun ho => ⟨fun k hk => ?badWord, fun hb hm hq => ?managed, fun hb hq hw hx => ?faulted,
    fun hb hq hw hx => ?destroying, fun hp hf => ?queued⟩⟩
  case outside => exact leads_refused hi h (State.begin_outside hs hk)
  case badWord => exact leads_refused hi h (State.begin_badWord hs ho hk)
  case managed => exact leads_refused hi h (State.begin_managed hs ho hb (h.1 ▸ hm) hq)
  case faulted => exact leads_refused hi h (State.begin_faulted hs ho hb hq hw hx)
  case destroying => exact leads_refused hi h (State.begin_destroying hs ho hb hq hw hx)
  case queued => exact leads_fwQueued hi hf (State.fwCmd_queued ⟨h, hp⟩)

end Sys2Proof.Machine

namespace Sys2Proof.Machine

/-! ## A started command's place (R26, R30) -/

theorem State.queue_entered (s : State) (q : Nat) (w : List Word) : (s.entered q w).queue q = { s.queue q with
    head := (s.queue q).head + BitVec.ofNat 32 (cmdPackets w), fetched := (s.queue q).fetched.drop w.length,
    cmds := (s.queue q).cmds ++ [(s.cfe.nextSeq, { words := w, start := s.env.now, stop0 := s.stopped (Op.ctx w) })],
    reserved := (s.queue q).reserved + 1, blockAt := none } :=
  State.queue_setQueue_self _ _ _

@[simp] theorem State.push_nil (s : State) : s.push [] = s := by
  simp only [State.push, List.append_nil]

theorem State.push_append (s : State) (a b : List Work) : s.push (a ++ b) = (s.push a).push b := by
  simp only [State.push, List.append_assoc]

/-! ## Completion (R54 to R57, R59) -/

section
variable {s : State} {q n : Nat} {x : Cmd} (hx : s.cmd? q n = some x)
include hx

/-- The completion waits; a CAR_STEP's may block the other queues of its context (R40, R54). -/
theorem State.complete_waits (st : Status) (detail : Nat) (h : s.completionWaits q x = true) :
    s.complete q n st detail = (s.push [.complete q n st detail]).refreshFor q x.words := by
  simp only [State.complete, hx, h, if_true]

theorem State.complete_now (st : Status) (detail : Nat) (h : s.completionWaits q x = false) :
    s.complete q n st detail = s.completeNow q n st detail := by
  simp only [State.complete, hx, h, Bool.false_eq_true, if_false]

end

/-- What a completion of status `st` signals, or poisons: the local counter, then the remote one (R55). -/
def dueWork (q : Nat) (w : List Word) (st : Status) : List Work :=
  let c := Op.ctx w
  let l := Op.cpl w 1
  let r := Op.cpl w 2
  let good : Bool := decide (st = .ok) || decide (st = .partialOk ∨ st = .cancelled) && !Op.allOrPoison w
  (if Op.local w then
    [if good then .signal c (bits l 23 0) (bits l 55 24) { code := 1, arg := q } none else .poison c (bits l 23 0)] else []) ++
  if Op.remote w then
    [.trail { dest := bits r 9 0, inc := bits r 63 32, handle := Op.cpl w 3, poison := !good, sender := .completion c }] else []

theorem State.dueCounters_eq (s : State) (q : Nat) (w : List Word) (st : Status) :
    s.dueCounters q w st = s.push (dueWork q w st) := by
  unfold State.dueCounters dueWork
  rw [State.push_append]
  cases Op.local w <;> cases Op.remote w <;> simp

/-- The peer-window check turns an OK into DENIED, and lets a command that succeeded or was cancelled write (R54). -/
theorem State.peerCheck_eq (s : State) (q : Nat) (w : List Word) (st : Status) (detail : Nat) :
    let may := s.peerOk q (Op.ctx w) (Op.cpl w 4).toNat (if bit (Op.cpl w 0) 4 then 8 else 4)
    let turned : Bool := Op.peer w && !may && decide (st = .ok)
    let f : Status := if turned then .denied else st
    s.peerCheck q w st detail = (f, if turned then 8 * opPackets (Op.code w) + 4 else detail,
      decide (Op.peer w = true ∧ may = true ∧ (f = .ok ∨ f = .partialOk ∨ f = .cancelled))) := by
  unfold State.peerCheck
  dsimp only
  generalize s.peerOk q (Op.ctx w) (Op.cpl w 4).toNat (if bit (Op.cpl w 0) 4 then 8 else 4) = may
  cases Op.peer w
  case false => simp
  case true =>
    cases may
    case true => simp [Bool.or_assoc]
    case false => by_cases h : st = .ok <;> simp [h]

/-- What a completion does at once: its due counters, its place in the queue, the record, the peer write, the vector, the CANCELs that
reached it, and a held record. -/
theorem State.completeNow_eq {s : State} {q n : Nat} {x : Cmd} (hx : s.cmd? q n = some x) (st : Status) (detail : Nat) :
    let p := x.words
    let may := s.peerOk q (Op.ctx p) (Op.cpl p 4).toNat (if bit (Op.cpl p 0) 4 then 8 else 4)
    let turned : Bool := Op.peer p && !may && decide (st = .ok)
    let f : Status := if turned then .denied else st
    let fd := if turned then 8 * opPackets (Op.code p) + 4 else detail
    let left := (((s.push (dueWork q p f)).updQueue q fun y => { y with cmds := AL.del y.cmds n, reserved := y.reserved - 1 }).stepOver
      q n p).progOver q n
    let rec4 := recordWords (Op.code p) f (Op.tag p) fd s.env.now (if x.failed ≠ [] then partMask x.failed else x.result) x.launch
    let noted := if f = .ok ∧ Op.noStatus p = true then left else left.putRecord q rec4
    let sent : State := if Op.peer p = true ∧ may = true ∧ (f = .ok ∨ f = .partialOk ∨ f = .cancelled) then
      { noted with out := { noted.out with peer := noted.out.peer ++ [((Op.cpl p 4).toNat, Op.cpl p 5, bit (Op.cpl p 0) 4)] } }
      else noted
    let told := if f ≠ .ok ∨ Op.msix p = true then sent.queueMsix q else sent
    s.completeNow q n st detail = ((told.cancelCheck q n (f = .cancelled)).flushHeld q).refreshFor q p := by
  simp only [State.completeNow, hx, State.peerCheck_eq, State.dueCounters_eq, decide_eq_true_eq]

/-! ## Records (R29, R30, R56) -/

theorem State.flushHeld_none {s : State} {q : Nat} (h : (s.queue q).heldRec = none ∨ (s.queue q).cplRoom = false) :
    s.flushHeld q = s := by
  unfold State.flushHeld
  dsimp only
  split
  · next hr => rw [if_neg (by simpa [hr] using h)]
  · rfl

theorem State.flushHeld_some {s : State} {q : Nat} {l : List Word} (hl : (s.queue q).heldRec = some l)
    (hr : (s.queue q).cplRoom = true) :
    let v := (s.setQueue q { s.queue q with heldRec := none, pendingMsix := false }).putRecord q l
    s.flushHeld q = if (s.queue q).pendingMsix then v.queueMsix q else v := by
  simp only [State.flushHeld, hl, hr, if_true]

/-! ## CANCELs that reached a command (R59, R251) -/

/-- One started command of queue `q` is told that command `n` has completed. -/
def State.cancelTold (n q : Nat) (hit : Bool) (s : State) (p : Nat × Cmd) : State :=
  if p.2.targets.contains n then
    let s1 := s.updCmd q p.1 fun x => { x with targets := x.targets.filter (· ≠ n), hits := x.hits + b2n hit }
    match s1.cmd? q p.1 with
    | some x => if x.targets = [] then s1.push [.complete q p.1 .ok x.hits] else s1
    | none => s1
  else s

theorem State.cancelCheck_eq (s : State) (q n : Nat) (hit : Bool) :
    s.cancelCheck q n hit = (s.queue q).cmds.foldl (State.cancelTold n q hit) s := rfl

theorem foldl_cancelTold_untargeted {n q : Nat} {hit : Bool} {l : List (Nat × Cmd)} (h : ∀ p ∈ l, n ∉ p.2.targets) (s : State) :
    l.foldl (State.cancelTold n q hit) s = s := by
  induction l generalizing s with
  | nil => rfl
  | cons p r ih =>
    have told : State.cancelTold n q hit s p = s := if_neg (by simpa using h p (by simp))
    rw [List.foldl_cons, told, ih fun x hx => h x (by simp [hx])]

theorem State.updCmd_some {s : State} {q n : Nat} {x : Cmd} (hx : s.cmd? q n = some x) (f : Cmd → Cmd) :
    s.updCmd q n f = s.updQueue q fun k => { k with cmds := AL.put n (f x) k.cmds } := by
  simp only [State.updCmd, hx]

theorem State.cmd?_updCmd_self {s : State} {q n : Nat} {x : Cmd} (hx : s.cmd? q n = some x) (f : Cmd → Cmd) :
    (s.updCmd q n f).cmd? q n = some (f x) := by
  rw [State.updCmd_some hx, State.cmd?, State.updQueue, State.queue_setQueue_self, AL.get?_put_self]

/-- The last target of a CANCEL has completed, and so does the CANCEL. -/
theorem State.cancelTold_last {s : State} {q n k : Nat} {x : Cmd} (hx : s.cmd? q k = some x) (ht : x.targets = [n]) (hit : Bool) :
    s.cancelTold n q hit (k, x) =
      (s.updCmd q k fun x => { x with targets := [], hits := x.hits + b2n hit }).push [.complete q k .ok (x.hits + b2n hit)] := by
  have clear : (s.updCmd q k fun x => { x with targets := x.targets.filter (· ≠ n), hits := x.hits + b2n hit }) =
      s.updCmd q k fun x => { x with targets := [], hits := x.hits + b2n hit } := by
    simp only [State.updCmd_some hx, ht, ne_eq, not_true_eq_false, decide_false, List.filter_cons, Bool.false_eq_true, if_false,
      List.filter_nil]
  simp only [State.cancelTold]
  rw [if_pos (by simp [ht]), clear, State.cmd?_updCmd_self hx]
  exact if_pos rfl

/-- A key's entry splits the list, and the key does not stand before it. -/
theorem AL.get?_split {κ α : Type} [DecidableEq κ] {k : κ} {x : α} {m : List (κ × α)} (h : AL.get? k m = some x) :
    ∃ a b, m = a ++ (k, x) :: b ∧ ∀ p ∈ a, p.1 ≠ k := by
  induction m with
  | nil => cases h
  | cons p r ih =>
    obtain ⟨j, y⟩ := p
    rw [AL.get?] at h
    by_cases e : j = k
    · rw [if_pos e] at h
      cases h
      exact ⟨[], r, by rw [e]; rfl, by simp⟩
    · rw [if_neg e] at h
      obtain ⟨a, b, rfl, hne⟩ := ih h
      exact ⟨(j, y) :: a, b, rfl, by simpa [e] using hne⟩

theorem State.cancelCheck_last {s : State} {q n k : Nat} {x : Cmd} (hn : ((s.queue q).cmds.map Prod.fst).Nodup)
    (hx : s.cmd? q k = some x) (ht : x.targets = [n]) (ho : ∀ p ∈ (s.queue q).cmds, p.1 ≠ k → n ∉ p.2.targets) (hit : Bool) :
    s.cancelCheck q n hit =
      (s.updCmd q k fun x => { x with targets := [], hits := x.hits + b2n hit }).push [.complete q k .ok (x.hits + b2n hit)] := by
  obtain ⟨a, b, hl, ha⟩ := AL.get?_split hx
  rw [hl] at hn ho
  have hb : ∀ p ∈ b, p.1 ≠ k := by
    rw [List.map_append, List.map_cons, List.nodup_append, List.nodup_cons] at hn
    obtain ⟨-, ⟨hk, -⟩, -⟩ := hn
    exact fun p hp e => hk (List.mem_map.2 ⟨p, hp, e⟩)
  rw [State.cancelCheck_eq, hl, List.foldl_append, List.foldl_cons,
    foldl_cancelTold_untargeted fun p hp => ho p (by simp [hp]) (ha p hp), State.cancelTold_last hx ht,
    foldl_cancelTold_untargeted fun p hp => ho p (by simp [hp]) (hb p hp)]

theorem State.stepOver_own {s : State} {q n : Nat} {w : List Word} {v : LiveStep} (hv : (s.carCtx (Op.ctx w)).live = some v)
    (hc : Op.code w = 0x12) (hq : v.q = q) (hn : v.seq = n) :
    s.stepOver q n w = (s.setCarCtx (Op.ctx w) { s.carCtx (Op.ctx w) with live := none }).push
      (v.cancels.map fun p => .complete p.1 p.2 .ok 1) := by
  have live : (AL.get s.car.ctxs (Op.ctx w)).live = some v := hv
  simp only [State.stepOver, live]
  exact if_pos ⟨hc, hq, hn⟩

/-- Settles O33: what a start reserves, and each part of a completion by the equation of the operation that makes it. -/
theorem commandEntersAndCompletes : Obligations.CommandEntersAndCompletes := by
  unfold Obligations.CommandEntersAndCompletes
  intro s q n w x st detail y z
  have started : z = _ := s.queue_entered q w
  refine ⟨?start, fun hx hw => State.complete_waits hx st detail hw,
    fun hx hw => (State.complete_now hx st detail hw).trans (State.completeNow_eq hx st detail), fun l => rfl, State.flushHeld_none,
    fun l => State.flushHeld_some, fun h hit => foldl_cancelTold_untargeted h s,
    fun k hit hn hx ht ho => State.cancelCheck_last hn hx ht ho hit, ?step⟩
  case start => rw [started]; exact ⟨rfl, rfl, rfl, rfl⟩
  case step => rintro k rfl v hv hc hq hn; exact State.stepOver_own hv hc hq hn

end Sys2Proof.Machine

namespace Sys2Proof.Machine

/-! ## Counter operations and the counters on chip (R132, R133) -/

/-- An operation takes place in the state in which its counter is on chip. -/
theorem State.withCtrOr_at {s m : State} {c v : Nat} (h : s.counterAt c v m) (src : SigSrc) (fail op : State → State) :
    s.withCtrOr c v src fail op = op m := by
  unfold State.counterAt at h
  unfold State.withCtrOr
  split at h
  · next hp =>
    obtain ⟨s1, h1, rfl⟩ := Option.map_eq_some_iff.1 h
    simp only [hp, h1, Bool.not_true, Bool.false_eq_true, if_false]
  · next hp => simp only [hp, h, Bool.not_false, if_true]

/-- The store has no room for the counter of a context in its place: the context faults with NO_COUNTER. -/
theorem State.withCtrOr_noRoom {s : State} {c v : Nat} (hp : (s.ctx c).st.inPlace = true) (hm : s.makeCtrResident c v = none)
    (src : SigSrc) (fail op : State → State) :
    s.withCtrOr c v src fail op =
      fail (s.push [.faultCtx c 0x04 v 2 (if src.code = 2 ∨ src.code = 3 ∨ src.code = 6 then src.arg else ctrMax)]) := by
  simp only [State.withCtrOr, hp, hm, Bool.not_true, Bool.false_eq_true, if_false]

/-! ## A wait that arrives (R125) -/

theorem State.applyWait_released {s : State} {c v d : Nat} {who : Who} (h : (s.ctr c v).poison = true ∨ d ≤ (s.ctr c v).val) :
    s.applyWait c v d who = s.push [.release who (s.ctr c v).poison] :=
  if_pos h

theorem State.applyWait_recorded {s : State} {c v d : Nat} {who : Who} (hp : (s.ctr c v).poison = false) (hv : (s.ctr c v).val < d) :
    s.applyWait c v d who = s.addWaiter c v d who :=
  if_neg (by simp [hp, hv])

theorem State.putWaiter_ctu (s : State) (w : Waiter) : (s.putWaiter w).ctu = s.ctu := by
  simp only [State.putWaiter, State.wr64_ctu]
  rfl

theorem State.addWaiter_waiters (s : State) (c v d : Nat) (who : Who) :
    ∃ y, (s.addWaiter c v d who).ctu.waiters = s.ctu.waiters ++ [y] ∧
      y.ctx = c ∧ y.vid = v ∧ y.expected = d ∧ y.who = who := by
  unfold State.addWaiter
  extract_lets cached y s1
  refine ⟨y, ?_, rfl, rfl, rfl, rfl⟩
  have noted : s1.ctu.waiters = s.ctu.waiters ++ [y] := rfl
  split
  · exact noted
  · rw [State.putWaiter_ctu, noted]

/-! ## What SIGNAL and WAIT ask for (R52, R124 to R127) -/

theorem b2n_decide (p : Prop) [Decidable p] : b2n (decide p) = if p then 1 else 0 := by
  by_cases h : p <;> simp [b2n, h]

theorem State.waitCmd_at {s m : State} {q n : Nat} {x : Cmd} (hx : s.cmd? q n = some x)
    (h : s.counterAt (Op.ctx x.words) (bits (wordAt x.words 1) 23 0) m) :
    s.waitCmd q n = m.applyWait (Op.ctx x.words) (bits (wordAt x.words 1) 23 0) (wordAt x.words 2).toNat (.cmd q n) := by
  simp only [State.waitCmd, hx]
  exact State.withCtrOr_at h _ _ _

theorem State.doSignal_at {s m : State} {c v inc : Nat} (h : s.counterAt c v m) (hv : v < s.idLimit c) (hd : s.defined c = true)
    (src : SigSrc) (cmd : Option (Nat × Nat)) :
    s.doSignal c v inc src cmd = if (m.ctr c v).poison then m.completeOpt cmd .poisoned 0
      else (m.applySignal c v inc src).completeOpt cmd .ok (b2n (ctrMax < (m.ctr c v).val + inc)) := by
  unfold State.doSignal
  rw [if_neg (by simp [hd, hv])]
  exact State.withCtrOr_at h _ _ _

theorem State.waitReleased_eq {s : State} {q n : Nat} {x : Cmd} (hx : s.cmd? q n = some x) (poisoned : Bool) :
    s.waitReleased q n poisoned = if !poisoned then s.complete q n .ok 0
      else if Op.onPoison x.words then
        s.guilty q 8 (some n) [] 0 8 (bits (wordAt x.words 1) 23 0) (wordAt x.words 2).toNat
      else s.complete q n .poisoned 0 := by
  simp only [State.waitReleased, hx]

/-- Settles O34: each command by its effect, and what its action answers by the counter on which it acts. -/
theorem signalAndWriteCommands : Obligations.SignalAndWriteCommands := by
  unfold Obligations.SignalAndWriteCommands
  intro s m r q w e n c a v wide
  refine ⟨fun h => ?nop, fun h => ⟨fun hp => ?written, fun hp => ?denied⟩, fun h => ?signal, fun h => ?wait,
    fun x j hx hw hm => ?waits, fun inc src j hm hv hd => ?signals, fun x j hx => ?releases,
    fun h => ⟨fun hb => ?bad, fun hg => ?parts⟩⟩
  case nop => exact leads_hwCmd h rfl rfl
  case written => exact leads_hwCmd h rfl (if_pos hp)
  case denied => exact leads_hwCmd h rfl (if_neg (ne_true_of_eq_false hp))
  case signal => exact leads_hwCmd h rfl rfl
  case wait => exact leads_hwCmd h rfl rfl
  case waits =>
    intro k d after
    subst hw
    have acts : after = m.applyWait c v d (.cmd q j) := State.waitCmd_at hx hm
    refine ⟨fun h => acts.trans (State.applyWait_released h), fun hp hv => ?_⟩
    have recorded := acts.trans (State.applyWait_recorded hp hv)
    exact ⟨recorded, recorded ▸ m.addWaiter_waiters c v d (.cmd q j)⟩
  case signals =>
    intro k after
    have acts : after = _ := State.doSignal_at hm hv hd src (some (q, j))
    refine ⟨fun hp => acts.trans (if_pos hp), fun hp => (acts.trans (if_neg (ne_true_of_eq_false hp))).trans ?_⟩
    rw [b2n_decide]
    rfl
  case releases =>
    intro released
    have acts (p : Bool) : released p = _ := State.waitReleased_eq hx p
    exact ⟨acts false, fun h => (acts true).trans (if_neg (ne_true_of_eq_false h)), fun h => (acts true).trans (if_pos h)⟩
  case bad => exact leads_hwCmd h rfl (if_pos hb)
  case parts => exact leads_hwCmd h rfl (if_neg (ne_true_of_eq_false hg))

end Sys2Proof.Machine

namespace Sys2Proof.Machine

/-! ## Posting (R53, R108) -/

theorem State.postAction_full {s : State} {c : Nat} (h : (s.ctx c).frames < (s.ctx c).framesUsed + 1) (d : Delay) :
    s.postAction c d = none :=
  if_pos h

/-- An action without owner enters the delay list as the next arrival, with a frame entry of its own. -/
theorem State.postAction_room {s : State} {c : Nat} (h : (s.ctx c).framesUsed + 1 ≤ (s.ctx c).frames) {d : Delay}
    (ho : d.owner = none) :
    s.postAction c d = some ((State.updCtx { s with gd := { s.gd with arrival := s.gd.arrival + 1 } } c fun k =>
      { k with posted := k.posted + 1 }).delayAdd { d with
        arr := s.gd.arrival, at_ := s.env.now, frame := (((s.takeFrames c 1).head?).map Prod.fst).getD 0, ctx := c }) := by
  unfold State.postAction
  dsimp only
  rw [if_neg (Nat.not_lt.2 h), ho]
  rfl

/-- What a DELAY_POST posts. -/
def postedDelay (q n : Nat) (w : List Word) : Delay :=
  { wake := (wordAt w 1).toNat, cmd := some (q, n),
    act := if bit (wordAt w 2) 0 then
        .launch (bits (wordAt w 3) 15 0) (bits (wordAt w 4) 31 0) (bits (wordAt w 5) 31 0)
          (if bit (wordAt w 3) 16 then some (bits (wordAt w 5) 31 0) else none)
      else .signal (bits (wordAt w 3) 23 0) (bits (wordAt w 3) 55 24) }

theorem State.effDelayPost_posted {s r : State} {q n : Nat} {w : List Word}
    (h : s.postAction (Op.ctx w) (postedDelay q n w) = some r) :
    s.effDelayPost q n w = r.updCmd q n fun x => { x with posted := true } := by
  unfold postedDelay at h
  simp only [State.effDelayPost, sigWord, h]

theorem State.effDelayPost_full {s : State} {q n : Nat} {w : List Word}
    (h : s.postAction (Op.ctx w) (postedDelay q n w) = none) :
    s.effDelayPost q n w = s.complete q n .noResource 0 := by
  unfold postedDelay at h
  simp only [State.effDelayPost, sigWord, h]

/-! ## CANCEL by scope (R59, R250, R251) -/

section
variable {s : State} {q n : Nat} {w : List Word}

theorem State.effCancel_noTarget (h : bits (wordAt w 1) 1 0 = 0 ∨ bits (wordAt w 1) 1 0 = 1)
    (ht : s.cancelTargets q n (bits (wordAt w 1) 1 0) (bits (wordAt w 2) 15 0) = []) :
    s.effCancel q n w = s.complete q n .badParam 2 := by
  unfold State.effCancel
  rcases h with h | h <;> rw [h] at ht ⊢ <;> simp only [ht]

theorem State.effCancel_each (h : bits (wordAt w 1) 1 0 = 0 ∨ bits (wordAt w 1) 1 0 = 1) {ts : List Nat}
    (ht : s.cancelTargets q n (bits (wordAt w 1) 1 0) (bits (wordAt w 2) 15 0) = ts) (hne : ts ≠ []) :
    s.effCancel q n w = ts.foldl (fun s m => s.cancelOne q m) (s.updCmd q n fun x => { x with targets := ts }) := by
  obtain ⟨t, r, rfl⟩ := List.exists_cons_of_ne_nil hne
  unfold State.effCancel
  rcases h with h | h <;> rw [h] at ht ⊢ <;> simp only [ht]

theorem State.effCancel_seq (h : bits (wordAt w 1) 1 0 = 2) : s.effCancel q n w = s.cancelSeq q n w := by
  simp only [State.effCancel, h]

theorem State.effCancel_epoch (h : bits (wordAt w 1) 1 0 = 3) : s.effCancel q n w = s.cancelEpoch q n w := by
  simp only [State.effCancel, h]

theorem State.cancelSeq_none (h : s.carFind (Op.ctx w) (wordAt w 2) = none) :
    s.cancelSeq q n w = s.complete q n .badParam 2 := by
  simp only [State.cancelSeq, h]

variable {i : Nat} (hi : s.carFind (Op.ctx w) (wordAt w 2) = some i)
include hi

theorem State.cancelSeq_free (h : s.inStep i = false) : s.cancelSeq q n w = (s.carFree i).complete q n .ok 1 := by
  simp only [State.cancelSeq, hi, h, Bool.false_eq_true, if_false]

theorem State.cancelSeq_leaving (h : s.inStep i = true) {l : LiveStep} (hl : (s.carCtx (s.carSlot i).ctx).live = some l) :
    let y := s.carSlot i
    let m := s.setCarSlot i { y with st := .leaving, cancelled := true, cancels := y.cancels ++ [(q, n)] }
    let a := batchEntry l.list (l.members.idxOf i) + 16
    s.cancelSeq q n w = m.wr64 a (m.rd64 a ||| wd (2 ^ 62)) := by
  intro y m a
  have live : (m.carCtx y.ctx).live = some l := hl
  simp only [State.cancelSeq, hi, h, if_true]
  split
  · next l' hl' => cases live.symm.trans hl'; rfl
  · next hn => cases live.symm.trans hn

end

section
variable {s : State} {q n : Nat} {w : List Word}

theorem State.cancelEpoch_live {l : LiveStep} (hl : (s.carCtx (Op.ctx w)).live = some l)
    (he : (s.carCtx (Op.ctx w)).epoch = bits (wordAt w 2) 15 0) (hn : l.ended = false) :
    s.cancelEpoch q n w = (s.setCarCtx (Op.ctx w) { s.carCtx (Op.ctx w) with
      live := some { l with cancelled := true, cancels := l.cancels ++ [(q, n)] } }).cancelRoot l.q l.seq := by
  simp only [State.cancelEpoch, hl]
  exact if_pos ⟨he, hn⟩

theorem State.cancelEpoch_none (h : (s.carCtx (Op.ctx w)).live = none ∨ (s.carCtx (Op.ctx w)).epoch ≠ bits (wordAt w 2) 15 0 ∨
      ∃ l, (s.carCtx (Op.ctx w)).live = some l ∧ l.ended = true) :
    s.cancelEpoch q n w = s.complete q n .badParam 2 := by
  cases hl : (s.carCtx (Op.ctx w)).live with
  | none => simp only [State.cancelEpoch, hl]
  | some l =>
    simp only [State.cancelEpoch, hl]
    refine if_neg fun ⟨he, hn⟩ => ?_
    rcases h with h | h | ⟨l', h, hd⟩
    · rw [hl] at h; cases h
    · exact h he
    · cases hl.symm.trans h; rw [hn] at hd; cases hd

end

/-! ## What Table 2.20 lists -/

section
variable {s : State} {q m : Nat} {y : Cmd}

theorem State.cancellable_root (h : Op.code y.words = 0x02) : s.cancellable q (m, y) = true := by
  simp only [State.cancellable, h]

theorem State.cancellable_post (h : Op.code y.words = 0x13) :
    s.cancellable q (m, y) = true ↔ y.posted = true ∨ bit (wordAt y.words 2) 0 = true := by
  simp only [State.cancellable, h, Bool.or_eq_true]

theorem State.cancellable_step (h : Op.code y.words = 0x12) : s.cancellable q (m, y) = true ↔
    ∃ l, (s.carCtx (Op.ctx y.words)).live = some l ∧ l.q = q ∧ l.seq = m ∧ l.ended = false := by
  cases hl : (s.carCtx (Op.ctx y.words)).live <;> simp [State.cancellable, h, hl, and_assoc]

theorem State.cancellable_other (h2 : Op.code y.words ≠ 0x02) (h13 : Op.code y.words ≠ 0x13) (h12 : Op.code y.words ≠ 0x12) :
    s.cancellable q (m, y) = true ↔ y.phase = .fwQueued := by
  unfold State.cancellable
  split
  · next h => exact absurd h h2
  · next h => exact absurd h h13
  · next h => exact absurd h h12
  · exact decide_eq_true_iff

theorem State.mem_cancelTargets_tag (j v : Nat) : m ∈ s.cancelTargets q j 0 v ↔
    ∃ z, (m, z) ∈ (s.queue q).cmds ∧ m ≠ j ∧ s.cancellable q (m, z) = true ∧ Op.tag z.words = v := by
  simp [State.cancelTargets, and_assoc]

theorem State.mem_cancelTargets_graph (j v : Nat) : m ∈ s.cancelTargets q j 1 v ↔
    ∃ z, (m, z) ∈ (s.queue q).cmds ∧ m ≠ j ∧ s.cancellable q (m, z) = true ∧
      (Op.code z.words = 0x02 ∨ Op.code z.words = 0x13 ∧ bit (wordAt z.words 2) 0 = true) ∧ rootGraph z.words = v := by
  simp [State.cancelTargets, and_assoc]

variable (hy : s.cmd? q m = some y)
include hy

theorem State.cancelOne_aborts (h : y.phase = .fwQueued ∨ y.posted = true) :
    s.cancelOne q m = s.abortCmd q m .cancelled 0 := by
  simp only [State.cancelOne, hy]
  exact if_pos h

theorem State.cancelOne_root (hp : y.phase ≠ .fwQueued) (hn : y.posted = false) (hc : Op.code y.words ≠ 0x12) :
    s.cancelOne q m = s.cancelRoot q m := by
  simp only [State.cancelOne, hy]
  rw [if_neg (by simp [hp, hn]), if_neg hc]

theorem State.cancelOne_step (hp : y.phase ≠ .fwQueued) (hn : y.posted = false) (hc : Op.code y.words = 0x12) :
    s.cancelOne q m = (s.setCarCtx (Op.ctx y.words) { s.carCtx (Op.ctx y.words) with
      live := (s.carCtx (Op.ctx y.words)).live.map fun l => { l with cancelled := true } }).cancelRoot q m := by
  simp only [State.cancelOne, hy]
  rw [if_neg (by simp [hp, hn]), if_pos hc]

/-- A root command that has something left to run or to perform goes on. -/
theorem State.rootCheck_left (h : y.insts ≠ 0 ∨ y.actions ≠ 0 ∨ y.posted = true) : s.rootCheck q m = s := by
  simp only [State.rootCheck, hy]
  exact if_pos h

theorem State.rootCheck_cancelled (hi : y.insts = 0) (ha : y.actions = 0) (hp : y.posted = false) (hc : Op.code y.words ≠ 0x12)
    (hx : y.cancelled = true) : s.rootCheck q m = s.complete q m .cancelled 0 := by
  simp only [State.rootCheck, hy]
  rw [if_neg (by simp [hi, ha, hp]), if_neg hc, if_pos hx]

end

/-- Settles O37: DELAY_POST by the room in the frame, CANCEL by its scope, and each of its targets as Table 2.20 has it. -/
theorem delayPostAndCancel : Obligations.DelayPostAndCancel := by
  unfold Obligations.DelayPostAndCancel
  intro s q w e n c x ends
  refine ⟨fun h => ?post, fun h => ?cancel, fun m y => ?targets⟩
  case post =>
    intro act d drawn
    refine ⟨fun hr => leads_hwCmd h rfl ?_, fun hf => leads_hwCmd h rfl ?_⟩
    · exact State.effDelayPost_posted (State.postAction_room hr rfl)
    · exact State.effDelayPost_full (State.postAction_full hf _)
  case cancel =>
    intro cancel scope ts
    refine ⟨fun hs => ⟨fun ht => ?_, fun ht => ?_⟩, fun hs => ⟨fun hn => ?_, fun i hi hf => ?_, fun i l hi hf hl => ?_⟩,
      fun hs => ⟨fun l hl he hn => ?_, fun hn => ?_, fun l hl he => ?_⟩⟩
    · exact leads_hwCmd h rfl (State.effCancel_noTarget hs ht)
    · exact leads_hwCmd h rfl (State.effCancel_each hs rfl ht)
    · exact leads_hwCmd h rfl ((State.effCancel_seq hs).trans (State.cancelSeq_none hn))
    · exact leads_hwCmd h rfl ((State.effCancel_seq hs).trans (State.cancelSeq_free hi hf))
    · exact leads_hwCmd h rfl ((State.effCancel_seq hs).trans (State.cancelSeq_leaving hi hf hl))
    · exact leads_hwCmd h rfl ((State.effCancel_epoch hs).trans (State.cancelEpoch_live hl he hn))
    · exact leads_hwCmd h rfl ((State.effCancel_epoch hs).trans (State.cancelEpoch_none (hn.imp_right .inl)))
    · exact leads_hwCmd h rfl ((State.effCancel_epoch hs).trans (State.cancelEpoch_none (.inr (.inr ⟨l, hl, he⟩))))
  case targets =>
    exact ⟨State.cancellable_root, State.cancellable_post, State.cancellable_step, State.cancellable_other,
      fun j v => ⟨State.mem_cancelTargets_tag j v, State.mem_cancelTargets_graph j v⟩,
      fun hy => ⟨State.cancelOne_aborts hy, fun hp hn => ⟨State.cancelOne_root hy hp hn, State.cancelOne_step hy hp hn⟩⟩, rfl,
      State.rootCheck_left, State.rootCheck_cancelled⟩

end Sys2Proof.Machine

namespace Sys2Proof.Machine

/-! ## COUNTER_MAP (R133, R134) -/

section
variable {s : State} {q n : Nat} {w : List Word}

/-- The ids that a COUNTER_MAP names. -/
def mapIds (w : List Word) : List Nat := (List.range (bits (wordAt w 2) 16 0)).map fun i => bits (wordAt w 1) 23 0 + i

/-- The command's w2: the handle of its first id, where it exports. -/
def State.handleNoted (s : State) (q n : Nat) (w : List Word) : State := s.updCmd q n fun x =>
  { x with result := if bit (wordAt w 1) 24 then mkHandle (Op.ctx w) (bits (wordAt w 1) 23 0) (s.ctx (Op.ctx w)).gen else 0 }

/-- The mapping limit would be passed. -/
def State.mapFull (s : State) (w : List Word) : Prop :=
  (s.ctx (Op.ctx w)).st.inPlace = true ∧
    s.mapLimit < s.mappedResident + ((mapIds w).filter fun v => !(s.ctr (Op.ctx w) v).mapped).length

def State.allMapped (s : State) (w : List Word) : State :=
  (mapIds w).foldl (fun s v => s.setMapped (Op.ctx w) v true (bit (wordAt w 1) 24 || (s.ctr (Op.ctx w) v).exported)) s

theorem State.effCounterMap_unmaps (h : bit (wordAt w 1) 25 = true) : s.effCounterMap q n w =
    (State.handleNoted ((mapIds w).foldl (fun s v => s.setMapped (Op.ctx w) v false false) s) q n w).displace.complete q n .ok 0 :=
  if_pos h

variable (h : bit (wordAt w 1) 25 = false)
include h

theorem State.effCounterMap_full (hf : s.mapFull w) : s.effCounterMap q n w = s.complete q n .noResource 0 :=
  (if_neg (ne_true_of_eq_false h)).trans (if_pos hf)

variable (hf : ¬ s.mapFull w)
include hf

theorem State.effCounterMap_away (hp : (s.ctx (Op.ctx w)).st.inPlace = false) :
    s.effCounterMap q n w = ((s.allMapped w).handleNoted q n w).complete q n .ok 0 :=
  (if_neg (ne_true_of_eq_false h)).trans ((if_neg hf).trans (if_pos (by rw [hp]; rfl)))

theorem State.effCounterMap_resident (hp : (s.ctx (Op.ctx w)).st.inPlace = true) {t : State}
    (ht : (s.allMapped w).residentAll (Op.ctx w) (mapIds w) = .inl t) :
    s.effCounterMap q n w = (t.handleNoted q n w).complete q n .ok 0 := by
  refine (if_neg (ne_true_of_eq_false h)).trans ((if_neg hf).trans ((if_neg (by rw [hp]; simp)).trans ?_))
  unfold State.allMapped mapIds at ht
  rw [ht]
  rfl

theorem State.effCounterMap_noRoom (hp : (s.ctx (Op.ctx w)).st.inPlace = true) {v : Nat}
    (ht : (s.allMapped w).residentAll (Op.ctx w) (mapIds w) = .inr v) :
    s.effCounterMap q n w = s.push [.faultCtx (Op.ctx w) 0x04 v 2 ctrMax] := by
  refine (if_neg (ne_true_of_eq_false h)).trans ((if_neg hf).trans ((if_neg (by rw [hp]; simp)).trans ?_))
  unfold State.allMapped mapIds at ht
  rw [ht]

end

/-! ## GE_PROGRAM_LOAD (R226) -/

/-- A GE runs a task of the program, and no older load waits for it. -/
def GeRun.ofProg (c pid : Nat) (y : GeRun) : Bool := y.e.ref.ctx = c && y.pid = pid && !y.old

/-- The program stands in its slot. -/
def State.progPut (s : State) (w : List Word) : State :=
  (s.wrWords false ((s.ctx (Op.ctx w)).gsBase + 16 * bits (wordAt w 2) 23 16)
    [wd (wordAt w 1).toNat, wd (2 ^ 63 + bits (wordAt w 2) 12 0)]).updCtx (Op.ctx w) fun x =>
      { x with progs := AL.put (bits (wordAt w 2) 23 16) ((wordAt w 1).toNat, bits (wordAt w 2) 12 0) x.progs }

/-- The load of program `pid` is noted at the GEs that run the old one, and the program's lines leave every cache. -/
def State.progNoted (s : State) (q n c pid : Nat) : State :=
  { s with ges := s.ges.map fun p => (p.1, { p.2 with
      run := p.2.run.map fun y => if y.ofProg c pid then { y with old := true, waiters := y.waiters ++ [(q, n)] } else y
      icache := p.2.icache.filter fun t => !(decide (t.1 = c) && decide (t.2.1 = pid)) }) }

section
variable {s : State} {q n : Nat} {w : List Word}

theorem State.effGeProgramLoad_bad
    (h : ((s.rdWords false (wordAt w 1).toNat (bits (wordAt w 2) 12 0)).zipIdx.all fun p =>
      geInsnOk (bits (wordAt w 2) 12 0) p.2 p.1) = false) :
    s.effGeProgramLoad q n w = s.complete q n .badParam 1 := by
  unfold State.effGeProgramLoad
  exact if_pos (by rw [h]; rfl)

variable (h : ((s.rdWords false (wordAt w 1).toNat (bits (wordAt w 2) 12 0)).zipIdx.all fun p =>
  geInsnOk (bits (wordAt w 2) 12 0) p.2 p.1) = true)
include h

theorem State.effGeProgramLoad_idle
    (hi : ∀ p ∈ (s.progPut w).ges, ∀ y, p.2.run = some y → y.ofProg (Op.ctx w) (bits (wordAt w 2) 23 16) = false) :
    s.effGeProgramLoad q n w =
      ((s.progPut w).progNoted q n (Op.ctx w) (bits (wordAt w 2) 23 16)).complete q n .ok 0 := by
  simp only [State.effGeProgramLoad, h, Bool.not_true, Bool.false_eq_true, if_false]
  refine if_neg fun hb => ?_
  obtain ⟨p, hp, hm⟩ := List.any_eq_true.1 hb
  split at hm
  · next y hy => exact absurd (hi p hp y hy) (ne_false_of_eq_true hm)
  · cases hm

theorem State.effGeProgramLoad_busy
    (hb : ∃ p ∈ (s.progPut w).ges, ∃ y, p.2.run = some y ∧ y.ofProg (Op.ctx w) (bits (wordAt w 2) 23 16) = true) :
    s.effGeProgramLoad q n w = (s.progPut w).progNoted q n (Op.ctx w) (bits (wordAt w 2) 23 16) := by
  simp only [State.effGeProgramLoad, h, Bool.not_true, Bool.false_eq_true, if_false]
  obtain ⟨p, hp, y, hy, hm⟩ := hb
  exact if_pos (List.any_eq_true.2 ⟨p, hp, by rw [hy]; exact hm⟩)

end

/-- Settles O40: each command by its branches; what a GE_PROGRAM_LOAD waits for is a GE that runs the program. -/
theorem resourceCommands : Obligations.ResourceCommands := by
  unfold Obligations.ResourceCommands
  intro s q n w r c ends
  refine ⟨fun h => ?map, fun h => ?pool, fun h => ?program, fun h => ?flow⟩
  case map =>
    intro first ids exports noted
    refine ⟨fun hu => leads_fwCmd h rfl (State.effCounterMap_unmaps hu), fun hm => ?_⟩
    intro full
    refine ⟨fun hf => leads_fwCmd h rfl (State.effCounterMap_full hm hf),
      fun hf => ⟨fun hp => ?_, fun hp => ⟨fun t ht => ?_, fun v hv => ?_⟩⟩⟩
    · exact leads_fwCmd h rfl (State.effCounterMap_away hm hf hp)
    · exact leads_fwCmd h rfl (State.effCounterMap_resident hm hf hp ht)
    · exact leads_fwCmd h rfl (State.effCounterMap_noRoom hm hf hp hv)
  case pool =>
    intro slices p v
    refine ⟨fun h0 => leads_fwCmd h rfl (if_pos h0), fun h0 hl => leads_fwCmd h rfl ?_, fun h0 hl => leads_fwCmd h rfl ?_⟩
    · exact (if_neg h0).trans (if_pos hl)
    · exact (if_neg h0).trans (if_neg hl)
  case program =>
    intro a count pid good
    refine ⟨fun hg => leads_fwCmd h rfl (State.effGeProgramLoad_bad hg), fun hg => ?_⟩
    intro put mine note v
    exact ⟨fun hi => leads_fwCmd h rfl (State.effGeProgramLoad_idle hg hi),
      fun hb => leads_fwCmd h rfl (State.effGeProgramLoad_busy hg hb)⟩
  case flow =>
    intro k f
    refine ⟨fun hu => leads_fwCmd h rfl (if_pos hu), fun hu => ⟨fun hf => leads_fwCmd h rfl ?_, fun hf => leads_fwCmd h rfl ?_⟩⟩
    · exact (if_neg (ne_true_of_eq_false hu)).trans (if_pos (by simpa using hf))
    · exact (if_neg (ne_true_of_eq_false hu)).trans (if_neg (by simpa using hf))

end Sys2Proof.Machine

namespace Sys2Proof.Machine

/-! ## QUERY (R60, R132) -/

/-- What a QUERY whose buffer is long enough writes: its header and the words of its item. -/
def State.queryWritten (s : State) (q n : Nat) (w : List Word) (len : Nat) (ws : List Word) : State :=
  (s.wrWords false (wordAt w 2).toNat
    ([wd (fld len 16 16 + bits (wordAt w 1) 7 0), wd s.env.now] ++ ws)).complete q n .ok 0

section
variable {s : State} {q n : Nat} {w : List Word}

theorem State.effQuery_badParam (h : s.queryItem q (wordAt w 1) = .inl 0) : s.effQuery q n w = s.complete q n .badParam 1 := by
  simp only [State.effQuery, h]

theorem State.effQuery_denied (h : s.queryItem q (wordAt w 1) = .inl 1) : s.effQuery q n w = s.complete q n .denied 1 := by
  simp only [State.effQuery, h]

variable {ws : List Word} (h : s.queryItem q (wordAt w 1) = .inr ws)
include h

theorem State.effQuery_short (hl : (wordAt w 3).toNat < 16 + 8 * ws.length) :
    s.effQuery q n w = s.complete q n .noResource (16 + 8 * ws.length) := by
  simp only [State.effQuery, h]
  exact if_pos hl

variable (hl : 16 + 8 * ws.length ≤ (wordAt w 3).toNat)
include hl

theorem State.effQuery_item (hc : bits (wordAt w 1) 7 0 ≠ 5) :
    s.effQuery q n w = s.queryWritten q n w (16 + 8 * ws.length) ws := by
  simp only [State.effQuery, h]
  rw [if_neg (Nat.not_lt.2 hl), if_neg hc]
  rfl

theorem State.effQuery_counter (hc : bits (wordAt w 1) 7 0 = 5) {m : State} {ws' : List Word}
    (hm : s.counterAt (bits (wordAt w 1) 27 16) (bits (wordAt w 1) 51 28) m) (hi : m.queryItem q (wordAt w 1) = .inr ws') :
    s.effQuery q n w = m.queryWritten q n w (16 + 8 * ws.length) ws' := by
  simp only [State.effQuery, h]
  rw [if_neg (Nat.not_lt.2 hl), if_pos hc, State.withCtrOr_at hm]
  simp only [hi]
  rfl

theorem State.effQuery_noRoom (hc : bits (wordAt w 1) 7 0 = 5) (hp : (s.ctx (bits (wordAt w 1) 27 16)).st.inPlace = true)
    (hr : s.makeCtrResident (bits (wordAt w 1) 27 16) (bits (wordAt w 1) 51 28) = none) :
    s.effQuery q n w = (s.push [.faultCtx (bits (wordAt w 1) 27 16) 0x04 (bits (wordAt w 1) 51 28) 2 ctrMax]).complete q n
      .ctxFault 0x04 := by
  simp only [State.effQuery, h]
  rw [if_neg (Nat.not_lt.2 hl), if_pos hc, State.withCtrOr_noRoom hp hr]
  rfl

end

@[simp] theorem State.setPhase_env (s : State) (q n : Nat) (p : Phase) : (s.setPhase q n p).env = s.env := by
  unfold State.setPhase State.updCmd
  split <;> rfl

/-- Settles O41: QUERY by its item and its buffer, STAT_SNAPSHOT by its mask, and STUDBOOK_READ by its equation. -/
theorem reportCommands : Obligations.ReportCommands := by
  unfold Obligations.ReportCommands
  intro s m q n w r ends
  refine ⟨fun h => ?query, fun h => ?snapshot, fun h => leads_fwCmd h rfl rfl⟩
  case query =>
    refine ⟨fun hb => leads_fwCmd h rfl (State.effQuery_badParam hb), fun hd => leads_fwCmd h rfl (State.effQuery_denied hd),
      fun ws hw => ⟨fun hl => leads_fwCmd h rfl (State.effQuery_short hw hl), fun hl => ⟨fun hc => ?_, fun hc ws' hm hi => ?_,
        fun hc hp hr => ?_⟩⟩⟩
    · exact leads_fwCmd h rfl (State.effQuery_item hw hl hc)
    · exact leads_fwCmd h rfl (State.effQuery_counter hw hl hc hm hi)
    · exact leads_fwCmd h rfl (State.effQuery_noRoom hw hl hc hp hr)
  case snapshot =>
    intro mask
    refine ⟨fun hm => leads_fwCmd h rfl (if_pos hm), fun hm hq hb => leads_fwCmd h rfl ?_, fun hm ho => leads_fwCmd h rfl ?_⟩
    · exact (if_neg (Nat.not_le.2 hm)).trans (if_pos ⟨hq, hb⟩)
    · rw [← State.setPhase_env s q n .running]
      exact (if_neg (Nat.not_le.2 hm)).trans (if_neg (by simpa [← or_iff_not_imp_left] using ho))

end Sys2Proof.Machine

namespace Sys2Proof.Machine

/-! ## QUEUE_RESET (R66) -/

section
variable {s : State} {q n : Nat} {w : List Word}

/-- The head that a QUEUE_RESET asks for. -/
def State.newHead (s : State) (w : List Word) : BitVec 32 :=
  if bit (wordAt w 1) 16 then BitVec.ofNat 32 (wordAt w 2).toNat else (s.queue (bits (wordAt w 1) 9 0)).tail

/-- The queue that a QUEUE_RESET names may be reset. -/
def State.mayReset (s : State) (k : Nat) : Prop :=
  k ≠ 0 ∧ k < s.env.dev.queues ∧ (s.queue k).st = .guilty ∧ (s.queue k).ctxStopped = false

theorem State.mayReset_iff (s : State) (k : Nat) :
    s.mayReset k ↔ ¬ (k = 0 ∨ s.env.dev.queues ≤ k ∨ (s.queue k).st ≠ .guilty ∨ (s.queue k).ctxStopped = true) := by
  simp [State.mayReset]

theorem State.effQueueReset_unfit (h : ¬ s.mayReset (bits (wordAt w 1) 9 0)) :
    s.effQueueReset q n w = s.complete q n .badParam 1 :=
  if_pos (not_not.1 ((State.mayReset_iff _ _).not.1 h))

variable (h : s.mayReset (bits (wordAt w 1) 9 0))
include h

theorem State.effQueueReset_outside (hh : ((s.queue (bits (wordAt w 1) 9 0)).tail - (s.queue (bits (wordAt w 1) 9 0)).head).toNat <
      (s.newHead w - (s.queue (bits (wordAt w 1) 9 0)).head).toNat) :
    s.effQueueReset q n w = s.complete q n .badParam 2 :=
  (if_neg ((State.mayReset_iff _ _).1 h)).trans (if_pos hh)

theorem State.effQueueReset_starts (hh : (s.newHead w - (s.queue (bits (wordAt w 1) 9 0)).head).toNat ≤
      ((s.queue (bits (wordAt w 1) 9 0)).tail - (s.queue (bits (wordAt w 1) 9 0)).head).toNat) :
    s.effQueueReset q n w = s.resetStart (bits (wordAt w 1) 9 0) (s.newHead w) (some n) :=
  (if_neg ((State.mayReset_iff _ _).1 h)).trans (if_neg (Nat.not_lt.2 hh))

end

/-! ## DEBUG_SET_COUNTER (R146) -/

section
variable {s : State} {c v new : Nat}

theorem State.debugSet_undefined (h : s.defined c = false) : s.debugSet c v new = (3, s) :=
  if_pos (by rw [h]; rfl)

variable (hd : s.defined c = true)
include hd

theorem State.debugSet_outside (h : s.idLimit c ≤ v) : s.debugSet c v new = (5, s) :=
  (if_neg (by rw [hd]; simp)).trans (if_pos h)

variable (hv : v < s.idLimit c)
include hv

theorem State.debugSet_running (h : (s.ctx c).halted = false) : s.debugSet c v new = (1, s) :=
  (if_neg (by rw [hd]; simp)).trans ((if_neg (Nat.not_le.2 hv)).trans (if_pos (by rw [h]; rfl)))

variable (hh : (s.ctx c).halted = true)
include hh

theorem State.debugSet_halted : s.debugSet c v new = if new < (s.ctr c v).val then (2, s) else (0, s.handSet c v new) :=
  (if_neg (by rw [hd]; simp)).trans ((if_neg (Nat.not_le.2 hv)).trans (if_neg (by rw [hh]; simp)))

theorem State.debugSet_lower (h : new < (s.ctr c v).val) : s.debugSet c v new = (2, s) :=
  (State.debugSet_halted hd hv hh).trans (if_pos h)

theorem State.debugSet_raised (h : (s.ctr c v).val ≤ new) : s.debugSet c v new = (0, s.handSet c v new) :=
  (State.debugSet_halted hd hv hh).trans (if_neg (Nat.not_lt.2 h))

end

/-- What the command answers to result `k` of R146's tests, where `t` is the state in which the set is made. -/
def State.debugAnswer (s t : State) (q n : Nat) : Nat → State
  | 0 => t.complete q n .ok 0
  | 1 => s.complete q n .denied 1
  | 2 => s.complete q n .denied 3
  | 3 => s.complete q n .badParam 1
  | _ => s.complete q n .badParam 2

theorem State.doWork_debugSet {s : State} {q n k : Nat} {x : Cmd} {t : State} (hx : s.cmd? q n = some x)
    (h : s.debugSet (bits (wordAt x.words 1) 11 0) (bits (wordAt x.words 2) 23 0) (wordAt x.words 3).toNat = (k, t)) :
    s.doWork (.debugSet q n) = s.debugAnswer t q n k := by
  refine (if_pos (by rw [hx]; rfl)).trans ?_
  simp only [State.effDebugSet, hx, Option.getD_some, h]
  match k with
  | 0 | 1 | 2 | 3 | _ + 4 => rfl

/-! ## FW_UPDATE (R324, R325) -/

@[simp] theorem State.setPhase_fwc (s : State) (q n : Nat) (p : Phase) : (s.setPhase q n p).fwc = s.fwc := by
  unfold State.setPhase State.updCmd
  split <;> rfl

@[simp] theorem State.setPhase_gcs (s : State) (q n : Nat) (p : Phase) : (s.setPhase q n p).gcs = s.gcs := by
  unfold State.setPhase State.updCmd
  split <;> rfl

section
variable {s : State} {q n : Nat} {w : List Word}

theorem State.effFwUpdate_waits (h : s.fwc.upd ≠ none) : s.effFwUpdate q n w = s.setPhase q n .takenUp :=
  if_pos (Option.isSome_iff_ne_none.2 h)

variable (h : s.fwc.upd = none)
include h

theorem State.effFwUpdate_first (hp : s.fwc.prog = none) : s.effFwUpdate q n w = s.updateCheck q n w := by
  simp [State.effFwUpdate, h, hp]

theorem State.effFwUpdate_other {u : Handover} (hp : s.fwc.prog = some u) (hu : u.q ≠ q ∨ u.seq ≠ n) :
    s.effFwUpdate q n w = s.setPhase q n .takenUp := by
  simp only [State.effFwUpdate, h, hp, Option.isSome_none, Bool.false_eq_true, if_false, if_pos hu]

theorem State.effFwUpdate_own {u : Handover} (hp : s.fwc.prog = some u) (hq : u.q = q) (hn : u.seq = n) :
    s.effFwUpdate q n w = if s.fwc.updPhase = 1 then s.updateErase u else s.updateProgram u := by
  simp [State.effFwUpdate, h, hp, hq, hn]

end

section
variable {s : State} {q n : Nat} {w : List Word}

theorem State.updateCheck_own (h : bit (wordAt w 3) 0 = s.gcs.image) : s.updateCheck q n w = s.complete q n .badParam 3 :=
  if_pos h

variable (h : bit (wordAt w 3) 0 ≠ s.gcs.image)
include h

theorem State.updateCheck_bad {k : Nat} (hk : s.imageFail? (s.readImage (wordAt w 1).toNat) = some k) :
    s.updateCheck q n w = ((s.noteUpdate (bit (wordAt w 3) 0) 2 5).imageBad (bit (wordAt w 3) 0) k
      (s.readImage (wordAt w 1).toNat)).complete q n .denied 1 := by
  simp only [State.updateCheck, if_neg h, hk]

variable (hk : s.imageFail? (s.readImage (wordAt w 1).toNat) = none)
include hk

theorem State.updateCheck_length (hl : (wordAt w 2).toNat ≠ (s.readImage (wordAt w 1).toNat).totalSize) :
    s.updateCheck q n w = (s.noteUpdate (bit (wordAt w 3) 0) 2 5).complete q n .badParam 2 := by
  simp only [State.updateCheck, if_neg h, hk, if_pos hl]

theorem State.updateCheck_begins (hl : (wordAt w 2).toNat = (s.readImage (wordAt w 1).toNat).totalSize) :
    let t := s.noteUpdate (bit (wordAt w 3) 0) 0 1
    s.updateCheck q n w = State.setPhase { t with fwc := { t.fwc with
      progressKib := 0
      prog := some { q := q, seq := n, base := (wordAt w 1).toNat, target := bit (wordAt w 3) 0 } } } q n .takenUp := by
  simp only [State.updateCheck, if_neg h, hk, if_neg (not_not.2 hl)]

end

section
variable {s : State} {u : Handover}

theorem State.updateProgram_refused (h : s.env.flashOk = false ∨ s.imageFail? (s.readImage u.base) ≠ none) :
    s.updateProgram u = ((State.noteUpdate { s with fwc := { s.fwc with prog := none } } u.target 3 5).imageBad u.target 6
      (s.readImage u.base)).complete u.q u.seq .denied 1 :=
  if_pos (h.imp (fun hf => by rw [hf]; rfl) Option.isSome_iff_ne_none.2)

theorem State.updateProgram_done (hf : s.env.flashOk = true) (hi : s.imageFail? (s.readImage u.base) = none) :
    let x := s.readImage u.base
    let p := State.setImage { s with fwc := { s.fwc with prog := none } } u.target x
    let t := p.setTack { p.tack.setFails u.target 0 with prefB := u.target }
    let y := ((t.fwc.cores.map Prod.fst).foldl State.pet t).noteUpdate u.target 0 3
    s.updateProgram u = { y with fwc := { y.fwc with
      progressKib := (x.totalSize + 1023) / 1024, handover := true, frozen := true, upd := some { u with startAt := y.env.now },
      cores := y.fwc.cores.map fun (p : Nat × Nat) => (p.1, if p.2 = 1 then 2 else p.2) } } :=
  if_neg (by simp [hf, hi])

end

/-- Settles O43: each command by what its tests answer; an FW_UPDATE by the step of Table 14.6 at which its presentation stands. -/
theorem managementCommands : Obligations.ManagementCommands := by
  unfold Obligations.ManagementCommands
  intro s m q n w r ends
  refine ⟨fun h => ?reset, fun h => leads_fwCmd h rfl rfl, fun x hx hw => ?debug, fun h => ?update, fun h => leads_fwCmd h rfl rfl⟩
  case reset =>
    exact ⟨fun hf => leads_fwCmd h rfl (State.effQueueReset_unfit hf),
      fun hf hh => leads_fwCmd h rfl (State.effQueueReset_outside hf hh),
      fun hf hh => leads_fwCmd h rfl (State.effQueueReset_starts hf hh)⟩
  case debug =>
    subst hw
    refine ⟨fun hd => ?_, fun hd => ⟨fun hv => ?_, fun hv hh => ?_, fun hv hh => ⟨fun hl => ?_, fun hl => ?_⟩⟩⟩
    · exact State.doWork_debugSet hx (State.debugSet_undefined hd)
    · exact State.doWork_debugSet hx (State.debugSet_outside hd hv)
    · exact State.doWork_debugSet hx (State.debugSet_running hd hv hh)
    · exact State.doWork_debugSet hx (State.debugSet_lower hd hv hh hl)
    · exact State.doWork_debugSet hx (State.debugSet_raised hd hv hh hl)
  case update =>
    have hr : r.fwc = s.fwc := s.setPhase_fwc q n .running
    have hg : r.gcs = s.gcs := s.setPhase_gcs q n .running
    have he : r.env = s.env := s.setPhase_env q n .running
    intro target x note
    rw [← hr, ← hg, ← he]
    refine ⟨fun hu => leads_fwCmd h rfl (State.effFwUpdate_waits hu), fun hu hp => ?first, fun hu u hp => ?later⟩
    case first =>
      have first := State.effFwUpdate_first (q := q) (n := n) (w := w) hu hp
      exact ⟨fun ht => leads_fwCmd h rfl (first.trans (State.updateCheck_own ht)), fun ht =>
        ⟨fun k hk => leads_fwCmd h rfl (first.trans (State.updateCheck_bad ht hk)),
          fun hk hl => leads_fwCmd h rfl (first.trans (State.updateCheck_length ht hk hl)),
          fun hk hl => leads_fwCmd h rfl (first.trans (State.updateCheck_begins ht hk hl))⟩⟩
    case later =>
      refine ⟨fun ho => leads_fwCmd h rfl (State.effFwUpdate_other hu hp ho), fun hq hn h1 => ?_, fun hq hn h1 hb => ?_,
        fun hq hn h1 hf hi => ?_⟩ <;> have own := State.effFwUpdate_own (w := w) hu hp hq hn <;> subst hq hn
      · exact leads_fwCmd h rfl (own.trans (if_pos h1))
      · exact leads_fwCmd h rfl (own.trans ((if_neg h1).trans (State.updateProgram_refused hb)))
      · exact leads_fwCmd h rfl (own.trans ((if_neg h1).trans (State.updateProgram_done hf hi)))

end Sys2Proof.Machine

namespace Sys2Proof.Machine

/-! ## A fetched packet's checks (R28, R45) -/

section
variable {s : State} {q : Nat} {p : List Word}

/-- The context of a packet is the queue's. -/
def State.ownPacket (s : State) (q : Nat) (p : List Word) : Prop :=
  q = 0 ∨ (Op.ctx p = (s.queue q).ctxId ∧ s.defined (Op.ctx p) = true)

/-- The opcode is known, and its command has as many packets as it takes. -/
def packetFits (p : List Word) : Prop := Op.code p < opcodes ∧ Op.extra p + 1 = cmdPackets p

theorem State.ownPacket_iff :
    s.ownPacket q p ↔ ¬ (q ≠ 0 ∧ (Op.ctx p ≠ (s.queue q).ctxId ∨ (!s.defined (Op.ctx p)) = true)) := by
  by_cases h : q = 0 <;> simp [State.ownPacket, h]

theorem State.firstCause_crc (h : packetCrcOk true p = false) : s.firstCause q p = 1 :=
  if_pos (by rw [h]; rfl)

variable (h : packetCrcOk true p = true)
include h

theorem State.firstCause_good : s.firstCause q p = if opcodes ≤ Op.code p then 2
    else if Op.extra p + 1 ≠ cmdPackets p then 3
    else if q ≠ 0 ∧ (Op.ctx p ≠ (s.queue q).ctxId ∨ !s.defined (Op.ctx p)) then 5 else 0 :=
  if_neg (by rw [h]; simp)

theorem State.firstCause_opcode (hc : opcodes ≤ Op.code p) : s.firstCause q p = 2 :=
  (State.firstCause_good h).trans (if_pos hc)

theorem State.firstCause_length (hc : Op.code p < opcodes) (hl : Op.extra p + 1 ≠ cmdPackets p) : s.firstCause q p = 3 :=
  (State.firstCause_good h).trans ((if_neg (Nat.not_le.2 hc)).trans (if_pos hl))

theorem State.firstCause_fits (hf : packetFits p) :
    s.firstCause q p = if q ≠ 0 ∧ (Op.ctx p ≠ (s.queue q).ctxId ∨ !s.defined (Op.ctx p)) then 5 else 0 :=
  (State.firstCause_good h).trans ((if_neg (Nat.not_le.2 hf.1)).trans (if_neg (not_not.2 hf.2)))

theorem State.firstCause_context (hf : packetFits p) (ho : ¬ s.ownPacket q p) : s.firstCause q p = 5 :=
  (State.firstCause_fits h hf).trans (if_pos (not_not.1 (State.ownPacket_iff.not.1 ho)))

theorem State.firstCause_none (hf : packetFits p) (ho : s.ownPacket q p) : s.firstCause q p = 0 :=
  (State.firstCause_fits h hf).trans (if_neg (State.ownPacket_iff.1 ho))

/-- A packet with a good CRC fails no check, or one that comes after the CRC's. -/
theorem State.firstCause_late (hn : ¬ (packetFits p ∧ s.ownPacket q p)) : ∃ c, s.firstCause q p = c + 2 := by
  by_cases hc : opcodes ≤ Op.code p
  · exact ⟨0, State.firstCause_opcode h hc⟩
  by_cases hl : Op.extra p + 1 = cmdPackets p
  · have hf : packetFits p := ⟨Nat.not_le.1 hc, hl⟩
    exact ⟨3, State.firstCause_context h hf fun ho => hn ⟨hf, ho⟩⟩
  · exact ⟨1, State.firstCause_length h (Nat.not_le.1 hc) hl⟩

end

/-- Packet `j` past `p` is before the tail and fails its CRC. -/
def State.laterBad (s : State) (q i : Nat) (p : List Word) (j : Nat) : Prop :=
  0 < j ∧ j ≤ Op.extra p ∧ i + j < (s.queue q).have ∧ packetCrcOk false (s.packetAt q (i + j)) = false

theorem mem_later_iff (n j : Nat) : j ∈ (List.range n).map (· + 1) ↔ 0 < j ∧ j ≤ n := by
  simp only [List.mem_map, List.mem_range]
  constructor
  · rintro ⟨a, ha, rfl⟩; omega
  · rintro ⟨h0, hn⟩; exact ⟨j - 1, by omega, by omega⟩

theorem State.laterCrcBad_some {s : State} {q i j : Nat} {p : List Word} (h : s.laterCrcBad q i p = some j) :
    s.laterBad q i p j := by
  have found := List.find?_some h
  obtain ⟨h0, hn⟩ := (mem_later_iff _ _).1 (List.mem_of_find?_eq_some h)
  rw [Bool.and_eq_true, decide_eq_true_iff, Bool.not_eq_true'] at found
  exact ⟨h0, hn, found⟩

theorem State.laterCrcBad_none {s : State} {q i : Nat} {p : List Word} (h : s.laterCrcBad q i p = none) (j : Nat) :
    ¬ s.laterBad q i p j := by
  rintro ⟨h0, hn, ht, hc⟩
  have clear := List.find?_eq_none.1 h j ((mem_later_iff _ _).2 ⟨h0, hn⟩)
  simp [ht, hc] at clear

/-- The next packet of queue `q`. -/
def State.nextPacket (s : State) (q : Nat) : List Word := s.packetAt q ((s.queue q).fetched.length / 8)

/-- What is fetched of a command that is not whole. -/
def State.fetchedPart (s : State) (q : Nat) : List Word := fetchTail (s.queue q).fetched ((s.queue q).fetched.length + 1)

/-- The number of the next packet. -/
def State.nextCount (s : State) (q : Nat) : Nat := ((s.queue q).head.toNat + (s.queue q).fetched.length / 8) % 2 ^ 32

/-- A later packet of the command that the next packet begins fails its CRC. -/
def State.nextLater (s : State) (q : Nat) : Option Nat := s.laterCrcBad q ((s.queue q).fetched.length / 8) (s.nextPacket q)

/-- The next packet joins those fetched. -/
def State.packetFetched (s : State) (q : Nat) : State :=
  (s.updQueue q fun x => { x with fetched := x.fetched ++ s.nextPacket q }).refresh q

/-- The last packet of command `w` names a local counter that its context does not have. -/
def State.localOutside (s : State) (w : List Word) : Prop :=
  w.length = 8 * cmdPackets w ∧ Op.local w = true ∧
    (s.defined (Op.ctx w) = false ∨ s.idLimit (Op.ctx w) ≤ bits (Op.cpl w 1) 23 0)

section
variable {s : State} {q : Nat} (hs : (s.queue q).st = .slotted) (hi : (s.queue q).fetched.length / 8 < (s.queue q).have)
  (hu : s.up = true) (hc : (s.queue q).contain = none)
include hs hi hu hc

theorem State.packetCheck_eq : s.packetCheck q = if s.fetchedPart q = [] then
      match s.firstCause q (s.nextPacket q) with
      | 0 => s.packetFetched q
      | 1 => s.guilty q 1 none (s.nextPacket q) 1 1 (s.nextCount q) 0
      | c => match s.nextLater q with
        | some j => s.guilty q 1 none (s.nextPacket q) 1 1 ((s.nextCount q + j) % 2 ^ 32) 0
        | none => s.guilty q c none (s.nextPacket q) (if c = 5 then 0 else c) c (s.nextCount q) 0
    else if !packetCrcOk false (s.nextPacket q) then s.guilty q 1 none (s.fetchedPart q ++ s.nextPacket q) 1 1 (s.nextCount q) 0
    else
      let w := s.fetchedPart q ++ s.nextPacket q
      if decide (w.length = 8 * cmdPackets w) && Op.local w &&
          (!s.defined (Op.ctx w) || decide (s.idLimit (Op.ctx w) ≤ bits (Op.cpl w 1) 23 0)) then
        s.guilty q 5 none w (8 * opPackets (Op.code w) + 1) 5 (s.nextCount q) 0
      else s.packetFetched q := by
  refine (if_neg ?_).trans ((if_neg (Nat.not_le.2 hi)).trans rfl)
  simp [hs, hu, hc]

section
variable (hp : s.fetchedPart q = [])
include hp

theorem State.packetCheck_first_passes (h : s.firstCause q (s.nextPacket q) = 0) : s.packetCheck q = s.packetFetched q := by
  rw [State.packetCheck_eq hs hi hu hc, if_pos hp, h]
  rfl

theorem State.packetCheck_first_crc (h : s.firstCause q (s.nextPacket q) = 1) :
    s.packetCheck q = s.guilty q 1 none (s.nextPacket q) 1 1 (s.nextCount q) 0 := by
  rw [State.packetCheck_eq hs hi hu hc, if_pos hp, h]
  rfl

theorem State.packetCheck_first_later {c j : Nat} (h : s.firstCause q (s.nextPacket q) = c + 2) (hj : s.nextLater q = some j) :
    s.packetCheck q = s.guilty q 1 none (s.nextPacket q) 1 1 ((s.nextCount q + j) % 2 ^ 32) 0 := by
  rw [State.packetCheck_eq hs hi hu hc, if_pos hp, h, hj]
  rfl

theorem State.packetCheck_first_bad {c : Nat} (h : s.firstCause q (s.nextPacket q) = c + 2) (hj : s.nextLater q = none) :
    s.packetCheck q = s.guilty q (c + 2) none (s.nextPacket q) (if c + 2 = 5 then 0 else c + 2) (c + 2) (s.nextCount q) 0 := by
  rw [State.packetCheck_eq hs hi hu hc, if_pos hp, h, hj]
  rfl

end

variable (hp : s.fetchedPart q ≠ [])
include hp

theorem State.packetCheck_later_crc (h : packetCrcOk false (s.nextPacket q) = false) :
    s.packetCheck q = s.guilty q 1 none (s.fetchedPart q ++ s.nextPacket q) 1 1 (s.nextCount q) 0 := by
  rw [State.packetCheck_eq hs hi hu hc, if_neg hp, if_pos (by rw [h]; rfl)]

variable (h : packetCrcOk false (s.nextPacket q) = true)
include h

theorem State.packetCheck_later_outside (ho : s.localOutside (s.fetchedPart q ++ s.nextPacket q)) :
    s.packetCheck q = s.guilty q 5 none (s.fetchedPart q ++ s.nextPacket q)
      (8 * opPackets (Op.code (s.fetchedPart q ++ s.nextPacket q)) + 1) 5 (s.nextCount q) 0 := by
  rw [State.packetCheck_eq hs hi hu hc, if_neg hp, if_neg (by rw [h]; simp)]
  exact if_pos (by simpa [State.localOutside, and_assoc] using ho)

theorem State.packetCheck_later_passes (ho : ¬ s.localOutside (s.fetchedPart q ++ s.nextPacket q)) :
    s.packetCheck q = s.packetFetched q := by
  rw [State.packetCheck_eq hs hi hu hc, if_neg hp, if_neg (by rw [h]; simp)]
  exact if_neg (by simpa [State.localOutside, and_assoc] using ho)

end

/-! ## Containment of a guilty queue (R63, Table 2.15) -/

theorem State.guilty_contained {s : State} {q : Nat} (h : (s.queue q).contain ≠ none) (cause : Nat) (off : Option Nat) (un : List Word)
    (detail a b c : Nat) : s.guilty q cause off un detail a b c = s :=
  if_pos (Option.isSome_iff_ne_none.2 h)

/-- Every action stays but the completions of the queue's commands. -/
theorem State.recallWork_queue (s : State) (q : Nat) :
    s.recallWork (fun p _ => decide (p = q)) = { s with work := s.work.filter fun w => match w with
      | .complete p .. => decide (p ≠ q)
      | _ => true } := by
  refine congrArg (fun l => { s with work := l }) (List.filter_congr fun w _ => ?_)
  cases w with
  | complete p n st d => exact decide_not.symm
  | _ => rfl

/-- Containment is complete, and the queue is still under it. -/
theorem State.contained_guilty {s : State} {q cause tag a b c : Nat} {un : List Word} :
    let m := if un = [] then s else s.putUnstarted q [wordAt un 0, wd s.env.now, wordAt un 2, wordAt un 3]
    let e := m.err { unit := 1, cls := 2, code := causeCode cause, qt := some (q, tag), a := a, b := b, c := c }
    let last := e.setQueue q { e.queue q with contain := none }
    (e.queue q).contain ≠ none → (e.queue q).ctxStopped = false → s.contained q cause un tag a b c =
      (((last.updQueue q fun z => { z with cause := cause }).unslot q .guilty).queueMsix q).refreshAll := by
  intro m e last hn hx
  refine if_neg fun h => ?_
  rcases h with h | h
  · exact hn (Option.isNone_iff_eq_none.1 h)
  · exact absurd h (ne_true_of_eq_false hx)

/-- The queue was taken meanwhile, by its context's fault or destruction. -/
theorem State.contained_taken {s : State} {q cause tag a b c : Nat} {un : List Word} :
    let m := if un = [] then s else s.putUnstarted q [wordAt un 0, wd s.env.now, wordAt un 2, wordAt un 3]
    let e := m.err { unit := 1, cls := 2, code := causeCode cause, qt := some (q, tag), a := a, b := b, c := c }
    (e.queue q).contain = none ∨ (e.queue q).ctxStopped = true →
      s.contained q cause un tag a b c = e.setQueue q { e.queue q with contain := none } := by
  intro m e h
  exact if_pos (h.imp_left Option.isNone_iff_eq_none.2)

/-! ## The running tasks of a guilty queue (R63, R129) -/

/-- The tag of a wait that core `c` has at its port. -/
def Waiter.coreTag? (c : Nat) (w : Waiter) : Option Nat := match w.who with
  | .core k tag => if k = c then some tag else none
  | _ => none

theorem Waiter.coreTag?_own {c tag : Nat} {w : Waiter} (h : w.who = .core c tag) : w.coreTag? c = some tag := by
  simp only [Waiter.coreTag?, h, if_true]

theorem State.poisonWaits_waiters (s : State) (c : Nat) :
    (s.poisonWaits c).ctu.waiters = s.ctu.waiters.filter fun w => !(w.coreTag? c).isSome := by
  unfold State.poisonWaits
  dsimp only
  split <;> rfl

theorem State.poisonWaits_running (s : State) (c k : Nat) : ((s.poisonWaits c).core k).running = (s.core k).running := by
  unfold State.poisonWaits
  dsimp only
  split
  · rfl
  · exact s.core_xferOpen_running c 8 k

theorem foldl_poisonWaits_running (l : List Nat) (s : State) (k : Nat) :
    ((l.foldl State.poisonWaits s).core k).running = (s.core k).running := by
  induction l generalizing s with
  | nil => rfl
  | cons c r ih => exact (ih _).trans (s.poisonWaits_running c k)

/-- Of the cores whose waits are answered, none waits any more. -/
theorem mem_foldl_poisonWaits {l : List Nat} {s : State} {w : Waiter} (h : w ∈ (l.foldl State.poisonWaits s).ctu.waiters) :
    w ∈ s.ctu.waiters ∧ ∀ k ∈ l, ∀ tag, w.who ≠ .core k tag := by
  induction l generalizing s with
  | nil => exact ⟨h, by simp⟩
  | cons c r ih =>
    obtain ⟨hw, hr⟩ := ih h
    rw [State.poisonWaits_waiters, List.mem_filter] at hw
    refine ⟨hw.1, fun k hk tag ht => ?_⟩
    rcases List.mem_cons.1 hk with rfl | hk
    · simp [Waiter.coreTag?_own ht] at hw
    · exact hr k hk tag ht

/-- A core that runs a task is listed. -/
theorem State.core_listed {s : State} {k : Nat} {y : Running} (hy : (s.core k).running = some y) :
    AL.get? k s.csq.cores = some (s.core k) := by
  unfold State.core AL.get at hy ⊢
  cases h : AL.get? k s.csq.cores with
  | none => rw [h] at hy; cases hy
  | some x => rfl

/-- What containment of queue `q` makes of a running task that `f` picks. -/
def suppressMark (q : Nat) (f : TaskRef → Bool) (y : Running) : Running :=
  if f y.p.e.ref && !y.suppressed then { y with suppressed := true, supQ := some q } else y

section
variable {s : State} {q k : Nat} {f : TaskRef → Bool} {y : Running} (hy : (s.core k).running = some y) (hf : f y.p.e.ref = true)
  (hn : y.suppressed = false)
include hy hf hn

theorem State.suppress_running : ((s.suppress q f).core k).running = some { y with suppressed := true, supQ := some q } := by
  refine (foldl_poisonWaits_running _ _ k).trans ?_
  have marked := AL.get?_map k (fun x : Core => { x with running := x.running.map (suppressMark q f) }) s.csq.cores
  rw [State.core_listed hy, Option.map_some, hy, Option.map_some] at marked
  have mark : suppressMark q f y = { y with suppressed := true, supQ := some q } := if_pos (by rw [hf, hn]; rfl)
  exact (congrArg (fun x => (x.getD default).running) marked).trans (congrArg some mark)

theorem State.suppress_waiters {w : Waiter} (hw : w ∈ (s.suppress q f).ctu.waiters) (tag : Nat) : w.who ≠ .core k tag := by
  obtain ⟨a, b, hl, -⟩ := AL.get?_split (State.core_listed hy)
  refine (mem_foldl_poisonWaits hw).2 k (List.mem_map.2 ⟨(k, s.core k), List.mem_filter.2 ⟨by rw [hl]; simp, ?_⟩, rfl⟩) tag
  simp only [hy, hf, hn, Bool.not_false, Bool.and_self]

end

/-! ## Firmware's commands and the timers (R52, R62, R317) -/

theorem State.takeUp_oldest {s : State} {role q n : Nat} {r : List (Nat × Nat)} (ha : s.fwActs = true)
    (hr : s.roleRuns role = true) (hq : AL.get s.fwc.roleQ role = (q, n) :: r) :
    s.takeUp role = (State.updCmd { s with fwc := { s.fwc with roleQ := AL.put role r s.fwc.roleQ } } q n fun x =>
      { x with phase := .takenUp, core := some (s.roleCore role) }).refreshAll := by
  simp only [State.takeUp, ha, hr, hq, Bool.not_true, Bool.or_self, Bool.false_eq_true, if_false]

theorem State.fwBusy_expired {s : State} {q n : Nat} {x : Cmd} (hx : s.cmd? q n = some x) (hp : x.phase = .fwQueued)
    (h0 : (s.queue q).waitNs ≠ 0) (ht : x.start + (s.queue q).waitNs ≤ s.env.now) :
    s.fwBusy q n = (s.abortCmd q n .fwBusy 0).refreshAll := by
  simp only [State.fwBusy, hx]
  exact if_neg (by simp [hp, h0, ht])

/-- The release or the completion of a WAIT is still to be performed. -/
theorem State.waitOver_iff {s : State} {q n : Nat} : s.waitOver q n = true ↔
    ∃ w ∈ s.work, (∃ p, w = .release (.cmd q n) p) ∨ ∃ st d, w = .complete q n st d := by
  rw [State.waitOver, List.any_eq_true]
  refine exists_congr fun w => and_congr_right fun _ => ?_
  cases w with
  | release who p => cases who <;> simp
  | complete p m st d => simp
  | _ => simp

section
variable {s : State} {q n : Nat} {x : Cmd}

theorem State.waitTimeout_due (hx : ((s.queue q).cmds.find? fun p => Op.code p.2.words = 0x04) = some (n, x))
    (hn : ¬ s.waitOver q n = true) (h0 : (s.queue q).waitNs ≠ 0) (ht : (s.queue q).waitNs ≤ s.runTime x) :
    s.waitTimeout q = s.guilty q 6 (some n) [] 0 6 (bits (wordAt x.words 1) 23 0) (wordAt x.words 2).toNat := by
  have found : ((s.queue q).cmds.find? fun p => Op.code p.2.words = 0x04 && !s.waitOver q p.1) = some (n, x) := by
    obtain ⟨hc, a, b, hl, ha⟩ := List.find?_eq_some_iff_append.1 hx
    refine List.find?_eq_some_iff_append.2 ⟨?_, a, b, hl, fun p hp => ?_⟩
    · simpa [hn] using hc
    · have other := ha p hp
      simp only [Bool.not_eq_true', decide_eq_false_iff_not] at other
      simp [other]
  simp only [State.waitTimeout, found]
  exact if_neg (by simp [h0, ht])

theorem State.waitTimeout_over (h : ∀ p ∈ (s.queue q).cmds, Op.code p.2.words = 0x04 → s.waitOver q p.1 = true) :
    s.waitTimeout q = s := by
  have none : ((s.queue q).cmds.find? fun p => Op.code p.2.words = 0x04 && !s.waitOver q p.1) = none :=
    List.find?_eq_none.2 fun p hp => by
      by_cases hc : Op.code p.2.words = 0x04
      · simp [h p hp hc]
      · simp [hc]
  simp only [State.waitTimeout, none]

/-- The number that the error record of an overdue root command gives. -/
def State.overdueNum (s : State) (x : Cmd) : Nat := if Op.code x.words = 0x12 then
    (((s.carCtx (Op.ctx x.words)).live.bind LiveStep.inst).bind fun i => (s.inst? (Op.ctx x.words) i).map Inst.num).getD 0
  else x.launch

theorem State.graphWatchdog_due (hx : s.cmd? q n = some x) (hw : x.watched = true) (h0 : (s.queue q).graphNs ≠ 0)
    (ht : (s.queue q).graphNs ≤ s.runTime x) :
    s.graphWatchdog q n = s.guilty q 7 (some n) [] 0 (rootGraph x.words) (s.overdueNum x) (s.queue q).graphNs := by
  simp only [State.graphWatchdog, hx]
  exact if_neg (by simp [hw, h0, ht])

theorem State.overdueNum_step {l : LiveStep} {i : Nat} {y : Inst} (hc : Op.code x.words = 0x12)
    (hl : (s.carCtx (Op.ctx x.words)).live = some l) (hi : l.inst = some i) (hy : s.inst? (Op.ctx x.words) i = some y) :
    s.overdueNum x = y.num := by
  simp [State.overdueNum, hc, hl, hi, hy]

end

/-- Settles O44: a packet by the first check that it fails, containment by its equation, and each timer by what it waits for. -/
theorem packetChecksAndTimers : Obligations.PacketChecksAndTimers := by
  unfold Obligations.PacketChecksAndTimers
  refine ⟨fun s q t => ?packet, fun s q cause off un detail a b c => ?contain, fun s role q n t r => ?taken, fun s q n t x => ?busy,
    fun s q n t x => ?timers⟩
  case packet =>
    intro u x i p part count leads fetched own hs hi hu hc
    refine ⟨fun hp => ⟨fun h => ?_, fun h => ?_⟩, fun hp => ⟨fun h => ?_, fun h => ?_⟩⟩
    · exact leads_eq rfl (State.packetCheck_first_crc hs hi hu hc hp (State.firstCause_crc h))
    · intro fits later
      refine ⟨fun j => State.laterCrcBad_some, State.laterCrcBad_none, fun j hj hn => ?_, fun hj => ⟨fun ho => ?_, fun ho hl => ?_,
        fun hf hn => ?_⟩, fun hf ho => ?_⟩
      · obtain ⟨c, hc'⟩ := State.firstCause_late (s := u) (q := q) h hn
        exact leads_eq rfl (State.packetCheck_first_later hs hi hu hc hp hc' hj)
      · exact leads_eq rfl (State.packetCheck_first_bad hs hi hu hc hp (State.firstCause_opcode h ho) hj)
      · exact leads_eq rfl (State.packetCheck_first_bad hs hi hu hc hp (State.firstCause_length h ho hl) hj)
      · exact leads_eq rfl (State.packetCheck_first_bad hs hi hu hc hp (State.firstCause_context h hf hn) hj)
      · exact leads_eq rfl (State.packetCheck_first_passes hs hi hu hc hp (State.firstCause_none h hf ho))
    · exact leads_eq rfl (State.packetCheck_later_crc hs hi hu hc hp h)
    · exact ⟨fun ho => leads_eq rfl (State.packetCheck_later_outside hs hi hu hc hp h ho),
        fun ho => leads_eq rfl (State.packetCheck_later_passes hs hi hu hc hp h ho)⟩
  case contain =>
    intro x
    refine ⟨fun h => State.guilty_contained h cause off un detail a b c, fun h => ?_, fun tag => ?_, fun f k y hy hf hn => ?_⟩
    · unfold State.guilty
      rw [if_neg (by rw [show (s.queue q).contain = none from h]; simp), State.recallWork_queue]
      rfl
    · exact ⟨State.contained_taken, State.contained_guilty⟩
    · exact ⟨State.suppress_running hy hf hn, fun w hw => State.suppress_waiters hy hf hn hw⟩
  case taken => exact fun ha hr hq => leads_eq rfl (State.takeUp_oldest ha hr hq)
  case busy => exact fun hx hp h0 ht => leads_eq rfl (State.fwBusy_expired hx hp h0 ht)
  case timers =>
    intro u freed
    refine ⟨fun hx hn h0 ht => ?_, fun h => ?_, fun hx ho => ?_, fun hx hw h0 ht => ?_⟩
    · exact leads_eq rfl (State.waitTimeout_due hx (State.waitOver_iff.not.2 hn) h0 ht)
    · exact leads_eq rfl (State.waitTimeout_over fun p hp hc => State.waitOver_iff.2 (h p hp hc))
    · exact (State.waitReleased_eq hx true).trans (if_pos ho)
    · have due := State.graphWatchdog_due hx hw h0 ht
      refine ⟨fun hc => leads_eq rfl (due.trans ?_), fun l i y hc hl hi hy => leads_eq rfl (due.trans ?_)⟩
      · rw [State.overdueNum, if_neg hc]
      · rw [State.overdueNum_step hc hl hi hy]

end Sys2Proof.Machine

namespace Sys2Proof.Machine

/-- An access while the units are on leads to what its unit makes of it. -/
theorem leads_onUnits {i : Instr} {s v : State} {f : State → State} (on : s.unitsOn = true)
    (he : exec i s = .next (settle (s.onUnits f))) (hv : f s = v) : Leads i s v :=
  leads_eq he ((if_pos on).trans hv)

/-- A queue under containment stays as it is (R63). -/
theorem State.refresh_contained {s : State} {q : Nat} (h : (s.queue q).contain.isSome = true) : s.refresh q = s :=
  if_pos h

/-! ## Doorbells (R30, R34, R36) -/

section
variable {s : State} {q : Nat} {v : Word}

theorem State.dbTail_disabled (h : (s.queue q).st = .disabled) : s.dbTail q v = s :=
  if_pos (.inl h)

theorem State.dbCplHead_disabled (h : (s.queue q).st = .disabled) : s.dbCplHead q v = s :=
  if_pos (.inl h)

variable (h : (s.queue q).st ≠ .disabled) (hq : q < s.env.dev.queues)
include h hq

theorem State.dbCplHead_taken : s.dbCplHead q v =
    ((s.setQueue q { s.queue q with consumed := BitVec.ofNat 32 v.toNat }).flushHeld q).resetRefresh q :=
  if_neg (not_or.2 ⟨h, Nat.not_le.2 hq⟩)

/-- The doorbell write is recorded (R34). -/
def State.tailNoted (s : State) (q : Nat) (v : Word) : State :=
  s.setQueue q { s.queue q with tail := BitVec.ofNat 32 v.toNat, pendDl := (s.queue q).deadline }

theorem State.dbTail_taken : s.dbTail q v =
    let x := s.queue q
    let tail := BitVec.ofNat 32 v.toNat
    if x.st = .guilty ∨ x.st = .resetting ∨ x.ctxStopped ∨ x.contain.isSome then s.tailNoted q v
    else if x.packets < (tail - x.head).toNat then (s.tailNoted q v).guilty q 4 none [] 0 4 tail.toNat 0
    else (s.tailNoted q v).refresh q :=
  if_neg (not_or.2 ⟨h, Nat.not_le.2 hq⟩)

theorem State.dbTail_idle
    (hi : (s.queue q).st = .guilty ∨ (s.queue q).st = .resetting ∨ (s.queue q).ctxStopped = true) :
    s.dbTail q v = s.tailNoted q v := by
  rw [State.dbTail_taken h hq]
  exact if_pos (hi.imp_right fun h => h.imp_right .inl)

/-- A queue under containment only records the tail; its containment and its state stay. -/
theorem State.dbTail_contained (hc : (s.queue q).contain.isSome = true) : s.dbTail q v = s.tailNoted q v := by
  rw [State.dbTail_taken h hq]
  exact if_pos (.inr (.inr (.inr hc)))

variable (hi : ¬ ((s.queue q).st = .guilty ∨ (s.queue q).st = .resetting ∨ (s.queue q).ctxStopped = true))
include hi

theorem State.dbTail_free (hc : ¬ (s.queue q).contain.isSome = true) : s.dbTail q v =
    if (s.queue q).packets < (BitVec.ofNat 32 v.toNat - (s.queue q).head).toNat then
      (s.tailNoted q v).guilty q 4 none [] 0 4 (BitVec.ofNat 32 v.toNat).toNat 0
    else (s.tailNoted q v).refresh q := by
  rw [State.dbTail_taken h hq]
  exact if_neg fun ho => ho.elim (fun h => hi (.inl h)) fun ho => ho.elim (fun h => hi (.inr (.inl h)))
    fun ho => ho.elim (fun h => hi (.inr (.inr h))) hc

theorem State.dbTail_far (ht : (s.queue q).packets < (BitVec.ofNat 32 v.toNat - (s.queue q).head).toNat) :
    s.dbTail q v = (s.tailNoted q v).guilty q 4 none [] 0 4 (BitVec.ofNat 32 v.toNat).toNat 0 := by
  by_cases hc : (s.queue q).contain.isSome = true
  · rw [State.dbTail_contained h hq hc, State.guilty_contained]
    exact Option.isSome_iff_ne_none.1 (by rwa [State.tailNoted, State.queue_setQueue_self])
  · rw [State.dbTail_free h hq hi hc, if_pos ht]

theorem State.dbTail_near (ht : (BitVec.ofNat 32 v.toNat - (s.queue q).head).toNat ≤ (s.queue q).packets) :
    s.dbTail q v = (s.tailNoted q v).refresh q := by
  by_cases hc : (s.queue q).contain.isSome = true
  · rw [State.dbTail_contained h hq hc, State.refresh_contained]
    rwa [State.tailNoted, State.queue_setQueue_self]
  · rw [State.dbTail_free h hq hi hc, if_neg (Nat.not_lt.2 ht)]

end

/-! ## Enable and disable (R32, Table 2.5) -/

section
variable {s : State} {q : Nat}

theorem State.queueEnable_refused
    (h : (s.queue q).st ≠ .disabled ∨ ringSizeOk (s.queue q).ring = false ∨ ringSizeOk (s.queue q).cpl = false) :
    s.queueEnable q = s := by
  refine if_pos ?_
  rcases h with h | h | h
  · exact .inl h
  · exact .inr (.inr (.inl (by rw [h]; rfl)))
  · exact .inr (.inr (.inr (by rw [h]; rfl)))

variable (hq : q < s.env.dev.queues) (hs : (s.queue q).st = .disabled) (hr : ringSizeOk (s.queue q).ring = true)
  (hc : ringSizeOk (s.queue q).cpl = true)
include hq hs hr hc

theorem State.queueEnable_taken : s.queueEnable q =
    let x := s.queue q
    let s1 := s.setQueue q { x with
      st := if q = 0 then .slotted else .idle, written := 0, reserved := 0, consumed := 0, deadline := ctrMax, pendDl := ctrMax,
      tail := x.head, fetched := [], idleAt := none, blockAt := none, slotAt := s.env.now, ctxStopped := false }
    if q = 0 then s1.slotState 0 .idleWait else s1 :=
  if_neg (by simp [hs, hr, hc, hq])

theorem State.queueEnable_other (h0 : q ≠ 0) : s.queueEnable q = s.setQueue q { s.queue q with
    st := .idle, written := 0, reserved := 0, consumed := 0, deadline := 2 ^ 64 - 1, pendDl := 2 ^ 64 - 1,
    tail := (s.queue q).head, fetched := [], idleAt := none, blockAt := none, slotAt := s.env.now, ctxStopped := false } := by
  rw [State.queueEnable_taken hq hs hr hc]
  simp only [if_neg h0]
  rfl

theorem State.queueEnable_zero (h0 : q = 0) : s.queueEnable q = (s.setQueue q { s.queue q with
    st := .slotted, written := 0, reserved := 0, consumed := 0, deadline := 2 ^ 64 - 1, pendDl := 2 ^ 64 - 1,
    tail := (s.queue q).head, fetched := [], idleAt := none, blockAt := none, slotAt := s.env.now,
    ctxStopped := false }).slotState 0 .idleWait := by
  rw [State.queueEnable_taken hq hs hr hc]
  simp only [if_pos h0]
  rfl

end

theorem State.queueDisable_eq (s : State) (q : Nat) : s.queueDisable q =
    if (s.queue q).contain = none ∧ ((s.queue q).st = .idle ∨ q = 0 ∧ (s.queue q).st = .slotted ∧ (s.queue q).cmds = []) then
      s.unslot q .disabled else s := by
  simp only [State.queueDisable, Option.isNone_iff_eq_none]

theorem ringSizeOk_iff (w : Word) : ringSizeOk w = true ↔ 12 ≤ bits w 4 0 ∧ bits w 4 0 ≤ 26 := by
  simp only [ringSizeOk, Bool.and_eq_true, decide_eq_true_iff]

/-! ## Queue resets (R66, Table 2.16) -/

/-- What holds a reset back. -/
def State.resetWaits (s : State) (q : Nat) : Prop :=
  s.suppressedOn q = true ∨ (s.queue q).heldRec ≠ none ∨ (s.queue q).cmds ≠ []

/-- The queue as its reset sets it. -/
def State.queueReset (s : State) (q : Nat) (h : BitVec 32) : State := s.setQueue q { s.queue q with
  head := h, fetched := [], reserved := 0, cause := 0, resetTo := none, resetBy := none, st := if q = 0 then .slotted else .idle }

section
variable {s : State} {q : Nat} {h : BitVec 32} (hs : (s.queue q).st = .resetting) (hr : (s.queue q).resetTo = some h)
include hs hr

theorem State.resetStep_waits (hw : s.resetWaits q) : s.resetStep q = s := by
  simp only [State.resetStep, hs, hr]
  exact if_pos (hw.imp_right fun h => h.imp_left Option.isSome_iff_ne_none.2)

theorem State.resetStep_over (hw : ¬ s.resetWaits q) : s.resetStep q =
    match (s.queue q).resetBy with
    | some n => ((s.queueReset q h).refresh q).complete 0 n .ok 0
    | none => (s.queueReset q h).refresh q := by
  have hc : (s.queue q).cmds = [] := not_not.1 fun h => hw (.inr (.inr h))
  simp only [State.resetStep, State.queueReset, hs, hr, hc]
  exact if_neg fun ho => hw (ho.imp_right fun h => h.imp Option.isSome_iff_ne_none.1 fun hn => absurd rfl hn)

end

@[simp] theorem State.queue_slotState (s : State) (q p : Nat) (st : SlotState) : (s.slotState q st).queue p = s.queue p := by
  unfold State.slotState
  split <;> rfl

theorem State.refresh_idle {s : State} {q : Nat} (hc : (s.queue q).contain = none) (hs : (s.queue q).st = .idle) :
    s.refresh q = if s.whole q then s.setQueue q { s.queue q with st := .pending } else s := by
  simp only [State.refresh, hc, hs, Option.isSome_none, Bool.false_eq_true, if_false]

/-- A SLOTTED queue keeps its state, its head and its cause. -/
theorem State.refresh_slotted {s : State} {q : Nat} (hc : (s.queue q).contain = none) (hs : (s.queue q).st = .slotted) :
    ∃ a b, (s.refresh q).queue q = { s.queue q with idleAt := a, blockAt := b } := by
  simp only [State.refresh, hc, hs, Option.isSome_none, Bool.false_eq_true, if_false, State.queue_slotState, State.queue_setQueue_self]
  exact ⟨_, _, rfl⟩

theorem State.queueReset_refresh {s : State} {q : Nat} {h : BitVec 32} (hc : (s.queue q).contain = none) :
    let v := s.queueReset q h
    ((v.refresh q).queue q).head = h ∧ ((v.refresh q).queue q).cause = 0 ∧
      ((v.refresh q).queue q).st = if q = 0 then .slotted else if v.whole q = true then .pending else .idle := by
  intro v
  have hv : v.queue q = _ := s.queue_setQueue_self q _
  have hvc : (v.queue q).contain = none := by rw [hv]; exact hc
  by_cases h0 : q = 0
  · obtain ⟨a, b, he⟩ := State.refresh_slotted hvc (by rw [hv]; exact if_pos h0)
    rw [he, hv]
    exact ⟨rfl, rfl, by simp only [if_pos h0]⟩
  · rw [State.refresh_idle hvc (by rw [hv]; exact if_neg h0), if_neg h0]
    by_cases hw : v.whole q = true
    · rw [if_pos hw, if_pos hw, State.queue_setQueue_self, hv]
      exact ⟨rfl, rfl, rfl⟩
    · rw [if_neg hw, if_neg hw, hv]
      exact ⟨rfl, rfl, if_neg h0⟩

/-! ## Registers of the selected queue (R31) -/

theorem State.qattr_enabled {s : State} (h : (s.queue s.cfe.qsel).st ≠ .disabled) (off : Nat) (v : Word) : s.qattr off v = s :=
  if_pos (.inl h)

theorem State.qattr_disabled {s : State} {q : Nat} (hq : q < s.env.dev.queues) (hs : s.cfe.qsel = q)
    (hd : (s.queue q).st = .disabled) (v : Word) :
    s.qattr 0x08 v = s.setQueue q { s.queue q with ring := v &&& 0xFFFFFFFFFFFFF81F#64 } ∧
    s.qattr 0x10 v = s.setQueue q { s.queue q with cpl := v &&& 0xFFFFFFFFFFFFF81F#64 } ∧
    s.qattr 0x18 v = s.setQueue q { s.queue q with ctxReg := v &&& 0xFF0FFF#64 } ∧
    s.qattr 0x20 v = s.setQueue q { s.queue q with waitNs := v.toNat } ∧
    s.qattr 0x30 v = s.setQueue q { s.queue q with graphNs := v.toNat } := by
  subst hs
  have taken : ¬ ((s.queue s.cfe.qsel).st ≠ .disabled ∨ s.env.dev.queues ≤ s.cfe.qsel) :=
    not_or.2 ⟨not_not.2 hd, Nat.not_le.2 hq⟩
  exact ⟨if_neg taken, if_neg taken, if_neg taken, if_neg taken, if_neg taken⟩

/-- Settles O45: each doorbell, bit and register write by the state of its queue, and a reset by what holds it back. -/
theorem doorbellsAndQueues : Obligations.DoorbellsAndQueues := by
  unfold Obligations.DoorbellsAndQueues
  intro s q v on hq x tail noted idle
  refine ⟨fun h => ⟨?_, ?_⟩, fun h => ⟨fun hi => ?_, fun hi ht => ?_, fun hi ht => ?_, ?_⟩, fun hd hr hc => ?enable, fun h => ?_,
    ?disable, ringSizeOk_iff, fun h b => rfl, fun h hs hr => ?reset, fun h => ?_, fun hs => ⟨fun hd off => ?_, fun hd => ?attr⟩⟩
  case enable =>
    exact ⟨fun h0 => leads_onUnits on rfl (State.queueEnable_other hq hd hr hc h0),
      fun h0 => leads_onUnits on rfl (State.queueEnable_zero hq hd hr hc h0)⟩
  case disable =>
    exact ⟨fun h => leads_onUnits on rfl ((s.queueDisable_eq q).trans (if_pos h)),
      fun h => leads_onUnits on rfl ((s.queueDisable_eq q).trans (if_neg h))⟩
  case reset =>
    refine ⟨State.resetStep_waits hs hr, fun hw hn => ?_, fun hw n hn => ?_, State.queueReset_refresh⟩ <;>
      rw [State.resetStep_over hs hr hw, show (s.queue q).resetBy = _ from hn] <;> rfl
  case attr =>
    obtain ⟨h08, h10, h18, h20, h30⟩ := State.qattr_disabled hq hs hd v
    exact ⟨leads_onUnits on rfl h08, leads_onUnits on rfl h10, leads_onUnits on rfl h18, leads_onUnits on rfl h20,
      leads_onUnits on rfl h30⟩
  · exact leads_onUnits on rfl (State.dbTail_disabled h)
  · exact leads_onUnits on rfl (State.dbCplHead_disabled h)
  · exact leads_onUnits on rfl (State.dbTail_idle h hq hi)
  · exact leads_onUnits on rfl (State.dbTail_far h hq hi ht)
  · exact leads_onUnits on rfl (State.dbTail_near h hq hi ht)
  · exact leads_onUnits on rfl (State.dbCplHead_taken h hq)
  · exact leads_onUnits on rfl (State.queueEnable_refused h)
  · exact leads_onUnits on rfl (if_pos h)
  · subst hs
    exact leads_onUnits on rfl (State.qattr_enabled hd off v)

end Sys2Proof.Machine

namespace Sys2Proof.Machine

/-! ## Writes of a slot's registers (R37, Table 2.8) -/

section
variable {s : State} {n : Nat} (hn : n < s.env.dev.slots)
include hn

theorem State.slotQueue_eq (h0 : n ≠ 0) (v : Word) : s.slotQueue n v =
    let r := s.release n .pending
    let k := bits v 9 0
    if bit v 15 = true ∧ k ≠ 0 ∧ (r.queue k).st = .pending ∧ r.slotOf? k = none ∧ (r.slot n).enable = true then r.grant n k
    else r := by
  unfold State.slotQueue
  rw [if_neg (by simp [h0, hn])]
  simp only [Bool.and_eq_true, decide_eq_true_iff, Option.isNone_iff_eq_none, and_assoc]

theorem State.displaceBit_valid (h0 : n ≠ 0) (hv : (s.slot n).valid = true) : s.displaceBit n = s.release n .pending :=
  if_neg (by simp [h0, hv, hn])

theorem State.slotEnable_eq (en : Bool) : s.slotEnable n en =
    let s1 := if en = false ∧ n ≠ 0 ∧ (s.slot n).valid = true then s.release n .pending else s
    s1.setSlot n { s1.slot n with enable := en } := by
  unfold State.slotEnable
  rw [if_neg (Nat.not_le.2 hn)]
  simp only [Bool.and_eq_true, Bool.not_eq_true', decide_eq_true_iff, and_assoc]

theorem State.slotEnable_kept {en : Bool} (h : ¬ (en = false ∧ n ≠ 0 ∧ (s.slot n).valid = true)) :
    s.slotEnable n en = s.setSlot n { s.slot n with enable := en } := by
  rw [State.slotEnable_eq hn]
  simp only [if_neg h]

theorem State.slotEnable_released (h0 : n ≠ 0) (hv : (s.slot n).valid = true) : s.slotEnable n false =
    (s.release n .pending).setSlot n { (s.release n .pending).slot n with enable := false } := by
  rw [State.slotEnable_eq hn]
  simp only [h0, hv, ne_eq, not_false_eq_true, and_self, if_true]

end

/-- A slot whose state alone has changed is released as it was. -/
theorem State.release_setSlot (s : State) (n : Nat) (x : SlotState) (st : QState) :
    (s.setSlot n { s.slot n with st := x }).release n st = s.release n st := by
  have twice (y : Slot) : (s.setSlot n { s.slot n with st := x }).setSlot n y = s.setSlot n y :=
    congrArg (fun l => { s with cfe := { s.cfe with slots := l } }) (AL.put_put n y _ _)
  simp only [State.release, State.slot_setSlot_self, twice]
  rfl

/-! ## Grants, displacements and releases by firmware (R39, R40) -/

section
variable {s : State} (ha : s.fwActs = true)
include ha

theorem State.slotGrant_first {n k : Nat} {r : List Nat} (hr : s.roleRuns 0 = true) (hn : n < s.env.dev.slots) (h0 : n ≠ 0)
    (he : (s.slot n).enable = true) (hv : (s.slot n).valid = false) (hp : s.pendingQueues = k :: r) :
    s.slotGrant n = s.give n k := by
  have free : n ∈ s.freeSlots' := by
    simp [State.freeSlots', hn, h0, he, hv]
  simp only [State.slotGrant, hp]
  exact if_neg (by simp [ha, hr, free])

theorem State.slotDisplace_first {k m : Nat} {r : List Nat} (hr : s.roleRuns 0 = true) (hf : s.freeSlots' = [])
    (hp : s.pendingQueues = k :: r) (hm : s.displaceSlot? k = some m) : s.slotDisplace = s.release m .pending := by
  simp only [State.slotDisplace, hp, hm]
  exact if_neg (by simp [ha, hr, hf])

variable {n : Nat} (h0 : n ≠ 0) (hv : (s.slot n).valid = true) (hs : (s.queue (s.slot n).queue).st = .slotted)
include h0 hv hs

theorem State.slotIdle_due {a : Nat} (hi : (s.queue (s.slot n).queue).idleAt = some a) (hw : s.whole (s.slot n).queue = false)
    (ht : a + 50000 ≤ s.env.now) : s.slotIdle n = s.release n .idle := by
  simp only [State.slotIdle, hi]
  rw [if_pos (by simp [h0, ha, hv, hs, hw, ht])]
  refine (if_neg ?_).trans (s.release_setSlot n .releasing .idle)
  exact ne_true_of_eq_false hw

theorem State.slotBlocked_due {a : Nat} (hi : (s.queue (s.slot n).queue).blockAt = some a)
    (hb : s.blocking (s.slot n).queue (s.headWord (s.slot n).queue) ≠ 0) (ht : a + 50000 ≤ s.env.now) :
    s.slotBlocked n = s.release n .blocked := by
  simp only [State.slotBlocked, hi]
  exact if_pos ⟨h0, ha, hv, hs, hb, ht⟩

end

/-! ## The order of the pending queues (R39) -/

/-- The turn of queue `q` within its class. -/
def State.turnOf (s : State) (q : Nat) : Nat :=
  (q + s.env.dev.queues - (AL.get? (s.queueClass q) s.cfe.rr).getD (s.env.dev.queues - 1) - 1) % s.env.dev.queues

theorem State.pendingBefore_iff {s : State} {a b : Nat} : s.pendingBefore a b = true ↔
    (s.queueClass a ≠ 4 ∧ s.queueClass b = 4) ∨ (s.queueClass a = 4 ↔ s.queueClass b = 4) ∧
      ((s.queue a).pendDl < (s.queue b).pendDl ∨ (s.queue a).pendDl = (s.queue b).pendDl ∧
        (s.queueClass a < s.queueClass b ∨ s.queueClass a = s.queueClass b ∧ s.turnOf a < s.turnOf b)) := by
  unfold State.pendingBefore State.turnOf
  by_cases ha : s.queueClass a = 4 <;> by_cases hb : s.queueClass b = 4 <;> simp [ha, hb, b2n]

theorem State.pendingBefore_irrefl (s : State) (a : Nat) : ¬ s.pendingBefore a a = true := by
  rw [State.pendingBefore_iff]
  omega

theorem State.pendingBefore_trans {s : State} {a b c : Nat} (h : s.pendingBefore a b = true) (h' : s.pendingBefore b c = true) :
    s.pendingBefore a c = true := by
  rw [State.pendingBefore_iff] at *
  omega

theorem mem_insertBy {α : Type} {lt : α → α → Bool} {x y : α} {l : List α} : y ∈ insertBy lt x l ↔ y = x ∨ y ∈ l := by
  induction l with
  | nil => simp [insertBy]
  | cons z r ih =>
    unfold insertBy
    split
    · exact List.mem_cons
    · rw [List.mem_cons, ih, List.mem_cons, or_left_comm]

/-- Nothing in the list comes before its head. -/
def HeadFirst {α : Type} (lt : α → α → Bool) (l : List α) : Prop := ∀ k r, l = k :: r → ∀ y ∈ l, ¬ lt y k = true

theorem HeadFirst.insertBy {α : Type} {lt : α → α → Bool} (irrefl : ∀ a, ¬ lt a a = true)
    (trans : ∀ a b c, lt a b = true → lt b c = true → lt a c = true) {l : List α} (h : HeadFirst lt l) (x : α) :
    HeadFirst lt (Machine.insertBy lt x l) := by
  cases l with
  | nil =>
    intro k r hl y hy
    cases hl
    obtain rfl := List.mem_singleton.1 hy
    exact irrefl y
  | cons z l =>
    have first := h z l rfl
    intro k r hl y hy
    rw [mem_insertBy] at hy
    unfold Machine.insertBy at hl
    split at hl
    · next hx =>
      cases hl
      rcases hy with rfl | hy
      · exact irrefl y
      · exact fun hlt => first y hy (trans y x z hlt hx)
    · next hx =>
      cases hl
      rcases hy with rfl | hy
      · exact hx
      · exact first y hy

theorem foldl_insertBy_headFirst {α : Type} {lt : α → α → Bool} (irrefl : ∀ a, ¬ lt a a = true)
    (trans : ∀ a b c, lt a b = true → lt b c = true → lt a c = true) (l : List α) {m : List α} (h : HeadFirst lt m) :
    HeadFirst lt (l.foldl (fun m x => insertBy lt x m) m) := by
  induction l generalizing m with
  | nil => exact h
  | cons x r ih => exact ih (h.insertBy irrefl trans x)

theorem mem_foldl_insertBy {α : Type} {lt : α → α → Bool} {l m : List α} {y : α} :
    y ∈ l.foldl (fun m x => insertBy lt x m) m ↔ y ∈ l ∨ y ∈ m := by
  induction l generalizing m with
  | nil => simp
  | cons x r ih => rw [List.foldl_cons, ih, mem_insertBy, List.mem_cons, or_left_comm, or_assoc]

theorem AL.get?_of_mem {κ α : Type} [DecidableEq κ] {k : κ} {x : α} {m : List (κ × α)} (hn : (m.map Prod.fst).Nodup)
    (h : (k, x) ∈ m) : AL.get? k m = some x := by
  induction m with
  | nil => cases h
  | cons p r ih =>
    obtain ⟨j, y⟩ := p
    rw [List.map_cons, List.nodup_cons] at hn
    rw [AL.get?]
    rcases List.mem_cons.1 h with he | hr
    · cases he; exact if_pos rfl
    · rw [if_neg, ih hn.2 hr]
      rintro rfl
      exact hn.1 (List.mem_map.2 ⟨_, hr, rfl⟩)

/-- Queue `q` may be given a slot. -/
def State.pends (s : State) (q : Nat) : Prop := q ≠ 0 ∧ (s.queue q).st = .pending ∧ (s.queue q).contain = none

/-- A queue that pends is listed. -/
theorem State.queue_listed {s : State} {q : Nat} (h : (s.queue q).st = .pending) :
    AL.get? q s.cfe.queues = some (s.queue q) := by
  unfold State.queue AL.get at h ⊢
  cases hq : AL.get? q s.cfe.queues with
  | none => rw [hq] at h; cases h
  | some x => rfl

theorem State.mem_pendingQueues {s : State} (hn : (s.cfe.queues.map Prod.fst).Nodup) {q : Nat} :
    q ∈ s.pendingQueues ↔ s.pends q := by
  rw [State.pendingQueues, mem_foldl_insertBy]
  simp only [List.not_mem_nil, or_false, List.mem_map, List.mem_filter, Bool.and_eq_true, decide_eq_true_iff,
    Option.isNone_iff_eq_none]
  constructor
  · rintro ⟨⟨k, x⟩, ⟨hm, ⟨h0, hs⟩, hc⟩, rfl⟩
    have hx : s.queue k = x := congrArg (Option.getD · default) (AL.get?_of_mem hn hm)
    exact ⟨by simpa using h0, hx ▸ hs, hx ▸ hc⟩
  · rintro ⟨h0, hs, hc⟩
    obtain ⟨a, b, hl, -⟩ := AL.get?_split (State.queue_listed hs)
    exact ⟨(q, s.queue q), ⟨by rw [hl]; simp, ⟨by simpa using h0, hs⟩, hc⟩, rfl⟩

theorem State.pendingQueues_headFirst (s : State) : HeadFirst s.pendingBefore s.pendingQueues :=
  foldl_insertBy_headFirst s.pendingBefore_irrefl (fun _ _ _ => State.pendingBefore_trans) _ (by intro k r h; cases h)

/-! ## The queue that is displaced (R40) -/

theorem argMin_eq_none {α : Type} {f : α → Nat} {l : List α} : argMin f l = none ↔ l = [] := by
  cases l with
  | nil => simp [argMin]
  | cons x r =>
    cases h : argMin f r
    · simp [argMin, h]
    · simp only [argMin, h, reduceCtorEq, iff_false]
      split <;> simp

theorem argMin_some {α : Type} {f : α → Nat} {l : List α} {m : α} (h : argMin f l = some m) :
    m ∈ l ∧ ∀ a ∈ l, f m ≤ f a := by
  induction l generalizing m with
  | nil => cases h
  | cons x r ih =>
    unfold argMin at h
    cases hr : argMin f r with
    | none =>
      rw [hr] at h
      cases h
      simp [argMin_eq_none.1 hr]
    | some y =>
      rw [hr] at h
      obtain ⟨hy, hmin⟩ := ih hr
      dsimp only at h
      split at h
      · next hlt =>
        cases h
        exact ⟨by simp [hy], by simp only [List.forall_mem_cons]; exact ⟨hlt.le, hmin⟩⟩
      · next hge =>
        cases h
        exact ⟨by simp, by simp only [List.forall_mem_cons]; exact ⟨le_rfl, fun a ha => (Nat.not_lt.1 hge).trans (hmin a ha)⟩⟩

section
variable {s : State}

/-- Slot `m` may be taken for queue `k`. -/
def State.heldFor (s : State) (k m : Nat) : Prop := m ≠ 0 ∧ m < s.env.dev.slots ∧ (s.slot m).valid = true ∧
  (s.queue (s.slot m).queue).slotAt + 100000 ≤ s.env.now ∧ (s.queue k).pendDl < (s.queue (s.slot m).queue).pendDl

/-- Queue `a` is to be displaced rather than queue `b`. -/
def State.worse (s : State) (a b : Nat) : Prop := (s.queue b).pendDl < (s.queue a).pendDl ∨
  (s.queue a).pendDl = (s.queue b).pendDl ∧ (s.queueClass b < s.queueClass a ∨
    s.queueClass a = s.queueClass b ∧ (s.queue a).slotAt < (s.queue b).slotAt)

/-- The slots that may be taken for queue `k`. -/
def State.displaceCands (s : State) (k : Nat) : List Nat := (List.range s.env.dev.slots).filter fun n =>
  n ≠ 0 && (s.slot n).valid && decide ((s.queue (s.slot n).queue).slotAt + 100000 ≤ s.env.now) &&
    decide ((s.queue k).pendDl < (s.queue (s.slot n).queue).pendDl)

theorem State.mem_displaceCands {k m : Nat} : m ∈ s.displaceCands k ↔ s.heldFor k m := by
  simp only [State.displaceCands, State.heldFor, List.mem_filter, List.mem_range, Bool.and_eq_true, decide_eq_true_iff]
  tauto

theorem State.displaceSlot?_none {k : Nat} : s.displaceSlot? k = none ↔ ∀ m, ¬ s.heldFor k m := by
  refine argMin_eq_none.trans (List.eq_nil_iff_forall_not_mem.trans (forall_congr' fun m => not_congr ?_))
  exact State.mem_displaceCands

/-- The slot chosen holds the queue that comes first in the order of R40. -/
theorem State.displaceSlot?_some (hb : ∀ m < s.env.dev.slots, (s.queue (s.slot m).queue).pendDl < 2 ^ 64 ∧
      (s.queue (s.slot m).queue).slotAt < 2 ^ 64 ∧ s.queueClass (s.slot m).queue < 8) {k m : Nat}
    (h : s.displaceSlot? k = some m) :
    s.heldFor k m ∧ ∀ a, s.heldFor k a → ¬ s.worse (s.slot a).queue (s.slot m).queue := by
  obtain ⟨hm, hmin⟩ := argMin_some h
  have held := State.mem_displaceCands.1 hm
  refine ⟨held, fun a ha hw => ?_⟩
  have least := hmin a (State.mem_displaceCands.2 ha)
  obtain ⟨hpa, hsa, hca⟩ := hb a ha.2.1
  obtain ⟨hpm, hsm, hcm⟩ := hb m held.2.1
  unfold State.worse at hw
  dsimp only at least
  omega

end

/-- Settles O46: each write and firmware action by its equation, and the two orders from the sorted list and the least key. -/
theorem slotCommands : Obligations.SlotCommands := by
  unfold Obligations.SlotCommands
  intro s n t u y
  refine ⟨fun on hn => ?writes, fun ha => ?firmware, ?order⟩
  case writes =>
    refine ⟨fun v h0 => ⟨fun ht => ?_, fun ht => ?_⟩, fun h0 hv => ?_, ?_, fun h0 hv => ?_, fun hk => ?_⟩
    · exact leads_onUnits on rfl ((State.slotQueue_eq hn h0 v).trans (if_pos ht))
    · exact leads_onUnits on rfl ((State.slotQueue_eq hn h0 v).trans (if_neg ht))
    · exact leads_onUnits on rfl (State.displaceBit_valid hn h0 hv)
    · exact leads_onUnits on rfl (State.slotEnable_kept hn fun h => Bool.noConfusion h.1)
    · exact leads_onUnits on rfl (State.slotEnable_released hn h0 hv)
    · refine leads_onUnits on rfl (State.slotEnable_kept hn fun h => ?_)
      exact hk.elim h.2.1 fun hv => Bool.noConfusion (hv.symm.trans h.2.2)
  case firmware =>
    refine ⟨fun k r hr hn h0 he hv hp => ?_, fun k r m hr hf hp hm => ?_,
      fun h0 hv hs => ⟨fun a hi hw hd => ?_, fun a hi hb hd => ?_⟩⟩
    · exact leads_eq rfl (State.slotGrant_first ha hr hn h0 he hv hp)
    · exact leads_eq rfl (State.slotDisplace_first ha hr hf hp hm)
    · exact leads_eq rfl (State.slotIdle_due ha h0 hv hs hi hw hd)
    · exact leads_eq rfl (State.slotBlocked_due ha h0 hv hs hi hb hd)
  case order =>
    refine ⟨fun hn => ⟨?_, fun k r hp => ?_⟩, fun k hb => ⟨State.displaceSlot?_none, fun m => State.displaceSlot?_some hb⟩⟩
    · exact List.eq_nil_iff_forall_not_mem.trans (forall_congr' fun q => not_congr (State.mem_pendingQueues hn))
    · have pends := fun q => State.mem_pendingQueues (q := q) hn
      refine ⟨(pends k).1 (by simp [hp]), fun q hq => ?_⟩
      exact State.pendingBefore_iff.not.1 (s.pendingQueues_headFirst k r hp q ((pends q).2 hq))

end Sys2Proof.Machine

namespace Sys2Proof.Machine

/-! ## Accesses, staging and stalls (R121, R198, R277) -/

section
variable {s : State} {c : Nat}

theorem State.specAccess_speculative {y : Running} (hy : s.runningOn c = some y) (h : y.p.spec ≠ none) :
    s.specAccess c = s.push [.refute y.p.e.ref 3] := by
  simp only [State.specAccess, hy, Option.isSome_iff_ne_none.2 h, if_true]

theorem State.specAccess_own {y : Running} (hy : s.runningOn c = some y) (h : y.p.spec = none) : s.specAccess c = s := by
  simp only [State.specAccess, hy, h, Option.isSome_none, Bool.false_eq_true, if_false]

/-- An SRAM_UE that faults no context only writes its record. -/
theorem State.sramUe_alone (s : State) (storage inst row cls : Nat) : s.sramUe storage inst row cls [] =
    s.err { unit := storageUnit storage, inst := storageInst storage inst, cls := cls, code := 0x13, a := storage, b := row,
            c := 0 } :=
  State.push_nil _

theorem State.stageBeat_saddle {p : Placed} (hp : (s.core c).saddle = some p) :
    s.stageBeat c = (s.err
      { unit := 3, inst := s.seqPos (c / 8), cls := 2, code := 0x13, a := 2, b := 16 * (c % 8), c := 0 }).loseTask (c / 8) p.e.ref := by
  have entry : s.entryTask c 0 = some p.e.ref := by simp [State.entryTask, hp]
  simp only [State.stageBeat, entry, State.sramUe_alone]
  rfl

variable {p : Placed} {a : Nat} (hp : (s.core c).saddle = some p) (ha : p.stall = some a)
include hp ha

theorem State.stallTimeout_early (h : s.env.now < a + (s.ctx p.e.ref.ctx).stallLimit) : s.stallTimeout c = s := by
  simp only [State.stallTimeout, hp, ha]
  exact if_pos h

theorem State.stallTimeout_late (h : a + (s.ctx p.e.ref.ctx).stallLimit ≤ s.env.now) {k : Task} (hk : s.task? p.e.ref = some k) :
    s.stallTimeout c = s.push [.faultCtx p.e.ref.ctx 0x0A (s.effOf p.e.ref) k.slice a] := by
  simp only [State.stallTimeout, hp, ha, hk, Option.map_some, Option.getD_some]
  exact if_neg (Nat.not_lt.2 h)

end

/-! ## Port faults (R279, R343) -/

/-- The failed port is paused. -/
def State.portHeld (s : State) (port : Nat) : State := { s with fsu := { s.fsu with paused := s.fsu.paused ++ [(1, port)] } }

/-- Its remount is noted. -/
def State.portNoted (s : State) (port : Nat) : State :=
  { s with fsu := { s.fsu with remounts := s.fsu.remounts ++ [(1, port, 0x0C)] } }

theorem State.roleRuns_portHeld (s : State) (port role : Nat) : (s.portHeld port).roleRuns role = s.roleRuns role := by
  have paused (k : Nat) : (s.portHeld port).pausedUnit 6 k = s.pausedUnit 6 k := by
    simp [State.pausedUnit, State.portHeld]
  unfold State.roleRuns
  rw [paused]
  rfl

section
variable {s : State} {port : Nat}

theorem State.isolate_now (h : s.roleRuns 2 = true) : s.isolate port = s.remountNow 1 port 0x0C :=
  if_pos h

variable (h : s.roleRuns 2 = false)
include h

theorem State.isolate_restarting : s.isolate port = (s.portHeld port).decideRemount 1 port 0x0C :=
  if_neg (ne_true_of_eq_false h)

theorem State.isolate_remounting (hr : (s.portHeld port).remounting 1 port = true) : s.isolate port = s.portHeld port :=
  (State.isolate_restarting h).trans (if_pos hr)

theorem State.isolate_noted (hr : (s.portHeld port).remounting 1 port = false) (hs : ¬ (s.portHeld port).freeSpare 1 port = true) :
    s.isolate port = (s.portHeld port).portNoted port := by
  refine (State.isolate_restarting h).trans ((if_neg (ne_true_of_eq_false hr)).trans ((if_neg hs).trans (if_pos ?_)))
  have waits : ((s.portHeld port).portNoted port).roleRuns 2 = false := (s.roleRuns_portHeld port 2).trans h
  simp only [Bool.or_eq_true, Bool.not_eq_true']
  exact .inl (.inl (.inr waits))

end

section
variable {s : State} {c channel : Nat}

theorem State.portFault_early (h : s.xferLate c channel = false) : s.portFault c channel = s :=
  if_pos (.inr (.inr (by rw [h]; rfl)))

theorem State.xferLate_of {t : Nat} (ht : AL.get? channel (s.core c).xfer = some t) (hl : t + 1000000 ≤ s.env.now) :
    s.xferLate c channel = true := by
  simp only [State.xferLate, ht, hl, decide_true]

variable (hu : s.up = true) (ho : s.coreOk c = true) (hl : s.xferLate c channel = true)
include hu ho hl

theorem State.portFault_idle (h : (s.core c).running = none) : s.portFault c channel =
    ((s.portRecord c channel).updCore c fun k => { k with xfer := [] }).isolate (s.globalPort c) := by
  simp only [State.portFault, h]
  exact if_neg (by simp [hu, ho, hl])

theorem State.portFault_running {y : Running} (h : (s.core c).running = some y) : s.portFault c channel =
    (((s.portRecord c channel).portTask c y).updCore c fun k => { k with xfer := [] }).isolate (s.globalPort c) := by
  simp only [State.portFault, h]
  exact if_neg (by simp [hu, ho, hl])

end

section
variable {s : State} {c : Nat} {y : Running}

theorem State.portTask_discarded (h : y.discard = true) : s.portTask c y = (s.dropAnswers c).coreOff c y.p.e.ref.ctx :=
  if_pos h

variable (h : y.discard = false)
include h

theorem State.portTask_speculative (hs : y.p.spec ≠ none) : s.portTask c y =
    ((s.dropAnswers c).updCore c fun k => { k with running := some { y with discard := true, lost := true } }).push
      [.refute y.p.e.ref 4] :=
  (if_neg (ne_true_of_eq_false h)).trans (if_pos (Option.isSome_iff_ne_none.2 hs))

variable (hs : y.p.spec = none)
include hs

theorem State.portTask_own : s.portTask c y =
    let r := y.p.e.ref
    let off := (s.dropAnswers c).coreOff c r.ctx
    let kept := if y.p.e.slot = 0 then off.freeSlots r else
      off.updCtx r.ctx fun x => { x with slots := AL.upd x.slots y.p.rslot fun v => { v with saved := true } }
    if s.unsaved y then off.taskGone r .discarded
    else (kept.updTask r fun t => { t with st := .ready, ran := t.ran && decide (y.p.e.slot ≠ 0) }).toHeap y.p.e :=
  (if_neg (ne_true_of_eq_false h)).trans (if_neg (by simp [hs]))

theorem State.portTask_unsaved (hn : s.unsaved y = true) :
    s.portTask c y = ((s.dropAnswers c).coreOff c y.p.e.ref.ctx).taskGone y.p.e.ref .discarded :=
  (State.portTask_own h hs).trans (if_pos hn)

theorem State.portTask_ready (hn : s.unsaved y = false) : s.portTask c y =
    let r := y.p.e.ref
    let off := (s.dropAnswers c).coreOff c r.ctx
    let kept := if y.p.e.slot = 0 then off.freeSlots r else
      off.updCtx r.ctx fun x => { x with slots := AL.upd x.slots y.p.rslot fun v => { v with saved := true } }
    (kept.updTask r fun t => { t with st := .ready, ran := t.ran && decide (y.p.e.slot ≠ 0) }).toHeap y.p.e :=
  (State.portTask_own h hs).trans (if_neg (ne_true_of_eq_false hn))

end

/-! ## Context faults (R177, R180) -/

/-- The record of a context fault. -/
def State.faultNoted (s : State) (x code a b k : Nat) : State :=
  let p := s.faultInst x code a b k
  p.2.err { unit := faultUnit code, inst := p.1, cls := 2, code := code, ctx := some x, a := a, b := b, c := k }

/-- The context is FAULTED, its tasks are gone, its remote targets poisoned, and its Relay messages dropped. -/
def State.faultQuieted (s : State) (x code : Nat) : State :=
  let set := ((s.setCtx x { s.ctx x with faultCode := code, faultAt := s.env.now }).setCtxState x .faulted).updStop x
  (((s.remoteSignals x).foldl (fun v p => v.poisonSignal x p) (set.discardAll x)).stray fun _ y => y = x).writeHeader x

/-- Its commands have ended and its queues have stopped. -/
def State.faultClosed (s : State) (x code : Nat) : State :=
  (((s.abortAll x .ctxFault code).stopQueues x).endSubject x .ctxFault code).push [.coreFree x]

theorem State.discardAll_eq (s : State) (x : Nat) : s.discardAll x =
    let off := (s.coresHolding x).foldl State.forceOff s
    let left := off.ges.foldl (fun v p => if p.2.run.any fun y => decide (y.e.ref.ctx = x) then v.geLeave p.1 else v) off
    (((left.tasksOf x fun _ => true).foldl (State.discardTask true) left).removeActions fun d => d.ctx = x).setSaved x [] := by
  unfold State.discardAll
  refine congrArg (fun left : State => (((left.tasksOf x fun _ => true).foldl (State.discardTask true) left).removeActions
    fun d => d.ctx = x).setSaved x []) (List.foldl_ext _ _ _ fun v p _ => ?_)
  cases p.2.run <;> simp

section
variable {s : State} {x code a b k : Nat} {record : Bool}

theorem State.faultCtx_free (h : (s.ctx x).st = .free) : s.faultCtx x code a b k record = s :=
  if_pos h

theorem State.faultCtx_again (h : (s.ctx x).st = .faulted ∨ (s.ctx x).st = .destroying) :
    s.faultCtx x code a b k record = if record then s.faultNoted x code a b k else s :=
  (if_neg (by rcases h with h | h <;> rw [h] <;> simp)).trans (if_pos h)

theorem State.faultCtx_first (h0 : (s.ctx x).st ≠ .free) (h1 : (s.ctx x).st ≠ .faulted) (h2 : (s.ctx x).st ≠ .destroying) :
    s.faultCtx x code a b k record =
      (if record then (s.faultQuieted x code).faultNoted x code a b k else s.faultQuieted x code).faultClosed x code := by
  refine (if_neg h0).trans ((if_neg (not_or.2 ⟨h1, h2⟩)).trans ?_)
  unfold State.faultClosed State.faultNoted State.faultQuieted
  cases record <;> simp only [Bool.false_eq_true, if_false, if_true] <;> rfl

end

/-! ## Discarding a task (R119, R177) -/

/-- The task stays: it is gone already, or its core or engine is to let go of it. -/
def State.staysOn (s : State) (r : TaskRef) (k : Task) : Prop :=
  k.isGone = true ∨ s.onCore r = true ∧ s.spec? r = none ∨ s.onGe? r ≠ none

theorem State.staysOn_iff {s : State} {r : TaskRef} {k : Task} : s.staysOn r k ↔
    (k.isGone || (s.onCore r && (s.spec? r).isNone) || (s.onGe? r).isSome) = true := by
  simp only [State.staysOn, Bool.or_eq_true, Bool.and_eq_true, Option.isNone_iff_eq_none, Option.isSome_iff_ne_none, or_assoc]

section
variable {s : State} {fault : Bool} {r : TaskRef} {k : Task} (hk : s.task? r = some k)
include hk

theorem State.discardTask_eq : s.discardTask fault r =
    if k.isGone || (s.onCore r && (s.spec? r).isNone) || (s.onGe? r).isSome then s
    else
      let v := (s.dropSpec r).removeEntry r
      let gs := if !k.ran || (fault && s.savedTask r) then ((v.task? r).map Task.granules).getD [] else []
      (v.freeOutputs r.ctx gs).taskGone r .discarded := by
  simp only [State.discardTask, hk]

theorem State.discardTask_stays (h : s.staysOn r k) : s.discardTask fault r = s :=
  (State.discardTask_eq hk).trans (if_pos (State.staysOn_iff.1 h))

variable (h : ¬ s.staysOn r k)
include h

theorem State.discardTask_returns (hr : k.ran = false ∨ fault = true ∧ s.savedTask r = true) :
    let v := (s.dropSpec r).removeEntry r
    s.discardTask fault r = (v.freeOutputs r.ctx (((v.task? r).map Task.granules).getD [])).taskGone r .discarded := by
  have returns : (!k.ran || (fault && s.savedTask r)) = true := by simpa using hr
  rw [State.discardTask_eq hk, if_neg (State.staysOn_iff.not.1 h)]
  simp only [returns, if_true]

theorem State.discardTask_keepsGranules (hr : k.ran = true) (hf : fault = false ∨ s.savedTask r = false) :
    s.discardTask fault r = (((s.dropSpec r).removeEntry r).freeOutputs r.ctx []).taskGone r .discarded := by
  have keeps : (!k.ran || (fault && s.savedTask r)) = false := by rcases hf with h | h <;> simp [hr, h]
  rw [State.discardTask_eq hk, if_neg (State.staysOn_iff.not.1 h)]
  simp only [keeps, Bool.false_eq_true, if_false]

end

/-- Where a port fault leads once the core's task has gone back, by role 2 and the port's remount. -/
theorem leads_portFault {s b : State} {c channel t port : Nat}
    (hb : (s.at t).portFault c channel = (b.updCore c fun x => { x with xfer := [] }).isolate port) :
    let k := b.updCore c fun x => { x with xfer := [] }
    let held := k.portHeld port
    (k.roleRuns 2 = true → Leads (.portFault c channel t) s (k.remountNow 1 port 0x0C)) ∧
    (k.roleRuns 2 = false → held.remounting 1 port = true → Leads (.portFault c channel t) s held) ∧
    (k.roleRuns 2 = false → held.remounting 1 port = false → ¬ held.freeSpare 1 port = true →
      Leads (.portFault c channel t) s (held.portNoted port)) :=
  ⟨fun h => leads_eq rfl (hb.trans (State.isolate_now h)), fun h hr => leads_eq rfl (hb.trans (State.isolate_remounting h hr)),
    fun h hr hs => leads_eq rfl (hb.trans (State.isolate_noted h hr hs))⟩

/-- Settles O53: a core's faults by what their operations do, a context fault by its equation, a discard by what holds the task. -/
theorem coreFaults : Obligations.CoreFaults := by
  unfold Obligations.CoreFaults
  intro s c t u
  refine ⟨fun y hy h => leads_eq rfl (State.specAccess_speculative hy h), fun y hy h => leads_eq rfl (State.specAccess_own hy h),
    fun p hp => leads_eq rfl (State.stageBeat_saddle hp), fun p a hp ha => ?stall, fun channel hu ho => ?port,
    fun x code a b k => ?context, fun fault r k hk => ?discard⟩
  case stall =>
    exact ⟨fun h => leads_eq rfl (State.stallTimeout_early (s := u) hp ha h),
      fun h k hk => leads_eq rfl (State.stallTimeout_late (s := u) hp ha h hk)⟩
  case port =>
    intro port run a fault
    refine ⟨fun hl => leads_eq rfl (State.portFault_early hl), fun t' ht hl => ?_⟩
    have late := State.xferLate_of ht hl
    refine ⟨fun hr => leads_portFault (State.portFault_idle hu ho late hr), fun y hr => ?_⟩
    have goes {b : State} (hb : a.portTask c y = b) : fault b :=
      hb ▸ leads_portFault (State.portFault_running hu ho late hr)
    exact ⟨fun hd => goes (State.portTask_discarded hd), fun hd hs => goes (State.portTask_speculative hd hs),
      fun hd hs hn => goes (State.portTask_unsaved hd hs hn), fun hd hs hn => goes (State.portTask_ready hd hs hn)⟩
  case context =>
    intro z after quiet noted closed
    have faulted : after = s.faultCtx x code a b k := rfl
    have unrecorded : quiet = s.faultCtx x code 0 0 0 false := rfl
    refine ⟨fun h => ⟨State.faultCtx_free h, State.faultCtx_free h⟩, fun h => ⟨State.faultCtx_again h, State.faultCtx_again h⟩,
      fun h0 h1 h2 => ?_⟩
    rw [faulted, unrecorded, State.faultCtx_first h0 h1 h2, State.faultCtx_first h0 h1 h2, State.faultQuieted, State.discardAll_eq]
    simp only [Bool.false_eq_true, if_false, if_true]
    exact ⟨rfl, rfl⟩
  case discard =>
    exact ⟨State.discardTask_stays hk, fun h => ⟨State.discardTask_returns hk h, State.discardTask_keepsGranules hk h⟩⟩

end Sys2Proof.Machine

namespace Sys2Proof.Machine

/-! ## A transfer on a core's port leaves what its requests read (R279) -/

theorem State.runningOn_xferOpen (s : State) (c ch d : Nat) : (s.xferOpen c ch).runningOn d = s.runningOn d := by
  unfold State.runningOn
  rw [State.core_xferOpen_running]

theorem State.reqSuppressed_xferOpen (s : State) (c ch d : Nat) (w : Req) :
    (s.xferOpen c ch).reqSuppressed d w = s.reqSuppressed d w := by
  unfold State.reqSuppressed
  rw [State.core_xferOpen_running]
  rfl

/-! ## Signals of a running task (R63, R131, R138, R198) -/

/-- The request of a running task, as its port latches it. -/
def Running.req (y : Running) : Req := { ref := y.p.e.ref, spec := y.p.spec.isSome, suppressed := y.suppressed }

theorem State.latchSig_running {s : State} {c : Nat} {y : Running} (hy : s.runningOn c = some y) (vid inc : Nat) :
    s.latchSig c vid inc = s.push [.sig c y.req vid inc] := by
  simp only [State.latchSig, State.reqOf, hy, Option.map_some]
  rfl

section
variable {s : State} {c vid inc : Nat} {y : Running} (hy : s.runningOn c = some y)

theorem State.portSig_none {w : Req} (h : (s.ctx w.ref.ctx).st = .faulted ∨ s.reqSuppressed c w = true ∨ inc % 2 ^ 32 = 0) :
    s.portSig c w vid inc = s :=
  if_pos h

variable (h : ¬ ((s.ctx y.p.e.ref.ctx).st = .faulted ∨ s.reqSuppressed c y.req = true ∨ inc % 2 ^ 32 = 0))
include hy h

theorem State.portSig_speculative {z : Spec} (hz : y.p.spec = some z) :
    s.portSig c y.req vid inc = s.holdSig c vid (inc % 2 ^ 32) y z := by
  refine (if_neg h).trans ?_
  simp [hy, hz, Running.req]

theorem State.portSig_own (hz : y.p.spec = none) : s.portSig c y.req vid inc =
    if s.idLimit y.p.e.ref.ctx ≤ vid then s.push [.faultCtx y.p.e.ref.ctx 0x04 vid 1 (s.effOf y.p.e.ref)]
    else s.push [.signal y.p.e.ref.ctx vid (inc % 2 ^ 32) { code := 3, arg := s.effOf y.p.e.ref } none] := by
  refine (if_neg h).trans ?_
  simp [hy, hz, Running.req]

end

/-! ## Waits and probes of a running task (R125, R131, R133, R138) -/

section
variable {s m : State} {c tag vid d : Nat} {y : Running} (hy : s.runningOn c = some y)
include hy

theorem State.portWait_faulted (hf : (s.ctx y.p.e.ref.ctx).st = .faulted) : s.portWait c tag vid d = s.reply c tag 2 0 := by
  simp only [State.portWait, hy, State.portFaulted, hf, decide_true, if_true]

theorem State.portProbe_faulted (hf : (s.ctx y.p.e.ref.ctx).st = .faulted) : s.portProbe c tag vid = s.reply c tag 2 0 := by
  simp only [State.portProbe, hy, State.portFaulted, hf, decide_true, if_true]

variable (hf : (s.ctx y.p.e.ref.ctx).st ≠ .faulted)
include hf

theorem State.portProbe_live : s.portProbe c tag vid =
    if s.idLimit y.p.e.ref.ctx ≤ vid then (s.portBadId y vid).reply c tag 2 0
    else s.withCtrOr y.p.e.ref.ctx vid { code := 3, arg := s.effOf y.p.e.ref } (fun s => s.reply c tag 2 0) fun s =>
      s.reply c tag (b2n (s.ctr y.p.e.ref.ctx vid).poison) (wd (s.ctr y.p.e.ref.ctx vid).val) := by
  simp only [State.portProbe, hy, State.portFaulted, hf, decide_false, Bool.false_eq_true, if_false]

theorem State.portProbe_outside (hv : s.idLimit y.p.e.ref.ctx ≤ vid) :
    s.portProbe c tag vid = (s.portBadId y vid).reply c tag 2 0 :=
  (State.portProbe_live hy hf).trans (if_pos hv)

theorem State.portWait_suppressed (hs : y.suppressed = true) : s.portWait c tag vid d = s.reply c tag 1 0 := by
  simp only [State.portWait, hy, State.portFaulted, hf, decide_false, Bool.false_eq_true, if_false, hs, if_true]

section
variable (hs : y.suppressed = false)
include hs

theorem State.portWait_live : s.portWait c tag vid d =
    if s.idLimit y.p.e.ref.ctx ≤ vid then (s.portBadId y vid).reply c tag 2 0
    else s.withCtrOr y.p.e.ref.ctx vid { code := 3, arg := s.effOf y.p.e.ref } (fun s => s.reply c tag 2 0) fun s =>
      s.applyWait y.p.e.ref.ctx vid d (.core c tag) := by
  simp only [State.portWait, hy, State.portFaulted, hf, hs, decide_false, Bool.false_eq_true, if_false]

theorem State.portWait_outside (hv : s.idLimit y.p.e.ref.ctx ≤ vid) :
    s.portWait c tag vid d = (s.portBadId y vid).reply c tag 2 0 :=
  (State.portWait_live hy hf hs).trans (if_pos hv)

variable (hv : vid < s.idLimit y.p.e.ref.ctx)
include hv

theorem State.portWait_noRoom (hp : (s.ctx y.p.e.ref.ctx).st.inPlace = true) (hr : s.makeCtrResident y.p.e.ref.ctx vid = none) :
    s.portWait c tag vid d =
      (s.push [.faultCtx y.p.e.ref.ctx 0x04 vid 2 (s.effOf y.p.e.ref)]).reply c tag 2 0 :=
  (State.portWait_live hy hf hs).trans ((if_neg (Nat.not_le.2 hv)).trans (State.withCtrOr_noRoom hp hr _ _ _))

theorem State.portWait_at (hm : s.counterAt y.p.e.ref.ctx vid m) :
    s.portWait c tag vid d = m.applyWait y.p.e.ref.ctx vid d (.core c tag) :=
  (State.portWait_live hy hf hs).trans ((if_neg (Nat.not_le.2 hv)).trans (State.withCtrOr_at hm _ _ _))

end

variable (hv : vid < s.idLimit y.p.e.ref.ctx)
include hv

theorem State.portProbe_noRoom (hp : (s.ctx y.p.e.ref.ctx).st.inPlace = true) (hr : s.makeCtrResident y.p.e.ref.ctx vid = none) :
    s.portProbe c tag vid = (s.push [.faultCtx y.p.e.ref.ctx 0x04 vid 2 (s.effOf y.p.e.ref)]).reply c tag 2 0 :=
  (State.portProbe_live hy hf).trans ((if_neg (Nat.not_le.2 hv)).trans (State.withCtrOr_noRoom hp hr _ _ _))

theorem State.portProbe_at (hm : s.counterAt y.p.e.ref.ctx vid m) : s.portProbe c tag vid =
    m.reply c tag (m.ctr y.p.e.ref.ctx vid).poison.toNat (BitVec.ofNat 64 (m.ctr y.p.e.ref.ctx vid).val) := by
  rw [State.portProbe_live hy hf, if_neg (Nat.not_le.2 hv), State.withCtrOr_at hm]
  cases (m.ctr y.p.e.ref.ctx vid).poison <;> rfl

end

/-! ## A steady port takes its requests at once (R284) -/

theorem State.xferOpen_work_nil {s : State} (hw : s.steady) (c ch : Nat) : (s.xferOpen c ch).work = [] := hw.1

section
variable {s : State} {c tag vid : Nat} {y : Running} (hy : s.runningOn c = some y)
include hy

theorem State.portCtx_running : s.portCtx c = y.p.e.ref.ctx := by
  simp only [State.portCtx, hy, Option.map_some, Option.getD_some]

variable (hq : s.seqPaused c = false) (hc : s.ctrWaits y.p.e.ref.ctx vid = false)
include hq hc

theorem State.probe_free : (s.push [.probe c tag vid]).holds (.probe c tag vid) = false := by
  refine Bool.or_eq_false_iff.2 ⟨?_, hq⟩
  rw [← State.portCtx_running hy] at hc
  exact hc

theorem State.wait_free (d : Nat) (h8 : s.coreWaits c < 8) : (s.push [.wait c tag vid d]).holds (.wait c tag vid d) = false := by
  rw [← State.portCtx_running hy] at hc
  exact Bool.or_eq_false_iff.2 ⟨Bool.or_eq_false_iff.2 ⟨hc, hq⟩, decide_eq_false (Nat.not_le.2 h8)⟩

end

section
variable {s : State} {c tag vid : Nat} {y : Running} (hw : s.steady) (hq : s.seqPaused c = false) (hy : s.runningOn c = some y)

include hw hq

section
include hy

theorem leads_coreSig {inc : Nat} {v : State} (hv : (s.xferOpen c 7).portSig c y.req vid inc = v) :
    Leads (.coreSig c vid inc) s v := by
  refine leads_push (w := .sig c y.req vid inc) ?_ hw.1 ?_ hv
  · rw [← State.latchSig_running hy]; rfl
  · exact Bool.or_eq_false_iff.2 ⟨hw.2, hq⟩

theorem next_coreSig {inc : Nat} {v : State} (hv : (s.xferOpen c 7).portSig c y.req vid inc = v) (hn : v.work = []) :
    exec (.coreSig c vid inc) s = .next v := by
  refine next_push (w := .sig c y.req vid inc) ?_ hw.1 ?_ hv hn
  · rw [← State.latchSig_running hy]; rfl
  · exact Bool.or_eq_false_iff.2 ⟨hw.2, hq⟩

end

variable (hc : s.ctrWaits y.p.e.ref.ctx vid = false)
include hy hc

theorem leads_coreProbe {v : State} (hv : (s.xferOpen c 7).portProbe c tag vid = v) : Leads (.coreProbe c tag vid) s v :=
  leads_push rfl hw.1 (State.probe_free hy hq hc) hv

theorem next_coreProbe {v : State} (hv : (s.xferOpen c 7).portProbe c tag vid = v) (hn : v.work = []) :
    exec (.coreProbe c tag vid) s = .next v :=
  next_push rfl hw.1 (State.probe_free hy hq hc) hv hn

theorem leads_coreWait {d : Word} {v : State} (h8 : s.coreWaits c < 8) (hv : (s.xferOpen c 7).portWait c tag vid d.toNat = v) :
    Leads (.coreWait c tag vid d) s v :=
  leads_push rfl hw.1 (State.wait_free hy hq hc d.toNat h8) hv

theorem next_coreWait {d : Word} {v : State} (h8 : s.coreWaits c < 8) (hv : (s.xferOpen c 7).portWait c tag vid d.toNat = v)
    (hn : v.work = []) : exec (.coreWait c tag vid d) s = .next v :=
  next_push rfl hw.1 (State.wait_free hy hq hc d.toNat h8) hv hn

end

/-- Settles O54: each request by the state of its task's context, its counter's id, and the room for its counter on chip. -/
theorem corePortRequests : Obligations.CorePortRequests := by
  unfold Obligations.CorePortRequests
  intro s m c tag vid inc d y hw hq hc hy r p faulted quiet bad full answer
  have hp : p.runningOn c = some y := (s.runningOn_xferOpen c 7 c).trans hy
  have hquiet : p.reqSuppressed c y.req = s.reqSuppressed c y.req := s.reqSuppressed_xferOpen c 7 c y.req
  have hn : p.work = [] := State.xferOpen_work_nil hw c 7
  refine ⟨fun h8 => ?ninth, fun hf => ⟨?sigFaulted, ?probeFaulted, fun h8 => ?waitFaulted⟩,
    fun hf => ⟨fun h => ?silent, fun hs h8 => ?suppressed, fun hq' h0 => ⟨fun z hz hl => ?holds, fun z hz hl => ?refutes,
      fun hz hv => ?sigOutside, fun hz hv => ?signals⟩, fun hv => ⟨?probeOutside, fun hs h8 => ?waitOutside⟩,
      fun hv hp' hr => ⟨?probeFull, fun hs h8 => ?waitFull⟩, fun hv hm => ?counter⟩⟩
  case ninth =>
    refine next_held rfl hw.1 ?_
    exact (Bool.or_eq_true _ _).mpr (.inr (decide_eq_true h8))
  case sigFaulted => exact next_coreSig hw hq hy (State.portSig_none (.inl hf)) hn
  case probeFaulted => exact next_coreProbe hw hq hy hc (State.portProbe_faulted hp hf) hn
  case waitFaulted => exact next_coreWait hw hq hy hc h8 (State.portWait_faulted hp hf) hn
  case silent => exact next_coreSig hw hq hy (State.portSig_none (.inr (h.imp_left hquiet.trans))) hn
  case suppressed => exact next_coreWait hw hq hy hc h8 (State.portWait_suppressed hp hf hs) hn
  case probeOutside => exact leads_coreProbe hw hq hy hc (State.portProbe_outside hp hf hv)
  case waitOutside => exact leads_coreWait hw hq hy hc h8 (State.portWait_outside hp hf hs hv)
  case probeFull => exact leads_coreProbe hw hq hy hc (State.portProbe_noRoom hp hf hv hp' hr)
  case waitFull => exact leads_coreWait hw hq hy hc h8 (State.portWait_noRoom hp hf hs hv hp' hr)
  case counter =>
    refine ⟨leads_coreProbe hw hq hy hc (State.portProbe_at hp hf hv hm), fun hs h8 => ⟨fun h => ?_, fun h0 hl => ?_⟩⟩
    · exact leads_coreWait hw hq hy hc h8 ((State.portWait_at hp hf hs hv hm).trans (State.applyWait_released h))
    · exact ⟨leads_coreWait hw hq hy hc h8 ((State.portWait_at hp hf hs hv hm).trans (State.applyWait_recorded h0 hl)),
        m.addWaiter_waiters r.ctx vid d.toNat (.core c tag)⟩
  all_goals
    have live : ¬ ((p.ctx r.ctx).st = .faulted ∨ p.reqSuppressed c y.req = true ∨ inc % 2 ^ 32 = 0) := by
      rw [hquiet]
      exact not_or.2 ⟨hf, not_or.2 ⟨hq', h0⟩⟩
  case holds =>
    exact next_coreSig hw hq hy ((State.portSig_speculative hp live hz).trans (if_pos hl)) hn
  case refutes => exact leads_coreSig hw hq hy ((State.portSig_speculative hp live hz).trans (if_neg (Nat.not_lt.2 hl)))
  case sigOutside => exact leads_coreSig hw hq hy ((State.portSig_own hp live hz).trans (if_pos hv))
  case signals => exact leads_coreSig hw hq hy ((State.portSig_own hp live hz).trans (if_neg (Nat.not_le.2 hv)))

end Sys2Proof.Machine

namespace Sys2Proof.Machine

/-! ## What performing an entry of the delay list leaves: `GD_TICK` (R109) -/

theorem ite_tick {c : Prop} [Decidable c] {a b : State} {k : Nat} (ha : a.gd.tick = k) (hb : b.gd.tick = k) :
    (if c then a else b).gd.tick = k := by
  split
  · exact ha
  · exact hb

theorem foldl_tick {α : Type} {f : State → α → State} (h : ∀ s x, (f s x).gd.tick = s.gd.tick) (l : List α) (s : State) :
    (l.foldl f s).gd.tick = s.gd.tick :=
  List.foldlRecOn (motive := fun (v : State) => v.gd.tick = s.gd.tick) l f rfl fun v hv x _ => (h v x).trans hv

/-! ### The ends of commands and steps -/

@[simp] theorem State.updQueue_tick (s : State) (q : Nat) (f : Queue → Queue) : (s.updQueue q f).gd.tick = s.gd.tick := rfl

@[simp] theorem State.updCmd_tick (s : State) (q n : Nat) (f : Cmd → Cmd) : (s.updCmd q n f).gd.tick = s.gd.tick := by
  unfold State.updCmd
  split <;> rfl

@[simp] theorem State.setCarCtx_tick (s : State) (c : Nat) (x : CarCtx) : (s.setCarCtx c x).gd.tick = s.gd.tick := rfl
@[simp] theorem State.setCarSlot_tick (s : State) (n : Nat) (x : SeqSlot) : (s.setCarSlot n x).gd.tick = s.gd.tick := rfl
@[simp] theorem State.carFree_tick (s : State) (n : Nat) : (s.carFree n).gd.tick = s.gd.tick := rfl
@[simp] theorem State.stepClose_tick (s : State) (c : Nat) : (s.stepClose c).gd.tick = s.gd.tick := rfl

@[simp] theorem State.stepRelease_tick (s : State) (c : Nat) : (s.stepRelease c).gd.tick = s.gd.tick := by
  unfold State.stepRelease
  split
  · rfl
  · exact foldl_tick (fun v n => by split <;> simp) _ _

@[simp] theorem State.slotState_tick (s : State) (q : Nat) (st : SlotState) : (s.slotState q st).gd.tick = s.gd.tick := by
  unfold State.slotState
  split <;> rfl

@[simp] theorem State.refresh_tick (s : State) (q : Nat) : (s.refresh q).gd.tick = s.gd.tick := by
  unfold State.refresh
  dsimp only
  repeat' split
  all_goals simp

@[simp] theorem State.refreshAll_tick (s : State) : s.refreshAll.gd.tick = s.gd.tick := by
  exact foldl_tick State.refresh_tick _ _

@[simp] theorem State.refreshFor_tick (s : State) (q : Nat) (w : List Word) : (s.refreshFor q w).gd.tick = s.gd.tick := by
  unfold State.refreshFor
  split <;> simp

@[simp] theorem State.dueCounters_tick (s : State) (q : Nat) (w : List Word) (st : Status) :
    (s.dueCounters q w st).gd.tick = s.gd.tick := by
  rw [State.dueCounters_eq]
  rfl

@[simp] theorem State.stepOver_tick (s : State) (q n : Nat) (w : List Word) : (s.stepOver q n w).gd.tick = s.gd.tick := by
  unfold State.stepOver
  dsimp only
  repeat' split
  all_goals rfl

@[simp] theorem State.progOver_tick (s : State) (q n : Nat) : (s.progOver q n).gd.tick = s.gd.tick := by
  unfold State.progOver
  split <;> rfl

@[simp] theorem State.queueMsix_tick (s : State) (q : Nat) : (s.queueMsix q).gd.tick = s.gd.tick := by
  unfold State.queueMsix
  split <;> rfl

@[simp] theorem State.putRecord_tick (s : State) (q : Nat) (ws : List Word) : (s.putRecord q ws).gd.tick = s.gd.tick := by
  simp [State.putRecord]

@[simp] theorem State.flushHeld_tick (s : State) (q : Nat) : (s.flushHeld q).gd.tick = s.gd.tick := by
  unfold State.flushHeld
  dsimp only
  repeat' split
  all_goals simp

@[simp] theorem State.cancelTold_tick (s : State) (n q : Nat) (hit : Bool) (p : Nat × Cmd) :
    (s.cancelTold n q hit p).gd.tick = s.gd.tick := by
  unfold State.cancelTold
  dsimp only
  repeat' split
  all_goals simp

@[simp] theorem State.cancelCheck_tick (s : State) (q n : Nat) (hit : Bool) : (s.cancelCheck q n hit).gd.tick = s.gd.tick := by
  exact foldl_tick (State.cancelTold_tick · n q hit ·) _ _

@[simp] theorem State.completeNow_tick (s : State) (q n : Nat) (st : Status) (detail : Nat) :
    (s.completeNow q n st detail).gd.tick = s.gd.tick := by
  unfold State.completeNow
  dsimp only
  repeat' split
  all_goals simp

@[simp] theorem State.complete_tick (s : State) (q n : Nat) (st : Status) (detail : Nat) :
    (s.complete q n st detail).gd.tick = s.gd.tick := by
  unfold State.complete
  repeat' split
  all_goals simp

@[simp] theorem State.memberEnd_tick (s : State) (st : LiveStep) (i n : Nat) : (s.memberEnd st i n).gd.tick = s.gd.tick := by
  unfold State.memberEnd
  dsimp only
  repeat' split
  all_goals rfl

@[simp] theorem State.stepEnd_tick (s : State) (c : Nat) : (s.stepEnd c).gd.tick = s.gd.tick := by
  unfold State.stepEnd
  split
  · rfl
  · dsimp only
    split <;> simp [foldl_tick]

@[simp] theorem State.rootCheck_tick (s : State) (q n : Nat) : (s.rootCheck q n).gd.tick = s.gd.tick := by
  unfold State.rootCheck
  dsimp only
  repeat' split
  all_goals simp

/-! ### Retirement: signals, records, banks and flows -/

@[simp] theorem State.delayDrop_tick (s : State) (f : Delay → Bool) : (s.delayDrop f).gd.tick = s.gd.tick := rfl

@[simp] theorem State.taskSignal_tick (s : State) (c eff : Nat) (poison : Bool) (p : Word × Word) :
    (s.taskSignal c eff poison p).gd.tick = s.gd.tick := by
  unfold State.taskSignal
  repeat' split
  all_goals rfl

@[simp] theorem State.instCheck_tick (s : State) (r : TaskRef) : (s.instCheck r).gd.tick = s.gd.tick := by
  unfold State.instCheck
  repeat' split
  all_goals rfl

@[simp] theorem State.fresh_tick (s : State) (n : Nat) : (s.fresh n).2.gd.tick = s.gd.tick := rfl

@[simp] theorem State.traceWrite_tick (s : State) (c w0 gid num : Nat) : (s.traceWrite c w0 gid num).gd.tick = s.gd.tick := by
  unfold State.traceWrite
  dsimp only
  repeat' split
  all_goals simp

@[simp] theorem State.trace_tick (s : State) (r : TaskRef) (event : Nat) (cluster core : Option Nat) (cause : Nat) :
    (s.trace r event cluster core cause).gd.tick = s.gd.tick := by
  unfold State.trace
  split
  · split
    · cases cluster <;> cases core <;> exact State.traceWrite_tick _ _ _ _ _
    · rfl
  · rfl

@[simp] theorem State.testPlace_tick (s : State) (c : Nat) : (s.testPlace c).gd.tick = s.gd.tick := by
  unfold State.testPlace
  split <;> rfl

@[simp] theorem State.writeSpilled_tick (s : State) (e : Entry) : (s.writeSpilled e).gd.tick = s.gd.tick := by
  unfold State.writeSpilled
  split <;> simp

@[simp] theorem State.setBank_tick (s : State) (b : Nat) (x : Bank) : (s.setBank b x).gd.tick = s.gd.tick := rfl

@[simp] theorem State.putBank_tick (s : State) (b : Nat) (x : Bank) : (s.putBank b x).gd.tick = s.gd.tick := by
  exact (foldl_tick State.writeSpilled_tick _ _).trans rfl

@[simp] theorem State.saveEntry_tick (s : State) (e : Entry) : (s.saveEntry e).gd.tick = s.gd.tick := by
  unfold State.saveEntry
  dsimp only
  split <;> simp

@[simp] theorem State.toHeap_tick (s : State) (e : Entry) : (s.toHeap e).gd.tick = s.gd.tick := by
  unfold State.toHeap
  dsimp only
  split <;> simp

@[simp] theorem State.writeFlow_tick (s : State) (f : Flow) : (s.writeFlow f).gd.tick = s.gd.tick := by
  unfold State.writeFlow
  dsimp only
  split
  · generalize List.range _ = l
    exact (foldl_tick (fun v i => by simp) l _).trans rfl
  · rfl

@[simp] theorem State.setFlow_tick (s : State) (k : Nat × Nat) (f : Flow) : (s.setFlow k f).gd.tick = s.gd.tick := by
  have written (g : Flow) (b : Bool) : (if b then s.writeFlow g else s).gd.tick = s.gd.tick := by split <;> simp
  exact written _ _

@[simp] theorem State.flowNext_tick (s : State) (r : TaskRef) (d : List Word) : (s.flowNext r d).gd.tick = s.gd.tick := by
  unfold State.flowNext
  dsimp only
  repeat' split
  all_goals simp

@[simp] theorem State.nearDrop_tick (s : State) (r : TaskRef) : (s.nearDrop r).gd.tick = s.gd.tick := rfl
@[simp] theorem State.dropCands_tick (s : State) (f : Entry → Bool) : (s.dropCands f).gd.tick = s.gd.tick := rfl
@[simp] theorem State.updCtx_tick (s : State) (c : Nat) (f : Ctx → Ctx) : (s.updCtx c f).gd.tick = s.gd.tick := rfl

@[simp] theorem State.updInst_tick (s : State) (c i : Nat) (f : Inst → Inst) : (s.updInst c i f).gd.tick = s.gd.tick := by
  unfold State.updInst
  split <;> rfl

@[simp] theorem State.updTask_tick (s : State) (r : TaskRef) (f : Task → Task) : (s.updTask r f).gd.tick = s.gd.tick := by
  exact State.updInst_tick _ _ _ _

@[simp] theorem State.freeSlots_tick (s : State) (r : TaskRef) : (s.freeSlots r).gd.tick = s.gd.tick := by
  unfold State.freeSlots
  split <;> rfl

@[simp] theorem State.markGone_tick (s : State) (r : TaskRef) (how : How) : (s.markGone r how).gd.tick = s.gd.tick := by
  unfold State.markGone
  repeat' split
  all_goals simp

@[simp] theorem State.sendDecrements_tick (s : State) (r : TaskRef) (d : List Word) (pred : Nat) (failed : Bool) (after : List Nat) :
    (s.sendDecrements r d pred failed after).gd.tick = s.gd.tick := rfl

@[simp] theorem State.setTile_tick (s : State) (c h : Nat) (x : Tile) : (s.setTile c h x).gd.tick = s.gd.tick := by
  simp [State.setTile]

@[simp] theorem State.emptyOutputs_tick (s : State) (c : Nat) (hs : List Nat) : (s.emptyOutputs c hs).gd.tick = s.gd.tick := by
  exact foldl_tick (fun v h => State.setTile_tick _ _ _ _) _ _

@[simp] theorem State.retireTask_tick (s : State) (r : TaskRef) (how : How) (cl co : Option Nat) :
    (s.retireTask r how cl co).gd.tick = s.gd.tick := by
  unfold State.retireTask
  split
  · split
    · rfl
    · dsimp only
      repeat' split
      all_goals simp [foldl_tick]
  · rfl

@[simp] theorem State.failPart_tick (s : State) (owner : Option (Nat × Nat)) (cluster : Nat) :
    (s.failPart owner cluster).gd.tick = s.gd.tick := by
  unfold State.failPart
  split <;> simp

/-! ### Launches: ready tasks, candidates and the delay list -/

@[simp] theorem State.stamp_tick (s : State) : s.stamp.2.gd.tick = s.gd.tick := rfl

@[simp] theorem State.stampTask_tick (s : State) (r : TaskRef) : (s.stampTask r).2.gd.tick = s.gd.tick := by
  unfold State.stampTask
  split
  · split
    · rfl
    · exact State.updTask_tick _ _ _
  · rfl

@[simp] theorem State.addCandidate_tick (s : State) (r : TaskRef) : (s.addCandidate r).gd.tick = s.gd.tick := by
  unfold State.addCandidate
  split
  · rfl
  · split
    · next x t hx ht =>
      refine ite_tick rfl ?_
      generalize t.stamped = b
      cases b <;> rfl
    · rfl

@[simp] theorem State.writeDelay_tick (s : State) (d : Delay) : (s.writeDelay d).gd.tick = s.gd.tick := by
  unfold State.writeDelay
  dsimp only
  split
  · generalize List.range _ = l
    exact (foldl_tick (fun v i => by simp) l _).trans rfl
  · rfl

@[simp] theorem State.delayAdd_tick (s : State) (x : Delay) : (s.delayAdd x).gd.tick = s.gd.tick := by
  unfold State.delayAdd
  refine ite_tick rfl ?_
  split
  · exact ite_tick (State.writeDelay_tick _ _) (State.writeDelay_tick _ _)
  · rfl

@[simp] theorem State.delayRefill_tick (s : State) (k : Nat) : (s.delayRefill k).gd.tick = s.gd.tick := by
  exact foldl_tick State.delayAdd_tick _ _

@[simp] theorem State.dcRead_tick (s : State) (l : Nat) : (s.dcRead l).gd.tick = s.gd.tick := by
  unfold State.dcRead
  dsimp only
  repeat' split
  all_goals rfl

@[simp] theorem State.descRead_tick (s : State) (r : TaskRef) : (s.descRead r).gd.tick = s.gd.tick := by
  unfold State.descRead
  repeat' split
  all_goals simp

@[simp] theorem State.nearAdd_tick (s : State) (r : TaskRef) : (s.nearAdd r).gd.tick = s.gd.tick := by
  unfold State.nearAdd
  repeat' split
  all_goals rfl

@[simp] theorem State.becomeReady_tick (s : State) (r : TaskRef) : (s.becomeReady r).gd.tick = s.gd.tick := by
  unfold State.becomeReady
  dsimp only
  repeat' split
  all_goals simp

@[simp] theorem State.countSet_tick (s : State) (r : TaskRef) (d : List Word) : (s.countSet r d).gd.tick = s.gd.tick := by
  unfold State.countSet
  repeat' split
  all_goals simp

@[simp] theorem State.createInst_tick (s : State) (c gid : Nat) (g : Graph) (base num : Nat) (l : Launch) :
    (s.createInst c gid g base num l).gd.tick = s.gd.tick := by
  unfold State.createInst
  dsimp only
  refine (foldl_tick (fun v p => State.countSet_tick _ _ _) _ _).trans ?_
  split <;> simp

@[simp] theorem State.createInsts_tick (s : State) (c gid : Nat) (g : Graph) (base num : Nat) (l : Launch) (n : Nat) :
    (s.createInsts c gid g base num l n).gd.tick = s.gd.tick := by
  induction n generalizing s base num with
  | zero => rfl
  | succ n ih => exact (ih _ _ _).trans (State.createInst_tick _ _ _ _ _ _ _)

@[simp] theorem State.launch_tick (s : State) (c gid base count : Nat) (l : Launch) :
    (s.launch c gid base count l).2.gd.tick = s.gd.tick := by
  exact State.createInsts_tick _ _ _ _ _ _ _ _

@[simp] theorem State.deviceLaunch_tick (s : State) (c gid base : Nat) (count : Option Nat) (owner : Option (Nat × Nat)) (at_ : Nat) :
    (s.deviceLaunch c gid base count owner at_).2.2.gd.tick = s.gd.tick := by
  unfold State.deviceLaunch
  split
  · rfl
  · split
    · rfl
    · exact State.launch_tick _ _ _ _ _ _

@[simp] theorem State.launchFail_tick (s : State) (q n chk dGraph dRange : Nat) :
    (s.launchFail q n chk dGraph dRange).gd.tick = s.gd.tick := by
  unfold State.launchFail
  split <;> simp

@[simp] theorem State.rootLaunch_tick (s : State) (q n c gid base count at_ : Nat) :
    (s.rootLaunch q n c gid base count at_).gd.tick = s.gd.tick := by
  simp [State.rootLaunch]

@[simp] theorem State.postedLaunch_tick (s : State) (d : Delay) (gid base count : Nat) (slot : Option Nat) :
    (s.postedLaunch d gid base count slot).gd.tick = s.gd.tick := by
  unfold State.postedLaunch
  dsimp only
  split
  · repeat' split
    all_goals simp
  · have launched := s.deviceLaunch_tick d.ctx gid base (match slot with
      | some i => (s.shape? d.ctx i).map Shape.count
      | none => some count) d.owner d.wake
    split
    · next h => exact (congrArg (fun p : Bool × Nat × State => p.2.2.gd.tick) h).symm.trans launched
    · next h =>
      exact (State.failPart_tick _ _ _).trans ((congrArg (fun p : Bool × Nat × State => p.2.2.gd.tick) h).symm.trans launched)

@[simp] theorem State.perform_tick (s : State) (d : Delay) : (s.perform d).gd.tick = s.gd.tick := by
  unfold State.perform
  dsimp only
  repeat' split
  all_goals simp


/-! ## A refill changes the delay list alone (R109) -/

theorem State.writeDelay_ctxs (s : State) (d : Delay) : (s.writeDelay d).ctxs = s.ctxs := by
  unfold State.writeDelay
  dsimp only
  split
  · generalize List.range _ = l
    exact List.foldlRecOn (motive := fun (v : State) => v.ctxs = s.ctxs) l _ rfl fun v hv i _ => (State.wr64_ctxs _ _ _).trans hv
  · rfl

theorem State.delayAdd_ctxs (s : State) (x : Delay) : (s.delayAdd x).ctxs = s.ctxs := by
  unfold State.delayAdd
  dsimp only
  repeat' split
  all_goals simp only [State.writeDelay_ctxs]

theorem State.delayRefill_ctxs (s : State) (k : Nat) : (s.delayRefill k).ctxs = s.ctxs :=
  List.foldlRecOn (motive := fun (v : State) => v.ctxs = s.ctxs) _ State.delayAdd rfl
    fun v hv x _ => (v.delayAdd_ctxs x).trans hv

/-! ## The entries of the delay list, performed (R53, R82, R108) -/

/-- The entry has left the list. -/
def State.entryOut (s : State) (d : Delay) : State := s.delayDrop fun x => x = d

/-- The posted action's frame entry is free. -/
def State.entryFreed (s : State) (d : Delay) : State := (s.entryOut d).updCtx d.ctx fun x => { x with posted := x.posted - 1 }

section
variable {s : State} {d : Delay}

theorem State.perform_task {r : TaskRef} (h : d.act = .task r) : s.perform d = (s.entryOut d).retireTask r .normal none none := by
  simp only [State.perform, h]
  rfl

theorem State.perform_signal_cmd {v inc q n : Nat} (h : d.act = .signal v inc) (hc : d.cmd = some (q, n)) :
    s.perform d = ((s.entryFreed d).updCmd q n fun x => { x with posted := false }).push
      [.signal d.ctx v inc { code := 1, arg := q } (some (q, n))] := by
  simp only [State.perform, h, hc, Option.isNone_some, Bool.false_eq_true, false_and, if_false]
  rfl

theorem State.perform_signal_device {v inc : Nat} (h : d.act = .signal v inc) (hc : d.cmd = none) (ho : d.owner = none)
    (hv : v < s.idLimit d.ctx) :
    s.perform d = (s.entryFreed d).push [.signal d.ctx v inc { code := 2, arg := d.eff } none] := by
  simp only [State.perform, h, hc, ho]
  exact if_neg fun hl => Nat.not_le.2 hv hl.2

theorem State.perform_launch {gid base count : Nat} (h : d.act = .launch gid base count none) (ho : d.owner = none) :
    s.perform d = (s.entryFreed d).postedLaunch d gid base count none := by
  simp only [State.perform, h, ho]
  rfl

theorem State.launchCheck_updCmd (s : State) (q n : Nat) (f : Cmd → Cmd) (c gid : Nat) (template : Bool) (base count : Nat) :
    (s.updCmd q n f).launchCheck c gid template base count = s.launchCheck c gid template base count := by
  unfold State.updCmd
  split <;> rfl

/-- The launch of a DELAY_POST, by its check of R86 where the command waits for it. -/
theorem State.postedLaunch_cmd {gid base count q n : Nat} (hc : d.cmd = some (q, n)) :
    let f := s.updCmd q n fun x => { x with posted := false }
    s.postedLaunch d gid base count none = if f.launchCheck d.ctx gid true base count = 0 then
        f.rootLaunch q n d.ctx gid base count d.wake
      else f.launchFail q n (f.launchCheck d.ctx gid true base count) 3 4 := by
  intro f
  rw [State.launchCheck_updCmd]
  simp only [State.postedLaunch, hc]
  cases s.launchCheck d.ctx gid true base count <;> rfl

theorem State.postedLaunch_device {gid base count : Nat} (hc : d.cmd = none) (ho : d.owner = none)
    (h : s.launchCheck d.ctx gid true base count = 0) :
    s.postedLaunch d gid base count none = (s.launch d.ctx gid base count { owner := none, at_ := d.wake }).2 := by
  have passed : ¬ s.launchCheck d.ctx gid true base count ≠ 0 := not_not.2 h
  simp only [State.postedLaunch, State.deviceLaunch, hc, ho, if_neg passed]
  rfl

/-- The head of the delay list is due: it is performed once the spilled entries up to the last boundary are in. -/
theorem State.wakeHead_due {l : List Delay} {kind : Action → Bool} (hg : s.gcs.changing = false) (hu : s.up = true)
    (hl : s.delayList = d :: l) (hw : d.wake ≤ s.env.now / 1024 * 1024) (ha : d.at_ < s.env.now / 1024 * 1024)
    (hk : kind d.act = true) : s.wakeHead kind = (s.delayRefill (s.env.now / 1024)).perform d := by
  have due : d.due (s.env.now / 1024) = true := by simp [Delay.due, hw, ha]
  have head : s.dueHead? kind = some d := by simp only [State.dueHead?, hl, due, hk, and_self, if_true]
  simp only [State.wakeHead, head, hg, hu, Bool.not_true, Bool.false_eq_true, or_self, if_false]

end

/-- What a tick performs leaves `GD_TICK`, and then it reports the boundary. -/
theorem State.tick_tick (s : State) (k : Nat) : (s.tick k).gd.tick = max s.gd.tick k := by
  unfold State.tick
  dsimp only
  rw [foldl_tick State.perform_tick, State.delayRefill_tick]
  rfl

/-- Settles O56: a tick performs what is due and keeps `GD_TICK` until it reports its boundary; each wake performs the list's head. -/
theorem delayListActs : Obligations.DelayListActs := by
  unfold Obligations.DelayListActs
  intro s t
  refine ⟨fun hs k => ?tick, fun d l hg hu hl => ?wakes⟩
  case tick =>
    exact ⟨s.tick k, leads_push rfl hs.1 hs.2 rfl, s.tick_tick k, rfl⟩
  case wakes =>
    intro u hw ha out freed
    have wakes {i : Instr} {kind : Action → Bool} {v : State} (he : exec i s = .next (settle (u.wakeHead kind)))
        (hk : kind d.act = true) (hv : (u.delayRefill (u.env.now / 1024)).perform d = v) : Leads i s v :=
      leads_eq he ((State.wakeHead_due (s := u) hg hu hl hw ha hk).trans hv)
    refine ⟨fun r h => ?task, fun v inc q n h hc => ?command, fun v inc h hc ho hv => ?device, fun gid base count q n h hc ho => ?root,
      fun gid base count h hc ho hk => ?launch⟩
    case task => exact wakes rfl (by rw [h]) (State.perform_task h)
    case command => exact wakes rfl (by rw [h]) (State.perform_signal_cmd h hc)
    case device =>
      refine wakes rfl (by rw [h]) (State.perform_signal_device h hc ho ?_)
      rw [State.idLimit, State.ctx, State.delayRefill_ctxs]
      exact hv
    case root =>
      intro f
      have posted := (State.perform_launch (s := u.delayRefill (u.env.now / 1024)) h ho).trans (State.postedLaunch_cmd hc)
      refine ⟨fun h0 => wakes rfl (by rw [h]) (posted.trans (if_pos h0)), fun h1 => wakes rfl (by rw [h]) (posted.trans ?_)⟩
      refine (if_neg ?_).trans ?_
      · exact fun h0 => absurd (h0.symm.trans h1) (by decide)
      · exact congrArg (fun chk => f.launchFail q n chk 3 4) h1
    case launch => exact wakes rfl (by rw [h]) ((State.perform_launch h ho).trans (State.postedLaunch_device hc ho hk))

end Sys2Proof.Machine

namespace Sys2Proof.Machine

/-! ## The live instances, and the serial of the next (R83) -/

/-- What a launch writes and the later steps of a task's way read: the live instances and the serial of the next one. -/
def State.instView (s : State) : Nat × (Nat → Nat → Option Inst) := (s.gd.nextInst, s.inst?)

theorem State.instView_same {s t : State} (hg : t.gd.nextInst = s.gd.nextInst) (hc : t.ctxs = s.ctxs) : t.instView = s.instView := by
  unfold State.instView State.inst? State.ctx
  rw [hg, hc]

theorem State.inst?_view {s t : State} (h : t.instView = s.instView) : t.inst? = s.inst? := congrArg Prod.snd h

theorem State.nextInst_view {s t : State} (h : t.instView = s.instView) : t.gd.nextInst = s.gd.nextInst := congrArg Prod.fst h

theorem State.instView_setCtx {s : State} {c : Nat} {x : Ctx} (h : x.insts = (s.ctx c).insts) : (s.setCtx c x).instView = s.instView := by
  refine Prod.ext rfl ?_
  funext e i
  by_cases he : e = c
  · subst he
    simp [State.instView, State.inst?, h]
  · simp [State.instView, State.inst?, State.ctx_setCtx_ne s he]

theorem State.ite_instView {p : Prop} [Decidable p] {a b : State} {v : Nat × (Nat → Nat → Option Inst)} (ha : a.instView = v)
    (hb : b.instView = v) : (if p then a else b).instView = v := by
  split <;> assumption

theorem foldl_instView {α : Type} {f : State → α → State} (h : ∀ s x, (f s x).instView = s.instView) (l : List α) (s : State) :
    (l.foldl f s).instView = s.instView :=
  List.foldlRecOn (motive := fun (v : State) => v.instView = s.instView) l f rfl fun v hv x _ => (h v x).trans hv

section
variable (s : State)

@[simp] theorem State.wr64_instView (a : Nat) (w : Word) : (s.wr64 a w).instView = s.instView :=
  State.instView_same (by simp) (by simp)

@[simp] theorem State.wrWords_instView (host : Bool) (a : Nat) (l : List Word) : (s.wrWords host a l).instView = s.instView :=
  State.instView_same (by simp) (by simp)

@[simp] theorem State.push_instView (w : List Work) : (s.push w).instView = s.instView := rfl

@[simp] theorem State.fresh_instView (n : Nat) : (s.fresh n).2.instView = s.instView := rfl

@[simp] theorem State.testPlace_instView (c : Nat) : (s.testPlace c).instView = s.instView :=
  State.ite_instView rfl rfl

@[simp] theorem State.nearAdd_instView (r : TaskRef) : (s.nearAdd r).instView = s.instView := by
  unfold State.nearAdd
  split
  · rfl
  · exact State.ite_instView rfl rfl

@[simp] theorem State.nearDrop_instView (r : TaskRef) : (s.nearDrop r).instView = s.instView := rfl

@[simp] theorem State.dcRead_instView (l : Nat) : (s.dcRead l).instView = s.instView := by
  unfold State.dcRead
  split
  · rfl
  · exact State.ite_instView rfl rfl

@[simp] theorem State.descRead_instView (r : TaskRef) : (s.descRead r).instView = s.instView := by
  unfold State.descRead
  split
  · split <;> simp
  · rfl

@[simp] theorem State.queueMsix_instView (q : Nat) : (s.queueMsix q).instView = s.instView := by
  unfold State.queueMsix
  split <;> rfl

@[simp] theorem State.traceWrite_instView (c w0 gid num : Nat) : (s.traceWrite c w0 gid num).instView = s.instView := by
  have err_view (v : State) (e : Err) : (v.err e).instView = v.instView := State.instView_same (by simp) (by simp)
  unfold State.traceWrite
  dsimp only
  repeat' split
  all_goals simp [err_view]

@[simp] theorem State.trace_instView (r : TaskRef) (event : Nat) (cluster core : Option Nat) (cause : Nat) :
    (s.trace r event cluster core cause).instView = s.instView := by
  unfold State.trace
  split
  · split
    · cases cluster <;> cases core <;> exact State.traceWrite_instView _ _ _ _ _
    · rfl
  · rfl

@[simp] theorem State.putBank_instView (b : Nat) (x : Bank) : (s.putBank b x).instView = s.instView := by
  refine (foldl_instView (fun v e => ?_) _ _).trans rfl
  unfold State.writeSpilled
  split <;> simp

@[simp] theorem State.saveEntry_instView (e : Entry) : (s.saveEntry e).instView = s.instView := by
  unfold State.saveEntry
  dsimp only
  split <;> simp [State.instView_setCtx]

@[simp] theorem State.toHeap_instView (e : Entry) : (s.toHeap e).instView = s.instView := by
  unfold State.toHeap
  dsimp only
  split <;> simp

@[simp] theorem State.writeDelay_instView (d : Delay) : (s.writeDelay d).instView = s.instView := by
  unfold State.writeDelay
  dsimp only
  split
  · generalize List.range _ = l
    exact (foldl_instView (fun v i => by simp) l _).trans rfl
  · rfl

@[simp] theorem State.delayAdd_instView (x : Delay) : (s.delayAdd x).instView = s.instView := by
  unfold State.delayAdd
  refine State.ite_instView rfl ?_
  split
  · exact State.ite_instView (State.writeDelay_instView _ _) (State.writeDelay_instView _ _)
  · rfl

@[simp] theorem State.writeFlow_instView (f : Flow) : (s.writeFlow f).instView = s.instView := by
  unfold State.writeFlow
  dsimp only
  split
  · generalize List.range _ = l
    exact (foldl_instView (fun v i => by simp) l _).trans rfl
  · rfl

@[simp] theorem State.setFlow_instView (k : Nat × Nat) (f : Flow) : (s.setFlow k f).instView = s.instView := by
  have written (g : Flow) (b : Bool) : (if b then s.writeFlow g else s).instView = s.instView := by split <;> simp
  exact written _ _

@[simp] theorem State.addCandidate_instView (r : TaskRef) : (s.addCandidate r).instView = s.instView := by
  unfold State.addCandidate
  refine State.ite_instView rfl ?_
  split
  · next x t _ _ =>
    refine State.ite_instView rfl ?_
    generalize t.stamped = b
    cases b <;> rfl
  · rfl

@[simp] theorem State.updCmd_instView (q n : Nat) (f : Cmd → Cmd) : (s.updCmd q n f).instView = s.instView := by
  unfold State.updCmd
  split <;> rfl

end


/-! ## A launch's instances and their tasks (R83, R85, R94) -/

theorem State.task?_of_inst {s : State} {r : TaskRef} {x : Inst} (hx : s.inst? r.ctx r.inst = some x) :
    s.task? r = AL.get? r.idx x.tasks := by
  simp [State.task?, hx]

@[simp] theorem State.updTask_nextInst (s : State) (r : TaskRef) (f : Task → Task) :
    (s.updTask r f).gd.nextInst = s.gd.nextInst := by
  unfold State.updTask State.updInst
  split <;> rfl

section
variable {s : State} {r : TaskRef} {x : Inst} {k : Task} (hx : s.inst? r.ctx r.inst = some x)
  (hk : AL.get? r.idx x.tasks = some k)
include hx hk

theorem State.inst?_updTask (f : Task → Task) :
    (s.updTask r f).inst? r.ctx r.inst = some { x with tasks := AL.put r.idx (f k) x.tasks } := by
  simp only [State.updTask, State.updInst, hx, hk]
  simp [State.updCtx, State.inst?]

/-- A task that becomes ready keeps its descriptor and its count, and no other task of its instance changes. -/
theorem State.becomeReady_inst : (s.becomeReady r).gd.nextInst = s.gd.nextInst ∧
    ∃ a b, (s.becomeReady r).inst? r.ctx r.inst =
      some { x with tasks := AL.put r.idx { k with arr := a, stamped := b, st := .ready } x.tasks } := by
  have ht : s.task? r = some k := (State.task?_of_inst hx).trans hk
  obtain ⟨v, hv, hn, hi⟩ : ∃ v, (s.stampTask r).2 = v ∧ v.gd.nextInst = s.gd.nextInst ∧ ∃ a b,
      (v.updTask r fun t => { t with st := .ready }).inst? r.ctx r.inst =
        some { x with tasks := AL.put r.idx { k with arr := a, stamped := b, st := .ready } x.tasks } := by
    refine ⟨_, rfl, ?_, ?_⟩
    · simp only [State.stampTask, ht]
      split
      · rfl
      · exact State.updTask_nextInst _ _ _
    · simp only [State.stampTask, ht]
      split
      · exact ⟨k.arr, k.stamped, State.inst?_updTask hx hk _⟩
      · refine ⟨s.gd.arrival, true, ?_⟩
        have hs := State.inst?_updTask (s := s.stamp.2) hx hk fun t => { t with arr := s.gd.arrival, stamped := true }
        exact (State.inst?_updTask hs (AL.get?_put_self _ _ _) _).trans (by rw [AL.put_put])
  have view : (s.becomeReady r).instView = (v.updTask r fun t => { t with st := .ready }).instView := by
    subst hv
    unfold State.becomeReady
    rw [hx, ht]
    dsimp only
    repeat' split
    all_goals simp
  rw [State.inst?_view view, State.nextInst_view view]
  exact ⟨(State.updTask_nextInst _ _ _).trans hn, hi⟩

end

/-- A task of an instance just launched: it has its descriptor's count, and is ready where it is a root that has been taken up; the
roots `rest` have not. -/
def Task.launched (rest : List Nat) (j : Nat) (d : List Word) (k : Task) : Prop :=
  k.desc = d ∧ k.count = Desc.depInit d ∧ k.st = if Desc.depInit d = 0 ∧ j ∉ rest then .ready else .waiting

/-- The tasks `ts` are those of the graph's descriptors, and of its roots `rest` alone are not ready yet. -/
def Graph.launched (g : Graph) (rest : List Nat) (ts : List (Nat × Task)) : Prop :=
  (∀ j, AL.get? j g.descs = none → AL.get? j ts = none) ∧
    ∀ j d, AL.get? j g.descs = some d → ∃ k, AL.get? j ts = some k ∧ k.launched rest j d

/-- Instance `i` of context `c` is `x`, but for such tasks; `next` is the serial of the next instance. -/
def State.launching (s : State) (c i next : Nat) (g : Graph) (rest : List Nat) (x : Inst) : Prop :=
  s.gd.nextInst = next ∧ ∃ ts, s.inst? c i = some { x with tasks := ts } ∧ g.launched rest ts

theorem State.launching_view {s t : State} {c i next : Nat} {g : Graph} {rest : List Nat} {x : Inst} (h : t.instView = s.instView)
    (hs : s.launching c i next g rest x) : t.launching c i next g rest x := by
  unfold State.launching
  rw [State.inst?_view h, State.nextInst_view h]
  exact hs

section
variable {s : State} {c i next : Nat} {g : Graph} {rest : List Nat} {x : Inst} {j : Nat} {d : List Word}

/-- A task that is no root: nothing is left to do for it. -/
theorem Graph.launched_other {ts : List (Nat × Task)} (hd : AL.get? j g.descs = some d) (h0 : Desc.depInit d ≠ 0)
    (h : g.launched (j :: rest) ts) : g.launched rest ts := by
  obtain ⟨hnone, hsome⟩ := h
  refine ⟨hnone, fun e b hb => ?_⟩
  obtain ⟨k, hk, hdesc, hcount, hst⟩ := hsome e b hb
  refine ⟨k, hk, hdesc, hcount, hst.trans (if_congr ?_ rfl rfl)⟩
  by_cases he : e = j
  · subst he
    obtain rfl : b = d := Option.some.inj (hb.symm.trans hd)
    simp [h0]
  · simp [he]

/-- Each task's count is set: a root becomes ready, and no other task changes. -/
theorem State.launching_countSet (hd : AL.get? j g.descs = some d) (hj : j ∉ rest) (h : s.launching c i next g (j :: rest) x) :
    (s.countSet { ctx := c, inst := i, idx := j } d).launching c i next g rest x := by
  unfold State.countSet
  split
  next h0 =>
    obtain ⟨hn, ts, hy, hnone, hsome⟩ := State.launching_view (s.nearAdd_instView { ctx := c, inst := i, idx := j }) h
    obtain ⟨k, hk, hdesc, hcount, -⟩ := hsome j d hd
    obtain ⟨hnext, a, b, hi⟩ := State.becomeReady_inst (r := { ctx := c, inst := i, idx := j }) hy hk
    refine ⟨hnext.trans hn, _, hi, fun e he => ?_, fun e f hf => ?_⟩
    · have hne : e ≠ j := by rintro rfl; exact absurd (he.symm.trans hd) (by simp)
      exact (AL.get?_put_ne hne _ _).trans (hnone e he)
    · by_cases he : e = j
      · subst he
        obtain rfl : f = d := Option.some.inj (hf.symm.trans hd)
        exact ⟨_, AL.get?_put_self _ _ _, hdesc, hcount, (if_pos ⟨h0, hj⟩).symm⟩
      · obtain ⟨m, hm, hmd, hmc, hms⟩ := hsome e f hf
        exact ⟨m, (AL.get?_put_ne he _ _).trans hm, hmd, hmc, hms.trans (if_congr (by simp [he]) rfl rfl)⟩
  next h0 =>
    have other : s.launching c i next g rest x := by
      obtain ⟨hn, ts, hy, hl⟩ := h
      exact ⟨hn, ts, hy, Graph.launched_other hd h0 hl⟩
    split
    · exact State.launching_view (by simp) other
    · exact other

theorem foldl_countSet_launching (hg : (g.descs.map Prod.fst).Nodup) (l : List (Nat × List Word)) (hl : ∀ p ∈ l, p ∈ g.descs)
    (hn : (l.map Prod.fst).Nodup) {s : State} (h : s.launching c i next g (l.map Prod.fst) x) :
    (l.foldl (fun s p => s.countSet { ctx := c, inst := i, idx := p.1 } p.2) s).launching c i next g [] x := by
  induction l generalizing s with
  | nil => exact h
  | cons p r ih =>
    rw [List.map_cons, List.nodup_cons] at hn
    exact ih (fun q hq => hl q (List.mem_cons_of_mem _ hq)) hn.2
      (State.launching_countSet (AL.get?_of_mem hg (hl p List.mem_cons_self)) hn.1 h)

end

/-- What a launch creates before any count is set: an instance whose tasks are all waiting. -/
def State.newInst (s : State) (c gid : Nat) (g : Graph) (base num : Nat) (l : Launch) : Inst :=
  { gid := gid, base := base, num := num, span := g.span, step := l.step, owner := l.owner, launchAt := l.at_, stepDl := l.stepDl,
    frame := s.takeFrames c g.span, tasks := g.descs.map fun p => (p.1, { desc := p.2, count := Desc.depInit p.2 }) }

theorem State.newInst_launched (s : State) (c gid : Nat) (g : Graph) (base num : Nat) (l : Launch) :
    g.launched (g.descs.map Prod.fst) (s.newInst c gid g base num l).tasks := by
  have tasks (j : Nat) : AL.get? j (s.newInst c gid g base num l).tasks =
      (AL.get? j g.descs).map fun d => { desc := d, count := Desc.depInit d } :=
    AL.get?_map j (fun d : List Word => ({ desc := d, count := Desc.depInit d } : Task)) g.descs
  refine ⟨fun j hj => by rw [tasks, hj]; rfl, fun j d hd => ⟨_, (tasks j).trans (by rw [hd]; rfl), rfl, rfl, ?_⟩⟩
  obtain ⟨a, b, hab, -⟩ := AL.get?_split hd
  exact (if_neg fun h => h.2 (by simp [hab])).symm

/-- An instance is created with a task for each descriptor, its roots ready (R83). -/
theorem State.createInst_launching (s : State) (c gid : Nat) (g : Graph) (base num : Nat) (l : Launch)
    (hg : (g.descs.map Prod.fst).Nodup) : (s.createInst c gid g base num l).launching c s.gd.nextInst (s.gd.nextInst + 1) g []
      (s.newInst c gid g base num l) := by
  refine foldl_countSet_launching hg _ (fun p hp => hp) hg ?_
  let put : State := ({ s with gd := { s.gd with nextInst := s.gd.nextInst + 1 } } : State).updCtx c fun k =>
    { k with insts := AL.put s.gd.nextInst (s.newInst c gid g base num l) k.insts }
  have placed : put.launching c s.gd.nextInst (s.gd.nextInst + 1) g (g.descs.map Prod.fst) (s.newInst c gid g base num l) :=
    ⟨rfl, _, by simp [put, State.inst?, State.updCtx], s.newInst_launched c gid g base num l⟩
  split
  · exact State.launching_view (State.updCmd_instView _ _ _ _) placed
  · exact placed

/-- A launch creates its instances in order, each at its base and with its sequence number (R85). -/
theorem State.createInsts_eq (c gid : Nat) (g : Graph) (l : Launch) (n : Nat) : ∀ (s : State) (base num : Nat), base < 2 ^ 32 →
    num < 2 ^ 32 → s.createInsts c gid g base num l n = (List.range n).foldl (fun (v : State) j =>
      v.createInst c gid g ((base + j * g.span) % 2 ^ 32) ((num + j) % 2 ^ 32) l) s := by
  induction n with
  | zero => intros; rfl
  | succ n ih =>
    intro s base num hb hn
    rw [State.createInsts, ih _ _ _ (Nat.mod_lt _ (by decide)) (Nat.mod_lt _ (by decide)), List.range_succ_eq_map, List.foldl_cons,
      List.foldl_map]
    have first : (base + 0 * g.span) % 2 ^ 32 = base ∧ (num + 0) % 2 ^ 32 = num := by
      rw [Nat.zero_mul]; exact ⟨Nat.mod_eq_of_lt hb, Nat.mod_eq_of_lt hn⟩
    have later (j : Nat) : ((base + g.span) % 2 ^ 32 + j * g.span) % 2 ^ 32 = (base + (j + 1) * g.span) % 2 ^ 32 ∧
        ((num + 1) % 2 ^ 32 + j) % 2 ^ 32 = (num + (j + 1)) % 2 ^ 32 := by
      rw [Nat.mod_add_mod, Nat.mod_add_mod, Nat.succ_mul]
      constructor <;> congr 1 <;> omega
    simp only [first, later, Nat.succ_eq_add_one]

/-! ## The checks of a launch (R86) -/

/-- A graph of the kind that is launched; a one-shot graph has no live instance and is launched once at most. -/
def Ctx.kindOk (x : Ctx) (gid : Nat) (g : Graph) (template : Bool) (count : Nat) : Prop :=
  g.template = template ∧ (template = false → x.liveOf gid = 0 ∧ count ≤ 1)

/-- The positions asked for lie within 2^32 and meet no live instance's. -/
def Ctx.rangesOk (x : Ctx) (base n : Nat) : Prop := n ≤ 2 ^ 32 ∧ ∀ p ∈ x.insts, rangesMeet base n p.2.base p.2.span = false

theorem Ctx.kindOk_iff (x : Ctx) (gid : Nat) (g : Graph) (template : Bool) (count : Nat) : x.kindOk gid g template count ↔
    ¬ (g.template ≠ template ∨ (!g.template) = true ∧ (x.liveOf gid ≠ 0 ∨ 1 < count)) := by
  unfold Ctx.kindOk
  cases g.template <;> cases template <;> simp

theorem Ctx.rangesOk_iff (x : Ctx) (base n : Nat) : x.rangesOk base n ↔
    ¬ (2 ^ 32 < n ∨ (x.insts.any fun p => rangesMeet base n p.2.base p.2.span) = true) := by
  simp [Ctx.rangesOk]

section
variable {s : State} {c gid base count : Nat} {template : Bool} {g : Graph}

theorem State.launchCheck_unknown (hg : AL.get? gid (s.ctx c).graphs = none) : s.launchCheck c gid template base count = 1 := by
  simp only [State.launchCheck, hg]

variable (hg : AL.get? gid (s.ctx c).graphs = some g)
include hg

theorem State.launchCheck_eq : s.launchCheck c gid template base count =
    if g.template ≠ template ∨ (!g.template) = true ∧ ((s.ctx c).liveOf gid ≠ 0 ∨ 1 < count) then 1
    else if 2 ^ 32 < count * g.span ∨ ((s.ctx c).insts.any fun p => rangesMeet base (count * g.span) p.2.base p.2.span) = true then 2
    else if (s.ctx c).frames < (s.ctx c).framesUsed + count * g.span then 3
    else 0 := by
  simp only [State.launchCheck, hg]

theorem State.launchCheck_kind (hk : ¬ (s.ctx c).kindOk gid g template count) : s.launchCheck c gid template base count = 1 :=
  (State.launchCheck_eq hg).trans (if_pos (not_not.1 ((Ctx.kindOk_iff _ _ _ _ _).not.1 hk)))

variable (hk : (s.ctx c).kindOk gid g template count)
include hk

theorem State.launchCheck_ranges (hr : ¬ (s.ctx c).rangesOk base (count * g.span)) : s.launchCheck c gid template base count = 2 :=
  (State.launchCheck_eq hg).trans ((if_neg ((Ctx.kindOk_iff _ _ _ _ _).1 hk)).trans
    (if_pos (not_not.1 ((Ctx.rangesOk_iff _ _ _).not.1 hr))))

theorem State.launchCheck_frames (hr : (s.ctx c).rangesOk base (count * g.span)) : s.launchCheck c gid template base count =
    if (s.ctx c).frames < (s.ctx c).framesUsed + count * g.span then 3 else 0 :=
  (State.launchCheck_eq hg).trans ((if_neg ((Ctx.kindOk_iff _ _ _ _ _).1 hk)).trans (if_neg ((Ctx.rangesOk_iff _ _ _).1 hr)))

end

theorem State.launch_eq {s : State} {c gid base count : Nat} {l : Launch} {g : Graph} (hg : AL.get? gid (s.ctx c).graphs = some g)
    (hb : base < 2 ^ 32) (hn : g.seq < 2 ^ 32) : s.launch c gid base count l =
      (g.seq, (List.range count).foldl (fun (v : State) j =>
        v.createInst c gid g ((base + j * g.span) % 2 ^ 32) ((g.seq + j) % 2 ^ 32) l)
        (s.setCtx c { s.ctx c with graphs := AL.put gid { g with seq := (g.seq + count) % 2 ^ 32 } (s.ctx c).graphs })) := by
  have stored : AL.get (s.ctx c).graphs gid = g := by rw [AL.get, hg]; rfl
  unfold State.launch
  dsimp only
  rw [stored, State.createInsts_eq c gid g l count _ _ _ hb hn]

/-! ## GRAPH_LOAD (R70 to R72, R89, R92) -/

/-- The descriptors that a load names, as memory holds them. -/
def State.loadDescs (s : State) (w : List Word) : List (List Word) :=
  (List.range (bits (wordAt w 2) 63 32)).map fun i => s.rdWords false ((wordAt w 1).toNat + 128 * i) 16

/-- The live one-shot instance that an appended load extends (R89). -/
def Ctx.extended? (x : Ctx) (template : Bool) (gid : Nat) : Option (Nat × Inst) :=
  if template then none else x.insts.find? fun p => p.2.gid = gid

theorem Ctx.extended?_none {x : Ctx} {template : Bool} {gid : Nat}
    (h : template = true ∨ (x.insts.find? fun p => p.2.gid = gid) = none) : x.extended? template gid = none :=
  ite_eq_left_iff.2 h.resolve_left

theorem Ctx.extended?_some {x : Ctx} {template : Bool} {gid : Nat} {p : Nat × Inst} (ht : template = false)
    (hp : (x.insts.find? fun p => p.2.gid = gid) = some p) : x.extended? template gid = some p := by
  rw [ht]; exact hp

section
variable {s : State} {q n : Nat} {w : List Word}

/-- The load passes the checks of its graph and positions: `g0` is the graph that it adds to, `inst` the live instance that it
extends (R70, R89). -/
def State.loadsInto (s : State) (w : List Word) (g0 : Graph) (inst : Option (Nat × Inst)) : Prop :=
  let x := s.ctx (Op.ctx w)
  let gid := bits (wordAt w 3) 15 0
  let template := bit (wordAt w 3) 16
  let first := bits (wordAt w 2) 31 0
  bit (wordAt w 3) 17 = false ∧ x.liveOf gid = 0 ∧ g0 = { template := template } ∧ inst = none ∨
  bit (wordAt w 3) 17 = true ∧ AL.get? gid x.graphs = some g0 ∧ g0.template = template ∧
    (g0.descs.any fun p => decide (first ≤ p.1) && decide (p.1 < first + bits (wordAt w 2) 63 32)) = false ∧
    x.extended? template gid = inst

/-- The graph as it is once the load has added to it. -/
def State.loadedGraph (s : State) (w : List Word) (g0 : Graph) : Graph :=
  { g0 with descs := putDescs (bits (wordAt w 2) 31 0) (s.loadDescs w) g0.descs }

/-- Room for the graph in the store, and for the positions that it adds to a live instance. -/
def State.loadRoom (s : State) (w : List Word) (g : Graph) (inst : Option (Nat × Inst)) : Prop :=
  let x := s.ctx (Op.ctx w)
  x.descRoom (((x.graphs.filter fun p => p.1 ≠ bits (wordAt w 3) 15 0).map fun p => p.2.span).sum + g.span) = true ∧
    x.framesUsed + (inst.map fun p => g.span - p.2.span).getD 0 ≤ x.frames

theorem State.not_loadRoom {g : Graph} {inst : Option (Nat × Inst)} :
    ¬ s.loadRoom w g inst ↔
      (s.ctx (Op.ctx w)).descRoom ((((s.ctx (Op.ctx w)).graphs.filter fun p => p.1 ≠ bits (wordAt w 3) 15 0).map fun p =>
        p.2.span).sum + g.span) = false ∨
      (s.ctx (Op.ctx w)).frames < (s.ctx (Op.ctx w)).framesUsed + (inst.map fun p => g.span - p.2.span).getD 0 := by
  rw [State.loadRoom, not_and_or, Nat.not_le, Bool.not_eq_true]

/-- The load takes effect: the graph is stored, a live instance extended. -/
def State.loadDone (s : State) (w : List Word) (g : Graph) (inst : Option (Nat × Inst)) : State :=
  let stored := s.storeGraph (Op.ctx w) (bits (wordAt w 3) 15 0) g (bit (wordAt w 3) 17) (bits (wordAt w 2) 31 0) (bits (wordAt w 2) 63 32)
  match inst with
  | some p => stored.extendInst (Op.ctx w) p.1 (bits (wordAt w 2) 31 0) g.span (s.loadDescs w)
  | none => stored

theorem State.effGraphLoad_live (ha : bit (wordAt w 3) 17 = false) (hl : (s.ctx (Op.ctx w)).liveOf (bits (wordAt w 3) 15 0) ≠ 0) :
    s.effGraphLoad q n w = s.complete q n .badParam 3 :=
  if_pos ⟨by simp [ha], hl⟩

section
variable (ha : bit (wordAt w 3) 17 = true)
include ha

theorem State.effGraphLoad_otherGraph
    (ho : ((AL.get? (bits (wordAt w 3) 15 0) (s.ctx (Op.ctx w)).graphs).map Graph.template) ≠ some (bit (wordAt w 3) 16)) :
    s.effGraphLoad q n w = s.complete q n .badParam 3 :=
  (if_neg fun h => by simp [ha] at h).trans (if_pos ⟨ha, ho⟩)

theorem State.effGraphLoad_loaded {o : Graph} (ho : AL.get? (bits (wordAt w 3) 15 0) (s.ctx (Op.ctx w)).graphs = some o)
    (ht : o.template = bit (wordAt w 3) 16) (hd : (o.descs.any fun p =>
      decide (bits (wordAt w 2) 31 0 ≤ p.1) && decide (p.1 < bits (wordAt w 2) 31 0 + bits (wordAt w 2) 63 32)) = true) :
    s.effGraphLoad q n w = s.complete q n .badParam 2 := by
  refine (if_neg fun h => ?_).trans ((if_neg fun h => ?_).trans (if_pos ⟨ha, ?_⟩))
  · simp [ha] at h
  · exact h.2 (by rw [ho]; exact congrArg some ht)
  · rw [ho]; exact hd

end

/-- What a load does past the checks of its graph and positions. -/
def State.loadRest (s : State) (q n : Nat) (w : List Word) (g : Graph) (inst : Option (Nat × Inst)) : State :=
  let x := s.ctx (Op.ctx w)
  let grow := match inst with
    | some p => g.span - p.2.span
    | none => 0
  match loadBad? (bits (wordAt w 2) 31 0) 0 (s.loadDescs w) with
  | some d => s.complete q n .badParam d
  | none =>
    if !x.descRoom (((x.graphs.filter fun p => p.1 ≠ bits (wordAt w 3) 15 0).map fun p => p.2.span).sum + g.span) ∨
        x.frames < x.framesUsed + grow then s.complete q n .noResource 0
    else (s.loadDone w g inst).complete q n .ok 0

theorem State.effGraphLoad_into {g0 : Graph} {inst : Option (Nat × Inst)} (h : s.loadsInto w g0 inst) :
    s.effGraphLoad q n w = s.loadRest q n w (s.loadedGraph w g0) inst := by
  unfold State.effGraphLoad State.loadRest State.loadDone
  dsimp only
  obtain ⟨ha, hl, rfl, rfl⟩ | ⟨ha, ho, ht, hd, rfl⟩ := h
  · rw [if_neg fun h => h.2 hl, if_neg fun h => by simp [ha] at h, if_neg fun h => by simp [ha] at h]
    simp only [ha, Bool.false_eq_true, Bool.false_and, if_false]
    rfl
  · rw [if_neg fun h => by simp [ha] at h, if_neg fun h => h.2 (by rw [ho, ← ht]; rfl), if_neg fun h => by simp [ho, hd] at h]
    simp only [ha, ho, if_true, Option.getD_some]
    cases bit (wordAt w 3) 16 <;>
      simp only [Bool.not_true, Bool.not_false, Bool.and_true, Bool.and_false, Bool.false_eq_true, if_true, if_false] <;> rfl

section
variable {g : Graph} {inst : Option (Nat × Inst)}

theorem State.loadRest_bad {d : Nat} (h : loadBad? (bits (wordAt w 2) 31 0) 0 (s.loadDescs w) = some d) :
    s.loadRest q n w g inst = s.complete q n .badParam d := by
  simp only [State.loadRest, h]

variable (h : loadBad? (bits (wordAt w 2) 31 0) 0 (s.loadDescs w) = none)
include h

theorem State.loadRest_full (hr : ¬ s.loadRoom w g inst) : s.loadRest q n w g inst = s.complete q n .noResource 0 := by
  simp only [State.loadRest, h]
  refine if_pos ?_
  exact (State.not_loadRoom.1 hr).imp (by simp) (by cases inst <;> exact id)

theorem State.loadRest_room (hr : s.loadRoom w g inst) : s.loadRest q n w g inst = (s.loadDone w g inst).complete q n .ok 0 := by
  simp only [State.loadRest, h]
  refine if_neg ?_
  rintro (hd | hf)
  · simp only [hr.1] at hd; cases hd
  · exact absurd hr.2 (by cases inst <;> exact Nat.not_le.2 hf)

end
end


/-! ## GRAPH_LAUNCH (R85, R86) -/

/-- The count that a GRAPH_LAUNCH asks for, by itself or by its shape slot. -/
def State.askedCount (s : State) (w : List Word) : Option Nat :=
  if bit (wordAt w 1) 17 then (s.shape? (Op.ctx w) (bits (wordAt w 4) 31 0)).map Shape.count else some (bits (wordAt w 3) 31 0)

theorem State.launchCount_asked (s : State) (w : List Word) : s.launchCount (Op.ctx w) (bit (wordAt w 1) 17)
    (bits (wordAt w (if bit (wordAt w 1) 17 then 4 else 3)) 31 0) = s.askedCount w := by
  unfold State.askedCount
  cases bit (wordAt w 1) 17 <;> rfl

section
variable {s : State} {q n : Nat} {w : List Word}

theorem State.effGraphLaunch_noCount (h : s.askedCount w = none) : s.effGraphLaunch q n w = s.complete q n .badParam 4 := by
  simp only [State.effGraphLaunch, s.launchCount_asked w, h]

theorem State.effGraphLaunch_count {k : Nat} (h : s.askedCount w = some k) {check : Nat}
    (hc : s.launchCheck (Op.ctx w) (bits (wordAt w 1) 15 0) (bit (wordAt w 1) 16) (bits (wordAt w 2) 31 0) k = check) :
    s.effGraphLaunch q n w = if check = 0 then
        s.rootLaunch q n (Op.ctx w) (bits (wordAt w 1) 15 0) (bits (wordAt w 2) 31 0) k s.env.now
      else s.launchFail q n check 1 2 := by
  simp only [State.effGraphLaunch, s.launchCount_asked w, h, hc]
  cases check <;> rfl

end

theorem leads_graphLoad {s v : State} {q : Nat} {w : List Word} (h : s.startsAs q 0x01 w)
    (hv : (s.entered q w).effGraphLoad q s.cfe.nextSeq w = v) : Leads (.graphLoad q w) s (v.refresh q) := leads_hwCmd h rfl hv

theorem leads_graphLaunch {s v : State} {q : Nat} {w : List Word} (h : s.startsAs q 0x02 w)
    (hv : (s.entered q w).effGraphLaunch q s.cfe.nextSeq w = v) : Leads (.graphLaunch q w) s (v.refresh q) := leads_hwCmd h rfl hv

/-- A graph that is loaded anew: the load's descriptors, from its first position on. -/
def State.newGraph (s : State) (w : List Word) : Graph :=
  { template := bit (wordAt w 3) 16, descs := (s.loadDescs w).zipIdx.map fun p => (bits (wordAt w 2) 31 0 + p.2, p.1) }

theorem State.loadedGraph_new (s : State) (w : List Word) :
    s.loadedGraph w { template := bit (wordAt w 3) 16 } = s.newGraph w := by
  simp [State.loadedGraph, State.newGraph, putDescs]

/-- Settles O36: a launch passes or fails its checks in order, its instances are created one by one, and a load ends by the first of
its checks that fails. -/
theorem graphLoadAndLaunch : Obligations.GraphLoadAndLaunch := by
  unfold Obligations.GraphLoadAndLaunch
  refine ⟨fun s c gid base count template => ?checks, fun s c gid base count l g hg hb hn => State.launch_eq hg hb hn,
    fun s c gid base num l g hd => ?created, fun s q w => ⟨fun hs => ?load, fun hs => ?launch⟩⟩
  case checks =>
    refine ⟨State.launchCheck_unknown, fun g hg => ⟨State.launchCheck_kind hg, fun hk hr => State.launchCheck_ranges hg hk hr,
      fun hk hr hf => (State.launchCheck_frames hg hk hr).trans (if_pos hf),
      fun hk hr hf => (State.launchCheck_frames hg hk hr).trans (if_neg (Nat.not_lt.2 hf))⟩⟩
  case created =>
    obtain ⟨hnext, ts, hts, hnone, hsome⟩ := s.createInst_launching c gid g base num l hd
    refine ⟨hnext, _, hts, rfl, rfl, rfl, rfl, rfl, rfl, rfl, rfl, rfl, hnone, fun j d hjd => ?_⟩
    obtain ⟨k, hk, hdesc, hcount, hst⟩ := hsome j d hjd
    exact ⟨k, hk, hdesc, hcount, hst.trans (if_congr (by simp) rfl rfl)⟩
  case load =>
    have rest {g0 : Graph} {inst : Option (Nat × Inst)} (into : (s.entered q w).loadsInto w g0 inst) {v : State}
        (hv : (s.entered q w).loadRest q s.cfe.nextSeq w ((s.entered q w).loadedGraph w g0) inst = v) :
        Leads (.graphLoad q w) s (v.refresh q) := leads_graphLoad hs ((State.effGraphLoad_into into).trans hv)
    refine ⟨fun g => ⟨_, rfl⟩, fun ha => ⟨fun hl => leads_graphLoad hs (State.effGraphLoad_live ha hl), ?_⟩,
      fun ha => ⟨fun ho => leads_graphLoad hs (State.effGraphLoad_otherGraph ha (by rw [ho]; simp)), fun o ho =>
        ⟨fun ht => leads_graphLoad hs (State.effGraphLoad_otherGraph ha (by rw [ho]; simpa using ht)), fun ht =>
          ⟨fun hd => leads_graphLoad hs (State.effGraphLoad_loaded ha ho ht hd), ?_⟩⟩⟩⟩
    · have into (hl) : (s.entered q w).loadsInto w { template := bit (wordAt w 3) 16 } none := .inl ⟨ha, hl, rfl, rfl⟩
      have new (hl) {v : State} (hv : (s.entered q w).loadRest q s.cfe.nextSeq w ((s.entered q w).newGraph w) none = v) :
          Leads (.graphLoad q w) s (v.refresh q) := rest (into hl) (by rw [State.loadedGraph_new]; exact hv)
      exact ⟨fun hl d hd => new hl (State.loadRest_bad hd), fun hl hd => ⟨fun hr hf => new hl (State.loadRest_room hd ⟨hr, hf⟩),
        fun hr => new hl (State.loadRest_full hd (State.not_loadRoom.2 hr))⟩⟩
    · have into (hd) {inst} (hi) : (s.entered q w).loadsInto w o inst := .inr ⟨ha, ho, ht, hd, hi⟩
      exact ⟨fun hd d hb => rest (into hd rfl) (State.loadRest_bad hb), fun hd hb hr => rest (into hd rfl) (State.loadRest_full hb
        (State.not_loadRoom.2 (.inl hr))), fun hd hb hr =>
          ⟨fun hi hf => rest (into hd (Ctx.extended?_none hi)) (State.loadRest_full hb (State.not_loadRoom.2 (.inr hf))),
            fun hi hf => rest (into hd (Ctx.extended?_none hi)) (State.loadRest_room hb ⟨hr, hf⟩), fun hp' p hp =>
              ⟨fun hf => rest (into hd (Ctx.extended?_some hp' hp)) (State.loadRest_full hb (State.not_loadRoom.2 (.inr hf))),
                fun hf => rest (into hd (Ctx.extended?_some hp' hp)) (State.loadRest_room hb ⟨hr, hf⟩)⟩⟩⟩
  case launch =>
    refine ⟨fun h => leads_graphLaunch hs (State.effGraphLaunch_noCount h), fun k hk => ?_⟩
    have answer {check : Nat} (hc : (s.entered q w).launchCheck (Op.ctx w) (bits (wordAt w 1) 15 0) (bit (wordAt w 1) 16)
        (bits (wordAt w 2) 31 0) k = check) := leads_graphLaunch hs (State.effGraphLaunch_count hk hc)
    exact ⟨answer, answer, answer, answer⟩

end Sys2Proof.Machine

namespace Sys2Proof.Machine

/-! ## The earliest of the banks' tops (R98) -/

theorem Key.not_lt_trans {a b c : Key} (h : a.lt b = false) (k : b.lt c = false) : a.lt c = false := by
  simp only [Key.lt, Bool.or_eq_false_iff, Bool.and_eq_false_iff, decide_eq_false_iff_not] at h k ⊢
  omega

theorem Key.lt_irrefl (a : Key) : a.lt a = false := by
  simp [Key.lt]

theorem Key.lt_asymm {a b : Key} (h : a.lt b = true) : b.lt a = false := by
  simp only [Key.lt, Bool.or_eq_true, Bool.and_eq_true, Bool.or_eq_false_iff, Bool.and_eq_false_iff, decide_eq_true_eq,
    decide_eq_false_iff_not] at h ⊢
  omega

/-- The earlier of the best entry so far and another, the best where neither is earlier. -/
def earlierTop (best : Option (Nat × Entry)) (x : Nat × Entry) : Option (Nat × Entry) := match best with
  | none => some x
  | some y => if Key.lt x.2.key y.2.key then some x else some y

/-- Neither of the two is before what is kept. -/
theorem earlierTop_least (best : Option (Nat × Entry)) (x : Nat × Entry) : ∃ z, earlierTop best x = some z ∧
    Key.lt x.2.key z.2.key = false ∧ ∀ y, best = some y → Key.lt y.2.key z.2.key = false := by
  cases best with
  | none => exact ⟨x, rfl, Key.lt_irrefl _, fun y h => by cases h⟩
  | some y =>
    by_cases h : Key.lt x.2.key y.2.key = true
    · exact ⟨x, if_pos h, Key.lt_irrefl _, fun z hz => by cases hz; exact Key.lt_asymm h⟩
    · exact ⟨y, if_neg h, Bool.eq_false_iff.2 h, fun z hz => by cases hz; exact Key.lt_irrefl _⟩

theorem foldl_earlierTop_least (l : List (Nat × Entry)) : ∀ {best : Option (Nat × Entry)} {m : Nat × Entry},
    l.foldl earlierTop best = some m → ∀ x, x ∈ l ∨ best = some x → Key.lt x.2.key m.2.key = false := by
  induction l with
  | nil =>
    intro best m h x hx
    obtain rfl : m = x := Option.some.inj (h.symm.trans (hx.resolve_left List.not_mem_nil))
    exact Key.lt_irrefl _
  | cons y r ih =>
    intro best m h x hx
    obtain ⟨z, hz, hy, hb⟩ := earlierTop_least best y
    have hzm : Key.lt z.2.key m.2.key = false := ih h z (.inr hz)
    rcases hx with hx | hx
    · rcases List.mem_cons.1 hx with rfl | hr
      · exact Key.not_lt_trans hy hzm
      · exact ih h x (.inl hr)
    · exact Key.not_lt_trans (hb x hx) hzm

/-- No bank in service has an eligible top before the one that GD_POP takes. -/
theorem State.bestTop?_least {s : State} {b : Nat} {e : Entry} (h : s.bestTop? = some (b, e)) {b' : Nat} (hb : b' ∈ s.bankList)
    (hp : s.pausedUnit 3 (s.physOf 3 b') = false) {e' : Entry} (he : (s.bank b').on.find? s.eligible = some e') :
    Key.lt e'.key e.key = false := by
  refine foldl_earlierTop_least _ h (b', e') (.inl (List.mem_filterMap.2 ⟨b', List.mem_filter.2 ⟨hb, by simp [hp]⟩, ?_⟩))
  rw [he]; rfl

/-! ## A pop and an offer (R97 to R102) -/

/-- The entry leaves its bank's on-chip part. -/
def State.popped (s : State) (b : Nat) (e : Entry) : State :=
  s.setBank b { s.bank b with on := (s.bank b).on.filter fun x => x.ref ≠ e.ref }

section
variable {s : State} (hd : s.dispatching = true) {b : Nat} {e : Entry} (hb : s.settleBanks.bestTop? = some (b, e))
include hd hb

theorem State.gdPop_kept (hp : s.settleBanks.poppable e = false) : s.gdPop = s.settleBanks := by
  simp only [State.gdPop, hd, hb, hp, Bool.not_true, Bool.false_eq_true, if_false]

theorem State.gdPop_offers (hp : s.settleBanks.poppable e = true) : s.gdPop = (s.settleBanks.popped b e).offer b e := by
  simp only [State.gdPop, hd, hb, hp, Bool.not_true, Bool.false_eq_true, if_false, if_true]
  rfl

end

/-- A change of a context that leaves its map where it is leaves what its entries say. -/
theorem State.tile_setCtx {s : State} {c : Nat} {x : Ctx} (hb : x.mapBase = (s.ctx c).mapBase) (hl : x.mapLog = (s.ctx c).mapLog) :
    (s.setCtx c x).tile = s.tile := by
  have addr (e h : Nat) : (s.setCtx c x).tileAddr e h = s.tileAddr e h := by
    by_cases he : e = c
    · subst he
      simp [State.tileAddr, hb, hl]
    · simp [State.tileAddr, State.ctx_setCtx_ne s he]
  funext e h
  unfold State.tile
  rw [addr]
  rfl

theorem State.tile_updTask (s : State) (r : TaskRef) (f : Task → Task) : (s.updTask r f).tile = s.tile := by
  unfold State.updTask State.updInst
  split
  · rfl
  · exact State.tile_setCtx rfl rfl

theorem State.inputs_updTask (s : State) (r : TaskRef) (f : Task → Task) : (s.updTask r f).inputs = s.inputs := by
  unfold State.updTask State.updInst
  split <;> rfl

theorem State.prunable_updTask (s : State) (r : TaskRef) (f : Task → Task) : (s.updTask r f).prunable = s.prunable := by
  funext c d base
  unfold State.prunable
  rw [State.tile_updTask, State.inputs_updTask]

/-- The offer with the test of its inputs made, where this is the first offer since the task started (R186). -/
def State.offered (s : State) (first : Bool) (r : TaskRef) : State :=
  if first then s.updTask r fun t => { t with tested := true } else s

theorem State.prunable_offered (s : State) (first : Bool) (r : TaskRef) : (s.offered first r).prunable = s.prunable := by
  unfold State.offered
  split
  · exact State.prunable_updTask _ _ _
  · rfl

/-- A GATE task joins its engine's input queue (R101). -/
def State.joinEngine (s : State) (b : Nat) (e : Entry) : State :=
  ((s.countWait b e).updTask e.ref fun t => { t with st := .placed }).setGe (s.gateRegion e) { s.ge (s.gateRegion e) with
    queue := insertBy (fun a b => Key.lt a.key b.key) { e with held := false } (s.ge (s.gateRegion e)).queue }

/-- A task that is neither pruned nor failed joins its engine's queue, executes or is placed, or is declined (R101, R102). -/
def State.dispatchKind (s : State) (b : Nat) (e : Entry) (d : List Word) (h w7 : Nat) : State := match Desc.kind d with
  | 2 => if s.geRoom (s.gateRegion e) then s.joinEngine b e else s.decline b e
  | 3 => if s.clusterPaused h then s.decline b e else (s.countWait b e).execControl e.ref h
  | _ => match (s.countWait b e).placeTask e h w7 with
    | some v => v
    | none => s.decline b e

section
variable {s : State} {b : Nat} {e : Entry} {d : List Word} {h w7 : Nat}

theorem State.geRoom_iff (s : State) (g : Nat) : s.geRoom g = true ↔
    (s.ge g).queue.length < 16 ∧ (2, s.seqPos g) ∉ s.fsu.leaving ∧ s.clusterPaused g = false := by
  simp [State.geRoom, State.leavingUnit, and_assoc]

theorem State.dispatchKind_gate (hd : Desc.kind d = 2) : s.dispatchKind b e d h w7 =
    if s.geRoom (s.gateRegion e) then s.joinEngine b e else s.decline b e := by
  simp only [State.dispatchKind, hd]

theorem State.dispatchKind_control (hd : Desc.kind d = 3) : s.dispatchKind b e d h w7 =
    if s.clusterPaused h then s.decline b e else (s.countWait b e).execControl e.ref h := by
  simp only [State.dispatchKind, hd]

theorem State.dispatchKind_compute (h2 : Desc.kind d ≠ 2) (h3 : Desc.kind d ≠ 3) : s.dispatchKind b e d h w7 =
    ((s.countWait b e).placeTask e h w7).getD (s.decline b e) := by
  unfold State.dispatchKind
  split
  · contradiction
  · contradiction
  · cases (s.countWait b e).placeTask e h w7 <;> rfl

end

section
variable {s : State} {b : Nat} {e : Entry} {x : Inst} {k : Task} (hx : s.inst? e.ref.ctx e.ref.inst = some x)
  (hk : s.task? e.ref = some k)

/-- The first offer of a task since it started (R186). -/
def Task.firstOffer (k : Task) (e : Entry) : Bool := decide (e.slot = 0) && !k.tested

/-- A first offer finds the task prunable, or of a shape that counts zero (R186, R87). -/
def State.offerPrunes (s : State) (e : Entry) (x : Inst) (k : Task) : Prop :=
  k.firstOffer e = true ∧ (s.prunable e.ref.ctx k.desc x.base = true ∨
    Desc.shapeDyn k.desc = true ∧ (s.shape? e.ref.ctx (Desc.shapeSlot k.desc)).map Shape.count = some 0)

theorem State.offerPrunes_iff (s : State) (e : Entry) (x : Inst) (k : Task) : s.offerPrunes e x k ↔
    (k.firstOffer e && ((s.offered (k.firstOffer e) e.ref).prunable e.ref.ctx k.desc x.base || (Desc.shapeDyn k.desc &&
      decide ((s.shape? e.ref.ctx (Desc.shapeSlot k.desc)).map Shape.count = some 0)))) = true := by
  simp [State.offerPrunes, State.prunable_offered]

include hx hk

theorem State.offer_pruned (h : s.offerPrunes e x k) :
    s.offer b e = ((s.offered (k.firstOffer e) e.ref).countWait b e).retireTask e.ref .pruned (some (s.homeOf e)) none := by
  unfold State.offer
  simp only [hx, hk]
  exact if_pos ((s.offerPrunes_iff e x k).1 h)

variable (h : ¬ s.offerPrunes e x k)
include h

theorem State.offer_noShape (hd : Desc.shapeDyn k.desc = true) (hs : s.shape? e.ref.ctx (Desc.shapeSlot k.desc) = none) :
    s.offer b e = ((s.offered (k.firstOffer e) e.ref).countWait b e).retireTask e.ref .failed (some (s.homeOf e)) none := by
  unfold State.offer
  simp only [hx, hk]
  exact (if_neg ((s.offerPrunes_iff e x k).not.1 h)).trans (if_pos (by simp [hd, hs]))

/-- Past its tests, a task is dispatched by its kind, a SHAPE_DYN one with its slot's shape (R101, R87). -/
theorem State.offer_shaped (hs : Desc.shapeDyn k.desc = false ∨ s.shape? e.ref.ctx (Desc.shapeSlot k.desc) ≠ none) :
    s.offer b e = (s.offered (k.firstOffer e) e.ref).dispatchKind b e k.desc (s.homeOf e) (if Desc.shapeDyn k.desc then
      ((s.shape? e.ref.ctx (Desc.shapeSlot k.desc)).getD {}).w7.toNat else (wordAt k.desc 7).toNat) := by
  unfold State.offer
  simp only [hx, hk]
  refine (if_neg ((s.offerPrunes_iff e x k).not.1 h)).trans ((if_neg fun hn => ?_).trans rfl)
  obtain ⟨hd, hn⟩ := Bool.and_eq_true_iff.1 hn
  exact hs.elim (fun h0 => by simp [h0] at hd) fun h0 => h0 (Option.isNone_iff_eq_none.1 hn)

end

/-! ## CONTROL operations (R80, R81) -/

theorem State.deviceLaunch_refused {s : State} {c gid base : Nat} {count : Option Nat} (owner : Option (Nat × Nat)) (at_ : Nat)
    (hc : count = none ∨ ∃ n, count = some n ∧ s.launchCheck c gid true base n ≠ 0) :
    s.deviceLaunch c gid base count owner at_ = (false, 0, s) := by
  obtain rfl | ⟨n, rfl, hn⟩ := hc
  · rfl
  · exact if_pos hn

theorem State.deviceLaunch_passes {s : State} {c gid base n : Nat} (owner : Option (Nat × Nat)) (at_ : Nat)
    (hc : s.launchCheck c gid true base n = 0) : s.deviceLaunch c gid base (some n) owner at_ =
      (true, s.launch c gid base n { owner := owner, step := s.rootStep c owner, at_ := at_ }) :=
  if_neg (not_not.2 hc)

section
variable {s : State} {r : TaskRef} {h : Nat} {x : Inst} {k : Task} (hx : s.inst? r.ctx r.inst = some x) (hk : s.task? r = some k)

/-- Word `i` of the operands of a CONTROL task. -/
def State.ctlWord (s : State) (k : Task) (i : Nat) : Word := wordAt (s.rdWords false (Desc.operands k.desc) 8) i

/-- A base that operand `i` gives, relative to the instance's where it says so. -/
def State.ctlBase (s : State) (k : Task) (x : Inst) (i b : Nat) : Nat :=
  if bit (s.ctlWord k i) 17 then (x.base + b) % 2 ^ 32 else b

/-- A CONTROL task whose operation fails: a failed part of its root command (R81, Table 2.14). -/
def State.ctlFailed (s : State) (r : TaskRef) (x : Inst) (h : Nat) : State :=
  (s.failPart x.owner h).retireTask r .failed (some h) none

/-- What a POST puts on the delay list. -/
def State.ctlDelay (s : State) (r : TaskRef) (x : Inst) (k : Task) (h : Nat) : Delay :=
  { wake := if bit (s.ctlWord k 1) 63 then bits (s.ctlWord k 1) 62 0 else s.env.now + bits (s.ctlWord k 1) 62 0
    act := if bit (s.ctlWord k 2) 0 then
        .launch (bits (s.ctlWord k 3) 15 0) (s.ctlBase k x 3 (bits (s.ctlWord k 4) 31 0)) (bits (s.ctlWord k 5) 31 0)
          (if bit (s.ctlWord k 3) 16 then some (bits (s.ctlWord k 5) 31 0) else none)
      else .signal (bits (s.ctlWord k 3) 23 0) (bits (s.ctlWord k 3) 55 24)
    owner := x.owner, inst := r.inst, cluster := h, eff := effIdx x r.idx }

/-- The count that a LAUNCH asks for. -/
def State.ctlCount (s : State) (r : TaskRef) (k : Task) : Option Nat :=
  if bit (s.ctlWord k 1) 16 then (s.shape? r.ctx (bits (s.ctlWord k 3) 31 0)).map Shape.count else some (bits (s.ctlWord k 3) 31 0)

include hx hk

theorem State.execControl_ends (h0 : bits (s.ctlWord k 0) 7 0 = 0) : s.execControl r h = s.retireTask r .normal (some h) none := by
  unfold State.ctlWord at h0
  simp only [State.execControl, hx, hk, h0]

section
variable (h1 : bits (s.ctlWord k 0) 7 0 = 1)
include h1

theorem State.execControl_outside (hv : s.idLimit r.ctx ≤ bits (s.ctlWord k 1) 23 0) :
    s.execControl r h = s.push [.faultCtx r.ctx 0x04 (bits (s.ctlWord k 1) 23 0) 1 (effIdx x r.idx)] := by
  unfold State.ctlWord at h1
  simp only [State.execControl, hx, hk, h1]
  exact if_pos hv

theorem State.execControl_waits (hv : bits (s.ctlWord k 1) 23 0 < s.idLimit r.ctx) : s.execControl r h =
    ((s.updTask r fun t => { t with st := .ctlWait }).push [.waitCtl r h (bits (s.ctlWord k 1) 23 0)
      (((s.ctlWord k 2).toNat + x.num * (s.ctlWord k 3).toNat) % 2 ^ 64)]).testPlace r.ctx := by
  unfold State.ctlWord at h1
  simp only [State.execControl, hx, hk, h1]
  exact if_neg (Nat.not_le.2 hv)

end

section
variable (h2 : bits (s.ctlWord k 0) 7 0 = 2)
include h2

theorem State.execControl_launchRefused (hc : s.ctlCount r k = none ∨ ∃ n, s.ctlCount r k = some n ∧
    s.launchCheck r.ctx (bits (s.ctlWord k 1) 15 0) true (s.ctlBase k x 1 (bits (s.ctlWord k 2) 31 0)) n ≠ 0) :
    s.execControl r h = s.ctlFailed r x h := by
  have refused := State.deviceLaunch_refused x.owner s.env.now hc
  unfold State.ctlCount State.ctlBase State.ctlWord at refused
  unfold State.ctlWord at h2
  simp only [State.execControl, hx, hk, h2, State.launchCount, refused]
  rfl

theorem State.execControl_launches {n : Nat} (hn : s.ctlCount r k = some n)
    (hc : s.launchCheck r.ctx (bits (s.ctlWord k 1) 15 0) true (s.ctlBase k x 1 (bits (s.ctlWord k 2) 31 0)) n = 0) :
    s.execControl r h = (s.launch r.ctx (bits (s.ctlWord k 1) 15 0) (s.ctlBase k x 1 (bits (s.ctlWord k 2) 31 0)) n
      { owner := x.owner, step := s.rootStep r.ctx x.owner, at_ := s.env.now }).2.retireTask r .normal (some h) none := by
  have passes := State.deviceLaunch_passes x.owner s.env.now hc
  rw [← hn] at passes
  unfold State.ctlCount State.ctlBase State.ctlWord at passes
  unfold State.ctlWord at h2
  simp only [State.execControl, hx, hk, h2, State.launchCount, passes]
  rfl

end

theorem State.execControl_posts (h3 : bits (s.ctlWord k 0) 7 0 = 3) : s.execControl r h =
    ((s.postAction r.ctx (s.ctlDelay r x k h)).map fun y => y.retireTask r .normal (some h) none).getD (s.ctlFailed r x h) := by
  have same : s.execControl r h = match s.postAction r.ctx (s.ctlDelay r x k h) with
      | some y => y.retireTask r .normal (some h) none
      | none => s.ctlFailed r x h := by
    unfold State.ctlWord at h3
    simp only [State.execControl, hx, hk, h3]
    rfl
  rw [same]
  cases s.postAction r.ctx (s.ctlDelay r x k h) <;> rfl

theorem State.execControl_undefined (h4 : 3 < bits (s.ctlWord k 0) 7 0) : s.execControl r h = s.ctlFailed r x h := by
  obtain ⟨m, hm⟩ : ∃ m, bits (s.ctlWord k 0) 7 0 = m + 4 := ⟨_, (Nat.sub_add_cancel h4).symm⟩
  unfold State.ctlWord at hm
  simp only [State.execControl, hx, hk, hm]
  rfl

end


/-! ## Speculative offers (R196, R197) -/

/-- An idle cluster with no other work stages its first eligible candidate on its first idle core. -/
theorem State.specOffer_stages {s y : State} {n c : Nat} {e : Entry} (hd : s.dispatching = true) (hn : s.present n = true)
    (hi : s.clusterIdle n = true) (hw : s.workFor n = false) (hh : (s.cluster n).hold.length < 16)
    (he : ((s.cluster n).cands.find? fun e => s.specEligible e.ref && !s.slotsFull e.ref.ctx) = some e)
    (hc : (s.coresOf n).find? s.coreIdle = some c) (hy : s.stageSpec n c e = some y) :
    s.specOffer n = y.dropCands fun x => x.ref = e.ref := by
  have room : decide (16 ≤ (s.cluster n).hold.length) = false := decide_eq_false (Nat.not_le.2 hh)
  simp only [State.specOffer, hd, hn, hi, hw, room, he, hc, hy, Bool.not_true, Bool.or_self, Bool.false_eq_true, if_false]

/-- Settles O50: GD_POP takes the least of the tops, the offer follows the tests in order, an idle cluster stages its first
candidate, and a CONTROL task does what its operation says. -/
theorem tasksAreDispatched : Obligations.TasksAreDispatched := by
  unfold Obligations.TasksAreDispatched
  intro s n t u v
  refine ⟨fun hd => ⟨fun b e hb => ⟨fun b' hb' hp e' he' => State.bestTop?_least hb hb' hp he', fun hp => ?offer,
    fun hp => leads_eq rfl (State.gdPop_kept hd hb hp)⟩, fun e c y hn hi hw hh he hc hy => ?stage⟩, fun r h x k hx hk => ?control⟩
  case offer =>
    intro p r x k hx hk d h first o z dyn shape pruned
    have offers {w : State} (hw : p.offer b e = w) : Leads (.gdPop t) s w := leads_eq rfl ((State.gdPop_offers hd hb hp).trans hw)
    refine ⟨fun hpr => offers (State.offer_pruned hx hk hpr), fun hpr hd hs => offers (State.offer_noShape hx hk hpr hd hs),
      fun hpr hs => ?_⟩
    intro g paused l w7 room
    have shaped {w : State} (hw : o.dispatchKind b e d h w7 = w) : Leads (.gdPop t) s w :=
      offers ((State.offer_shaped hx hk hpr hs).trans hw)
    have hroom : o.geRoom g = true ↔ room := o.geRoom_iff g
    refine ⟨fun h2 hr => shaped ((State.dispatchKind_gate h2).trans (if_pos (hroom.2 hr))),
      fun h2 hr => shaped ((State.dispatchKind_gate h2).trans (if_neg (hroom.not.2 hr))),
      fun h3 hq => shaped ((State.dispatchKind_control h3).trans (if_neg (Bool.eq_false_iff.1 hq))),
      fun h3 hq => shaped ((State.dispatchKind_control h3).trans (if_pos hq)), fun h2 h3 => ?_⟩
    have placed {m : Option State} (hm : z.placeTask e h w7 = m) :=
      shaped ((State.dispatchKind_compute h2 h3).trans (congrArg (fun m => Option.getD m (o.decline b e)) hm))
    exact ⟨fun y hy => placed hy, fun hn => placed hn⟩
  case stage => exact leads_eq rfl (State.specOffer_stages hd hn hi hw hh he hc hy)
  case control =>
    refine ⟨State.execControl_ends hx hk, State.execControl_outside hx hk, State.execControl_waits hx hk, fun h2 =>
      ⟨State.execControl_launchRefused hx hk h2, fun n => State.execControl_launches hx hk h2⟩, fun h3 => ?_,
      State.execControl_undefined hx hk⟩
    have posts {m : Option State} (hm : s.postAction r.ctx (s.ctlDelay r x k h) = m) :=
      (State.execControl_posts hx hk h3).trans (congrArg (fun m : Option State =>
        (m.map fun y => y.retireTask r .normal (some h) none).getD (s.ctlFailed r x h)) hm)
    exact ⟨fun hn => posts hn, fun y hy => posts hy⟩

end Sys2Proof.Machine

namespace Sys2Proof.Machine

/-! ## What staging leaves: the ports, and the cores' tasks and counters (R110, R136) -/

/-- A core's running task and its core counters. -/
def State.coreRun (s : State) (d : Nat) : Option Running × List (Nat × Nat) × List (Nat × Nat) :=
  ((s.core d).running, (s.core d).cc, (s.core d).ccWaits)

/-- What has crossed the core ports, and every core's running task and counters. -/
def State.portView (s : State) : List (Nat × PortOut) × (Nat → Option Running × List (Nat × Nat) × List (Nat × Nat)) :=
  (s.out.port, s.coreRun)

theorem State.portView_same {s t : State} (ho : t.out.port = s.out.port) (hc : t.csq.cores = s.csq.cores) : t.portView = s.portView := by
  have run (d : Nat) : t.coreRun d = s.coreRun d := by
    unfold State.coreRun State.core
    rw [hc]
  exact Prod.ext ho (funext run)

theorem State.coreRun_updCore {s : State} {c : Nat} {f : Core → Core} (hr : (f (s.core c)).running = (s.core c).running)
    (hc : (f (s.core c)).cc = (s.core c).cc) (hw : (f (s.core c)).ccWaits = (s.core c).ccWaits) :
    (s.updCore c f).coreRun = s.coreRun := by
  funext d
  by_cases h : d = c
  · subst h
    simp [State.coreRun, hr, hc, hw]
  · simp [State.coreRun, State.core_updCore_ne h]

theorem State.portView_updCore {s : State} {c : Nat} {f : Core → Core} (hr : (f (s.core c)).running = (s.core c).running)
    (hc : (f (s.core c)).cc = (s.core c).cc) (hw : (f (s.core c)).ccWaits = (s.core c).ccWaits) :
    (s.updCore c f).portView = s.portView :=
  Prod.ext rfl (State.coreRun_updCore hr hc hw)

theorem State.ite_portView {p : Prop} [Decidable p] {a b s : State} (ha : a.portView = s.portView)
    (hb : b.portView = s.portView) : (if p then a else b).portView = s.portView := by
  split <;> assumption

theorem foldl_portView {α : Type} {f : State → α → State} (h : ∀ s x, (f s x).portView = s.portView) (l : List α) (s : State) :
    (l.foldl f s).portView = s.portView :=
  List.foldlRecOn (motive := fun (v : State) => v.portView = s.portView) l f rfl fun v hv x _ => (h v x).trans hv

section
variable (s : State)

@[simp] theorem State.wr64_portView (a : Nat) (w : Word) : (s.wr64 a w).portView = s.portView :=
  State.portView_same (by simp) (by simp)

@[simp] theorem State.wrWords_portView (host : Bool) (a : Nat) (l : List Word) : (s.wrWords host a l).portView = s.portView :=
  State.portView_same (by simp) (by simp)

@[simp] theorem State.irq_portView (i : Nat) : (s.irq i).portView = s.portView :=
  State.ite_portView rfl (State.ite_portView rfl rfl)

@[simp] theorem State.ibi_portView (cause : Nat) : (s.ibi cause).portView = s.portView :=
  State.ite_portView rfl (State.ite_portView rfl rfl)

@[simp] theorem State.errRing_portView (l : List Word) : (s.errRing l).portView = s.portView := by
  unfold State.errRing
  refine State.ite_portView rfl (State.ite_portView ?_ ?_)
  · exact State.ite_portView rfl (State.irq_portView _ _)
  · have written (f : Fsu) : ({ s.wrWords s.fsu.errHost (s.fsu.errBase * 4096 + 64 * (s.fsu.errTail.toNat % s.errCap)) l with
        fsu := f } : State).portView = s.portView := State.wrWords_portView _ _ _ _
    refine State.ite_portView ?_ (written _)
    rw [State.ibi_portView, State.irq_portView]
    exact written _

@[simp] theorem State.stageErr_portView (e : Err) (l : List Word) : (s.stageErr e l).portView = s.portView :=
  State.portView_same (by simp) (by simp)

@[simp] theorem State.err_portView (e : Err) : (s.err e).portView = s.portView := by
  unfold State.err
  dsimp only
  generalize e.words s.env.now s.fsu.number = l
  obtain ⟨v, hv⟩ : ∃ v, ({ s with fsu := { s.fsu with number := s.fsu.number + 1 } } : State).errRing l = v := ⟨_, rfl⟩
  have ringed : v.portView = s.portView := hv ▸ State.errRing_portView _ _
  rw [hv]
  have raised : (if 2 ≤ e.cls then (v.stageErr e l).irq 0 else v.stageErr e l).portView = s.portView :=
    State.ite_portView (by simp [ringed]) (by simp [ringed])
  exact State.ite_portView raised raised

@[simp] theorem State.queueMsix_portView (q : Nat) : (s.queueMsix q).portView = s.portView :=
  State.ite_portView rfl rfl

@[simp] theorem State.traceWrite_portView (c w0 gid num : Nat) : (s.traceWrite c w0 gid num).portView = s.portView := by
  unfold State.traceWrite
  dsimp only
  repeat' split
  all_goals simp

@[simp] theorem State.trace_portView (r : TaskRef) (event : Nat) (cluster core : Option Nat) (cause : Nat) :
    (s.trace r event cluster core cause).portView = s.portView := by
  unfold State.trace
  split
  · split
    · cases cluster <;> cases core <;> exact State.traceWrite_portView _ _ _ _ _
    · rfl
  · rfl

@[simp] theorem State.dcRead_portView (l : Nat) : (s.dcRead l).portView = s.portView := by
  unfold State.dcRead
  split
  · rfl
  · exact State.ite_portView rfl rfl

@[simp] theorem State.descRead_portView (r : TaskRef) : (s.descRead r).portView = s.portView := by
  unfold State.descRead
  split
  · split <;> simp
  · rfl

@[simp] theorem State.updTask_portView (r : TaskRef) (f : Task → Task) : (s.updTask r f).portView = s.portView := by
  unfold State.updTask State.updInst
  split <;> rfl

@[simp] theorem State.setTile_portView (c h : Nat) (x : Tile) : (s.setTile c h x).portView = s.portView := by
  simp [State.setTile]

@[simp] theorem State.returnGranule_portView (c : Nat) (g : Nat × Nat) : (s.returnGranule c g).portView = s.portView := by
  unfold State.returnGranule
  exact State.ite_portView rfl (State.ite_portView rfl (State.ite_portView rfl rfl))

theorem State.allocGranule_portView {c : Nat} {order : List Nat} {g : Nat × Nat} {v : State}
    (h : s.allocGranule c order = some (g, v)) : v.portView = s.portView := by
  unfold State.allocGranule at h
  split at h
  · cases h
  · dsimp only at h
    split at h <;> cases h
    rfl

/-- The granule that an output's entry still holds returns before another is taken. -/
def State.outputFreed (s : State) (c h : Nat) : State := match s.heldGranule (s.tile c h) with
  | some g => (s.setTile c h { s.tile c h with valid := false }).returnGranule c g
  | none => s

@[simp] theorem State.outputFreed_portView (c h : Nat) : (s.outputFreed c h).portView = s.portView := by
  unfold State.outputFreed
  split <;> simp

theorem State.allocOutput_eq (c h : Nat) (order : List Nat) : s.allocOutput c h order =
    if (s.tile c h).valid && !(s.tile c h).pooled then (some none, s)
    else match (s.outputFreed c h).allocGranule c order with
      | none => (none, s.outputFreed c h)
      | some (g, v) => (some (some g), v.setTile c h ⟨true, true, true, g.1, v.granAddr g.1 g.2, ((s.tile c h).version + 1) % 2 ^ 32,
          32768⟩) := rfl

@[simp] theorem State.allocOutput_portView (c h : Nat) (order : List Nat) : (s.allocOutput c h order).2.portView = s.portView := by
  rw [State.allocOutput_eq, apply_ite Prod.snd]
  refine State.ite_portView rfl ?_
  split
  · exact s.outputFreed_portView c h
  · next heq =>
    dsimp only
    rw [State.setTile_portView]
    exact (State.allocGranule_portView _ heq).trans (s.outputFreed_portView c h)

theorem State.allocAll_portView (r : TaskRef) (order : List Nat) (l : List Nat) : ∀ s : State,
    (s.allocAll r order l).2.portView = s.portView := by
  induction l with
  | nil => intro s; rfl
  | cons h rest ih =>
    intro s
    have out := s.allocOutput_portView r.ctx h order
    unfold State.allocAll
    dsimp only
    rw [apply_ite Prod.snd]
    refine State.ite_portView (ih s) ?_
    split
    · next heq => rw [heq] at out; exact out
    · next heq => rw [heq] at out; exact (ih _).trans out
    · next heq => rw [heq] at out; exact (ih _).trans ((State.updTask_portView _ _ _).trans out)

@[simp] theorem State.relayRoom_portView : s.relayRoom.portView = s.portView := rfl

@[simp] theorem State.stray_portView (f : Nat → Nat → Bool) : (s.stray f).portView = s.portView := by
  unfold State.stray
  rw [State.relayRoom_portView]
  change (List.foldl _ s s.rly.chans).portView = s.portView
  refine foldl_portView ?_ _ _
  intro v p
  rfl

theorem State.refill_portView (ch n : Nat) : ∀ s : State, (s.refill ch n).portView = s.portView := by
  induction n with
  | zero => intro s; rfl
  | succ n ih =>
    intro s
    unfold State.refill
    refine State.ite_portView rfl ?_
    split
    · rfl
    · split
      · rfl
      · exact (ih _).trans rfl

@[simp] theorem State.refillAll_portView : s.refillAll.portView = s.portView :=
  foldl_portView (fun v _ => State.refill_portView _ _ v) _ _

end


/-! ## Staging (R110, R276) -/

/-- From `s` to `t` every core keeps its running task and its counters, and the ports carry beats of core `c`'s saddle alone. -/
def State.stagesOn (c : Nat) (s t : State) : Prop :=
  t.coreRun = s.coreRun ∧ ∃ l, t.out.port = s.out.port ++ l ∧ ∀ o ∈ l, ∃ n w, o = (c, .stage n w)

theorem State.stagesOn_view {c : Nat} {s t u : State} (h : State.stagesOn c s t) (hs : s.portView = u.portView) :
    State.stagesOn c u t := by
  have run : s.coreRun = u.coreRun := congrArg Prod.snd hs
  have port : s.out.port = u.out.port := congrArg Prod.fst hs
  obtain ⟨hr, l, hl, ho⟩ := h
  exact ⟨hr.trans run, l, by rw [hl, port], ho⟩

theorem State.stagesOn_same {c : Nat} {s t : State} (h : t.portView = s.portView) : State.stagesOn c s t :=
  ⟨congrArg Prod.snd h, [], by rw [List.append_nil]; exact congrArg Prod.fst h, by simp⟩

theorem State.stagesOn_kept {c : Nat} {s t u : State} (h : State.stagesOn c s t) (hu : u.portView = t.portView) :
    State.stagesOn c s u := by
  obtain ⟨hr, l, hl, ho⟩ := h
  exact ⟨(congrArg Prod.snd hu).trans hr, l, (congrArg Prod.fst hu).trans hl, ho⟩

theorem State.coreRun_xferOpen (s : State) (c ch : Nat) : (s.xferOpen c ch).coreRun = s.coreRun := by
  unfold State.xferOpen
  refine State.coreRun_updCore ?_ ?_ ?_ <;> split <;> rfl

/-- Transfers on a core's port leave every core's running task and counters. -/
theorem State.coreRun_toPort (s : State) (c : Nat) (l : List PortOut) : (s.toPort c l).coreRun = s.coreRun := by
  unfold State.toPort
  exact List.foldlRecOn (motive := fun (v : State) => v.coreRun = s.coreRun) l _ rfl
    fun v hv x _ => (v.coreRun_xferOpen c x.channel).trans hv

/-- The beats of a saddle cross its port. -/
theorem State.loadSaddle_stages (s : State) (c : Nat) (p : Placed) (x : Inst) (d ins outs : List Word) :
    State.stagesOn c s (s.loadSaddle c p x d ins outs) := by
  unfold State.loadSaddle
  dsimp only
  generalize hp : ({ p with
    staged := true, stall := none, desc := (List.range 16).map fun i => if i = 7 then p.w7 else wordAt d i,
    oper := s.rdWords false (Desc.operands d) 32, inB := ins, outB := outs,
    base := wd (fld x.num 32 32 + fld x.base 32 0) } : Placed) = p'
  refine ⟨(State.coreRun_toPort _ _ _).trans (State.coreRun_updCore rfl rfl rfl), _, State.toPort_out _ _ _, fun o ho => ?_⟩
  obtain ⟨b, hb, rfl⟩ := List.mem_map.1 ho
  obtain ⟨n, -, rfl⟩ := List.mem_map.1 hb
  exact ⟨_, _, rfl⟩

theorem State.stageSaddle_stages (s : State) (c : Nat) : State.stagesOn c s (s.stageSaddle c) := by
  have read (r : TaskRef) {t : State} (h : State.stagesOn c (s.descRead r) t) : State.stagesOn c s t :=
    State.stagesOn_view h (s.descRead_portView r)
  have alloc (r : TaskRef) (order l : List Nat) : ((s.descRead r).allocAll r order l).2.portView = s.portView :=
    (State.allocAll_portView _ _ _ _).trans (s.descRead_portView r)
  unfold State.stageSaddle
  split
  · exact State.stagesOn_same rfl
  · dsimp only
    split
    · split
      · exact read _ (State.loadSaddle_stages _ _ _ _ _ _ _)
      · split
        · exact State.stagesOn_view (State.loadSaddle_stages _ _ _ _ _ _ _) (alloc _ _ _)
        · refine State.stagesOn_same ?_
          refine (State.portView_updCore rfl rfl rfl).trans ((State.updTask_portView _ _ _).trans ?_)
          exact State.ite_portView (alloc _ _ _) (alloc _ _ _)
    · exact read _ (State.stagesOn_same rfl)

theorem State.enterSaddle_stages (s : State) (c : Nat) (p : Placed) : State.stagesOn c s (s.enterSaddle c p) := by
  unfold State.enterSaddle
  refine State.stagesOn_view (State.stageSaddle_stages _ _) ?_
  exact (State.portView_updCore rfl rfl rfl).trans (State.updTask_portView _ _ _)

theorem State.fillSaddle_stages (s : State) (c : Nat) : State.stagesOn c s (s.fillSaddle c) := by
  unfold State.fillSaddle
  split
  · exact State.stagesOn_same rfl
  · dsimp only
    split
    · exact State.stagesOn_same rfl
    · split
      · exact State.stagesOn_same rfl
      · exact State.stagesOn_view (State.enterSaddle_stages _ _ _) (State.portView_updCore rfl rfl rfl)


/-! ## SPUR (R110, R136, R175) -/

/-- The task as it runs on its core from now on. -/
def State.spurRun (s : State) (p : Placed) : Running :=
  { p := { p with spec := p.spec.map fun z => { z with spurAt := s.env.now } }, spurAt := s.env.now,
    budget := s.budgetNs (s.descOf p.e), resume := decide (p.e.slot ≠ 0) }

/-- What the core takes with its task: nothing, or the slot's address for a resumed one. -/
def State.spurMark (s : State) (p : Placed) : Option Nat :=
  if p.e.slot ≠ 0 then some (s.slotAddr p.e.ref.ctx p.rslot) else none

/-- The core counters that the core begins with: those of the saved state for a resumed task (R136). -/
def State.spurCounters (s : State) (p : Placed) : List (Nat × Nat) :=
  if p.e.slot ≠ 0 then (AL.get (s.ctx p.e.ref.ctx).slots p.rslot).cc else []

/-- The SPUR has crossed the port, and the core runs the task. -/
def State.spurred (s : State) (c : Nat) (p : Placed) : State :=
  let sent := ((s.updTask p.e.ref fun t => { t with tested := false, ran := true }).xferClose c [1, 3, 6]).toPort c
    [.spur (s.spurMark p)]
  sent.updCore c fun k =>
    { k with saddle := none, running := some (s.spurRun p), cc := s.spurCounters p, ccWaits := [], loadAt := sent.env.now }

theorem State.spurred_coreRun (s : State) (c : Nat) (p : Placed) : (s.spurred c p).coreRun c =
    (some (s.spurRun p), s.spurCounters p, []) := by
  simp [State.coreRun, State.spurred]

theorem State.spurred_port (s : State) (c : Nat) (p : Placed) :
    (s.spurred c p).out.port = s.out.port ++ [(c, .spur (s.spurMark p))] := by
  refine (State.toPort_out _ _ _).trans (congrArg (· ++ [(c, PortOut.spur (s.spurMark p))]) ?_)
  exact congrArg Prod.fst (State.updTask_portView s p.e.ref _)

/-- Then stray Relay messages go, the task holds its slot, and its start is traced and counted (R263, R176, Table 3.6). -/
def State.spurNoted (s v : State) (c : Nat) (p : Placed) : State :=
  let noted := ((v.stray fun k x => decide (k = c) && decide (x ≠ p.e.ref.ctx)).updCtx p.e.ref.ctx fun x => { x with
    slots := AL.put p.rslot { AL.get (s.ctx p.e.ref.ctx).slots p.rslot with ref := p.e.ref, saved := false } x.slots }).trace p.e.ref
      (if p.spec.isSome then 7 else 2) (some (c / 8)) (some (c % 8))
  if p.spec.isSome then { noted with stat := { noted.stat with specIssued := noted.stat.specIssued + 1 } } else noted

theorem State.spurNoted_portView (s v : State) (c : Nat) (p : Placed) : (s.spurNoted v c p).portView = v.portView := by
  have noted (f : Nat → Nat → Bool) (g : Ctx → Ctx) (ev : Nat) : (((v.stray f).updCtx p.e.ref.ctx g).trace p.e.ref ev
      (some (c / 8)) (some (c % 8))).portView = v.portView :=
    (State.trace_portView _ _ _ _ _ _).trans (State.stray_portView v f)
  unfold State.spurNoted
  exact State.ite_portView (noted _ _ _) (noted _ _ _)

theorem State.spurCore_eq {s : State} {c : Nat} {p : Placed} (hp : (s.core c).saddle = some p) (hr : (s.core c).running = none)
    (hs : p.staged = true) (hg : s.gcs.changing = false) (hc : (s.coresOf (c / 8)).contains c = true) :
    s.spurCore c = (s.spurNoted (s.spurred c p) c p).fillSaddle c := by
  unfold State.spurCore
  simp only [hp, hr]
  exact (if_neg (by rw [hs, hg, hc]; decide)).trans rfl

/-- What follows the SPUR puts on the ports only the beats of the task that the saddle takes next, and changes no core's task. -/
theorem State.spur_stages (s v : State) (c : Nat) (p : Placed) :
    State.stagesOn c v ((s.spurNoted v c p).fillSaddle c).refillAll :=
  State.stagesOn_kept (State.stagesOn_view (State.fillSaddle_stages _ _) (s.spurNoted_portView v c p)) (State.refillAll_portView _)


/-! ## Descriptor fills (R91) -/

theorem lowestFree_lt {n m : Nat} {l : List Nat} (h : lowestFree n l = some m) : m < n :=
  List.mem_range.1 (List.mem_of_find?_eq_some h)

theorem plruVictim_lt (b : Nat) : plruVictim b < 16 := by
  unfold plruVictim
  dsimp only
  have digit (i : Nat) : (b >>> i) % 2 < 2 := Nat.mod_lt _ (by decide)
  have d1 := digit 1
  have d2 := digit (2 + (b >>> 1) % 2)
  have d3 := digit (2 * (2 + (b >>> 1) % 2) + (b >>> (2 + (b >>> 1) % 2)) % 2)
  have d4 := digit (2 * (2 * (2 + (b >>> 1) % 2) + (b >>> (2 + (b >>> 1) % 2)) % 2) +
    (b >>> (2 * (2 + (b >>> 1) % 2) + (b >>> (2 + (b >>> 1) % 2)) % 2)) % 2)
  omega

/-- The way of its set that a filled line takes: the lowest free one, or the one that replacement points to. -/
def State.fillWay (s : State) (l : Nat) : Nat :=
  (lowestFree 16 ((s.dcache.lines.filter fun p => p.1.1 = s.dcSet l).map fun p => p.1.2)).getD
    (plruVictim (AL.get s.dcache.plru (s.dcSet l)))

theorem State.fillWay_lt (s : State) (l : Nat) : s.fillWay l < 16 := by
  unfold State.fillWay
  cases h : lowestFree 16 ((s.dcache.lines.filter fun p => p.1.1 = s.dcSet l).map fun p => p.1.2) with
  | none => exact plruVictim_lt _
  | some w => exact lowestFree_lt h

/-- The line's place and its lane are all that a fill changes, but for the replacement bits. -/
theorem State.dcFill_eq {s : State} {lane l : Nat} {r : List Nat} (h : AL.get s.dcache.lanes lane = l :: r) : s.dcFill lane =
    { s with dcache := { s.dcache with
      lanes := AL.put lane r s.dcache.lanes, lines := AL.put (s.dcSet l, s.fillWay l) l s.dcache.lines,
      plru := AL.upd s.dcache.plru (s.dcSet l) fun b => plruUse b (s.fillWay l) } } := by
  simp only [State.dcFill, h]
  rfl

theorem exec_descFill {s : State} {lane l : Nat} {r : List Nat} (hw : s.work = []) (h : AL.get s.dcache.lanes lane = l :: r) :
    exec (.descFill lane) s = .next (s.dcFill lane) :=
  congrArg Host.Outcome.next (settle_nil (by rw [State.dcFill_eq h]; exact hw))

/-! ## Speculation resolved, confirmed, refuted (R193, R199, R201, R202) -/

section
variable {s : State} {r : TaskRef} {k : Task} {sp : Spec}

/-- The event's statistic, by the cause of a refute (R205). -/
def Stat.refuted (t : Stat) (cause : Nat) : Stat :=
  if cause = 1 then { t with specMismatch := t.specMismatch + 1 }
  else if cause = 2 then { t with specGate := t.specGate + 1 }
  else if cause = 3 then { t with specAccess := t.specAccess + 1 }
  else { t with specAbandon := t.specAbandon + 1 }

/-- The speculation is dropped, its refute traced and counted; the task waits again. -/
def State.refutedBack (s : State) (r : TaskRef) (cause : Nat) : State :=
  let m := (s.dropSpec r).trace r 9 ((s.specAt? r).map Prod.fst) ((s.specAt? r).map Prod.snd) cause
  State.updTask { m with stat := m.stat.refuted cause } r fun t => { t with st := .waiting, stamped := decide (t.count = 0) }

section
variable (hs : s.spec? r = some sp) (hk : s.task? r = some k)
include hs hk

theorem State.refute_eq (cause : Nat) : s.refute r cause =
    if k.count = 0 ∧ k.skip = true then (s.refutedBack r cause).push [.retire r .pruned]
    else (if k.count = 0 then (s.refutedBack r cause).becomeReady r else s.refutedBack r cause).testPlace r.ctx := by
  simp only [State.refute, hs, hk]
  unfold State.refutedBack Stat.refuted
  match cause with
  | 0 | 1 | 2 | 3 | _ + 4 => rfl

theorem State.refute_pruned (h0 : k.count = 0) (h : k.skip = true) (cause : Nat) :
    s.refute r cause = (s.refutedBack r cause).push [.retire r .pruned] :=
  (State.refute_eq hs hk cause).trans (if_pos ⟨h0, h⟩)

theorem State.refute_ready (h0 : k.count = 0) (h : k.skip = false) (cause : Nat) :
    s.refute r cause = ((s.refutedBack r cause).becomeReady r).testPlace r.ctx := by
  rw [State.refute_eq hs hk, if_neg (by simp [h]), if_pos h0]

theorem State.refute_waits (h0 : k.count ≠ 0) (cause : Nat) : s.refute r cause = (s.refutedBack r cause).testPlace r.ctx := by
  rw [State.refute_eq hs hk, if_neg fun h => h0 h.1, if_neg h0]

end

/-- The gate decided as the speculative task has assumed, its shape too (R199). -/
def State.sameDecision (v : State) (r : TaskRef) (k : Task) (sp : Spec) (dig : Word) : Prop :=
  dig = sp.digest ∧ (Desc.shapeDyn k.desc = true →
    v.shape? r.ctx (Desc.shapeSlot k.desc) ≠ none ∧ v.shape? r.ctx (Desc.shapeSlot k.desc) = sp.shape)

/-- The task is prunable, or its shape counts zero (R202). -/
def State.confirmPrunes (v : State) (r : TaskRef) (k : Task) (x : Inst) : Prop :=
  v.prunable r.ctx k.desc x.base = true ∨
    Desc.shapeDyn k.desc = true ∧ ((v.shape? r.ctx (Desc.shapeSlot k.desc)).getD {}).count = 0

variable {x : Inst} (hx : s.inst? r.ctx r.inst = some x) (hk : s.task? r = some k) (hs : s.spec? r = some sp)
include hx hk hs

/-- A gate that did not retire normally refutes (R199). -/
theorem State.confirm_noGate (h : ((AL.get? (Desc.gatePred k.desc) x.tasks).map Task.st) ≠ some (.gone .normal)) :
    s.confirm r = s.refute r 2 := by
  simp only [State.confirm, hx, hk, hs]
  refine if_pos ?_
  cases hg : AL.get? (Desc.gatePred k.desc) x.tasks with
  | none => rfl
  | some g =>
    rw [hg] at h
    exact Bool.not_eq_true' _ ▸ decide_eq_false fun hn => h (congrArg some hn)

/-- Once its site has resolved, the task is decided. -/
theorem State.confirm_resolved (h : ((AL.get? (Desc.gatePred k.desc) x.tasks).map Task.st) = some (.gone .normal)) {dig : Word}
    {v : State} (hv : s.resolve r.ctx k.desc x.base (x.step.getD 0) = (dig, v)) : s.confirm r =
    if k.skip then v.commitPruned r
    else if dig ≠ sp.digest ∨ (!(!Desc.shapeDyn k.desc || ((v.shape? r.ctx (Desc.shapeSlot k.desc)).isSome &&
      decide (v.shape? r.ctx (Desc.shapeSlot k.desc) = sp.shape)))) = true then v.refute r 1
    else if v.prunable r.ctx k.desc x.base || (Desc.shapeDyn k.desc &&
      decide (((v.shape? r.ctx (Desc.shapeSlot k.desc)).getD {}).count = 0)) then v.commitPruned r
    else v.markConfirmed r := by
  obtain ⟨g, hg, hn⟩ := Option.map_eq_some_iff.1 h
  simp only [State.confirm, hx, hk, hs, hv, hg, hn, decide_true, Bool.not_true, Bool.false_eq_true, if_false]

end

section
variable {v : State} {r : TaskRef} {k : Task} {sp : Spec} {dig : Word} {x : Inst}

theorem State.sameDecision_iff : v.sameDecision r k sp dig ↔
    ¬ (dig ≠ sp.digest ∨ (!(!Desc.shapeDyn k.desc || ((v.shape? r.ctx (Desc.shapeSlot k.desc)).isSome &&
      decide (v.shape? r.ctx (Desc.shapeSlot k.desc) = sp.shape)))) = true) := by
  unfold State.sameDecision
  cases Desc.shapeDyn k.desc <;> simp

theorem State.confirmPrunes_iff : v.confirmPrunes r k x ↔ (v.prunable r.ctx k.desc x.base || (Desc.shapeDyn k.desc &&
    decide (((v.shape? r.ctx (Desc.shapeSlot k.desc)).getD {}).count = 0))) = true := by
  simp [State.confirmPrunes]

end

section
variable {s v : State} {r : TaskRef} {k : Task} {sp : Spec} {dig : Word} {x : Inst} (hx : s.inst? r.ctx r.inst = some x)
  (hk : s.task? r = some k) (hs : s.spec? r = some sp)
  (h : ((AL.get? (Desc.gatePred k.desc) x.tasks).map Task.st) = some (.gone .normal))
  (hv : s.resolve r.ctx k.desc x.base (x.step.getD 0) = (dig, v))
include hx hk hs h hv

theorem State.confirm_skipped (hp : k.skip = true) : s.confirm r = v.commitPruned r :=
  (State.confirm_resolved hx hk hs h hv).trans (if_pos hp)

variable (hp : k.skip = false)
include hp

theorem State.confirm_other (hd : ¬ v.sameDecision r k sp dig) : s.confirm r = v.refute r 1 :=
  (State.confirm_resolved hx hk hs h hv).trans ((if_neg (Bool.eq_false_iff.1 hp)).trans
    (if_pos (not_not.1 (State.sameDecision_iff.not.1 hd))))

variable (hd : v.sameDecision r k sp dig)
include hd

theorem State.confirm_same : s.confirm r = if v.prunable r.ctx k.desc x.base || (Desc.shapeDyn k.desc &&
    decide (((v.shape? r.ctx (Desc.shapeSlot k.desc)).getD {}).count = 0)) then v.commitPruned r else v.markConfirmed r :=
  (State.confirm_resolved hx hk hs h hv).trans ((if_neg (Bool.eq_false_iff.1 hp)).trans (if_neg (State.sameDecision_iff.1 hd)))

theorem State.confirm_pruned (hq : v.confirmPrunes r k x) : s.confirm r = v.commitPruned r :=
  (State.confirm_same hx hk hs h hv hp hd).trans (if_pos (State.confirmPrunes_iff.1 hq))

theorem State.confirm_confirmed (hq : ¬ v.confirmPrunes r k x) : s.confirm r = v.markConfirmed r :=
  (State.confirm_same hx hk hs h hv hp hd).trans (if_neg (State.confirmPrunes_iff.not.1 hq))

end

/-! ## Commit (R200, Table 8.4) -/

/-- A held signal, or the fault of the context that names a counter outside its range (R131). -/
def State.heldSignal (s : State) (c eff : Nat) (p : Nat × Nat) : Work :=
  if s.idLimit c ≤ p.1 then .faultCtx c 0x04 p.1 1 eff else .signal c p.1 p.2 { code := 3, arg := eff } none

/-- Held signals are handed on in order. -/
theorem foldl_heldSignals (c eff : Nat) (l : List (Nat × Nat)) : ∀ s : State, l.foldl (fun (s : State) p =>
    if s.idLimit c ≤ p.1 then s.push [.faultCtx c 0x04 p.1 1 eff] else s.push [.signal c p.1 p.2 { code := 3, arg := eff } none]) s =
      s.push (l.map (s.heldSignal c eff)) := by
  induction l with
  | nil => intro s; exact (State.push_nil s).symm
  | cons p r ih =>
    intro s
    have first : (if s.idLimit c ≤ p.1 then s.push [.faultCtx c 0x04 p.1 1 eff] else s.push [.signal c p.1 p.2 { code := 3, arg := eff }
        none]) = s.push [s.heldSignal c eff p] := by
      unfold State.heldSignal
      split <;> rfl
    rw [List.foldl_cons, first, ih]
    exact (State.push_append s [s.heldSignal c eff p] _).symm

/-- The shadow granules become the outputs: what an entry held before returns (Table 8.4). -/
def State.shadowBound (r : TaskRef) (h : Held) (hs : List Nat) (s : State) (g : Nat × Nat × Nat) : State :=
  let u := s.tile r.ctx g.1
  let occ := (List.range hs.length).any fun i => hs.getD i 0 = g.1 && bit h.occ i
  let freed := match s.heldGranule u with
    | some old => (s.setTile r.ctx g.1 { u with valid := false }).returnGranule r.ctx old
    | none => s
  freed.setTile r.ctx g.1 { pooled := true, occ := occ, valid := true, slice := g.2.1, addr := s.granAddr g.2.1 g.2.2,
                            version := (u.version + 1) % 2 ^ 32, size := 32768 }

/-- The state in which the hold has given the task up and its shadow granules have become its outputs. -/
def State.shadowsBound (s : State) (n : Nat) (h : Held) (hs : List Nat) (l : List (Nat × Nat × Nat)) : State :=
  l.foldl (State.shadowBound h.run.p.e.ref h hs) (s.setCluster n { s.cluster n with
    hold := (s.cluster n).hold.filter fun y => y.run.p.e.ref ≠ h.run.p.e.ref })

/-- The time from a speculative start to its gate's end, as a commit counts it. -/
theorem gateLead_eq (o : Option Task) (t : Nat) : (match o with | some g => g.goneAt - t | none => 0) =
    (o.map fun g => g.goneAt - t).getD 0 := by
  cases o <;> rfl

theorem State.commit_eq {s : State} {n : Nat} {h : Held} {r : TaskRef} {x : Inst} {k : Task} {sp : Spec} (hr : h.run.p.e.ref = r)
    (hx : s.inst? r.ctx r.inst = some x) (hk : s.task? r = some k) (hs : h.run.p.spec = some sp) {renamed told : State}
    (hn : s.shadowsBound n h (s.outputs k.desc x.base) sp.shadows = renamed)
    (ht : renamed.push (sp.sigs.map (renamed.heldSignal r.ctx (effIdx x r.idx))) = told) :
    s.commit n h = State.endRetention ((State.trace { told with stat := { told.stat with
      specCommit := told.stat.specCommit + 1
      specLead := told.stat.specLead + ((AL.get? (Desc.gatePred k.desc) x.tasks).map fun g => g.goneAt - sp.spurAt).getD 0 } }
        r 8 (some n) (some h.core)).retireTask r .normal (some n) none false (sp.sigs.map Prod.fst)) r.ctx sp.gran := by
  subst hr
  have told' := (foldl_heldSignals h.run.p.e.ref.ctx (effIdx x h.run.p.e.ref.idx) sp.sigs renamed).trans ht
  subst hn
  unfold State.commit
  simp only [hx, hk, hs, ← gateLead_eq, ← told']
  rfl

/-- Settles O51: the equations above, of a spur (its port's events are followed through the staging of every saddle that it lets
move on), of a fill, of a gating decision, of each way a speculation ends, and of a commit. -/
theorem spursAndFills : Obligations.SpursAndFills := by
  unfold Obligations.SpursAndFills
  refine ⟨fun s c t p => ?spur, fun s lane l r hw hl => ?fill, fun s r x k sp hx hk => ?spec, fun s n h x k sp => ?commit⟩
  case spur =>
    intro u hp hr hs hg hc
    have hv : u.spurCore c = (u.spurNoted (u.spurred c p) c p).fillSaddle c := State.spurCore_eq hp hr hs hg hc
    refine ⟨_, leads_eq rfl (congrArg State.refillAll hv), ?_⟩
    intro y saved mark
    obtain ⟨hrun, l, hl, ho⟩ := u.spur_stages (u.spurred c p) c p
    have run := (congrFun hrun c).trans (u.spurred_coreRun c p)
    have counters : u.spurCounters p = if p.e.slot = 0 then [] else saved.cc := ite_not _ _ _
    have sent : u.spurMark p = mark := ite_not _ _ _
    refine ⟨congrArg Prod.fst run, congrArg (fun q => q.2.2) run, (congrArg (fun q => q.2.1) run).trans counters, l, ?_, ho⟩
    rw [hl, u.spurred_port, sent, List.append_assoc]
    rfl
  case fill =>
    have hu := State.dcFill_eq hl
    refine ⟨_, s.fillWay l, exec_descFill hw hl, s.fillWay_lt l, ?_⟩
    rw [hu]
    exact ⟨AL.get?_put_self _ _ _, AL.get_put_self _ _ _, fun j hj => AL.get_put_ne hj _ _, fun j hj => AL.get?_put_ne hj _ _, rfl⟩
  case spec =>
    intro d site tile dig past step entry v
    have hv : s.resolve r.ctx d x.base step = (dig, v) := rfl
    refine ⟨hv, fun hs => ?_⟩
    intro gate shape same normal prunes
    exact ⟨State.confirm_noGate hx hk hs, fun hn => State.confirm_skipped hx hk hs hn hv, fun hn => State.confirm_other hx hk hs hn hv,
      fun hn => State.confirm_pruned hx hk hs hn hv, fun hn => State.confirm_confirmed hx hk hs hn hv, rfl,
      fun cause => ⟨fun h0 h => State.refute_pruned hs hk h0 h cause, fun h0 h => State.refute_ready hs hk h0 h cause,
        fun h0 => State.refute_waits hs hk h0 cause⟩⟩
  case commit =>
    intro r hx hk hs hs' eff lead out renamed told counted
    exact State.commit_eq rfl hx hk hs rfl rfl

end Sys2Proof.Machine

namespace Sys2Proof.Machine

/-! ## CTX_CREATE (R165, R168, R140, R99) -/

section
variable {s : State} {q n c : Nat} {w : List Word} (hc : bits (wordAt w 1) 11 0 = c)
include hc

theorem State.effCtxCreate_defined (h : (s.ctx c).st ≠ .free) : s.effCtxCreate q n w = s.complete q n .badParam 1 := by
  subst hc
  exact if_pos (bne_iff_ne.2 h)

variable (h : (s.ctx c).st = .free)
include h

/-- A FREE id passes the check that a CTX_CREATE makes first (R165). -/
theorem State.not_defined_subject : ¬ s.defined (bits (wordAt w 1) 11 0) = true := by
  simp [State.defined, hc, h]

theorem State.effCtxCreate_noPaddock (hp : s.paddockRoom = none) : s.effCtxCreate q n w = s.complete q n .noResource 0 := by
  refine (if_neg (State.not_defined_subject hc h)).trans ?_
  rw [hp]

variable {room : Nat} (hp : s.paddockRoom = some room)
include hp

theorem State.effCtxCreate_noRoom (hr : room < 48 * bits (wordAt w 4) 31 0) :
    s.effCtxCreate q n w = s.complete q n .noResource 0 := by
  refine (if_neg (State.not_defined_subject hc h)).trans ?_
  rw [hp]
  exact if_pos hr

theorem State.effCtxCreate_creates (hr : 48 * bits (wordAt w 4) 31 0 ≤ room) : s.effCtxCreate q n w =
    ((((s.nextGen c).2.setCtx c { (s.nextGen c).2.newCtx q (s.nextGen c).1 w with
      pad := (s.nextGen c).2.takePad (bits (wordAt w 4) 31 0) }).writeHeader c).complete q n .ok (s.nextGen c).1) := by
  refine (if_neg (State.not_defined_subject hc h)).trans ?_
  subst hc
  rw [hp]
  exact if_neg (Nat.not_lt.2 hr)

end

/-! ## CTX_DESTROY, CTX_SUSPEND and CTX_RESUME (R139, R181) -/

section
variable {s : State} {q n c : Nat} {w : List Word} (hc : bits (wordAt w 1) 11 0 = c)
include hc

theorem State.effCtxDestroy_refused (h : (s.ctx c).st = .free ∨ (s.ctx c).st = .destroying) :
    s.effCtxDestroy q n w = s.complete q n .badParam 1 := by
  unfold State.effCtxDestroy
  obtain h | h := h <;> simp only [hc, h]

theorem State.effCtxDestroy_starts (hf : (s.ctx c).st ≠ .free) (hd : (s.ctx c).st ≠ .destroying) :
    s.effCtxDestroy q n w = s.destroyStart c q n := by
  unfold State.effCtxDestroy
  cases h : (s.ctx c).st
  case free => exact absurd h hf
  case destroying => exact absurd h hd
  all_goals simp only [hc, h]

theorem State.effCtxSuspend_refused (h : (s.ctx c).st = .free ∨ (s.ctx c).st = .faulted ∨ (s.ctx c).st = .destroying) :
    s.effCtxSuspend q n w = s.complete q n .badParam 1 := by
  unfold State.effCtxSuspend
  obtain h | h | h := h <;> simp only [hc, h]

theorem State.effCtxSuspend_waiting (h : (s.ctx c).st = .waiting) :
    s.effCtxSuspend q n w = ((s.setCtxState c .suspended).updStop c).complete q n .ok 0 := by
  unfold State.effCtxSuspend
  simp only [hc, h]

theorem State.effCtxSuspend_suspended (h : (s.ctx c).st = .suspended) : s.effCtxSuspend q n w = s.complete q n .ok 0 := by
  unfold State.effCtxSuspend
  simp only [hc, h]

theorem State.effCtxSuspend_suspending (h : (s.ctx c).st = .suspending) : s.effCtxSuspend q n w =
    s.updCtx c fun x => { x with suspCmd := x.suspCmd ++ [(q, n)], suspHold := true } := by
  unfold State.effCtxSuspend
  simp only [hc, h]

theorem State.effCtxSuspend_resident (h : (s.ctx c).st = .resident) : s.effCtxSuspend q n w =
    (s.updCtx c fun x => { x with suspCmd := x.suspCmd ++ [(q, n)], suspHold := true }).suspendStart c := by
  unfold State.effCtxSuspend
  simp only [hc, h]

theorem State.effCtxResume_refused (h : (s.ctx c).st = .free ∨ (s.ctx c).st = .faulted ∨ (s.ctx c).st = .destroying) :
    s.effCtxResume q n w = s.complete q n .badParam 1 := by
  unfold State.effCtxResume
  obtain h | h | h := h <;> simp only [hc, h]

theorem State.effCtxResume_resident (h : (s.ctx c).st = .resident) : s.effCtxResume q n w = s.complete q n .ok 0 := by
  unfold State.effCtxResume
  simp only [hc, h]

theorem State.effCtxResume_waiting (h : (s.ctx c).st = .waiting) : s.effCtxResume q n w =
    (s.updCtx c fun x => { x with resumeCmd := x.resumeCmd ++ [(q, n)], noResume := false }).displace := by
  unfold State.effCtxResume
  simp only [hc, h]

theorem State.effCtxResume_suspending (h : (s.ctx c).st = .suspending) : s.effCtxResume q n w =
    (s.updCtx c fun x => { x with resumeCmd := x.resumeCmd ++ [(q, n)], noResume := false }).updCtx c fun x =>
      { x with suspHold := false } := by
  unfold State.effCtxResume
  simp only [hc, h]

theorem State.effCtxResume_suspended (h : (s.ctx c).st = .suspended) : s.effCtxResume q n w =
    ((((s.updCtx c fun x => { x with waitingAt := s.env.now }).setCtxState c .waiting).updStop c).updCtx c fun x =>
      { x with resumeCmd := x.resumeCmd ++ [(q, n)], noResume := false }).displace := by
  unfold State.effCtxResume
  simp only [hc, h]

end

/-- Settles O39: each command by the state of its context, and a CTX_CREATE by the paddock's room too. -/
theorem contextCommands : Obligations.ContextCommands := by
  unfold Obligations.ContextCommands
  intro s q n w r c st ends refused
  have hc : bits (wordAt w 1) 11 0 = c := rfl
  refine ⟨fun h => ?create, fun h => ?destroy, fun h => ?suspend, fun h => ?resume⟩
  case create =>
    exact ⟨fun hd => leads_fwCmd h rfl (State.effCtxCreate_defined hc hd),
      fun hf hp => leads_fwCmd h rfl (State.effCtxCreate_noPaddock hc hf hp),
      fun hf room hp => ⟨fun hr => leads_fwCmd h rfl (State.effCtxCreate_noRoom hc hf hp hr),
        fun hr => leads_fwCmd h rfl (State.effCtxCreate_creates hc hf hp hr)⟩⟩
  case destroy =>
    exact ⟨fun hs => leads_fwCmd h rfl (State.effCtxDestroy_refused hc hs),
      fun hf hd => leads_fwCmd h rfl (State.effCtxDestroy_starts hc hf hd)⟩
  case suspend =>
    exact ⟨fun hs => leads_fwCmd h rfl (State.effCtxSuspend_refused hc hs),
      fun hs => leads_fwCmd h rfl (State.effCtxSuspend_waiting hc hs),
      fun hs => leads_fwCmd h rfl (State.effCtxSuspend_suspended hc hs),
      fun hs => leads_fwCmd h rfl (State.effCtxSuspend_suspending hc hs),
      fun hs => leads_fwCmd h rfl (State.effCtxSuspend_resident hc hs)⟩
  case resume =>
    refine ⟨fun hs => leads_fwCmd h rfl (State.effCtxResume_refused hc hs),
      fun hs => leads_fwCmd h rfl (State.effCtxResume_resident hc hs),
      fun hs => leads_fwCmd h rfl (State.effCtxResume_waiting hc hs),
      fun hs => leads_fwCmd h rfl (State.effCtxResume_suspending hc hs),
      fun hs => leads_fwCmd h rfl ?_⟩
    -- The statement reads the clock before the command is taken up, which leaves it alone.
    have back := State.effCtxResume_suspended (s := s.setPhase q n .running) (q := q) (n := n) hc hs
    rw [State.setPhase_env] at back
    exact back

end Sys2Proof.Machine

namespace Sys2Proof.Machine

/-! ## Physical counters after a counter operation (R124 to R128) -/

/-- A physical counter after a write of the counter (c, v) as `x`: its own takes the value and the flags, and is the last used
(R133). -/
def Phys.written (c v uses : Nat) (x : Ctr) (p : Phys) : Phys :=
  if p.ctx = c ∧ p.vid = v then { p with val := x.val, poison := x.poison, sat := x.sat, used := uses } else p

/-- A waiter that a counter (c, v) of the value and poison of `x` satisfies (R125). -/
def Waiter.satisfied (c v : Nat) (x : Ctr) (w : Waiter) : Bool :=
  decide (w.ctx = c) && decide (w.vid = v) && (decide (w.expected ≤ x.val) || x.poison)

theorem State.setCtr_ctu {s : State} {x : Ctr} (h : x.resident = true) (c v : Nat) : (s.setCtr c v x).ctu =
    { s.ctu with phys := s.ctu.phys.map (Phys.written c v s.ctu.uses x), uses := s.ctu.uses + 1 } := by
  simp only [State.setCtr, h, if_true, State.wr64_ctu]
  rfl

theorem State.releaseWaiters_waiters (s : State) (c v : Nat) :
    (s.releaseWaiters c v).ctu.waiters = s.ctu.waiters.filter fun w => !w.satisfied c v (s.ctr c v) := rfl

theorem State.releaseWaiters_phys (s : State) (c v : Nat) : (s.releaseWaiters c v).ctu.phys =
    s.ctu.phys.map fun p => { p with armed := armedOf (s.releaseWaiters c v).ctu.waiters p } := rfl

/-- Counters keep their physical counters through an operation that keeps which counter each of them holds. -/
theorem State.phys?_map {s t : State} {f : Phys → Phys} (h : t.ctu.phys = s.ctu.phys.map f)
    (hf : ∀ p, (f p).ctx = p.ctx ∧ (f p).vid = p.vid) (c v : Nat) : t.phys? c v = (s.phys? c v).map f := by
  unfold State.phys?
  rw [h, List.find?_map]
  congr 2
  funext p
  simp [hf p]

theorem Phys.written_keys (c v uses : Nat) (x : Ctr) (p : Phys) :
    (p.written c v uses x).ctx = p.ctx ∧ (p.written c v uses x).vid = p.vid := by
  unfold Phys.written
  split <;> exact ⟨rfl, rfl⟩

theorem State.phys?_setCtr {s : State} {x : Ctr} (h : x.resident = true) (c v c' v' : Nat) :
    (s.setCtr c v x).phys? c' v' = (s.phys? c' v').map (Phys.written c v s.ctu.uses x) :=
  State.phys?_map (by rw [State.setCtr_ctu h]) (Phys.written_keys c v _ x) c' v'

theorem State.phys?_releaseWaiters (s : State) (c v c' v' : Nat) : (s.releaseWaiters c v).phys? c' v' =
    (s.phys? c' v').map fun p => { p with armed := armedOf (s.releaseWaiters c v).ctu.waiters p } :=
  State.phys?_map (State.releaseWaiters_phys s c v) (fun _ => ⟨rfl, rfl⟩) c' v'

theorem State.phys?_keys {s : State} {c v : Nat} {p : Phys} (h : s.phys? c v = some p) : p.ctx = c ∧ p.vid = v := by
  simpa using List.find?_some h

theorem State.phys?_ctu {s t : State} (h : t.ctu = s.ctu) (c v : Nat) : t.phys? c v = s.phys? c v := by
  unfold State.phys?
  rw [h]

section
variable {s : State} {c v : Nat} {p : Phys} (hp : s.phys? c v = some p)
include hp

theorem State.ctr_val : (s.ctr c v).val = p.val := by
  simp only [State.ctr, hp]

theorem State.ctr_poison : (s.ctr c v).poison = p.poison := by
  simp only [State.ctr, hp]

theorem State.ctr_resident : (s.ctr c v).resident = true := by
  simp only [State.ctr, hp]

/-- The counter that is written holds what was written. -/
theorem State.phys?_setCtr_self {x : Ctr} (h : x.resident = true) :
    (s.setCtr c v x).phys? c v = some { p with val := x.val, poison := x.poison, sat := x.sat, used := s.ctu.uses } := by
  rw [State.phys?_setCtr h, hp, Option.map_some]
  exact congrArg some (if_pos (State.phys?_keys hp))

end

/-- Another counter is not written. -/
theorem State.phys?_setCtr_ne {s : State} {c v c' v' : Nat} {x : Ctr} (h : x.resident = true) (hne : ¬ (c' = c ∧ v' = v)) :
    (s.setCtr c v x).phys? c' v' = s.phys? c' v' := by
  rw [State.phys?_setCtr h]
  refine (Option.map_congr fun p hp => ?_).trans Option.map_id'
  obtain ⟨rfl, rfl⟩ := State.phys?_keys hp
  exact if_neg hne

/-! ## A signal that is added (R124, R126) -/

/-- The sum of a value and an increment, and whether it has saturated (R126). -/
def Ctr.raised (x : Ctr) (inc : Nat) : Ctr :=
  { x with val := min (x.val + inc) ctrMax, sat := x.sat || decide (ctrMax < x.val + inc) }

theorem State.applySignal_poisoned {s : State} {c v : Nat} (h : (s.ctr c v).poison = true) (inc : Nat) (src : SigSrc) :
    s.applySignal c v inc src = s :=
  if_pos (.inl h)

/-- A signal writes the sum and releases the waiters; between the two a record may go out (R126). -/
theorem State.applySignal_adds {s : State} {c v inc : Nat} (h : (s.ctr c v).poison = false) (h0 : inc ≠ 0) (src : SigSrc) :
    ∃ u : State, u.ctu = (s.setCtr c v ((s.ctr c v).raised inc)).ctu ∧ s.applySignal c v inc src = u.releaseWaiters c v := by
  unfold State.applySignal
  extract_lets x s1 s2
  rw [if_neg (by simp [x, h, h0])]
  split
  next high =>
    have sum : x.raised inc = { x with val := ctrMax, sat := true } := by
      simp [Ctr.raised, high, Nat.min_eq_right high.le]
    refine ⟨s2, ?_, rfl⟩
    rw [sum]
    unfold s2
    split
    · rfl
    · rw [State.err_ctu]
  next low =>
    have sum : x.raised inc = { x with val := x.val + inc } := by
      simp [Ctr.raised, low, Nat.min_eq_left (Nat.not_lt.1 low)]
    exact ⟨_, rfl, by rw [sum]⟩

/-- Settles O35: the sum is written to the counter's physical counter alone, and the waiters of the counter so raised are released. -/
theorem signalAddsToCounter : Obligations.SignalAddsToCounter := by
  unfold Obligations.SignalAddsToCounter
  intro s c v inc src p hp t sum
  refine ⟨fun poisoned => State.applySignal_poisoned ((State.ctr_poison hp).trans poisoned) inc src, fun clear h0 => ?_⟩
  have unpoisoned : (s.ctr c v).poison = false := (State.ctr_poison hp).trans clear
  obtain ⟨u, hu, ht⟩ := State.applySignal_adds unpoisoned h0 src
  have resident : ((s.ctr c v).raised inc).resident = true := State.ctr_resident hp
  have value : ((s.ctr c v).raised inc).val = sum := congrArg (fun n => min (n + inc) ctrMax) (State.ctr_val hp)
  have raised := (State.phys?_ctu hu c v).trans (State.phys?_setCtr_self hp resident)
  have waits : u.ctu.waiters = s.ctu.waiters := by rw [hu, State.setCtr_ctu resident]
  rw [show t = u.releaseWaiters c v from ht]
  refine ⟨?_, ?_, fun y hy => ?_, fun c' v' hne => ?_⟩
  · rw [State.phys?_releaseWaiters, raised]
    exact congrArg some value
  · rw [State.releaseWaiters_waiters, waits]
    refine List.filter_congr fun w _ => ?_
    have poison : ((s.ctr c v).raised inc).poison = false := unpoisoned
    simp [Waiter.satisfied, State.ctr_val raised, State.ctr_poison raised, value, poison]
  · rw [State.releaseWaiters_phys] at hy
    obtain ⟨z, -, rfl⟩ := List.mem_map.1 hy
    rfl
  · rw [State.phys?_releaseWaiters, State.phys?_ctu hu, State.phys?_setCtr_ne resident hne, Option.map_map]
    rfl

end Sys2Proof.Machine

namespace Sys2Proof.Machine

/-! ## The debug window (R145, R146, R148) -/

section
variable {s : State} (on : s.unitsOn = true)
include on

omit on in
theorem State.dbgCmd_busy (hb : s.ctu.dbgBusy = true) (f : State → State) : s.dbgCmd f = s :=
  if_pos (by rw [hb, Bool.or_true])

variable (hb : s.ctu.dbgBusy = false)
include hb

theorem State.dbgCmd_disabled (he : s.ctu.dbgEn = false) (f : State → State) : s.dbgCmd f = s.dbgResult 4 :=
  (if_neg (by simp [on, hb])).trans (if_pos (by simp [he]))

variable (he : s.ctu.dbgEn = true)
include he

theorem State.dbgCmd_undefined (hd : s.defined s.ctu.dbgCtx = false) (f : State → State) : s.dbgCmd f = s.dbgResult 3 :=
  (if_neg (by simp [on, hb])).trans ((if_neg (by simp [he])).trans (if_pos (by simp [hd])))

variable (hd : s.defined s.ctu.dbgCtx = true)
include hd

theorem State.dbgCmd_acts (f : State → State) : s.dbgCmd f = f s :=
  (if_neg (by simp [on, hb])).trans ((if_neg (by simp [he])).trans (if_neg (by simp [hd])))

theorem State.dbgRead_outside (hv : s.idLimit s.ctu.dbgCtx ≤ s.ctu.dbgId) : s.dbgRead = s.dbgResult 5 :=
  (State.dbgCmd_acts on hb he hd _).trans (if_pos hv)

/-- READ reports the counter, its flags (Table 5.12) and how many wait for it. -/
theorem State.dbgRead_reports (hv : s.ctu.dbgId < s.idLimit s.ctu.dbgCtx) :
    let x := s.ctr s.ctu.dbgCtx s.ctu.dbgId
    let waits (w : Waiter) : Bool := decide (w.ctx = s.ctu.dbgCtx) && decide (w.vid = s.ctu.dbgId)
    s.dbgRead = { s with ctu := { s.ctu with
      dbgValue := BitVec.ofNat 64 x.val
      dbgFlags := x.mapped.toNat + 2 * x.exported.toNat + 4 * x.resident.toNat + 8 * x.sat.toNat + 16 * x.poison.toNat
      dbgWaiters := min (s.ctu.waiters.filter waits).length 0xFFFF
      dbgResult := 0 } } := by
  intro x waits
  have flag (b : Bool) : b.toNat = b2n b := by cases b <;> rfl
  have same : waits = fun w => decide (w.ctx = s.ctu.dbgCtx ∧ w.vid = s.ctu.dbgId) := by
    funext w
    simp only [waits, Bool.decide_and]
  simp only [flag, same]
  exact (State.dbgCmd_acts on hb he hd _).trans (if_neg (Nat.not_le.2 hv))

end

/-- The answer `r` of the engine to a SET, which is then no longer BUSY (R146). -/
def State.windowDone (s : State) (r : Nat) : State :=
  { s with ctu := { s.ctu with dbgBusy := false, dbgResult := r } }

theorem State.doWork_windowSet {s t : State} {c v new r : Nat} (h : s.debugSet c v new = (r, t)) :
    s.doWork (.windowSet c v new) = t.windowDone r :=
  congrArg (fun p : Nat × State => p.2.windowDone p.1) h

/-- All four commands lead to a state that the window reaches whatever the command would do. -/
theorem leads_window {s v : State} (h : ∀ f, s.dbgCmd f = v) :
    Leads .ctuDbgRead s v ∧ Leads .ctuDbgSet s v ∧ Leads .ctuDbgHalt s v ∧ Leads .ctuDbgResume s v :=
  ⟨leads_eq rfl (h _), leads_eq rfl (h _), leads_eq rfl (h _), leads_eq rfl (h _)⟩

/-- Settles O47: a command by the window's state, and a SET by what R146's tests answer when the engine applies it. -/
theorem debugWindow : Obligations.DebugWindow := by
  unfold Obligations.DebugWindow
  intro s m on c v x result all
  -- Named by the model's operation, a result is compared as a whole and not field by field.
  have reports : result = State.dbgResult := rfl
  clear_value result
  subst reports
  refine ⟨fun hb => ?busy, fun hb he => ?disabled, fun hb he hd => ?undefined, ?applied,
    fun hb he hd => ⟨?set, fun hv => ?outside, fun hv => ?read, ?halt, ?resume⟩⟩
  case busy => exact leads_window (State.dbgCmd_busy hb)
  case disabled => exact leads_window (State.dbgCmd_disabled on hb he)
  case undefined => exact leads_window (State.dbgCmd_undefined on hb he hd)
  case applied =>
    intro c v new done y after
    exact ⟨fun hd => State.doWork_windowSet (State.debugSet_undefined hd),
      fun hd hv => State.doWork_windowSet (State.debugSet_outside hd hv),
      fun hd hv hh => State.doWork_windowSet (State.debugSet_running hd hv hh),
      fun hd hv hh => ⟨fun low => State.doWork_windowSet (State.debugSet_lower hd hv hh low),
        fun high => State.doWork_windowSet (State.debugSet_raised hd hv hh high)⟩⟩
  case set => exact leads_eq rfl (State.dbgCmd_acts on hb he hd _)
  case outside => exact leads_eq rfl (State.dbgRead_outside on hb he hd hv)
  case read => exact leads_eq rfl (State.dbgRead_reports on hb he hd hv)
  case halt => exact leads_eq rfl (State.dbgCmd_acts on hb he hd _)
  case resume => exact leads_eq rfl (State.dbgCmd_acts on hb he hd _)

end Sys2Proof.Machine

namespace Sys2Proof.Machine

/-! ## Core counters (R136, R137, Table 5.3) -/

theorem filter_erase_of_find? {α : Type} [BEq α] [LawfulBEq α] {f : α → Bool} {a : α} {l : List α} (h : l.find? f = some a) :
    l.filter f = a :: (l.erase a).filter f := by
  induction l with
  | nil => cases h
  | cons b l ih =>
    by_cases hb : f b = true
    · obtain rfl : b = a := by simpa [hb] using h
      simp [hb]
    · have found : l.find? f = some a := by simpa [hb] using h
      have ne : b ≠ a := fun e => hb (e ▸ List.find?_some found)
      simp [hb, ne, ih found]

/-- The CC_WAITs on counter `k` of a core, in order of arrival. -/
def State.ccWaiting (s : State) (c k : Nat) : List (Nat × Nat) := (s.core c).ccWaits.filter fun p => p.1 = k

/-- The wait `p` on counter `k` has left a core, and has taken 1 from the counter. -/
def Core.ccTaken (k : Nat) (p : Nat × Nat) (x : Core) : Core :=
  { x with ccWaits := x.ccWaits.erase p, cc := AL.put k (AL.get x.cc k - 1) x.cc }

/-- That wait has been answered too. -/
def State.ccReleased (s : State) (c k : Nat) (p : Nat × Nat) : State := (s.updCore c (Core.ccTaken k p)).respond c p.2 0 0

theorem State.core_ccReleased (s : State) (c k : Nat) (p : Nat × Nat) :
    (s.ccReleased c k p).core c = (s.core c).ccTaken k p :=
  s.core_updCore_self c _

theorem State.ccReleased_cc (s : State) (c k : Nat) (p : Nat × Nat) : (s.ccReleased c k p).cc c k = s.cc c k - 1 := by
  unfold State.cc
  rw [State.core_ccReleased]
  exact AL.get_put_self k _ _

theorem State.ccRelease_idle {s : State} {c k : Nat} (h : s.ccWaiting c k = []) (n : Nat) : s.ccRelease c k n = s := by
  cases n with
  | zero => rfl
  | succ n =>
    have none : (s.core c).ccWaits.find? (fun p => decide (p.1 = k)) = none := by
      simpa [State.ccWaiting] using h
    simp only [State.ccRelease, none]

theorem State.ccRelease_first {s : State} {c k : Nat} {p : Nat × Nat} {l : List (Nat × Nat)} (h : s.ccWaiting c k = p :: l) (n : Nat) :
    s.ccRelease c k (n + 1) = (s.ccReleased c k p).ccRelease c k n ∧ (s.ccReleased c k p).ccWaiting c k = l := by
  have first : (s.core c).ccWaits.find? (fun p => decide (p.1 = k)) = some p := by
    rw [← List.head?_filter]
    exact congrArg List.head? h
  have rest : s.ccWaiting c k = p :: (s.ccReleased c k p).ccWaiting c k := by
    unfold State.ccWaiting
    rw [State.core_ccReleased]
    exact filter_erase_of_find? first
  refine ⟨?_, (List.cons.inj (rest.symm.trans h)).2⟩
  simp only [State.ccRelease, first]
  rfl

/-- The first `n` waits are released, in their order, and each takes 1. -/
theorem State.ccRelease_releases (n c k : Nat) (s : State) :
    (s.ccRelease c k n).ccWaiting c k = (s.ccWaiting c k).drop n ∧
    (s.ccRelease c k n).out.rsp = s.out.rsp ++ ((s.ccWaiting c k).take n).map (fun p => (c, p.2, 0, 0)) ∧
    (s.ccRelease c k n).cc c k = s.cc c k - min n (s.ccWaiting c k).length := by
  induction n generalizing s with
  | zero => simp [State.ccRelease]
  | succ n ih =>
    cases h : s.ccWaiting c k with
    | nil => simp [State.ccRelease_idle h, h]
    | cons p l =>
      obtain ⟨step, left⟩ := State.ccRelease_first h n
      obtain ⟨waits, answers, value⟩ := ih (s.ccReleased c k p)
      have answered : (s.ccReleased c k p).out.rsp = s.out.rsp ++ [(c, p.2, 0, 0)] := rfl
      rw [step, waits, answers, value, left, answered, State.ccReleased_cc]
      refine ⟨rfl, by simp, ?_⟩
      rw [List.length_cons]
      omega

theorem State.ccRelease_work (n c k : Nat) (s : State) : (s.ccRelease c k n).work = s.work := by
  induction n generalizing s with
  | zero => rfl
  | succ n ih =>
    cases h : s.ccWaiting c k with
    | nil => rw [State.ccRelease_idle h]
    | cons p l => exact (congrArg State.work (State.ccRelease_first h n).1).trans (ih _)

section
variable {s : State} {c tag k inc : Nat} {y : Running} (hy : s.runningOn c = some y)
include hy

section
variable (hf : (s.ctx y.p.e.ref.ctx).st = .faulted)
include hf

theorem State.ccSignal_faulted : s.ccSignal c tag k inc = s.respond c tag 2 0 := by
  simp only [State.ccSignal, hy, State.portFaulted, hf, decide_true, if_true]

theorem State.ccWait_faulted : s.ccWait c tag k = s.respond c tag 2 0 := by
  simp only [State.ccWait, hy, State.portFaulted, hf, decide_true, if_true]

theorem State.ccTake_faulted (op : Nat) : s.ccTake c tag k op = s.respond c tag 2 0 := by
  simp only [State.ccTake, hy, State.portFaulted, hf, decide_true, if_true]

theorem State.ccRead_faulted : s.ccRead c tag k = s.respond c tag 2 0 := by
  simp only [State.ccRead, hy, State.portFaulted, hf, decide_true, if_true]

end

variable (hf : (s.ctx y.p.e.ref.ctx).st ≠ .faulted)
include hf

/-- The record of a task's first CC_SIGNAL that saturates (R136, Table 15.2). -/
def State.ccOverflow (s : State) (c k : Nat) (r : TaskRef) : Err :=
  { unit := 3, inst := s.seqPos (c / 8), cls := 1, code := 0x03, ctx := some r.ctx, a := k + 2 ^ 63, b := 3, c := s.effOf r }

theorem State.ccSignal_none (h0 : inc % 2 ^ 32 = 0) : s.ccSignal c tag k inc = s.respond c tag 0 0 := by
  simp only [State.ccSignal, hy, State.portFaulted, hf, decide_false, Bool.false_eq_true, if_false]
  exact if_pos h0

theorem State.ccSignal_live (h0 : inc % 2 ^ 32 ≠ 0) : s.ccSignal c tag k inc =
    let r := y.p.e.ref
    let top := min (s.cc c k + inc % 2 ^ 32) ccMax
    let put := s.setCc c k top
    let noted := if ccMax < s.cc c k + inc % 2 ^ 32 ∧ (!((s.task? r).getD {}).ccOver) = true then
      (put.updTask r fun t => { t with ccOver := true }).err (s.ccOverflow c k r) else put
    (noted.respond c tag 0 0).ccRelease c k (top - s.cc c k) := by
  simp only [State.ccSignal, hy, State.portFaulted, hf, decide_false, Bool.false_eq_true, if_false]
  exact if_neg h0

theorem State.ccSignal_quiet (h0 : inc % 2 ^ 32 ≠ 0)
    (h : s.cc c k + inc % 2 ^ 32 < 2 ^ 32 ∨ (s.task? y.p.e.ref).map Task.ccOver = some true) :
    let top := min (s.cc c k + inc % 2 ^ 32) ccMax
    s.ccSignal c tag k inc = ((s.setCc c k top).respond c tag 0 0).ccRelease c k (top - s.cc c k) := by
  intro top
  rw [State.ccSignal_live hy hf h0]
  dsimp only
  rw [if_neg]
  rintro ⟨high, first⟩
  rcases h with h | h
  · unfold ccMax at high
    omega
  · obtain ⟨t, ht, noted⟩ := Option.map_eq_some_iff.1 h
    simp [ht, noted] at first

theorem State.ccSignal_records (h0 : inc % 2 ^ 32 ≠ 0) (high : 2 ^ 32 ≤ s.cc c k + inc % 2 ^ 32)
    (h : (s.task? y.p.e.ref).map Task.ccOver ≠ some true) :
    let top := min (s.cc c k + inc % 2 ^ 32) ccMax
    s.ccSignal c tag k inc = ((((s.setCc c k top).updTask y.p.e.ref fun t => { t with ccOver := true }).err
      (s.ccOverflow c k y.p.e.ref)).respond c tag 0 0).ccRelease c k (top - s.cc c k) := by
  intro top
  rw [State.ccSignal_live hy hf h0]
  dsimp only
  rw [if_pos]
  refine ⟨by unfold ccMax; omega, ?_⟩
  cases ht : s.task? y.p.e.ref with
  | none => rfl
  | some t => simpa [ht] using h

theorem State.ccWait_takes (hv : s.cc c k ≠ 0) : s.ccWait c tag k = (s.setCc c k (s.cc c k - 1)).respond c tag 0 0 := by
  simp only [State.ccWait, hy, State.portFaulted, hf, decide_false, Bool.false_eq_true, if_false]
  exact if_neg hv

theorem State.ccWait_waits (hv : s.cc c k = 0) :
    s.ccWait c tag k = s.updCore c fun x => { x with ccWaits := x.ccWaits ++ [(k, tag)] } := by
  simp only [State.ccWait, hy, State.portFaulted, hf, decide_false, Bool.false_eq_true, if_false]
  exact if_pos hv

theorem State.ccTake_live (op : Nat) : s.ccTake c tag k op =
    if op = 6 then if s.cc c k = 0 then s.ccUnder c tag k y else (s.setCc c k (s.cc c k - 1)).respond c tag 0 0
    else if op = 0 ∨ 7 < op then s.ccUnder c tag k y else s := by
  simp only [State.ccTake, hy, State.portFaulted, hf, decide_false, Bool.false_eq_true, if_false]

theorem State.ccTake_takes (hv : s.cc c k ≠ 0) : s.ccTake c tag k 6 = (s.setCc c k (s.cc c k - 1)).respond c tag 0 0 :=
  (State.ccTake_live hy hf 6).trans ((if_pos rfl).trans (if_neg hv))

theorem State.ccTake_under (hv : s.cc c k = 0) : s.ccTake c tag k 6 = s.ccUnder c tag k y :=
  (State.ccTake_live hy hf 6).trans ((if_pos rfl).trans (if_pos hv))

theorem State.ccTake_undefined {op : Nat} (ho : op = 0 ∨ 7 < op) : s.ccTake c tag k op = s.ccUnder c tag k y :=
  (State.ccTake_live hy hf op).trans ((if_neg (by omega)).trans (if_pos ho))

theorem State.ccRead_answers : s.ccRead c tag k = s.respond c tag 0 (wd (s.cc c k)) := by
  simp only [State.ccRead, hy, State.portFaulted, hf, decide_false, Bool.false_eq_true, if_false]

end

/-- Settles O55: each request by the state of its task's context and by its counter's value. -/
theorem coreCounterRequests : Obligations.CoreCounterRequests := by
  unfold Obligations.CoreCounterRequests
  intro s c tag k inc y hw hy r faulted v i top put answer under full
  refine ⟨fun hf => ⟨?_, ?_, fun op => ?_, ?_⟩, fun hf h0 => ?none, fun hf h0 h => ?quiet, fun hf h0 high h => ?records,
    fun n => ?releases, fun hf hv => ⟨?waitTakes, ?takes⟩, fun hf hv => ⟨?waits, ?empty⟩, fun op hf ho => ?undefined,
    fun hf => ?read⟩
  · exact exec_next rfl (State.ccSignal_faulted hy hf) hw
  · exact exec_next rfl (State.ccWait_faulted hy hf) hw
  · exact exec_next rfl (State.ccTake_faulted hy hf op) hw
  · exact exec_next rfl (State.ccRead_faulted hy hf) hw
  case none => exact exec_next rfl (State.ccSignal_none hy hf h0) hw
  case quiet => exact exec_next rfl (State.ccSignal_quiet hy hf h0 h) ((State.ccRelease_work _ c k _).trans hw)
  case records => exact leads_eq rfl (State.ccSignal_records hy hf h0 high h)
  case releases => exact s.ccRelease_releases n c k
  case waitTakes => exact exec_next rfl (State.ccWait_takes hy hf hv) hw
  case takes => exact exec_next rfl (State.ccTake_takes hy hf hv) hw
  case waits => exact exec_next rfl (State.ccWait_waits hy hf hv) hw
  case empty => exact leads_eq rfl (State.ccTake_under hy hf hv)
  case undefined => exact leads_eq rfl (State.ccTake_undefined hy hf ho)
  case read => exact exec_next rfl (State.ccRead_answers hy hf) hw

end Sys2Proof.Machine

namespace Sys2Proof.Machine

/-! ## Trailing signals on their channel (R141, R282, Table 12.5) -/

theorem State.trailSend_places {s : State} (up : s.up = true) (still : s.gcs.changing = false) : s.trailSend = s.trailPlace :=
  if_pos (by rw [up, still]; rfl)

/-! ## A record that arrives (R142, R283) -/

section
variable {s : State} {w0 w1 w2 : Word}

theorem State.trailIn_again (h : (bits w0 27 18, bits w2 47 0) ∈ s.ctu.seen) : s.trailIn w0 w1 w2 = s :=
  if_pos (.inr (List.contains_iff_mem.2 h))

/-- The record's source and number, once seen (R283). -/
def State.trailSeen (s : State) (w0 w2 : Word) : State :=
  { s with ctu := { s.ctu with seen := s.ctu.seen ++ [(bits w0 27 18, bits w2 47 0)] } }

/-- What a TRAIL record asks for (Table 5.5). -/
def trailOf (w0 w1 : Word) : Trail := { inc := bits w0 63 32, handle := w1, poison := bit w0 28 }

/-- The ACK of a record, with result `r` (Table 12.5 step 5). -/
def ackOf (w0 w1 w2 : Word) (r : Nat) : List Word :=
  [wd (fld (bits w0 63 32) 32 32 + fld (bits w0 17 8) 10 18 + fld (bits w0 27 18) 10 8 + 2), w1, wd (fld (bits w2 47 0) 48 0), wd r]

variable (record : bits w0 7 0 = 1) (h : (bits w0 27 18, bits w2 47 0) ∉ s.ctu.seen)
include record h

theorem State.trailIn_new : s.trailIn w0 w1 w2 =
    if s.trailTest w1 = 0 then (s.trailSeen w0 w2).push [.trailAct (trailOf w0 w1) (bits w0 27 18) (ackOf w0 w1 w2 0)]
    else (s.trailSeen w0 w2).trailRefused (trailOf w0 w1) (s.trailTest w1) (ackOf w0 w1 w2 0) := by
  unfold State.trailIn
  dsimp only
  rw [if_neg (by simp [record, h])]
  rfl

theorem State.trailIn_tested (ht : s.trailTest w1 = 0) : s.trailIn w0 w1 w2 =
    (s.trailSeen w0 w2).push [.trailAct (trailOf w0 w1) (bits w0 27 18) (ackOf w0 w1 w2 (s.trailTest w1))] := by
  rw [State.trailIn_new record h, if_pos ht, ht]

theorem State.trailIn_refused (ht : s.trailTest w1 ≠ 0) : s.trailIn w0 w1 w2 =
    (s.trailSeen w0 w2).trailRefused (trailOf w0 w1) (s.trailTest w1) (ackOf w0 w1 w2 0) := by
  rw [State.trailIn_new record h, if_neg ht]

end

/-! ## A record that the CTU applies (R142, R144) -/

section
variable {s : State} {x : Trail} {source : Nat} {ack : List Word}

/-- The signal or the poison of a record, on the counter that its handle names. -/
def State.trailDone (s : State) (x : Trail) (source : Nat) : State :=
  if x.poison then s.doPoison (bits x.handle 59 48) (bits x.handle 47 24)
  else s.doSignal (bits x.handle 59 48) (bits x.handle 47 24) x.inc { code := 4, arg := source } none

theorem State.trailActed_applies (h : s.trailTest x.handle = 0) : s.trailActed x source ack =
    if ack = [] then (s.trailDone x source).trailSettled x none else (s.trailDone x source).trailAck ack := by
  simp only [State.trailActed, h]
  rfl

theorem State.trailActed_refuses (h : s.trailTest x.handle ≠ 0) :
    s.trailActed x source ack = s.trailRefused x (s.trailTest x.handle) ack := by
  unfold State.trailActed
  split
  · contradiction
  · rfl

end

/-- What R142 asks of a handle besides that trailing signals are enabled. -/
def State.handleGood (s : State) (h : Word) : Prop :=
  bits h 63 60 = 1 ∧ bits h 7 0 = handleCheck h ∧ s.defined (bits h 59 48) = true ∧ (s.ctx (bits h 59 48)).gen = bits h 23 8 ∧
    bits h 47 24 < s.idLimit (bits h 59 48) ∧ (s.ctr (bits h 59 48) (bits h 47 24)).exported = true

theorem State.trailTest_disabled {s : State} (off : s.ctu.trailEn = false) (h : Word) : s.trailTest h = 2 :=
  if_pos (by rw [off]; rfl)

section
variable {s : State} {h : Word} (on : s.ctu.trailEn = true)
include on

theorem State.trailTest_good (good : s.handleGood h) : s.trailTest h = 0 := by
  obtain ⟨kind, check, defd, gen, limit, exported⟩ := good
  simp [State.trailTest, on, kind, check, defd, gen, limit, exported]

theorem State.trailTest_bad (bad : ¬ s.handleGood h) : s.trailTest h = 1 := by
  unfold State.trailTest
  dsimp only
  rw [if_neg (by simp [on])]
  split
  · rfl
  next form =>
  split
  · rfl
  next named =>
  split
  · rfl
  next limit =>
  refine if_pos ?_
  simp only [State.handleGood, not_or, not_not, Bool.not_eq_true', Bool.not_eq_false, Nat.not_le] at bad form named limit ⊢
  exact Bool.eq_false_iff.2 fun exported => bad ⟨form.1, form.2, named.1, named.2, limit, exported⟩

end

/-! ## Acknowledgements and timeouts (R143, R283) -/

/-- The sender's list without the record `x` (R283). -/
def State.trailTaken (s : State) (x : Trail) : State :=
  { s with ctu := { s.ctu with sent := s.ctu.sent.filter fun y => !(decide (y.dest = x.dest) && decide (y.seq = x.seq)) } }

theorem State.trailClose_found {s : State} {f : Trail → Bool} {x : Trail} (h : s.ctu.sent.find? f = some x) (reason : Option Nat) :
    s.trailClose f reason = (s.trailTaken x).trailSettled x reason := by
  simp only [State.trailClose, h]
  rfl

theorem State.trailClose_none {s : State} {f : Trail → Bool} (h : s.ctu.sent.find? f = none) (reason : Option Nat) :
    s.trailClose f reason = s := by
  simp only [State.trailClose, h]

theorem find?_and_of_find? {α : Type} {f g : α → Bool} {a : α} {l : List α} (h : l.find? f = some a) (ha : g a = true) :
    (l.find? fun x => f x && g x) = some a := by
  induction l with
  | nil => cases h
  | cons b l ih =>
    by_cases hb : f b = true
    · obtain rfl : b = a := by simpa [hb] using h
      simp [hb, ha]
    · simpa [hb] using ih (by simpa [hb] using h)

section
variable {s : State} {dest seq : Nat} {x : Trail}

theorem State.trailTimeout_late (h : s.ctu.sent.find? (fun x => decide (x.dest = dest) && decide (x.seq = seq)) = some x)
    (late : x.sentAt + 1000000 ≤ s.env.now) :
    s.trailTimeout dest seq = (s.trailTaken x).trailSettled x (some 0) :=
  State.trailClose_found (find?_and_of_find? h (decide_eq_true late)) _

theorem State.trailTimeout_early (only : ∀ y ∈ s.ctu.sent, y.dest = dest → y.seq = seq → y = x)
    (early : s.env.now < x.sentAt + 1000000) : s.trailTimeout dest seq = s := by
  refine State.trailClose_none (List.find?_eq_none.2 fun y hy => ?_) _
  simp only [Bool.and_eq_true, decide_eq_true_eq, not_and]
  rintro ⟨hd, hq⟩
  rw [only y hy hd hq]
  exact Nat.not_le.2 early

end

/-- Settles O59: a record is placed, tested on its arrival and again when it is applied, and closed by its ACK, its timeout or its link. -/
theorem trailingSignals : Obligations.TrailingSignals := by
  unfold Obligations.TrailingSignals
  rintro s ⟨hw, still⟩
  refine ⟨fun t x l up hl => ?send, fun w0 w1 w2 record => ⟨fun seen => ?again, fun new => ⟨fun h => ?tested, fun h => ?refused⟩⟩,
    fun m x source ack => ⟨fun h ha => ?settles, fun h ha => ?acknowledges, fun h ha => ?fails, fun h ha => ?answers, ?tests⟩,
    ⟨fun w0 w1 w2 w3 x hx => ?ack, fun dest seq t x hx only => ⟨fun late => ?late, fun early => ?early⟩⟩, fun herd => ?link⟩
  case send =>
    have placed : (s.at t).trailSend = _ := State.trailSend_places up still
    refine exec_next rfl (placed.trans ?_) hw
    have head : (s.at t).ctu.toSend = x :: l := hl
    simp only [State.trailPlace, head]
    rfl
  case again => exact next_push (w := .trailIn w0 w1 w2) rfl hw still (State.trailIn_again seen) hw
  case tested => exact leads_push (w := .trailIn w0 w1 w2) rfl hw still (State.trailIn_tested record new h)
  case refused => exact next_push (w := .trailIn w0 w1 w2) rfl hw still (State.trailIn_refused record new h) hw
  case settles => exact (State.trailActed_applies h).trans (if_pos ha)
  case acknowledges => exact (State.trailActed_applies h).trans (if_neg ha)
  case fails => exact (State.trailActed_refuses h).trans (if_pos ha)
  case answers => exact (State.trailActed_refuses h).trans (if_neg ha)
  case tests =>
    exact ⟨fun off => State.trailTest_disabled off _, fun on bad => State.trailTest_bad on bad,
      fun on good => State.trailTest_good on good⟩
  case ack => exact leads_push (w := .ackIn w0 w1 w2 w3) rfl hw still (State.trailClose_found hx _)
  case late => exact leads_eq rfl (State.trailTimeout_late (s := s.at t) hx late)
  case early => exact exec_next rfl (State.trailTimeout_early (s := s.at t) only early) hw
  case link => exact ⟨leads_of rfl, leads_of rfl⟩

end Sys2Proof.Machine

namespace Sys2Proof.Machine

/-! ## A gait request and its acknowledgement (R284, R285) -/

/-- A change to gait `sel` begins (Table 12.6 step 1). -/
def State.gaitBegin (s : State) (sel : Nat) : State :=
  { s with gcs := { s.gcs with changing := true, gaitSel := sel, gaitStart := s.env.now, gaitAck := false } }

section
variable {s : State} {sel : Nat} (hs : sel < 3)
include hs

theorem State.gaitReq_changing (h : s.gcs.changing = true) :
    s.gaitReq sel = { s with gcs := { s.gcs with gaitNext := some sel } } :=
  (if_neg (Nat.not_le.2 hs)).trans (if_pos h)

variable (h : s.gcs.changing = false)
include h

/-- A request begins a change, which is acknowledged at once where nothing drains (R285). -/
theorem State.gaitReq_still : s.gaitReq sel =
    if (s.gaitBegin sel).noDrain then (s.gaitBegin sel).raiseAck else s.gaitBegin sel :=
  (if_neg (Nat.not_le.2 hs)).trans (if_neg (Bool.eq_false_iff.1 h))

theorem State.gaitReq_drains (hg : s.gcs.state = 2 ∨ s.gcs.state = 3) : s.gaitReq sel = s.gaitBegin sel := by
  rw [State.gaitReq_still hs h, if_neg]
  obtain hg | hg := hg <;> simp [State.noDrain, State.gaitBegin, hg]

theorem State.gaitReq_undrained (hg : s.gcs.state = 0 ∨ s.gcs.state = 1 ∨ s.gcs.state = 4) :
    s.gaitReq sel = (s.gaitBegin sel).raiseAck := by
  rw [State.gaitReq_still hs h, if_pos]
  obtain hg | hg | hg := hg <;> simp [State.noDrain, State.gaitBegin, hg]

end

theorem State.gaitAcked_raises {s : State} (h : s.gcs.changing = true) (ha : s.gcs.gaitAck = false) :
    s.gaitAcked = s.raiseAck :=
  if_pos (by simp [h, ha])

/-! ## The end of a change, and the request behind it (R178, R284, R285) -/

/-- The block has taken the new gait; no stage is verified yet (Table 12.6 step 4). -/
def State.gaitEnd (s : State) : State :=
  { s.stretchSusp s.gcs.gaitStart with gcs := { s.gcs with
    changing := false, gaitAck := false, gait := s.gcs.gaitSel, changes := (s.gcs.changes + 1) % 2 ^ 32,
    lastUs := min ((s.env.now - s.gcs.gaitStart) / 1000) 0xFFFF } }

theorem State.gaitDone_ends {s : State} (h : s.gcs.changing = true) (ha : s.gcs.gaitAck = true) (bad : List Wear) :
    s.gaitDone bad = (bad.foldl State.wearVerify s.gaitEnd).irq 6 :=
  if_neg (by simp [h, ha])

@[simp] theorem State.irq_gaitNext (s : State) (i : Nat) : (s.irq i).gcs.gaitNext = s.gcs.gaitNext := by
  unfold State.irq
  dsimp only
  split
  · rfl
  · split <;> rfl

theorem State.gaitFollow_none {s : State} (h : s.gcs.gaitNext = none) : s.gaitFollow = s := by
  rw [State.gaitFollow, h]

theorem State.gaitFollow_begins {s : State} {k : Nat} (h : s.gcs.gaitNext = some k) (hk : k < 3)
    (hc : s.gcs.changing = false) (hg : s.gcs.state = 2 ∨ s.gcs.state = 3) :
    s.gaitFollow = State.gaitBegin { s with gcs := { s.gcs with gaitNext := none } } k := by
  rw [State.gaitFollow, h]
  exact (if_neg (Bool.eq_false_iff.1 hc)).trans (State.gaitReq_drains hk hc hg)

/-- A change that ends lengthens the bound of a suspension under way, and of nothing else (R178). -/
theorem State.ctx_stretchSusp (s : State) (start c : Nat) : (s.stretchSusp start).ctx c =
    if (s.ctx c).st = .suspending then { s.ctx c with suspBound := (s.ctx c).suspBound + (s.env.now - start) }
    else s.ctx c := by
  let longer (x : Ctx) : Ctx := if x.st = .suspending then { x with suspBound := x.suspBound + (s.env.now - start) } else x
  have found : AL.get? c (s.stretchSusp start).ctxs = (AL.get? c s.ctxs).map longer := AL.get?_map c longer s.ctxs
  unfold State.ctx AL.get
  rw [found]
  cases AL.get? c s.ctxs <;> rfl

theorem State.suspBound_gaitEnd (s : State) (c : Nat) : (s.gaitEnd.ctx c).suspBound =
    (s.ctx c).suspBound + if (s.ctx c).st = .suspending then s.env.now - s.gcs.gaitStart else 0 := by
  have kept : s.gaitEnd.ctx c = (s.stretchSusp s.gcs.gaitStart).ctx c := rfl
  rw [kept, State.ctx_stretchSusp]
  split <;> rfl

/-- What a change held is performed, and only then is a request behind it taken up (R285). -/
theorem exec_gaitDone {s : State} (t : Nat) (hc : s.gcs.changing = true) (ha : s.gcs.gaitAck = true) (bad : List Wear) :
    exec (.gaitDone bad t) s =
      Host.Outcome.next (settle (settle ((bad.foldl State.wearVerify (s.at t).gaitEnd).irq 6)).gaitFollow) := by
  rw [← State.gaitDone_ends (s := s.at t) hc ha]
  rfl

theorem settle_gaitFollow_none {u : State} (h : u.gcs.gaitNext = none) : settle u.gaitFollow = settle u := by
  rw [State.gaitFollow_none h]

theorem acts_gaitFollow {u : State} {k : Nat} (h : u.gcs.gaitNext = some k) (hk : k < 3) (hc : u.gcs.changing = false)
    (hg : u.gcs.state = 2 ∨ u.gcs.state = 3) :
    Acts (State.gaitBegin { u with gcs := { u.gcs with gaitNext := none } } k) (settle u.gaitFollow) := by
  rw [State.gaitFollow_begins h hk hc hg]
  exact acts_settle _

/-! ## Stages that fail verification (R284) -/

@[simp] theorem State.noteMargin_heldWear (s : State) (x : Wear) : (s.noteMargin x).fsu.heldWear = s.fsu.heldWear := by
  unfold State.noteMargin
  split <;> rfl

@[simp] theorem State.noteMargin_worst (s : State) (x : Wear) :
    (s.noteMargin x).fsu.worst = min x.margin s.fsu.worst := by
  unfold State.noteMargin
  split
  case isTrue lower => exact (Nat.min_eq_left lower.le).symm
  case isFalse higher => exact (Nat.min_eq_right (Nat.not_lt.1 higher)).symm

@[simp] theorem State.pauseUnit_heldWear (s : State) (unit : Nat × Nat) :
    (s.pauseUnit unit).fsu.heldWear = s.fsu.heldWear := by
  unfold State.pauseUnit
  split <;> rfl

@[simp] theorem State.pauseUnit_worst (s : State) (unit : Nat × Nat) : (s.pauseUnit unit).fsu.worst = s.fsu.worst := by
  unfold State.pauseUnit
  split <;> rfl

theorem State.mem_pauseUnit (s : State) (unit : Nat × Nat) : unit ∈ (s.pauseUnit unit).fsu.paused := by
  unfold State.pauseUnit
  split
  case isTrue paused => exact List.contains_iff_mem.1 paused
  case isFalse => exact List.mem_append_right _ (List.mem_singleton.2 rfl)

section
variable {s : State} (x : Wear)

theorem State.wearVerify_acts (up : s.up = true) (runs : s.roleRuns 2 = true) : s.wearVerify x = s.wearAct x true :=
  if_pos (by rw [up, runs]; rfl)

theorem State.wearVerify_off (h : s.gcs.state = 0) : s.wearVerify x = s := by
  have down : s.up = false := by simp [State.up, h]
  rw [State.wearVerify, down]
  exact if_pos h

/-- While role 2 does not run the stage is noted, and its unit paused till role 2 decides. -/
theorem State.wearVerify_held (on : s.gcs.state ≠ 0) (h : s.up = false ∨ s.roleRuns 2 = false) :
    s.wearVerify x = State.pauseUnit { s.noteMargin x with
      fsu := { (s.noteMargin x).fsu with heldWear := (s.noteMargin x).fsu.heldWear ++ [(x, true)] } } (x.kind, x.inst) := by
  rw [State.wearVerify, if_neg, if_neg on]
  obtain h | h := h <;> simp [h]

end

/-! ## Firmware's own request (R285, Table 12.8) -/

theorem State.tthGaitReq_raises {s : State} {k : Nat} (hk : k < 4) (up : s.up = true) (runs : s.roleRuns 3 = true) :
    s.tthGaitReq k = { s with tth := { s.tth with reqTarget := k, req := true } } :=
  if_neg (by simp [up, runs, hk])

theorem State.onUnits_up {s : State} (up : s.up = true) (f : State → State) : s.onUnits f = f s :=
  if_pos (by simp [State.unitsOn, up])

theorem State.gaitAnswer_asked {s : State} (h : s.tth.req = true) (d : Bool) :
    s.gaitAnswer d = { s with tth := { s.tth with req := false, reqDenied := d } } :=
  if_pos h

/-- Settles O23: each row by its equation; the end of a change is settled before a request behind it is taken up. -/
theorem gaitChanges : Obligations.GaitChanges := by
  unfold Obligations.GaitChanges
  intro s t sel
  refine ⟨fun hs hc => ⟨fun hg => ?drains, fun hg => ?undrained, fun hw hg => ?begins⟩, fun hs hc => ?behind,
    fun hc ha => ?acknowledged, fun hc ha => ⟨fun bad => ?done, fun w ws takes => ?held, fun hw hn => ?ends⟩,
    fun u x => ⟨State.wearVerify_acts x, State.wearVerify_off x, fun on h => ?noted⟩, (s.at t).suspBound_gaitEnd,
    fun hw k hk up runs => ?asks, fun hw d asked => ?answers⟩
  case drains => exact leads_eq rfl (State.gaitReq_drains (s := s.at t) hs hc hg)
  case undrained => exact leads_eq rfl (State.gaitReq_undrained (s := s.at t) hs hc hg)
  case begins => exact exec_next rfl (State.gaitReq_drains (s := s.at t) hs hc hg) hw
  case behind => exact leads_eq rfl (State.gaitReq_changing (s := s.at t) hs hc)
  case acknowledged => exact leads_eq rfl (State.gaitAcked_raises (s := s.at t) hc ha)
  case done => exact ⟨_, _, exec_gaitDone t hc ha bad, acts_settle _, settle_gaitFollow_none, fun k => acts_gaitFollow⟩
  case held =>
    have first : takeWork ((s.at t).gaitEnd.irq 6).holds ((s.at t).gaitEnd.irq 6).work = some (w, ws) := by
      rw [State.irq_work]
      exact takes
    exact ⟨_, _, exec_gaitDone t hc ha [], acts_settle_cons first, settle_gaitFollow_none⟩
  case ends =>
    have idle : ((s.at t).gaitEnd.irq 6).work = [] := (State.irq_work _ 6).trans hw
    have alone : ((s.at t).gaitEnd.irq 6).gcs.gaitNext = none := (State.irq_gaitNext _ 6).trans hn
    rw [exec_gaitDone t hc ha, List.foldl_nil, settle_nil idle, State.gaitFollow_none alone, settle_nil idle]
    rfl
  case noted =>
    rw [State.wearVerify_held x on h]
    simp [State.mem_pauseUnit]
  case asks => exact exec_next rfl ((State.onUnits_up up _).trans (State.tthGaitReq_raises hk up runs)) hw
  case answers => exact exec_next rfl (State.gaitAnswer_asked asked d) hw

end Sys2Proof.Machine

namespace Sys2Proof.Machine

/-! ## Quantum windows (R172) -/

theorem State.windowEnd_ends {s : State} {c : Nat} (h : (s.ctx c).st = .resident)
    (past : (s.ctx c).windowAt + (s.ctx c).windowLen ≤ s.env.now) :
    s.windowEnd c = (s.setCtx c { s.ctx c with
      windowAt := (s.ctx c).windowAt + (s.ctx c).windowLen, windowLen := s.quantumNs c, windowEnded := true,
      overruns := 0 }).displace :=
  if_neg (not_or.2 ⟨not_not.2 h, Nat.not_lt.2 past⟩)

/-! ## A suspension that completes (R174, Table 7.6 step 8) -/

/-- The context has left its place, its cached waiters written back: SUSPENDED where a CTX_SUSPEND holds it, WAITING otherwise. -/
def State.suspendLeft (s : State) (c : Nat) : State :=
  ((((s.writeBackWaiters c).setCtx c { s.ctx c with
    place := none, suspCmd := [], suspHold := false, waitingAt := s.env.now }).setCtxState c
      (if (s.ctx c).suspHold then .suspended else .waiting)).updStop c).stray fun _ y => y = c

/-- A CTX_SUSPEND completes, PARTIAL where clusters failed to drain (Table 2.14). -/
def State.suspendAnswer (failed : List Nat) (s : State) (p : Nat × Nat) : State :=
  let v := s.updCmd p.1 p.2 fun y => { y with failed := failed }
  if failed = [] then v.complete p.1 p.2 .ok 0 else v.complete p.1 p.2 .partialOk failed.length

theorem State.suspendFinish_left {s : State} {c : Nat} (h : (s.ctx c).st = .suspending)
    (cores : ∀ k ∈ s.coresHolding c, k / 8 ∈ (s.ctx c).suspFailed) (ges : s.onGes c = false)
    (specs : ∀ p ∈ s.specTasks, p.1.ctx ≠ c) :
    s.suspendFinish c =
      ((s.ctx c).suspCmd.foldl (State.suspendAnswer (s.ctx c).suspFailed) (s.suspendLeft c)).testPlace c := by
  refine if_neg ?_
  simpa [h, ges] using And.intro cores specs

/-! ## A free place (R170, R171, R179) -/

/-- The places that displaced contexts leave stay promised to those that still want one (R171). -/
def State.heirsKept (s : State) : State :=
  { s with gd := { s.gd with heirs := s.gd.heirs.filter fun p => s.wantsPlace p.2 } }

theorem State.heirsKept_self {s : State} (h : ∀ p ∈ s.gd.heirs, s.wantsPlace p.2 = true) : s.heirsKept = s := by
  rw [State.heirsKept, List.filter_eq_self.2 h]

/-- The lowest free place goes to the context that displaced for it, or to the first that waits (R170, R171). -/
def State.givePlace (s : State) : State := match s.freePlaces with
  | [] => s
  | p :: _ =>
    match s.gd.heirs.find? fun h => (s.ctx h.1).place.isNone with
    | some h => (State.enterPlace { s with gd := { s.gd with heirs := s.gd.heirs.filter fun x => x ≠ h } } h.2 p).displace
    | none => match s.candidates.find? fun c => !(s.gd.heirs.any fun h => h.2 = c) with
      | some c => (s.enterPlace c p).displace
      | none => s

theorem State.makeResident_gives {s : State} (acts : s.fwActs = true) (h : ∀ p ∈ s.gd.heirs, s.wantsPlace p.2 = true) :
    s.makeResident = s.givePlace := by
  have kept : s.makeResident = s.heirsKept.givePlace := if_neg (by simp [acts])
  rw [kept, State.heirsKept_self h]

theorem State.givePlace_full {s : State} (h : s.freePlaces = []) : s.givePlace = s := by
  rw [State.givePlace, h]

section
variable {s : State} {p : Nat} {r : List Nat} (free : s.freePlaces = p :: r)
include free

theorem State.givePlace_first {k : Nat} {l : List Nat} (h : s.gd.heirs = []) (waits : s.candidates = k :: l) :
    s.givePlace = (s.enterPlace k p).displace := by
  simp [State.givePlace, free, h, waits]

theorem State.givePlace_unwanted (h : s.gd.heirs = []) (unwanted : s.candidates = []) : s.givePlace = s := by
  simp [State.givePlace, free, h, unwanted]

theorem State.givePlace_heir {h : Nat × Nat} (one : s.gd.heirs = [h]) (left : (s.ctx h.1).place = none) :
    s.givePlace = (State.enterPlace { s with gd := { s.gd with heirs := [] } } h.2 p).displace := by
  simp [State.givePlace, free, one, left]

end

/-! ## The drain limit (R178, Table 2.14) -/

/-- The cluster of core `k` has failed to drain. -/
def State.drainFailed (s : State) (c k : Nat) : State := s.updCtx c fun z =>
  { z with suspFailed := if z.suspFailed.contains (k / 8) then z.suspFailed else z.suspFailed ++ [k / 8] }

/-- Core `k` is taken from its task, and its cluster fails. -/
def State.drainOff (s : State) (c k : Nat) : State := ((s.forceOff k).dropCoreWaits k).drainFailed c k

/-- A task taken from its core is ready again: to run from the start, or from its saved state where it was resuming. -/
def State.drainKept (s : State) (c : Nat) (y : Running) : State :=
  ((if y.p.e.slot = 0 then s.freeSlots y.p.e.ref else
    s.updCtx c fun z => { z with slots := AL.upd z.slots y.p.rslot fun v => { v with saved := true } }).updTask y.p.e.ref
      fun t => { t with st := .ready, ran := t.ran && decide (y.p.e.slot ≠ 0) }).saveEntry y.p.e

/-- What the drain limit does where core `k` alone still holds a task of the context. -/
def State.drainCore (s : State) (c k : Nat) (y : Running) : State :=
  if y.discard then s.drainFailed c k
  else if s.unsaved y then (s.drainOff c k).taskGone y.p.e.ref .discarded
  else (s.drainOff c k).drainKept c y

theorem State.drainLimit_core {s : State} {c k : Nat} {y : Running} (h : (s.ctx c).st = .suspending)
    (asked : (s.ctx c).suspCmd ≠ []) (still : s.gcs.changing = false) (late : (s.ctx c).suspBound + 1000000 ≤ s.env.now)
    (alone : s.coresHolding c = [k]) (runs : (s.core k).running = some y) : s.drainLimit c = s.drainCore c k y := by
  refine (if_neg (by simp [h, asked, still, late])).trans ?_
  rw [alone, List.foldl_cons, List.foldl_nil, runs]
  rfl

section
variable {s : State} {y : Running} (c k : Nat)

theorem State.drainCore_discarding (h : y.discard = true) : s.drainCore c k y = s.drainFailed c k := if_pos h

variable (h : y.discard = false)
include h

theorem State.drainCore_unsaved (lost : s.unsaved y = true) :
    s.drainCore c k y = (s.drainOff c k).taskGone y.p.e.ref .discarded :=
  (if_neg (Bool.eq_false_iff.1 h)).trans (if_pos lost)

theorem State.drainCore_keeps (saved : s.unsaved y = false) : s.drainCore c k y = (s.drainOff c k).drainKept c y :=
  (if_neg (Bool.eq_false_iff.1 h)).trans (if_neg (Bool.eq_false_iff.1 saved))

end

/-- Settles O57: the ends of windows and suspensions by their equations, a free place by who is to have it, the drain limit by
what becomes of the task. -/
theorem contextTimers : Obligations.ContextTimers := by
  unfold Obligations.ContextTimers
  intro s c t u x
  refine ⟨fun h past => ?window, fun h cores ges specs => ?completes, fun acts unclaimed => ⟨fun p r k l free waits => ?first,
    fun idle => ?stays⟩, fun acts h p r one wants left free => ?heir, fun k y h asked still late alone runs => ?limit⟩
  case window => exact leads_eq rfl (State.windowEnd_ends h past)
  case completes => exact leads_eq rfl (congrArg State.refillAll (State.suspendFinish_left h cores ges specs))
  case first =>
    exact leads_eq rfl ((State.makeResident_gives acts (by simp [unclaimed])).trans (State.givePlace_first free unclaimed waits))
  case stays =>
    refine leads_eq rfl ((State.makeResident_gives acts (by simp [unclaimed])).trans ?_)
    cases free : u.freePlaces with
    | nil => exact State.givePlace_full free
    | cons p r => exact State.givePlace_unwanted free unclaimed (idle.resolve_left (by simp [free]))
  case heir =>
    exact leads_eq rfl ((State.makeResident_gives acts (by simp [one, wants])).trans (State.givePlace_heir free one left))
  case limit =>
    have limit : u.drainLimit c = u.drainCore c k y := State.drainLimit_core h asked still late alone runs
    exact ⟨fun discards => leads_eq rfl (limit.trans (State.drainCore_discarding c k discards)),
      fun held lost => leads_eq rfl (limit.trans (State.drainCore_unsaved c k held lost)),
      fun held saved => leads_eq rfl (limit.trans (State.drainCore_keeps c k held saved))⟩

end Sys2Proof.Machine

namespace Sys2Proof.Machine

/-! ## Scalar registers (R222) -/

@[simp] theorem GeRun.reg_zero (y : GeRun) : y.reg 0 = 0 := rfl

@[simp] theorem GeRun.setReg_zero (y : GeRun) (v : Word) : y.setReg 0 v = y := rfl

theorem GeRun.setReg_regs {n : Nat} (h : n ≠ 0) (y : GeRun) (v : Word) :
    y.setReg n v = { y with regs := AL.put n v y.regs } := if_neg h

theorem GeRun.reg_setReg_self {n : Nat} (h : n ≠ 0) (y : GeRun) (v : Word) : (y.setReg n v).reg n = v := by
  simp [GeRun.setReg_regs h, GeRun.reg, h]

theorem GeRun.reg_setReg_ne {m n : Nat} (h : m ≠ n) (y : GeRun) (v : Word) : (y.setReg n v).reg m = y.reg m := by
  by_cases hn : n = 0
  · rw [hn, GeRun.setReg_zero]
  · simp [GeRun.setReg_regs hn, GeRun.reg, AL.get_put_ne h]

/-- Settles O8: s0 is read and written outside the register file, and the others are entries of it. -/
theorem scalarRegisterZeroIsHardwired : Obligations.ScalarRegisterZeroIsHardwired := by
  unfold Obligations.ScalarRegisterZeroIsHardwired
  exact fun y n v => ⟨y.reg_zero, y.setReg_zero v, fun h => y.reg_setReg_self h v, fun _ h => y.reg_setReg_ne h v⟩

end Sys2Proof.Machine

namespace Sys2Proof.Machine

/-! ## How an instruction ends (R222, R226, Table 9.8) -/

theorem State.atInsn.idle {s : State} {g : Nat} {y : GeRun} (h : s.atInsn g y) : s.work = [] := h.1.1

theorem State.atInsn.runs {s : State} {g : Nat} {y : GeRun} (h : s.atInsn g y) : (s.ge g).run = some y := h.2.1

/-- Whether an instruction may go on depends on the program, the instruction cache and the accesses that are refused. -/
theorem State.mayGo_of {s t : State} {g pc : Nat} {y z : GeRun} (h : s.mayGo g y pc) (count : z.count = y.count)
    (line : z.line pc = y.line pc) (cache : (t.ge g).icache = (s.ge g).icache) (refused : t.env.refused = s.env.refused) :
    t.mayGo g z pc := by
  have same (a n : Nat) : t.refuses a n = s.refuses a n := by rw [State.refuses, State.refuses, refused]
  rw [State.mayGo, count, line, cache, same]
  exact h

/-- A task that fails under a cause that its record gives, and that is not a lost launch (Table 9.8). -/
theorem State.geFail_recorded {s : State} {g cause : Nat} {y : GeRun} (h : (s.ge g).run = some y) (h0 : cause ≠ 0)
    (h6 : cause ≠ 6) :
    s.geFail g cause = ((s.geRecord g y cause).geLeave g).retireTask y.e.ref .failed (some g) none := by
  simp [State.geFail, h, h0, h6]

section
variable {i : Instr} {s : State} {g : Nat} {y : GeRun} {f : GeRun → State} (he : exec i s = .next (settle (s.geOp i g f)))
  (h : s.atInsn g y) (row : s.geRow g = some i)
include he h row

theorem exec_does {u : State} (hf : f y = u) : exec i s = .next (settle u) := by
  rw [he, State.geOp_at h row, hf]

/-- An instruction whose effect is `u` goes on to the instruction `pc`. -/
theorem exec_goes {u : State} {z : GeRun} {pc : Nat} (hf : f y = u.geNext g z pc) (go : u.mayGo g z pc)
    (idle : u.work = []) : exec i s = .next (u.geGo g z pc) := by
  rw [exec_does he h row hf, State.geNext_go go, settle_geGo idle]

/-- An instruction that writes register `d` alone goes on to the next one. -/
theorem exec_writes {d : Nat} {v : Word} (hf : f y = s.geNext g (y.setReg d v) (y.pc + 1)) (go : s.mayGo g y (y.pc + 1)) :
    exec i s = .next (s.geGo g (y.setReg d v) (y.pc + 1)) :=
  exec_goes he h row hf ((State.mayGo_setReg s g _ d y v).2 go) h.idle

theorem leads_fails {cause : Nat} (hf : f y = s.geFail g cause) (h0 : cause ≠ 0) (h6 : cause ≠ 6) :
    Leads i s (((s.geRecord g y cause).geLeave g).retireTask y.e.ref .failed (some g) none) :=
  leads_of (exec_does he h row (hf.trans (State.geFail_recorded h.runs h0 h6)))

theorem leads_traps {cause : Nat} (hf : f y = s.geTrap g cause) :
    Leads i s ((s.geRecord g y cause).push [.faultQuiet y.e.ref.ctx 0x0F]) :=
  leads_of (exec_does he h row (hf.trans (State.geTrap_at h.runs)))

end

/-! ## Integer instructions (R223, Table 9.6) -/

/-- The immediate above the low half of a word: what LIH writes. -/
theorem lih_word (imm : BitVec 32) (x : Word) :
    (imm.zeroExtend 64 <<< 32) ||| (x &&& 0xFFFFFFFF#64) = imm ++ x.setWidth 32 := by
  apply BitVec.eq_of_toNat_eq
  have high : imm.toNat <<< 32 < 2 ^ 64 := by rw [Nat.shiftLeft_eq]; have := imm.isLt; omega
  have low : x.toNat &&& 0xFFFFFFFF = x.toNat % 2 ^ 32 := Nat.and_two_pow_sub_one_eq_mod x.toNat 32
  have short : imm.toNat % 2 ^ 64 = imm.toNat := Nat.mod_eq_of_lt (by have := imm.isLt; omega)
  simp only [BitVec.toNat_or, BitVec.toNat_and, BitVec.toNat_shiftLeft, BitVec.toNat_setWidth, BitVec.toNat_append,
    BitVec.toNat_ofNat, BitVec.zeroExtend_eq_setWidth, low, short, Nat.mod_eq_of_lt high]

/-- The number of zeros below the lowest set bit, 64 for zero: what CTZ writes. -/
def trailingZeros (x : Word) : Nat := ((List.range 64).find? fun i => bit x i).getD 64

theorem trailingZeros_zero : trailingZeros 0 = 64 := by decide

theorem trailingZeros_lowest {x : Word} (h : x ≠ 0) :
    x.getLsbD (trailingZeros x) = true ∧ ∀ i < trailingZeros x, x.getLsbD i = false := by
  unfold trailingZeros
  cases found : (List.range 64).find? fun i => bit x i with
  | none =>
    refine absurd (BitVec.eq_of_getLsbD_eq fun i hi => ?_) h
    have clear : bit x i = false := by simpa using List.find?_eq_none.1 found i (List.mem_range.2 hi)
    exact clear.trans BitVec.getLsbD_zero.symm
  | some n =>
    obtain ⟨set, -, below⟩ := List.find?_range_eq_some.1 found
    exact ⟨set, fun i hi => by simpa [bit, BitVec.getLsbD] using below i hi⟩

/-- Settles O9: every row is a register instruction, NOP and LI without a source. -/
theorem gateIntegerInstructions : Obligations.GateIntegerInstructions := by
  unfold Obligations.GateIntegerInstructions
  intro s g d a b imm y h go runs writes
  have alu {i : Instr} {a b : Nat} {f : Word → Word → Word} {v : Word}
      (he : exec i s = .next (settle (s.geAlu i g d a b f))) (hv : f (y.reg a) (y.reg b) = v) : runs i (writes v) :=
    fun row => he.trans (congrArg _ ((State.geAlu_at h go row).trans (congrArg writes hv)))
  have zeros (zero : y.reg a = 0) : trailingZeros (y.reg a) = 64 := zero ▸ trailingZeros_zero
  exact ⟨fun row => exec_goes rfl h row rfl go h.idle, fun row => exec_writes rfl h row rfl go,
    alu rfl (lih_word imm (y.reg d)), alu rfl rfl, alu rfl rfl, alu rfl rfl, alu rfl rfl, alu rfl rfl, alu rfl rfl, alu rfl rfl,
    alu rfl rfl, alu rfl rfl, trailingZeros (y.reg a), alu rfl rfl, zeros, trailingZeros_lowest⟩

end Sys2Proof.Machine

namespace Sys2Proof.Machine

/-! ## Binary64 instructions (R220, R223) -/

section
variable {i : Instr} {s : State} {g d : Nat} {y : GeRun} {f : GeRun → Word × Nat} {v : Word} {fl : Nat}
  (he : exec i s = .next (settle (s.geFp i g d f))) (hv : f y = (v, fl)) (h : s.atInsn g y)
include he hv h

theorem exec_geFp (go : s.mayGo g y (y.pc + 1)) (clear : fl &&& (s.ge g).trapEn = 0) (row : s.geRow g = some i) :
    exec i s = .next (s.geGo g ({ y with flags := y.flags ||| fl }.setReg d v) (y.pc + 1)) := by
  have flags : (f y).2 = fl := congrArg Prod.snd hv
  rw [he, State.geFp_at h go row (by rw [flags]; exact clear), hv]

theorem leads_geFp (row : s.geRow g = some i) (trapped : fl &&& (s.ge g).trapEn ≠ 0) :
    Leads i s (((s.geAt g { y with flags := y.flags ||| fl } y.pc).geRecord g
      { y with flags := y.flags ||| fl } 1).push [.faultQuiet y.e.ref.ctx 0x0F]) := by
  have flags : (f y).2 = fl := congrArg Prod.snd hv
  exact leads_eq he (by rw [State.geFp_trap h row (by rw [flags]; exact trapped), flags])

end

/-- A free value has been taken (assumption 13). -/
def State.drawn (s : State) : State := { s with freeCount := s.freeCount + 1 }

theorem State.geRow_drawn (s : State) (g : Nat) : s.drawn.geRow g = s.geRow g := rfl

theorem State.atInsn_drawn {s : State} {g : Nat} {y : GeRun} (h : s.atInsn g y) : s.drawn.atInsn g y := h

/-- The result of ICVT on a number, with its flags. -/
def icvtOf (w : Word) : Int × Nat := (f64 w).toInt 1 (-(2 ^ 63)) (2 ^ 63 - 1)

section
variable {s : State} {g d a : Nat} {y : GeRun} (h : (s.ge g).run = some y)
include h

/-- ICVT of NaN takes its result from the next free value (assumption 13). -/
theorem State.geIcvt_nan (nan : (f64 (y.reg a)).isNan = true) : s.geIcvt g d a =
    s.drawn.geFp (.icvt g d a) g d fun _ => (Config.freeValue 64 s.freeCount, 1) := by
  simp only [State.geIcvt, h, nan, if_true]
  rfl

theorem State.geIcvt_number (number : (f64 (y.reg a)).isNan = false) : s.geIcvt g d a =
    s.geFp (.icvt g d a) g d fun y => (BitVec.ofInt 64 (icvtOf (y.reg a)).1, (icvtOf (y.reg a)).2) := by
  simp only [State.geIcvt, h, number]
  rfl

end

/-- The result of a comparison, with its flags, by the order of its operands; there is none beside a NaN. -/
def compared (f : Ordering → Bool) : Option Ordering → Word × Nat
  | none => (0, 1)
  | some o => (wd (b2n (f o)), 0)

theorem compared_lt (o : Ordering) :
    compared (fun o => decide (o = .lt)) (some o) = (BitVec.ofNat 64 (if o = .lt then 1 else 0), 0) := by
  cases o <;> rfl

theorem compared_le (o : Ordering) :
    compared (fun o => decide (o ≠ .gt)) (some o) = (BitVec.ofNat 64 (if o = .gt then 0 else 1), 0) := by
  cases o <;> rfl

section
variable (s : State) (g d a b : Nat)

theorem exec_flt : exec (.flt g d a b) s = .next (settle (s.geFp (.flt g d a b) g d fun y =>
    compared (fun o => decide (o = .lt)) ((f64 (y.reg a)).cmp? (f64 (y.reg b))))) := rfl

theorem exec_fle : exec (.fle g d a b) s = .next (settle (s.geFp (.fle g d a b) g d fun y =>
    compared (fun o => decide (o ≠ .gt)) ((f64 (y.reg a)).cmp? (f64 (y.reg b))))) := rfl

end

/-- Settles O10: a result whose flags are not trapped is written; ICVT by whether its operand is a NaN. -/
theorem gateFloatInstructions : Obligations.GateFloatInstructions := by
  unfold Obligations.GateFloatInstructions
  refine ⟨fun s g d a b y h go => ?binary, ?convert⟩
  case binary =>
    intro p q ok runs
    have untrapped : 0 &&& (s.ge g).trapEn = 0 := Nat.zero_and _
    exact ⟨exec_geFp rfl rfl h go, exec_geFp rfl rfl h go, exec_geFp rfl rfl h go, exec_geFp rfl rfl h go,
      exec_geFp rfl rfl h go,
      fun o ordered => ⟨exec_geFp (exec_flt s g d a b) ((congrArg _ ordered).trans (compared_lt o)) h go untrapped,
        exec_geFp (exec_fle s g d a b) ((congrArg _ ordered).trans (compared_le o)) h go untrapped⟩,
      fun unordered clear => ⟨exec_geFp (exec_flt s g d a b) (congrArg _ unordered) h go clear,
        exec_geFp (exec_fle s g d a b) (congrArg _ unordered) h go clear⟩,
      exec_geFp rfl rfl h go⟩
  case convert =>
    intro s g d a y h go r row
    refine ⟨fun number clear => ?_, fun nan clear => ?_⟩
    · exact exec_geFp (congrArg _ (congrArg settle (State.geIcvt_number h.runs number))) rfl h go clear row
    · refine congrArg _ ((congrArg settle (State.geIcvt_nan h.runs nan)).trans ?_)
      exact State.geFp_at (State.atInsn_drawn h) go ((s.geRow_drawn g).trans row) clear

end Sys2Proof.Machine

namespace Sys2Proof.Machine

/-! ## Traps and refused accesses (R220, Table 9.8) -/

section
variable {s : State} {g d a b : Nat} {y : GeRun} (h : s.atInsn g y)
include h

theorem leads_icvt_nan (row : s.geRow g = some (.icvt g d a)) (nan : (f64 (y.reg a)).isNan = true)
    (trapped : 1 &&& (s.ge g).trapEn ≠ 0) :
    Leads (.icvt g d a) s (((s.drawn.geAt g { y with flags := y.flags ||| 1 } y.pc).geRecord g
      { y with flags := y.flags ||| 1 } 1).push [.faultQuiet y.e.ref.ctx 0x0F]) :=
  leads_eq rfl ((State.geIcvt_nan h.runs nan).trans
    (State.geFp_trap (State.atInsn_drawn h) ((s.geRow_drawn g).trans row) trapped))

theorem leads_icvt_number (row : s.geRow g = some (.icvt g d a)) (number : (f64 (y.reg a)).isNan = false)
    (trapped : (icvtOf (y.reg a)).2 &&& (s.ge g).trapEn ≠ 0) :
    Leads (.icvt g d a) s (((s.geAt g { y with flags := y.flags ||| (icvtOf (y.reg a)).2 } y.pc).geRecord g
      { y with flags := y.flags ||| (icvtOf (y.reg a)).2 } 1).push [.faultQuiet y.e.ref.ctx 0x0F]) :=
  leads_eq rfl ((State.geIcvt_number h.runs number).trans (State.geFp_trap h row trapped))

theorem leads_access_refused {imm : BitVec 32} (aligned : (y.reg a + immS imm).toNat % 8 = 0)
    (refused : s.refuses (y.reg a + immS imm).toNat 8 = true) {i : Instr} (hi : i = .ld g d a imm ∨ i = .st g a b imm)
    (row : s.geRow g = some i) : Leads i s ((s.geRecord g y 2).push [.faultQuiet y.e.ref.ctx 0x0F]) := by
  obtain rfl | rfl := hi
  · exact leads_traps rfl h row ((if_neg (not_not.2 aligned)).trans (if_pos refused))
  · exact leads_traps rfl h row ((if_neg (not_not.2 aligned)).trans (if_pos refused))

theorem leads_run_refused (row : s.geRow g = some (.run g a b)) (refused : s.refuses (y.reg a).toNat 256 = true) :
    Leads (.run g a b) s ((s.geRecord g y 2).push [.faultQuiet y.e.ref.ctx 0x0F]) :=
  leads_traps rfl h row (if_pos refused)

end

/-- Settles O11: a trapped flag by the instruction that raises it, a refused access by the instruction that makes it. -/
theorem gateTrapsFaultContext : Obligations.GateTrapsFaultContext := by
  unfold Obligations.GateTrapsFaultContext
  refine ⟨fun s g d a b y h => ?binary, fun s g d a y h row => ?convert, fun s g d a b imm y h => ?access⟩
  case binary =>
    intro p q traps
    exact ⟨leads_geFp rfl rfl h, leads_geFp rfl rfl h, leads_geFp rfl rfl h, leads_geFp rfl rfl h, leads_geFp rfl rfl h,
      leads_geFp rfl rfl h, fun unordered => ⟨leads_geFp (exec_flt s g d a b) (congrArg _ unordered) h,
        leads_geFp (exec_fle s g d a b) (congrArg _ unordered) h⟩⟩
  case convert =>
    intro p fl u trapped
    cases nan : p.isNan with
    | true =>
      have invalid : fl = 1 := if_pos nan
      have drawn : u = s.drawn := if_pos nan
      rw [invalid, drawn]
      exact leads_icvt_nan h row nan (invalid ▸ trapped)
    | false =>
      have raised : fl = (icvtOf (y.reg a)).2 := if_neg (Bool.eq_false_iff.1 nan)
      have same : u = s := if_neg (Bool.eq_false_iff.1 nan)
      rw [raised, same]
      exact leads_icvt_number h row nan (raised ▸ trapped)
  case access =>
    exact ⟨fun aligned refused => ⟨leads_access_refused h (d := d) (b := b) aligned refused (.inl rfl),
        leads_access_refused h (d := d) (b := b) aligned refused (.inr rfl)⟩,
      fun refused row => leads_run_refused h row refused⟩

end Sys2Proof.Machine

namespace Sys2Proof.Machine

/-! ## Branches (R223) -/

/-- A branch goes on at the instruction that its condition `taken` chooses. -/
theorem exec_branch {i : Instr} {s : State} {g a b : Nat} {imm : BitVec 32} {y : GeRun} {f : Word → Word → Bool}
    {taken : Prop} [Decidable taken] (he : exec i s = .next (settle (s.geBranch i g a b imm f)))
    (hf : f (y.reg a) (y.reg b) = true ↔ taken) (h : s.atInsn g y) (next : s.mayGo g y (y.pc + 1))
    (jump : s.mayGo g y (BitVec.ofNat 64 y.pc + imm.signExtend 64).toNat) (row : s.geRow g = some i) :
    exec i s = .next (s.geGo g y (if taken then (BitVec.ofNat 64 y.pc + imm.signExtend 64).toNat else y.pc + 1)) := by
  refine exec_goes he h row (congrArg (s.geNext g y) (if_congr hf rfl rfl)) ?_ h.idle
  split
  · exact jump
  · exact next

/-- Settles O12: each branch by its condition on the two registers. -/
theorem gateBranches : Obligations.GateBranches := by
  unfold Obligations.GateBranches
  intro s g a b imm y h target next jump runs
  refine ⟨exec_branch rfl decide_eq_true_iff h next jump, exec_branch rfl decide_eq_true_iff h next jump,
    exec_branch rfl BitVec.slt_iff_toInt_lt h next jump, exec_branch rfl ?_ h next jump,
    exec_branch rfl BitVec.ult_iff_toNat_lt h next jump,
    exec_branch (a := 0) (b := 0) rfl (iff_of_true rfl trivial) h next jump⟩
  rw [Bool.not_eq_true', Bool.eq_false_iff, ne_eq, BitVec.slt_iff_toInt_lt, not_lt]

end Sys2Proof.Machine

namespace Sys2Proof.Machine

/-! ## Words that are no instruction, and what lies outside the program (R222, R223, R226) -/

theorem State.geRow_at {s : State} {g : Nat} {y : GeRun} (h : (s.ge g).run = some y) :
    s.geRow g = geInstr g s.env.now (s.rd64 (y.prog + 8 * y.pc)) := by
  rw [State.geRow, h]
  rfl

theorem geInstr_reserved {w : Word} (h : w.extractLsb' 32 9 ≠ 0) (g t : Nat) : geInstr g t w = none := if_pos h

@[simp] theorem State.ge_geAt_run (s : State) (g : Nat) (y : GeRun) (pc : Nat) :
    ((s.geAt g y pc).ge g).run = some { y with pc := pc } := by
  simp [State.geAt]

/-- The line of the next instruction is neither cached nor readable: its fetch stops the task (R226). -/
theorem State.geNext_refused {s : State} {g pc : Nat} {y : GeRun} (inside : pc < y.count)
    (missed : (s.ge g).icache.contains (y.line pc) = false) (refused : s.refuses (y.line pc).2.2 64 = true) :
    s.geNext g y pc = ((s.geAt g y pc).geRecord g { y with pc := pc } 2).push [.faultQuiet y.e.ref.ctx 0x0F] := by
  have stops : s.geNext g y pc = (s.geAt g y pc).geTrap g 2 :=
    (if_neg (Nat.not_le.2 inside)).trans (if_pos (by rw [missed, refused]; rfl))
  rw [stops, State.geTrap_at (s.ge_geAt_run g y pc)]

/-- Settles O13: a row that the word does not encode does nothing; the next instruction is illegal, refused, or goes on. -/
theorem gateFetchOutsideProgramFails : Obligations.GateFetchOutsideProgramFails := by
  unfold Obligations.GateFetchOutsideProgramFails
  intro s g imm y h target w
  have decoded : s.geRow g = geInstr g s.env.now w := State.geRow_at h.runs
  refine ⟨decoded, fun reserved => decoded.trans (geInstr_reserved reserved g _), fun none => ?illegal,
    fun j row other => ?other, fun row outside => ?next, fun row outside => ?jump, fun row inside missed refused => ?line⟩
  case illegal =>
    exact leads_eq rfl ((State.geOp_illegal h none).trans (State.geFail_recorded h.runs (by decide) (by decide)))
  case other => exact exec_next rfl (State.geOp_other h row other) h.idle
  case next => exact leads_of (exec_does rfl h row (State.geNext_ge outside))
  case jump => exact leads_of (exec_does rfl h row (State.geNext_ge outside))
  case line => exact leads_of (exec_does rfl h row (State.geNext_refused inside missed refused))

end Sys2Proof.Machine

namespace Sys2Proof.Machine

/-! ## LD, ST and BIND (R218, R223) -/

section
variable {s : State} {g d a b : Nat} {imm : BitVec 32} {y : GeRun} (h : s.atInsn g y)
include h

theorem exec_ld (go : s.mayGo g y (y.pc + 1)) (row : s.geRow g = some (.ld g d a imm))
    (aligned : (y.reg a + immS imm).toNat % 8 = 0) (granted : s.refuses (y.reg a + immS imm).toNat 8 = false) :
    exec (.ld g d a imm) s =
      .next (s.geGo g (y.setReg d (s.rd64 (y.reg a + immS imm).toNat)) (y.pc + 1)) :=
  exec_writes rfl h row ((if_neg (not_not.2 aligned)).trans (if_neg (Bool.eq_false_iff.1 granted))) go

theorem exec_st (go : s.mayGo g y (y.pc + 1)) (row : s.geRow g = some (.st g a b imm))
    (aligned : (y.reg a + immS imm).toNat % 8 = 0) (granted : s.refuses (y.reg a + immS imm).toNat 8 = false) :
    exec (.st g a b imm) s = .next ((s.wr64 (y.reg a + immS imm).toNat (y.reg b)).geGo g
      { y with outs := ((s.geIo y).outsAt (y.reg a + immS imm).toNat).foldl (fun o i => AL.put i true o) y.outs }
      (y.pc + 1)) :=
  exec_goes rfl h row ((if_neg (not_not.2 aligned)).trans (if_neg (Bool.eq_false_iff.1 granted)))
    (State.mayGo_of go rfl rfl (by rw [State.ge, State.wr64_ges]; rfl) (by rw [State.wr64_env]))
    ((State.wr64_work s _ _).trans h.idle)

/-- A misaligned address is illegal (assumption 29). -/
theorem leads_misaligned (off : (y.reg a + immS imm).toNat % 8 ≠ 0) {i : Instr} (hi : i = .ld g d a imm ∨ i = .st g a b imm)
    (row : s.geRow g = some i) : Leads i s (((s.geRecord g y 4).geLeave g).retireTask y.e.ref .failed (some g) none) := by
  obtain rfl | rfl := hi
  · exact leads_fails rfl h row (if_pos off) (by decide) (by decide)
  · exact leads_fails rfl h row (if_pos off) (by decide) (by decide)

theorem exec_bind (go : s.mayGo g y (y.pc + 1)) (row : s.geRow g = some (.bind g d imm))
    (named : imm.toNat % 256 < (if imm.getLsbD 8 then y.outB else y.inB).length) :
    exec (.bind g d imm) s = .next (s.geGo g
      (y.setReg d ((if imm.getLsbD 8 then y.outB else y.inB).getD (imm.toNat % 256) 0)) (y.pc + 1)) :=
  exec_writes rfl h row (if_pos named) go

end

/-- Settles O14: each access by its address, and BIND by its list. -/
theorem gateLoadStoreBind : Obligations.GateLoadStoreBind := by
  unfold Obligations.GateLoadStoreBind
  intro s g d a b imm y h go p l runs
  exact ⟨fun aligned granted => ⟨fun row => exec_ld h go row aligned granted, fun row => exec_st h go row aligned granted⟩,
    fun off i hi row => leads_misaligned h off hi row, fun named row => exec_bind h go row named⟩

end Sys2Proof.Machine

namespace Sys2Proof.Machine

/-! ## RUN (R209, R221) -/

/-- Settles O15: a block that is aligned and that the rules accept is the task's pass; any other ends the task. -/
theorem gateRunStartsPass : Obligations.GateRunStartsPass := by
  unfold Obligations.GateRunStartsPass
  intro s g a b y h p cfg row granted
  have readable := Bool.eq_false_iff.1 granted
  refine ⟨fun aligned ok => ?_, fun bad => ?_⟩
  · have accepted : ¬ (p % 64 ≠ 0 ∨ (!cfgOk cfg (s.geIo y)) = true) := by simp [aligned, ok]
    exact exec_next (exec_does rfl h row ((if_neg readable).trans (if_neg accepted))) rfl h.idle
  · have refused : p % 64 ≠ 0 ∨ (!cfgOk cfg (s.geIo y)) = true := by simpa using bad
    exact leads_fails rfl h row ((if_neg readable).trans (if_pos refused)) (by decide) (by decide)

end Sys2Proof.Machine

namespace Sys2Proof.Machine

/-! ## What a pass leaves for the next instruction (R209, R218, R268) -/

/-- What going on to an instruction reads beside the task: the refused accesses, the instruction cache, and what waits. -/
def State.gateView (s : State) (g : Nat) : Env × List Work × List (Nat × Nat × Nat) := (s.env, s.work, (s.ge g).icache)

theorem foldl_gateView {α : Type} {f : State → α → State} {g : Nat} (h : ∀ s x, (f s x).gateView g = s.gateView g)
    (l : List α) (s : State) : (l.foldl f s).gateView g = s.gateView g :=
  List.foldlRecOn (motive := fun (v : State) => v.gateView g = s.gateView g) l f rfl fun v hv x _ => (h v x).trans hv

section
variable (s : State) (g : Nat)

@[simp] theorem State.wrBytes_gateView (host : Bool) (a : Nat) (l : List Byte) :
    (s.wrBytes host a l).gateView g = s.gateView g := by
  simp [State.gateView, State.ge]

@[simp] theorem State.emitAll_gateView (io : PassIo) (ws : List Emit) : (s.emitAll io ws).gateView g = s.gateView g :=
  foldl_gateView (fun v _ => v.wrBytes_gateView g _ _ _) ws s

@[simp] theorem State.zeroRest_gateView (ts : List (Nat × Nat)) : (s.zeroRest ts).gateView g = s.gateView g :=
  foldl_gateView (fun v _ => v.wrBytes_gateView g _ _ _) ts s

/-- The write counts of the streams are no part of it. -/
@[simp] theorem State.streamsWrite_gateView (ws : List Emit) : (s.streamsWrite g ws).gateView g = s.gateView g := by
  unfold State.streamsWrite
  refine foldl_gateView (fun v p => ?_) _ s
  refine Prod.ext rfl (Prod.ext rfl ?_)
  exact (congrArg Ge.icache (State.ge_setGe_self (v.fresh 64).2 g _)).trans rfl

theorem State.work_view {s t : State} {g : Nat} (view : t.gateView g = s.gateView g) : t.work = s.work :=
  congrArg (fun v => v.2.1) view

theorem State.mayGo_view {s t : State} {g pc : Nat} {y z : GeRun} (h : s.mayGo g y pc) (count : z.count = y.count)
    (line : z.line pc = y.line pc) (view : t.gateView g = s.gateView g) : t.mayGo g z pc := by
  simp only [State.gateView, Prod.mk.injEq] at view
  obtain ⟨env, -, cache⟩ := view
  exact State.mayGo_of h count line cache (congrArg Env.refused env)

end

/-! ## The end of a pass (R209 to R221) -/

/-- A list is cut by `takeWhile` where some element fails the test. -/
theorem length_takeWhile_lt {α : Type} {p : α → Bool} {l : List α} :
    (l.takeWhile p).length < l.length ↔ ∃ z ∈ l, p z = false := by
  rw [← not_iff_not, not_lt]
  have whole : l.length ≤ (l.takeWhile p).length ↔ l.takeWhile p = l :=
    ⟨fun h => (List.takeWhile_prefix p).eq_of_length_le h, fun h => h.symm ▸ le_rfl⟩
  rw [whole, List.takeWhile_eq_self_iff]
  simp

section
variable (s : State) (g : Nat) (y : GeRun) (cfg : List Word)

/-- The pass of the block `cfg`, run to its end or to what stops it. -/
def State.passRun : PassOut := s.pass cfg (s.geIo y) (s.ge g).trapEn y.outs 8 []

/-- The writes that it makes: all, or as many as a free value says where something stopped it (assumption 13). -/
def State.passWrites : List Emit :=
  (s.passRun g y cfg).writes.take (if (s.passRun g y cfg).partly then
    (Config.freeValue 64 (s.freeCount + (s.passRun g y cfg).free)).toNat else (s.passRun g y cfg).writes.length)

/-- The tiles whose rest it is to zero (R218). -/
def State.passZeroes : List (Nat × Nat) :=
  if (s.passRun g y cfg).access || (s.passRun g y cfg).config || (s.passRun g y cfg).partly then []
  else zeroTiles (s.geIo y) (s.passWrites g y cfg) (passOuts cfg y.outs (s.passWrites g y cfg))

/-- Those that it zeroes: up to the first that is refused. -/
def State.passZeroed : List (Nat × Nat) := (s.passZeroes g y cfg).takeWhile fun z => !s.refuses z.1 z.2

/-- The block with its ports' bytes, its streams' counts and its zeroed tiles. -/
def State.passWrote : State :=
  ((({ s with freeCount := s.freeCount + (s.passRun g y cfg).free + 1 }).emitAll (s.geIo y)
    (s.passWrites g y cfg)).streamsWrite g (s.passWrites g y cfg)).zeroRest (s.passZeroed g y cfg)

/-- The task with the pass's flags, summary items and outputs. -/
def State.passTask : GeRun :=
  { y with flags := y.flags ||| (s.passRun g y cfg).flags, sums := (s.passRun g y cfg).sums,
           outs := passOuts cfg y.outs (s.passWrites g y cfg), pass := none }

/-- The block when the pass has ended, before the control core goes on. -/
def State.passLeft : State :=
  (s.passWrote g y cfg).setGe g { (s.passWrote g y cfg).ge g with run := some (s.passTask g y cfg) }

/-- Its flags that are trapped (R220). -/
def State.passTrapped : Nat := (s.passRun g y cfg).flags &&& ((s.ge g).trapEn ||| Cfg.trap cfg)

/-- Whether an access was refused: of its elements, its ports or the tiles that it zeroes. -/
def State.passRefused : Bool :=
  (s.passRun g y cfg).access || decide ((s.passZeroed g y cfg).length < (s.passZeroes g y cfg).length)

theorem State.passWrites_stopped (h : (s.passRun g y cfg).partly = true) : s.passWrites g y cfg =
    (s.passRun g y cfg).writes.take (Config.freeValue 64 (s.freeCount + (s.passRun g y cfg).free)).toNat :=
  congrArg (fun n => (s.passRun g y cfg).writes.take n) (if_pos h)

theorem State.passWrites_whole (h : (s.passRun g y cfg).partly = false) :
    s.passWrites g y cfg = (s.passRun g y cfg).writes :=
  (congrArg (fun n => (s.passRun g y cfg).writes.take n) (if_neg (Bool.eq_false_iff.1 h))).trans List.take_length

theorem State.passRefused_iff : s.passRefused g y cfg = true ↔
    (s.passRun g y cfg).access = true ∨ ∃ z ∈ s.passZeroes g y cfg, s.refuses z.1 z.2 = true := by
  rw [State.passRefused, Bool.or_eq_true, decide_eq_true_iff, State.passZeroed, length_takeWhile_lt]
  simp

theorem State.passWrote_gateView : (s.passWrote g y cfg).gateView g = s.gateView g := by
  rw [State.passWrote, State.zeroRest_gateView, State.streamsWrite_gateView, State.emitAll_gateView]
  rfl

@[simp] theorem State.passLeft_run : ((s.passLeft g y cfg).ge g).run = some (s.passTask g y cfg) := by
  simp [State.passLeft]

@[simp] theorem State.passLeft_gateView : (s.passLeft g y cfg).gateView g = s.gateView g := by
  rw [← State.passWrote_gateView s g y cfg]
  simp [State.gateView, State.passLeft]

end

section
variable {s : State} {g : Nat} {y : GeRun} {cfg : List Word} (still : s.gcs.changing = false) (run : (s.ge g).run = some y)
  (pass : y.pass = some cfg)
include still run pass

/-- A pass ends by the first of: a trapped flag, a refused access, a configuration error, its whole extent. -/
theorem State.gePassEnd_eq : s.gePassEnd g =
    if s.passTrapped g y cfg ≠ 0 then (s.passLeft g y cfg).geTrap g 1
    else if s.passRefused g y cfg then (s.passLeft g y cfg).geTrap g 2
    else if (s.passRun g y cfg).config then (s.passLeft g y cfg).geFail g 3
    else (s.passLeft g y cfg).geNext g (s.passTask g y cfg) (y.pc + 1) := by
  unfold State.gePassEnd
  rw [run]
  dsimp only
  rw [pass]
  exact if_neg (Bool.eq_false_iff.1 still)

end

/-! ## SUM (Table 9.7) -/

section
variable {s : State} {g d : Nat} {imm : BitVec 32} {y : GeRun} (h : s.atInsn g y) (go : s.mayGo g y (y.pc + 1))
  (row : s.geRow g = some (.sum g d imm))
include h go row

theorem exec_sum_flags (flags : imm = 3) : exec (.sum g d imm) s =
    .next (s.geGo g (y.setReg d (BitVec.ofNat 64 y.flags)) (y.pc + 1)) :=
  exec_writes rfl h row (if_pos flags) go

variable (item : imm ≠ 3)
include item

theorem exec_sum_item {v : Word} (left : AL.get? imm.toNat y.sums = some v) :
    exec (.sum g d imm) s = .next (s.geGo g (y.setReg d v) (y.pc + 1)) := by
  refine exec_writes rfl h row ((if_neg item).trans ?_) go
  rw [left]

/-- An item that no pass has left is a free value (assumption 13). -/
theorem exec_sum_free (absent : AL.get? imm.toNat y.sums = none) : exec (.sum g d imm) s =
    .next (s.drawn.geGo g (y.setReg d (Config.freeValue 64 s.freeCount)) (y.pc + 1)) := by
  have goes : s.drawn.mayGo g (y.setReg d (Config.freeValue 64 s.freeCount)) (y.pc + 1) :=
    (State.mayGo_setReg s.drawn g _ d y _).2 go
  refine exec_goes rfl h row ((if_neg item).trans ?_) goes h.idle
  rw [absent]
  rfl

end

/-- Settles O16: a pass by the first of its four ends, SUM by its item. -/
theorem gatePassEndsAndSums : Obligations.GatePassEndsAndSums := by
  unfold Obligations.GatePassEndsAndSums
  intro s g d t imm y cfg
  refine ⟨fun steady run pass => ?pass, fun h go => ⟨fun row => exec_sum_flags h go row rfl,
    fun v row item left => exec_sum_item h go row item left, fun row item absent => exec_sum_free h go row item absent⟩⟩
  case pass =>
    intro s1 io o ws
    have made : ws = s1.passWrites g y cfg := by
      cases stopped : o.partly with
      | true => exact (if_pos stopped).trans (s1.passWrites_stopped g y cfg stopped).symm
      | false => exact (if_neg (Bool.eq_false_iff.1 stopped)).trans (s1.passWrites_whole g y cfg stopped).symm
    clear_value ws
    subst made
    intro outs zs trapped refused wrote z left ends
    have ended := State.gePassEnd_eq (s := s1) steady.2 run pass
    have refused_iff : s1.passRefused g y cfg = true ↔ refused := s1.passRefused_iff g y cfg
    have at_z : (left.ge g).run = some z := s1.passLeft_run g y cfg
    refine ⟨fun clear granted ok go => ?goes, fun trap => ?flag, fun clear refuse => ?access,
      fun clear granted bad => ?config⟩
    case goes =>
      have here : s1.mayGo g y (y.pc + 1) := go
      have goes : left.mayGo g z (y.pc + 1) := State.mayGo_view here rfl rfl (s1.passLeft_gateView g y cfg)
      have idle : wrote.work = [] := (State.work_view (s1.passWrote_gateView g y cfg)).trans steady.1
      have whole : s1.gePassEnd g = left.geNext g z (y.pc + 1) := ended.trans ((if_neg clear).trans
        ((if_neg (mt refused_iff.1 granted)).trans (if_neg (Bool.eq_false_iff.1 ok))))
      exact exec_next (u := s1.gePassEnd g) rfl
        (whole.trans ((State.geNext_go goes).trans (State.setGe_geGo wrote g _ z z))) idle
    case flag => exact leads_eq rfl (ended.trans ((if_pos trap).trans (State.geTrap_at at_z)))
    case access =>
      exact leads_eq rfl (ended.trans ((if_neg clear).trans ((if_pos (refused_iff.2 refuse)).trans (State.geTrap_at at_z))))
    case config =>
      exact leads_eq rfl (ended.trans ((if_neg clear).trans ((if_neg (mt refused_iff.1 granted)).trans ((if_pos bad).trans
        (State.geFail_recorded at_z (by decide) (by decide))))))

end Sys2Proof.Machine

namespace Sys2Proof.Machine

/-! ## SIG (R131, R225) -/

/-- A counter with an increment that fits below the largest value. -/
def Ctr.added (x : Ctr) (inc : Nat) : Ctr := { x with val := x.val + inc }

/-- A signal that fits is added, and the waiters of the sum are released (R124). -/
theorem State.applySignal_fits {s : State} {c v inc : Nat} (clear : (s.ctr c v).poison = false) (h0 : inc ≠ 0)
    (fits : (s.ctr c v).val + inc < 2 ^ 64) (src : SigSrc) :
    s.applySignal c v inc src = (s.setCtr c v ((s.ctr c v).added inc)).releaseWaiters c v := by
  have below : ¬ ctrMax < (s.ctr c v).val + inc := by unfold ctrMax; omega
  exact (if_neg (by simp [clear, h0])).trans (if_neg below)

theorem State.setCtr_ges (s : State) (c v : Nat) (x : Ctr) : (s.setCtr c v x).ges = s.ges := by
  unfold State.setCtr
  dsimp only
  split <;> simp

theorem State.setCtr_work (s : State) (c v : Nat) (x : Ctr) : (s.setCtr c v x).work = s.work := by
  unfold State.setCtr
  dsimp only
  split <;> simp

/-- A counter for which nothing waits releases nothing. -/
theorem State.releaseWaiters_work {s : State} {c v : Nat} (alone : ∀ w ∈ s.ctu.waiters, ¬ (w.ctx = c ∧ w.vid = v)) :
    (s.releaseWaiters c v).work = s.work := by
  have none : s.ctu.waiters.filter (Waiter.satisfied c v (s.ctr c v)) = [] := by
    refine List.filter_eq_nil_iff.2 fun w hw sat => alone w hw ?_
    simp only [Waiter.satisfied, Bool.and_eq_true, decide_eq_true_iff] at sat
    exact sat.1
  have released : (s.releaseWaiters c v).work = s.work ++
    (s.ctu.waiters.filter (Waiter.satisfied c v (s.ctr c v))).map fun w => .release w.who (s.ctr c v).poison := rfl
  rw [released, none, List.map_nil, List.append_nil]

section
variable {s : State} {c v inc : Nat} {p : Phys} (hp : s.phys? c v = some p)
include hp

/-- A counter on chip of a context in its place is only touched (R132, R133). -/
theorem State.counterAt_onChip (placed : (s.ctx c).st.inPlace = true) : s.counterAt c v (s.touchCtr c v) := by
  rw [State.counterAt, if_pos placed, State.makeCtrResident, hp]
  rfl

theorem State.phys?_touchCtr : (s.touchCtr c v).phys? c v = some { p with used := s.ctu.uses } := by
  have touched := State.phys?_map (s := s) (t := s.touchCtr c v)
    (f := fun p => if p.ctx = c ∧ p.vid = v then { p with used := s.ctu.uses } else p) rfl
    (fun q => by split <;> exact ⟨rfl, rfl⟩) c v
  rw [touched, hp]
  exact congrArg some (if_pos (State.phys?_keys hp))

variable (clear : p.poison = false) (h0 : inc ≠ 0) (fits : p.val + inc < 2 ^ 64)
  (alone : ∀ w ∈ s.ctu.waiters, ¬ (w.ctx = c ∧ w.vid = v)) (src : SigSrc)
include clear h0 fits alone

/-- A signal to a counter on chip, without poison, that nothing waits for: it rises, and nothing else is to be done. -/
theorem State.applySignal_onChip : ((s.applySignal c v inc src).phys? c v).map Phys.val = some (p.val + inc) ∧
    (s.applySignal c v inc src).ges = s.ges ∧ (s.applySignal c v inc src).work = s.work := by
  have value : (s.ctr c v).val = p.val := State.ctr_val hp
  have resident : ((s.ctr c v).added inc).resident = true := State.ctr_resident hp
  have waits : (s.setCtr c v ((s.ctr c v).added inc)).ctu.waiters = s.ctu.waiters := by rw [State.setCtr_ctu resident]
  rw [State.applySignal_fits ((State.ctr_poison hp).trans clear) h0 (by rw [value]; exact fits)]
  refine ⟨?_, State.setCtr_ges s c v _, ?_⟩
  · rw [State.phys?_releaseWaiters, State.phys?_setCtr_self hp resident]
    exact congrArg (fun n => some (n + inc)) value
  · rw [State.releaseWaiters_work (waits ▸ alone), State.setCtr_work]

/-- The same, as the CTU takes it from a core or an engine. -/
theorem State.doSignal_onChip (placed : (s.ctx c).st.inPlace = true) (named : v < s.idLimit c) (defined : s.defined c = true) :
    ((s.doSignal c v inc src none).phys? c v).map Phys.val = some (p.val + inc) ∧
      (s.doSignal c v inc src none).ges = s.ges ∧ (s.doSignal c v inc src none).work = s.work := by
  have touched : (s.touchCtr c v).phys? c v = some { p with used := s.ctu.uses } := State.phys?_touchCtr hp
  have unpoisoned : ((s.touchCtr c v).ctr c v).poison = false := (State.ctr_poison touched).trans clear
  rw [State.doSignal_at (State.counterAt_onChip hp placed) named defined, if_neg (Bool.eq_false_iff.1 unpoisoned)]
  exact State.applySignal_onChip touched clear h0 fits alone src

end

@[simp] theorem State.ge_geGo_run (s : State) (g pc : Nat) (y : GeRun) :
    ((s.geGo g y pc).ge g).run = some { y with pc := pc } := by
  rw [State.geGo, State.ge_setGe_self, Ge.fetch]
  split <;> rfl

/-! ## LAUNCH (R85, R86, R225) -/

/-- The base that LAUNCH asks for, relative to the instance's where sA says so. -/
def State.geLaunchBase (s : State) (a b : Nat) (y : GeRun) : Nat :=
  let own := ((s.inst? y.e.ref.ctx y.e.ref.inst).map Inst.base).getD 0
  if bit (y.reg a) 17 then (own + bits (y.reg b) 31 0) % 2 ^ 32 else bits (y.reg b) 31 0

section
variable {s : State} {g d a b : Nat} {y : GeRun} (h : s.atInsn g y) (row : s.geRow g = some (.geLaunch g d a b s.env.now))
include h row

/-- LAUNCH by the answer of its launch. -/
theorem State.geLaunch_answered {ok : Bool} {k : Nat} {u : State}
    (launched : s.deviceLaunch y.e.ref.ctx (bits (y.reg a) 15 0) (s.geLaunchBase a b y) (some (bits (y.reg d) 31 0))
      (s.ownerOf y.e.ref) s.env.now = (ok, k, u)) :
    s.geLaunch g d a b = if ok then u.geNext g y (y.pc + 1) else s.geFail g 6 := by
  refine (State.geOp_at h row).trans ?_
  unfold State.geLaunchBase at launched
  simp only [launched]
  cases ok <;> rfl

theorem State.geLaunch_passes (passes : s.launchCheck y.e.ref.ctx (bits (y.reg a) 15 0) true (s.geLaunchBase a b y)
    (bits (y.reg d) 31 0) = 0) :
    s.geLaunch g d a b = ((s.launch y.e.ref.ctx (bits (y.reg a) 15 0) (s.geLaunchBase a b y) (bits (y.reg d) 31 0)
      { owner := s.ownerOf y.e.ref, step := s.rootStep y.e.ref.ctx (s.ownerOf y.e.ref), at_ := s.env.now }).2.geNext g y
        (y.pc + 1)) :=
  State.geLaunch_answered h row (State.deviceLaunch_passes _ _ passes)

theorem State.geLaunch_fails (fails : s.launchCheck y.e.ref.ctx (bits (y.reg a) 15 0) true (s.geLaunchBase a b y)
    (bits (y.reg d) 31 0) ≠ 0) : s.geLaunch g d a b = s.geFail g 6 :=
  State.geLaunch_answered h row (State.deviceLaunch_refused _ _ (.inr ⟨_, rfl, fails⟩))

end

/-- Settles O17: SIG by its increment and its counter's id, LAUNCH by the checks of R86. -/
theorem gateSignalAndLaunch : Obligations.GateSignalAndLaunch := by
  unfold Obligations.GateSignalAndLaunch
  refine ⟨fun s g a b y h go => ?sig, fun s g d a b t y h => ?launch⟩
  case sig =>
    intro c v inc next src row
    have went : s.geNext g y (y.pc + 1) = next := State.geNext_go go
    have signals (h0 : inc ≠ 0) (named : v < s.idLimit c) :
        exec (.geSig g a b) s = .next (settle (next.push [.signal c v inc src none])) := by
      rw [← went]
      exact exec_does rfl h row ((if_neg h0).trans (if_neg (Nat.not_le.2 named)))
    refine ⟨fun h0 => exec_goes rfl h row (if_pos h0) go h.idle, signals,
      fun h0 named p hp clear defined free placed alone fits => ?adds, fun h0 outside => ?faults⟩
    case adds =>
      obtain ⟨value, ges, work⟩ := State.doSignal_onChip (s := next) hp clear h0 fits alone src placed named defined
      refine ⟨_, next_push (signals h0 named) h.idle free rfl (work.trans h.idle), value, ?_⟩
      have task : (next.doSignal c v inc src none).ge g = next.ge g := congrArg (fun l => AL.get l g) ges
      exact (congrArg Ge.run task).trans (s.ge_geGo_run g (y.pc + 1) y)
    case faults =>
      rw [← went]
      exact exec_does rfl h row ((if_neg h0).trans (if_pos outside))
  case launch =>
    intro s1 c n gid own base root row
    have here : s1.atInsn g y := h
    exact ⟨fun passes => congrArg (fun u => Host.Outcome.next (settle u)) (State.geLaunch_passes here row passes),
      fun fails => congrArg (fun u => Host.Outcome.next (settle u)) (State.geLaunch_fails here row fails)⟩

end Sys2Proof.Machine

namespace Sys2Proof.Machine

/-! ## SHAPE (R225, R241) -/

theorem State.writeShape_gateView (s : State) (g c i : Nat) (x : Shape) : (s.writeShape c i x).gateView g = s.gateView g := by
  simp only [State.writeShape, State.wr64, State.wrBytes_gateView]

section
variable {s : State} {g d a b : Nat} {y : GeRun} (h : s.atInsn g y) (row : s.geRow g = some (.shape g d a b))
include h row

/-- A slot that breaks R240 is illegal (R242). -/
theorem leads_shape_illegal (bad : s.slotOk y.e.ref.ctx (bits (y.reg a) 31 0) = false) :
    Leads (.shape g d a b) s (s.geFail g 4) :=
  leads_of (exec_does rfl h row (if_pos (by rw [bad]; rfl)))

variable (ok : s.slotOk y.e.ref.ctx (bits (y.reg a) 31 0) = true)
include ok

theorem leads_shape_refused (refused : s.refuses (s.tile y.e.ref.ctx (bits (y.reg a) 31 0)).addr 16 = true) :
    Leads (.shape g d a b) s ((s.geRecord g y 2).push [.faultQuiet y.e.ref.ctx 0x0F]) :=
  leads_traps rfl h row ((if_neg (by simp [ok])).trans (if_pos refused))

theorem exec_shape (go : s.mayGo g y (y.pc + 1))
    (granted : s.refuses (s.tile y.e.ref.ctx (bits (y.reg a) 31 0)).addr 16 = false) :
    exec (.shape g d a b) s = .next ((s.writeShape y.e.ref.ctx (bits (y.reg a) 31 0)
      { m := bits (y.reg b) 15 0, n := bits (y.reg b) 31 16, k := bits (y.reg b) 47 32, count := bits (y.reg d) 31 0 }).geGo g y
      (y.pc + 1)) :=
  exec_goes rfl h row ((if_neg (by simp [ok])).trans (if_neg (Bool.eq_false_iff.1 granted)))
    (State.mayGo_view go rfl rfl (s.writeShape_gateView g _ _ _))
    ((State.work_view (s.writeShape_gateView g _ _ _)).trans h.idle)

end

/-! ## SKIP (R225) -/

/-- The task of the running task's instance that SKIP names. -/
def GeRun.target (y : GeRun) (a : Nat) : TaskRef := { y.e.ref with idx := (y.reg a).toNat }

/-- Whether a task has not become ready: SKIP is not too late for it. -/
def Task.early (t : Task) : Bool := (t.st = .waiting || t.st = .spec) && decide (t.count ≠ 0)

theorem Task.early_iff (t : Task) : t.early = true ↔ (t.st = .waiting ∨ t.st = .spec) ∧ t.count ≠ 0 := by
  simp [Task.early]

theorem State.updTask_gateView (s : State) (g : Nat) (r : TaskRef) (f : Task → Task) :
    (s.updTask r f).gateView g = s.gateView g := by
  unfold State.updTask State.updInst
  split <;> rfl

section
variable {s : State} {g d a : Nat} {y : GeRun} (h : s.atInsn g y) (row : s.geRow g = some (.skip g d a))
include h row

theorem leads_skip_absent (absent : s.task? (y.target a) = none) : Leads (.skip g d a) s (s.geFail g 4) := by
  refine leads_of (exec_does rfl h row ?_)
  unfold GeRun.target at absent
  simp only [absent]
  cases s.inst? y.e.ref.ctx y.e.ref.inst <;> rfl

variable {x : Inst} {t : Task} (hx : s.inst? y.e.ref.ctx y.e.ref.inst = some x)
  (ht : s.task? (y.target a) = some t)
include hx ht

/-- SKIP on a task that is there, by its kind and whether it is too late. -/
theorem exec_skip_found : exec (.skip g d a) s = .next (settle (
    if x.span ≤ (y.target a).idx ∨ Desc.kind t.desc ≠ 1 ∧ Desc.kind t.desc ≠ 2 then s.geFail g 4
    else (if t.early then s.updTask (y.target a) fun t => { t with skip := true } else s).geNext g
      (y.setReg d (BitVec.ofNat 64 (b2n t.early))) (y.pc + 1))) := by
  refine exec_does rfl h row ?_
  unfold GeRun.target at ht
  simp only [hx, ht]
  rfl

theorem leads_skip_illegal (bad : x.span ≤ (y.target a).idx ∨ Desc.kind t.desc ≠ 1 ∧ Desc.kind t.desc ≠ 2) :
    Leads (.skip g d a) s (s.geFail g 4) :=
  leads_eq (exec_skip_found h row hx ht) (if_pos bad)

variable (go : s.mayGo g y (y.pc + 1)) (inside : (y.target a).idx < x.span)
  (kind : Desc.kind t.desc = 1 ∨ Desc.kind t.desc = 2)
include go inside kind

theorem exec_skip : exec (.skip g d a) s = .next (
    (if t.early then s.updTask (y.target a) fun t => { t with skip := true } else s).geGo g
      (y.setReg d (BitVec.ofNat 64 (b2n t.early))) (y.pc + 1)) := by
  have legal : ¬ (x.span ≤ (y.target a).idx ∨ Desc.kind t.desc ≠ 1 ∧ Desc.kind t.desc ≠ 2) := by omega
  have view : (if t.early then s.updTask (y.target a) fun t => { t with skip := true } else s).gateView g = s.gateView g := by
    split
    · exact s.updTask_gateView g _ _
    · rfl
  have goes := State.mayGo_view ((State.mayGo_setReg s g _ d y (BitVec.ofNat 64 (b2n t.early))).2 go) rfl rfl view
  exact exec_next (exec_skip_found h row hx ht) ((if_neg legal).trans (State.geNext_go goes))
    ((State.work_view view).trans h.idle)

end

/-- Settles O18: SHAPE by its slot, SKIP by its target. -/
theorem gateShapeAndSkip : Obligations.GateShapeAndSkip := by
  unfold Obligations.GateShapeAndSkip
  refine ⟨fun s g d a b y h go => ?shape, fun s g d a y h go => ?skip⟩
  case shape =>
    intro c i w x row
    exact ⟨fun ok granted => exec_shape h row ok go granted, fun ok refused => leads_shape_refused h row ok refused,
      fun bad => leads_shape_illegal h row bad⟩
  case skip =>
    intro r goes row
    refine ⟨fun x t hx ht bad => leads_skip_illegal h row hx ht bad, fun x t hx ht inside kind => ?found,
      fun absent => leads_skip_absent h row absent⟩
    have skips := exec_skip h row hx ht go inside kind
    refine ⟨fun early => ?_, fun late => ?_⟩
    · have early : t.early = true := t.early_iff.2 early
      rw [early] at skips
      exact skips
    · have late : t.early = false := Bool.eq_false_iff.2 (mt t.early_iff.1 late)
      rw [late] at skips
      exact skips

end Sys2Proof.Machine

namespace Sys2Proof.Machine

/-! ## The start of a GATE task (R207, R226) -/

/-- A task whose entry names no program leaves the queue, and is counted as an end (Table 9.8, Table 9.15). -/
def State.geNoProgram (s : State) (g : Nat) (e : Entry) : State :=
  let s1 := s.setGe g { s.ge g with
    queue := (s.ge g).queue.filter fun z => z.ref ≠ e.ref, ended := ((s.ge g).ended + 1) % 2 ^ 32 }
  (s1.geRecord g { e := e } 5).retireTask e.ref .failed (some g) none

/-- A task with the program `p` enters it with its outputs allocated, or waits while they cannot be (assumption 29). -/
def State.geAllocate (s : State) (g : Nat) (e : Entry) (x : Inst) (k : Task) (p : Nat × Nat) : State :=
  let s1 := s.descRead e.ref
  let m := s1.allocAll e.ref (s1.sliceOrder e.ref.ctx (Desc.sliceHint k.desc) (s1.homeOf e)) (s1.outputs k.desc x.base)
  if m.1 then m.2.geEnter g e x k p else m.2

section
variable {s : State} {g : Nat} {e : Entry} {x : Inst} {k : Task} (enabled : (s.ge g).en = true)
  (free : (s.ge g).run = none) (still : s.gcs.changing = false) (up : s.up = true)
  (served : s.fsu.paused.any (fun p => p.1 = 5 && p.2 / (s.env.dev.geLanes + s.env.dev.geSpares) = g) = false)
  (mounted : s.fsu.remounts.any (fun p => p.1 = 5 && p.2.1 / (s.env.dev.geLanes + s.env.dev.geSpares) = g) = false)
  (first : (s.ge g).queue.find? (fun e => !(s.ctx e.ref.ctx).halted) = some e)
  (hx : s.inst? e.ref.ctx e.ref.inst = some x) (hk : s.task? e.ref = some k)
include enabled free still up served mounted first hx hk

theorem State.geStart_noProgram (absent : AL.get? (bits (Desc.entry k.desc) 7 0) (s.ctx e.ref.ctx).progs = none) :
    s.geStart g = s.geNoProgram g e := by
  refine (if_neg (by simp [enabled, free, still, up, served, mounted])).trans ?_
  simp only [first, hx, hk, absent]
  rfl

theorem State.geStart_allocates {p : Nat × Nat}
    (found : AL.get? (bits (Desc.entry k.desc) 7 0) (s.ctx e.ref.ctx).progs = some p) :
    s.geStart g = s.geAllocate g e x k p := by
  refine (if_neg (by simp [enabled, free, still, up, served, mounted])).trans ?_
  simp only [first, hx, hk, found]
  rfl

end

/-! ## What a task starts with (R222) -/

/-- The task as it enters its program `p`. -/
def State.geEntry (s : State) (e : Entry) (x : Inst) (k : Task) (p : Nat × Nat) : GeRun where
  e := e
  prog := p.1
  count := p.2
  pid := bits (Desc.entry k.desc) 7 0
  startAt := s.env.now
  regs := [(1, wd (Desc.operands k.desc)), (2, wd x.base), (3, wd x.num), (4, wd (x.step.getD ctrMax)),
    (5, wd (effIdx x e.ref.idx))]
  inB := (s.inputs k.desc x.base).map fun h => binding (s.tile e.ref.ctx h) true
  outB := (s.outputs k.desc x.base).map fun h => binding (s.tile e.ref.ctx h) false

@[simp] theorem State.ge_geRecord (s : State) (g h cause : Nat) (y : GeRun) : (s.geRecord g y cause).ge h = s.ge h := by
  rw [State.geRecord, State.ge, State.err_ges]
  rfl

/-- Inside the program the task stays at its next instruction, though a refused fetch stop it there. -/
theorem State.geNext_run {g pc : Nat} {y : GeRun} (inside : pc < y.count) (s : State) :
    ((s.geNext g y pc).ge g).run = some { y with pc := pc } := by
  by_cases may : s.mayGo g y pc
  · rw [State.geNext_go may, State.ge_geGo_run]
  · simp only [State.mayGo, inside, true_and, not_or, Bool.not_eq_true, Bool.not_eq_false] at may
    rw [State.geNext_refused inside may.1 may.2, State.ge_push, State.ge_geRecord, State.ge_geAt_run]

theorem State.geEnter_run {p : Nat × Nat} (filled : 0 < p.2) (s : State) (g : Nat) (e : Entry) (x : Inst) (k : Task) :
    ((s.geEnter g e x k p).ge g).run = some (s.geEntry e x k p) := by
  refine (State.geNext_run ?_ _).trans (congrArg some ?_)
  · exact filled
  · unfold State.geEntry
    cases x.step <;> rfl

/-- Registers above s5 start as zero. -/
theorem State.reg_geEntry_above {n : Nat} (h : 5 < n) (s : State) (e : Entry) (x : Inst) (k : Task) (p : Nat × Nat) :
    (s.geEntry e x k p).reg n = 0 := by
  have apart : n ≠ 0 ∧ 1 ≠ n ∧ 2 ≠ n ∧ 3 ≠ n ∧ 4 ≠ n ∧ 5 ≠ n := by omega
  simp only [GeRun.reg, State.geEntry, AL.get, AL.get?, apart, if_false]
  rfl

/-- Settles O19: the engine takes its first task up, by its program and its outputs; the task enters with the registers of
R222. -/
theorem gateTaskStarts : Obligations.GateTaskStarts := by
  unfold Obligations.GateTaskStarts
  refine ⟨fun s g t e x k => ?start, fun s g e x k p filled _ _ _ => ?enter⟩
  case start =>
    intro s1 z r enabled free steady up served mounted first hx hk
    refine ⟨fun absent => leads_eq rfl
      (State.geStart_noProgram (s := s1) enabled free steady.2 up served mounted first hx hk absent), fun p found => ?_⟩
    intro s2 m
    have starts : s1.geStart g = s1.geAllocate g e x k p :=
      State.geStart_allocates enabled free steady.2 up served mounted first hx hk found
    exact ⟨fun ok => leads_eq rfl (starts.trans (if_pos ok)),
      fun full => leads_eq rfl (starts.trans (if_neg (Bool.eq_false_iff.1 full)))⟩
  case enter =>
    have operands : (s.geEntry e x k p).reg 1 = wordAt k.desc 2 := wd_toNat _
    exact ⟨_, State.geEnter_run filled s g e x k, rfl, rfl, rfl, rfl, rfl, rfl, operands, rfl, rfl, rfl, rfl,
      fun n above => State.reg_geEntry_above above s e x k p⟩

end Sys2Proof.Machine

namespace Sys2Proof.Machine

/-! ## An engine whose task has left (R220, R226) -/

/-- An engine whose task has left: the task's flags have joined the sticky ones, and an end is counted. -/
def Ge.left (k : Ge) (z : GeRun) : Ge := { k with run := none, flags := k.flags ||| z.flags, ended := (k.ended + 1) % 2 ^ 32 }

/-- An engine whose instruction cache holds nothing of the program of `z`. -/
def Ge.purged (z : GeRun) (k : Ge) : Ge :=
  { k with icache := k.icache.filter fun t => !(decide (t.1 = z.e.ref.ctx) && decide (t.2.1 = z.pid)) }

theorem State.ge_map {s : State} {g : Nat} {k : Ge} (h : AL.get? g s.ges = some k) (f : Ge → Ge) :
    ({ s with ges := s.ges.map fun p => (p.1, f p.2) } : State).ge g = f k := by
  have found : AL.get? g (s.ges.map fun p => (p.1, f p.2)) = some (f k) := by rw [AL.get?_map, h]; rfl
  exact congrArg (fun o => o.getD default) found

/-- A task leaves its engine; a program of it that was replaced meanwhile leaves the instruction caches too (R226). -/
theorem State.ge_geLeave {s : State} {g : Nat} {z : GeRun} (h : (s.ge g).run = some z) :
    (s.geLeave g).ge g = (s.ge g).left z ∨ (s.geLeave g).ge g = ((s.ge g).left z).purged z := by
  simp only [State.geLeave, h, State.ge_push]
  split
  · exact .inl (State.ge_setGe_self s g _)
  · exact .inr (State.ge_map (s := s.setGe g ((s.ge g).left z)) (AL.get?_put_self g _ s.ges) (Ge.purged z))

/-! ## END and the GATE budget (R218, R227, Table 9.8) -/

/-- Whether a byte of handle `h`'s output was written that its occupancy counts (R218, Table 8.1). -/
def GeRun.wroteTo (y : GeRun) (hs : List Nat) (h : Nat) : Bool := y.outs.any fun p => decide (hs.getD p.1 0 = h) && p.2

section
variable {s : State} {g : Nat} {y : GeRun} (run : (s.ge g).run = some y)
include run

/-- A task that ends normally records the occupancy of each output that its ports reached (R218). -/
theorem State.geDone_records {x : Inst} {k : Task} (hx : s.inst? y.e.ref.ctx y.e.ref.inst = some x)
    (hk : s.task? y.e.ref = some k) :
    let hs := s.outputs k.desc x.base
    s.geDone g = (((((y.outs.map fun p => hs.getD p.1 0).eraseDups).foldl (fun m h =>
      m.setTile y.e.ref.ctx h { m.tile y.e.ref.ctx h with occ := y.wroteTo hs h }) s)).geLeave g).retireTask y.e.ref .normal
        (some g) none := by
  simp only [State.geDone, run, hx, hk, List.map_map, List.any_map]
  rfl

theorem State.geFail_asked : s.geFail g 0 = (s.geLeave g).retireTask y.e.ref .failed (some g) none := by
  rw [State.geFail, run]
  rfl

theorem State.geBudget_stops (still : s.gcs.changing = false) (late : y.startAt + s.budgetNs (s.descOf y.e) ≤ s.env.now) :
    s.geBudget g =
      ((s.geLeave g).retireTask y.e.ref .failed (some g) none).overrun y.e.ref (s.effOf y.e.ref) (g + 2 ^ 63) 6 g := by
  rw [State.geBudget, run]
  exact if_neg (not_or.2 ⟨Bool.eq_false_iff.1 still, Nat.not_lt.2 late⟩)

end

/-- Settles O20: END by its IMM, the budget by the task's start, and the engine by its equation. -/
theorem gateTaskEnds : Obligations.GateTaskEnds := by
  unfold Obligations.GateTaskEnds
  intro s g t imm y s1 r row
  refine ⟨fun h hr normal x k hx hk => ?normal, fun h hr failed => ?failed, fun steady run late => ?budget,
    fun z run => ?left⟩
  case normal =>
    have here : s1.atInsn g y := h
    exact leads_eq rfl ((State.geOp_at here hr).trans ((if_neg (Bool.eq_false_iff.1 normal)).trans
      (State.geDone_records here.runs hx hk)))
  case failed =>
    have here : s1.atInsn g y := h
    exact leads_eq rfl ((State.geOp_at here hr).trans ((if_pos failed).trans (State.geFail_asked here.runs)))
  case budget => exact leads_eq rfl (State.geBudget_stops (s := s1) run steady.2 late)
  case left => obtain engine | engine := State.ge_geLeave run <;> rw [engine] <;> exact ⟨rfl, rfl, rfl⟩

end Sys2Proof.Machine

namespace Sys2Proof.Machine

/-! ## CAR_JOIN and CAR_LEAVE (R245, R246) -/

section
variable {s : State} {q n : Nat} {w : List Word}

theorem State.effCarJoin_taken (taken : s.carFind (Op.ctx w) (wordAt w 1) ≠ none) :
    s.effCarJoin q n w = s.complete q n .badParam 1 :=
  if_pos (Option.isSome_iff_ne_none.2 taken)

theorem State.effCarLeave_absent (absent : s.carFind (Op.ctx w) (wordAt w 1) = none) :
    s.effCarLeave q n w = s.complete q n .badParam 1 := by
  rw [State.effCarLeave, absent]

section
variable {i : Nat} (found : s.carFind (Op.ctx w) (wordAt w 1) = some i)
include found

theorem State.effCarLeave_frees (out : s.inStep i = false) : s.effCarLeave q n w = (s.carFree i).complete q n .ok 0 := by
  rw [State.effCarLeave, found]
  exact congrArg (State.complete · q n .ok 0) (if_neg (Bool.eq_false_iff.1 out))

theorem State.effCarLeave_marks (live : s.inStep i = true) :
    s.effCarLeave q n w = (s.setCarSlot i { s.carSlot i with st := .leaving }).complete q n .ok 0 := by
  rw [State.effCarLeave, found]
  exact congrArg (State.complete · q n .ok 0) (if_pos live)

end

variable (fresh : s.carFind (Op.ctx w) (wordAt w 1) = none)
include fresh

/-- A new sequence passes the check that a CAR_JOIN makes first (R245). -/
theorem State.not_joined : ¬ (s.carFind (Op.ctx w) (wordAt w 1)).isSome = true :=
  Option.not_isSome_iff_eq_none.2 fresh

theorem State.effCarJoin_full (full : lowestFree s.env.dev.carSlots (s.car.slots.map Prod.fst) = none) :
    s.effCarJoin q n w = s.complete q n .noResource 0 := by
  refine (if_neg (State.not_joined fresh)).trans ?_
  rw [full]

theorem State.effCarJoin_joins {i : Nat} (lowest : lowestFree s.env.dev.carSlots (s.car.slots.map Prod.fst) = some i) :
    s.effCarJoin q n w = (s.setCarSlot i { st := .joining, ctx := Op.ctx w, id := wordAt w 1, dlOff := (wordAt w 2).toNat,
                                           kv := wordAt w 3 }).complete q n .ok i := by
  refine (if_neg (State.not_joined fresh)).trans ?_
  rw [lowest]

end

/-! ## The step that a CAR_STEP begins (R248, R249, Table 10.9) -/

section
variable (s : State) (q n : Nat) (w : List Word)

/-- The header of the batch list that the command names. -/
def State.batchHeader : List Word := s.rdWords false (wordAt w 2).toNat 8

/-- The number of the step. -/
def State.carStepNum : Nat := ((s.carCtx (Op.ctx w)).step + 1) % 2 ^ 32

/-- The base of the step's instance: the header's, moved by the graph's span with each step. -/
def State.carStepBase : Nat :=
  (bits (wordAt (s.batchHeader w) 1) 63 32 + s.carStepNum w *
    ((AL.get? (bits (wordAt w 1) 15 0) (s.ctx (Op.ctx w)).graphs).map Graph.span).getD 0) % 2 ^ 32

/-- The slots of the step, ascending: those that join and the active ones. -/
def State.carStepMembers : List Nat :=
  (s.carOf (Op.ctx w) .joining ++ s.carOf (Op.ctx w) .active).foldl (fun l i => insertNat i l) []

/-- When the CFE accepted the command. -/
def State.carStepTime : Nat := ((s.cmd? q n).map Cmd.start).getD s.env.now

/-- The joining slots taken in. -/
def State.carStepTaken : State :=
  (s.carOf (Op.ctx w) .joining).foldl
    (fun v i => v.setCarSlot i { v.carSlot i with st := .active, epoch := s.carStepNum w % 2 ^ 16 }) s

/-- The step's deadline: the earliest of its members' (R249). -/
def State.carStepDeadline : Nat :=
  match argMin (fun i => ((s.carStepTaken w).carSlot i).dlOff) (s.carStepMembers w) with
  | some i => min ctrMax (s.carStepTime q n + ((s.carStepTaken w).carSlot i).dlOff)
  | none => ctrMax

/-- The list written: the header's words, then an entry of each member (Table 10.8). -/
def State.carStepListed : State :=
  (s.carStepMembers w).zipIdx.foldl
    (fun v p => v.wrWords false (batchEntry (wordAt w 2).toNat p.2) (v.batchWords (s.carStepTime q n) p.1))
    ((s.carStepTaken w).wrWords false ((wordAt w 2).toNat + 24)
      [wd (fld (s.carStepNum w % 2 ^ 16) 16 32 + fld (s.carStepMembers w).length 32 0), wd (s.carStepNum w),
        wd (s.carStepDeadline q n w)])

/-- The shape slot that the header names holds the number of members. -/
def State.carStepShaped : State :=
  let v := s.carStepListed q n w
  let slot := bits (wordAt (s.batchHeader w) 1) 31 0
  let w0 := v.rd64 (v.tile (Op.ctx w) slot).addr
  if slot = 0xFFFFFFFF then v
  else v.writeShape (Op.ctx w) slot
    { m := (s.carStepMembers w).length, n := bits w0 31 16, k := bits w0 47 32, count := (s.carStepMembers w).length }

/-- The number of members noted with the command, which is what its completion reports. -/
def State.carStepNoted : State :=
  (s.carStepShaped q n w).updCmd q n fun x => { x with launch := (s.carStepMembers w).length }

variable (noted : State)

/-- The live step, whose instance is the next one of `noted`, or none where it has no member. -/
def State.carStepLive : LiveStep :=
  { q := q, seq := n, list := (wordAt w 2).toNat,
    inst := if s.carStepMembers w = [] then none else some noted.gd.nextInst,
    members := s.carStepMembers w, limit := bits (wordAt (s.batchHeader w) 2) 31 0, ended := decide (s.carStepMembers w = []) }

/-- The step is live in `noted`: its number and epoch are the context's. -/
def State.carStepBegun : State :=
  noted.setCarCtx (Op.ctx w)
    { step := s.carStepNum w, epoch := s.carStepNum w % 2 ^ 16, live := some (s.carStepLive q n w noted) }

/-- What the step's instance is launched with. -/
def State.carStepLaunch : Launch :=
  { owner := some (q, n), step := some (s.carStepNum w), stepDl := some (s.carStepDeadline q n w), at_ := s.carStepTime q n }

end

/-! ## CAR_STEP by case (Table 10.9) -/

section
variable {s : State} {q n : Nat} {w : List Word}

theorem State.effCarStep_badList (bad : s.batchOk (Op.ctx w) (s.batchHeader w) = false) :
    s.effCarStep q n w = s.complete q n .badParam 2 :=
  if_pos (congrArg not bad)

variable (ok : s.batchOk (Op.ctx w) (s.batchHeader w) = true)
include ok

/-- A list in range passes the first check of Table 10.9. -/
theorem State.not_batchBad : ¬ (!s.batchOk (Op.ctx w) (s.batchHeader w)) = true :=
  Bool.eq_false_iff.1 (congrArg not ok)

theorem State.effCarStep_badLaunch
    (bad : s.launchCheck (Op.ctx w) (bits (wordAt w 1) 15 0) true (s.carStepBase w) 1 ≠ 0) :
    s.effCarStep q n w = s.complete q n .badParam 1 :=
  (if_neg (State.not_batchBad ok)).trans (if_pos bad)

variable (pass : s.launchCheck (Op.ctx w) (bits (wordAt w 1) 15 0) true (s.carStepBase w) 1 = 0)
include pass

theorem State.effCarStep_full (full : bits (wordAt (s.batchHeader w) 0) 31 0 < (s.carStepMembers w).length) :
    s.effCarStep q n w = s.complete q n .noResource 0 :=
  (if_neg (State.not_batchBad ok)).trans ((if_neg (not_not.2 pass)).trans (if_pos full))

variable (room : (s.carStepMembers w).length ≤ bits (wordAt (s.batchHeader w) 0) 31 0)
include room

variable {noted : State} (written : noted = s.carStepNoted q n w)
include written

/-- A step that the list has room for passes every check. -/
theorem State.effCarStep_begins : s.effCarStep q n w =
    if (s.carStepMembers w).length = 0 then (s.carStepBegun q n w noted).complete q n .ok 0
    else (((s.carStepBegun q n w noted).updCmd q n fun x => { x with watched := true }).refreshAll.launch (Op.ctx w)
      (bits (wordAt w 1) 15 0) (s.carStepBase w) 1 (s.carStepLaunch q n w)).2 := by
  unfold State.effCarStep
  extract_lets c t gid list h k step span base joining members a epoch taken dl head listed slot w0 shaped counted live begun
    watched
  have listOk : ¬ (!s.batchOk c h) = true := State.not_batchBad ok
  have launchOk : ¬ s.launchCheck c gid true base 1 ≠ 0 := not_not.2 pass
  have fits : ¬ bits (wordAt h 0) 31 0 < a := Nat.not_lt.2 room
  rw [if_neg listOk, if_neg launchOk, if_neg fits]
  -- The state so far becomes a variable: only the number of its next instance matters from here on.
  have same : noted = counted := written
  clear_value counted
  subst same
  have sameLive : live = s.carStepLive q n w noted := by
    simp only [live, State.carStepLive, ← List.length_eq_zero_iff]
    rfl
  clear_value live
  subst sameLive
  rfl

theorem State.effCarStep_completes (empty : s.carStepMembers w = []) :
    s.effCarStep q n w = (s.carStepBegun q n w noted).complete q n .ok 0 :=
  (State.effCarStep_begins ok pass room written).trans (if_pos (List.length_eq_zero_iff.2 empty))

theorem State.effCarStep_launches (filled : s.carStepMembers w ≠ []) : s.effCarStep q n w =
    (((s.carStepBegun q n w noted).updCmd q n fun x => { x with watched := true }).refreshAll.launch (Op.ctx w)
      (bits (wordAt w 1) 15 0) (s.carStepBase w) 1 (s.carStepLaunch q n w)).2 :=
  (State.effCarStep_begins ok pass room written).trans (if_neg (mt List.length_eq_zero_iff.1 filled))

end

/-- Settles O38: CAR_JOIN by its sequence and the free slot, CAR_LEAVE by its slot, and CAR_STEP by the checks of Table 10.9 and
then by whether the step has members. -/
theorem carouselCommands : Obligations.CarouselCommands := by
  unfold Obligations.CarouselCommands
  intro s e q n w c ends at'
  refine ⟨fun takes => ?join, fun takes => ?leave, fun takes => ?step⟩
  case join =>
    intro free y
    exact ⟨fun taken => leads_carCmd takes rfl (State.effCarJoin_taken taken),
      fun fresh full => leads_carCmd takes rfl (State.effCarJoin_full fresh full),
      fun fresh i lowest => leads_carCmd takes rfl (State.effCarJoin_joins fresh lowest)⟩
  case leave =>
    exact ⟨fun absent => leads_carCmd takes rfl (State.effCarLeave_absent absent),
      fun i found => ⟨fun out => leads_carCmd takes rfl (State.effCarLeave_frees found out),
        fun live => leads_carCmd takes rfl (State.effCarLeave_marks found live)⟩⟩
  case step =>
    intro step' gid list h t slot k step span base joining members epoch
    refine ⟨fun bad => leads_carCmd takes rfl (State.effCarStep_badList bad),
      fun ok bad => leads_carCmd takes rfl (State.effCarStep_badLaunch ok bad), fun ok pass =>
      ⟨fun full => leads_carCmd takes rfl (State.effCarStep_full ok pass full), fun room => ?begins⟩⟩
    intro taken dl head listed w0 shaped noted live go
    have written : noted = e.carStepNoted q n w := rfl
    exact ⟨fun empty => leads_carCmd takes rfl (State.effCarStep_completes ok pass room written empty),
      fun filled => leads_carCmd takes rfl (State.effCarStep_launches ok pass room written filled)⟩

end Sys2Proof.Machine

namespace Sys2Proof.Machine

/-! ## A send at its bridge (R255, R284) -/

/-- A running task's send, as its port latches it. -/
def Running.send (y : Running) (c tag : Nat) (h : Word) (payload : List Word) : Send :=
  { core := c, who := y.req, tag := tag, hdr := h, payload := payload }

/-- The message that a send asks for (Table 11.1). -/
def Running.msg (y : Running) (h : Word) (payload : List Word) : Msg :=
  { ctx := y.p.e.ref.ctx, slot := hdrSlot h, port := hdrPort h, chan := hdrChan h,
    data := (List.range (hdrLen h + 1)).map fun i => wordAt payload i }

section
variable {s : State} {c tag : Nat} {h : Word} {payload : List Word} {y : Running}

theorem State.latchSend_running (hy : s.runningOn c = some y) :
    s.latchSend c tag h payload = s.push [.relay (y.send c tag h payload)] := by
  simp only [State.latchSend, State.reqOf, hy, Option.map_some]
  rfl

section
variable (steady : s.steady) (hy : s.runningOn c = some y) (own : s.relayPaused c = false) (other : s.relayPaused (hdrCore h) = false)
include steady hy own other

theorem leads_relaySend {v : State} (hv : (s.xferOpen c 7).relaySend (y.send c tag h payload) = v) :
    Leads (.relaySend c tag h payload) s v := by
  refine leads_push (w := .relay (y.send c tag h payload)) ?_ steady.1 ?_ hv
  · rw [← State.latchSend_running hy]; rfl
  · exact Bool.or_eq_false_iff.2 ⟨Bool.or_eq_false_iff.2 ⟨steady.2, own⟩, other⟩

theorem next_relaySend {v : State} (hv : (s.xferOpen c 7).relaySend (y.send c tag h payload) = v) (hn : v.work = []) :
    exec (.relaySend c tag h payload) s = .next v := by
  refine next_push (w := .relay (y.send c tag h payload)) ?_ steady.1 ?_ hv hn
  · rw [← State.latchSend_running hy]; rfl
  · exact Bool.or_eq_false_iff.2 ⟨Bool.or_eq_false_iff.2 ⟨steady.2, own⟩, other⟩

end

/-! ## A send at the Relay (R255, R256, R263, R264) -/

theorem State.relaySend_disabled (off : s.rly.en = false) (z : Send) :
    s.relaySend z = { s with rly := { s.rly with held := s.rly.held ++ [z] } } :=
  if_pos (by rw [off]; rfl)

section
variable (on : s.rly.en = true)
include on

theorem State.relaySend_suppressed {z : Send} (quiet : s.reqSuppressed z.core z.who = true) :
    s.relaySend z = s.strayOne.relayOk z.core z.tag :=
  (if_neg (by simp [on])).trans (if_pos quiet)

variable (live : ¬ s.reqSuppressed c y.req = true)
include live

/-- A header that names nothing: a reserved bit set, or a core of an absent cluster (R256). -/
theorem State.relaySend_wrong (wrong : bits h 63 22 ≠ 0 ∨ s.present (hdrCore h / 8) = false) :
    s.relaySend (y.send c tag h payload) = (if y.p.spec.isSome then s.push [.refute y.p.e.ref 3] else s).reply c tag 2 0 :=
  (if_neg (by simp [on])).trans ((if_neg live).trans (if_pos (wrong.imp_right (by simp [Running.send]))))

variable (good : ¬ (bits h 63 22 ≠ 0 ∨ s.present (hdrCore h / 8) = false))
include good

theorem State.relaySend_good : s.relaySend (y.send c tag h payload) =
    if y.p.spec.isSome then s.relaySpec (y.send c tag h payload)
    else match s.curCtx (hdrCore h) with
      | some k => if k ≠ y.p.e.ref.ctx then s.strayOne.relayOk c tag else s.relayTake c tag h (y.msg h payload)
      | none => s.relayTake c tag h (y.msg h payload) :=
  (if_neg (by simp [on])).trans ((if_neg live).trans (if_neg (mt (Or.imp_right (by simp [Running.send])) good)))

theorem State.relaySend_speculative (hz : y.p.spec ≠ none) :
    s.relaySend (y.send c tag h payload) = s.relaySpec (y.send c tag h payload) :=
  (State.relaySend_good on live good).trans (if_pos (Option.isSome_iff_ne_none.2 hz))

variable (hz : y.p.spec = none)
include hz

theorem State.relaySend_elsewhere {z : Nat} (hc : s.curCtx (hdrCore h) = some z) (ne : z ≠ y.p.e.ref.ctx) :
    s.relaySend (y.send c tag h payload) = s.strayOne.relayOk c tag := by
  rw [State.relaySend_good on live good, hz, hc]
  exact if_pos ne

theorem State.relaySend_takes (hc : s.curCtx (hdrCore h) = none ∨ s.curCtx (hdrCore h) = some y.p.e.ref.ctx) :
    s.relaySend (y.send c tag h payload) = s.relayTake c tag h (y.msg h payload) := by
  rw [State.relaySend_good on live good, hz]
  obtain hc | hc := hc <;> rw [hc]
  · rfl
  · exact if_neg (not_not.2 rfl)

end

/-- The answer to a discarded speculative send is the next free value (R264, log 13). -/
theorem State.relaySpec_eq (s : State) (z : Send) : s.relaySpec z =
    if Config.freeValue 1 s.freeCount = 0 then
      (State.push { s.strayOne with freeCount := s.freeCount + 1 } [.refute z.who.ref 3]).relayOk z.core z.tag
    else (State.push { s.strayOne with freeCount := s.freeCount + 1 } [.refute z.who.ref 3]).relayRefuse z.core z.tag :=
  rfl

/-! ## Accepting a message (R260, R262) -/

/-- The channel's buffer takes a message on a free credit. -/
def State.credited (s : State) (ch : Nat) (m : Msg) : State :=
  s.setChan ch { s.chan ch with credits := (s.chan ch).credits ++ [m], wr := (s.chan ch).wr + m.data.length + 1 }

section
variable {m : Msg} {k : Nat} (hk : k = 16 * hdrCore h + hdrChan h)
include hk

theorem State.relayTake_credit (room : (s.refill k 8).creditsUsed k < 8 ∧ ((s.refill k 8).chan k).spilled m.ctx = []) :
    s.relayTake c tag h m = ((s.refill k 8).credited k m).relayOk c tag := by
  subst hk
  exact if_pos room

variable (full : ¬ ((s.refill k 8).creditsUsed k < 8 ∧ ((s.refill k 8).chan k).spilled m.ctx = []))
include full

theorem State.relayTake_spills {v : State} (hv : (s.refill k 8).spill k m = some v) :
    s.relayTake c tag h m = State.relayOk { v with rly := { v.rly with spilled := v.rly.spilled + 1 } } c tag := by
  subst hk
  refine (if_neg full).trans ?_
  rw [hv]

theorem State.relayTake_full (hv : (s.refill k 8).spill k m = none) :
    s.relayTake c tag h m = (s.refill k 8).relayFull c tag h m.ctx := by
  subst hk
  refine (if_neg full).trans ?_
  rw [hv]

end
end

/-! ## What a refill leaves (R260) -/

/-- A refill changes the Relay's state alone. -/
theorem State.refill_rly (s : State) (ch n : Nat) : s.refill ch n = { s with rly := (s.refill ch n).rly } := by
  induction n generalizing s with
  | zero => rfl
  | succ n ih =>
    unfold State.refill
    split
    · rfl
    · split
      · rfl
      · split
        · rfl
        · rw [ih]; rfl

@[simp] theorem State.refill_work (s : State) (ch n : Nat) : (s.refill ch n).work = s.work := by rw [State.refill_rly]
@[simp] theorem State.refill_gcs (s : State) (ch n : Nat) : (s.refill ch n).gcs = s.gcs := by rw [State.refill_rly]

@[simp] theorem State.relayPaused_refill (s : State) (ch n c : Nat) : (s.refill ch n).relayPaused c = s.relayPaused c := by
  rw [State.refill_rly]; rfl

/-- A channel that has spilled nothing has nothing to refill from. -/
theorem State.refill_unspilled {s : State} {ch : Nat} (h : (s.chan ch).chains = []) (n : Nat) : s.refill ch n = s := by
  cases n with
  | zero => rfl
  | succ n =>
    unfold State.refill
    split
    · rfl
    · split
      · rfl
      · rw [h]; rfl

/-! ## Delivery and port reads (R258) -/

section
variable {s : State} {c : Nat}

theorem State.relayDeliver_moves {ch : Nat} {m : Msg} {l : List Msg} {y : Running} (still : s.gcs.changing = false)
    (own : s.relayPaused c = false) (hch : ch < 16)
    (head : ((s.refill (16 * c + ch) 8).chan (16 * c + ch)).credits = m :: l)
    (runs : (s.refill (16 * c + ch) 8).runningOn c = some y) (same : y.p.e.ref.ctx = m.ctx)
    (empty : AL.has (s.refill (16 * c + ch) 8).rly.ports (256 * c + 4 * m.slot + m.port) = false) :
    s.relayDeliver c ch =
      let v := (s.refill (16 * c + ch) 8).setChan (16 * c + ch) { (s.refill (16 * c + ch) 8).chan (16 * c + ch) with credits := l }
      { v with rly := { v.rly with ports := AL.put (256 * c + 4 * m.slot + m.port) m v.rly.ports } } := by
  unfold State.relayDeliver
  simp only [head, runs]
  exact if_neg (by simp [same, empty, still, own, hch])

theorem State.portRead_empties {slot port : Nat} {m : Msg} (h : AL.get? (256 * c + 4 * slot + port) s.rly.ports = some m) :
    s.portRead c slot port =
      State.refill { s with rly := { s.rly with ports := AL.del s.rly.ports (256 * c + 4 * slot + port) } } (16 * c + m.chan) 8 := by
  simp only [State.portRead, h]

end

/-! ## A transfer on a core's port leaves what the Relay reads (R263, R279) -/

theorem State.curCtx_xferOpen (s : State) (c ch d : Nat) : (s.xferOpen c ch).curCtx d = s.curCtx d := by
  have saddle : ((s.xferOpen c ch).core d).saddle = (s.core d).saddle := by
    unfold State.xferOpen
    by_cases h : d = c
    · subst h; rw [State.core_updCore_self]; split <;> rfl
    · rw [State.core_updCore_ne h]
  unfold State.curCtx
  rw [State.core_xferOpen_running, saddle]

/-- Settles O58: a send by the first of its outcomes, a delivery and a read by their equations. -/
theorem relayMessages : Obligations.RelayMessages := by
  unfold Obligations.RelayMessages
  intro s c hs
  refine ⟨fun y tag h payload hy on own other => ?sends, fun y tag h payload hy off own other => ?waits,
    fun ch m l y hch own head runs same empty => ?delivers, fun slot port m hm => ?reads⟩
  case sends =>
    intro send p stray x t k m answer sent quiet free bad
    have hn : p.work = [] := State.xferOpen_work_nil hs c 7
    have on : p.rly.en = true := on
    have hquiet : p.reqSuppressed c y.req = s.reqSuppressed c y.req := s.reqSuppressed_xferOpen c 7 c y.req
    have hcur (z : Option Nat) (hz : s.curCtx t = z) : p.curCtx t = z := (s.curCtx_xferOpen c 7 t).trans hz
    refine ⟨fun quiet => ?suppressed, fun hz live => ?speculative, fun hz live => ?own⟩
    case suppressed => exact next_relaySend hs hy own other (State.relaySend_suppressed on (hquiet.trans quiet)) hn
    all_goals have live : ¬ p.reqSuppressed c y.req = true := fun h => live (hquiet.symm.trans h)
    case speculative =>
      intro v n
      refine ⟨fun wrong => ?_, fun good zero => ?_, fun good one => ?_⟩
      · refine leads_relaySend hs hy own other ((State.relaySend_wrong on live wrong).trans ?_)
        rw [if_pos (Option.isSome_iff_ne_none.2 hz)]
        rfl
      · exact leads_relaySend hs hy own other ((State.relaySend_speculative on live good hz).trans (if_pos zero))
      · exact leads_relaySend hs hy own other ((State.relaySend_speculative on live good hz).trans (if_neg one))
    case own =>
      refine ⟨fun wrong => ?_, fun good => ⟨fun z hc ne => ?_, fun hc => ?_⟩⟩
      · refine next_relaySend hs hy own other ((State.relaySend_wrong on live wrong).trans ?_) hn
        rw [if_neg (by simp [hz])]
        rfl
      · exact next_relaySend hs hy own other (State.relaySend_elsewhere on live good hz (hcur _ hc) ne) hn
      · intro f room
        have takes := State.relaySend_takes on live good hz (payload := payload) (tag := tag) (hc.imp (hcur _) (hcur _))
        have hk : k = 16 * hdrCore h + hdrChan h := rfl
        have idle : f.work = [] := (State.refill_work _ _ _).trans hn
        exact ⟨fun fits => next_relaySend hs hy own other (takes.trans (State.relayTake_credit hk fits)) idle,
          fun full v hv => leads_relaySend hs hy own other (takes.trans (State.relayTake_spills hk full hv)),
          fun full hv => leads_relaySend hs hy own other (takes.trans (State.relayTake_full hk full hv))⟩
  case waits =>
    exact next_relaySend hs hy own other (State.relaySend_disabled (s := s.xferOpen c 7) off _) (State.xferOpen_work_nil hs c 7)
  case delivers =>
    exact exec_next rfl (State.relayDeliver_moves hs.2 own hch head runs same empty) ((State.refill_work _ _ _).trans hs.1)
  case reads =>
    intro v
    exact ⟨exec_next rfl (State.portRead_empties hm) ((State.refill_work _ _ _).trans hs.1),
      fun unspilled => State.refill_unspilled (s := v) unspilled 8⟩

end Sys2Proof.Machine

namespace Sys2Proof.Machine

/-! ## Corrections and their records (R335, R336, Table 15.3) -/

section
variable {s : State} (on : s.gcs.state ≠ 0) {storage : Nat} (lo : 1 ≤ storage) (hi : storage ≤ 16) (inst row : Nat)
include on lo hi

theorem State.sramError_uncorrectable : s.sramError storage inst row true = s.sramUncorrectable storage inst row :=
  (if_neg (by omega)).trans (if_pos rfl)

theorem State.sramError_correctable : s.sramError storage inst row false =
    if storage = 3 ∨ storage = 4 then (s.sramCe storage inst row).ceWorn storage inst row else s.sramCe storage inst row :=
  (if_neg (by omega)).trans (if_neg Bool.false_ne_true)

end

section
variable (s : State) (storage inst row : Nat)

/-- A storage's corrections with this one (R336). -/
def State.ceSum : Nat := min (AL.get s.fsu.ceTotal storage + 1) (2 ^ 64 - 1)

/-- A correction is counted, in the storage's total and in its row. -/
def State.ceNoted (p : Nat × Nat) : State :=
  { s with fsu := { s.fsu with
    ceTotal := AL.put storage (s.ceSum storage) s.fsu.ceTotal, ces := AL.put (storage, inst * 2 ^ 32 + row) p s.fsu.ces } }

/-- The record SRAM_CE. -/
def State.ceRecord : Err :=
  { unit := storageUnit storage, inst := storageInst storage inst, cls := 1, code := 0x12, a := storage, b := row, c := s.ceSum storage }

variable {s storage inst row}

theorem State.sramCe_first (h : AL.get? (storage, inst * 2 ^ 32 + row) s.fsu.ces = none) :
    s.sramCe storage inst row = (s.ceNoted storage inst row (1, s.env.now)).err (s.ceRecord storage inst row) := by
  simp only [State.sramCe, h]
  rfl

variable {p : Nat × Nat} (h : AL.get? (storage, inst * 2 ^ 32 + row) s.fsu.ces = some p)
include h

theorem State.sramCe_later (late : p.2 + 1000000000 ≤ s.env.now) :
    s.sramCe storage inst row = (s.ceNoted storage inst row (p.1 + 1, s.env.now)).err (s.ceRecord storage inst row) := by
  simp only [State.sramCe, h, late, decide_true, if_true]
  rfl

theorem State.sramCe_soon (soon : s.env.now < p.2 + 1000000000) :
    s.sramCe storage inst row = s.ceNoted storage inst row (p.1 + 1, p.2) := by
  have count : AL.get s.fsu.ces (storage, inst * 2 ^ 32 + row) = p := by rw [AL.get, h]; rfl
  simp only [State.sramCe, h, Nat.not_le.2 soon, decide_false, Bool.false_eq_true, if_false, AL.upd, count]
  rfl

end

section
variable (s : State) (storage inst row : Nat)

/-- A correction changes neither the timebase nor the work: its record is CORRECTED (Table 15.3). -/
theorem State.sramCe_env_work : (s.sramCe storage inst row).env = s.env ∧ (s.sramCe storage inst row).work = s.work := by
  cases h : AL.get? (storage, inst * 2 ^ 32 + row) s.fsu.ces with
  | none =>
    rw [State.sramCe_first h]
    exact ⟨State.err_env _ _, State.err_work _ _ (by simp [State.ceRecord])⟩
  | some p =>
    obtain soon | late := Nat.lt_or_ge s.env.now (p.2 + 1000000000)
    · rw [State.sramCe_soon h soon]
      exact ⟨rfl, rfl⟩
    · rw [State.sramCe_later h late]
      exact ⟨State.err_env _ _, State.err_work _ _ (by simp [State.ceRecord])⟩

/-- The corrections of a row within the hour, with the one at `now` (R336). -/
def State.ceHours (now : Nat) : List Nat :=
  ((AL.get s.fsu.ceHour (storage, inst * 2 ^ 32 + row)).filter fun t => now < t + 3600000000000) ++ [now]

/-- They are kept until there are 64. -/
def State.ceHourNoted (now : Nat) : State :=
  { s with fsu := { s.fsu with
    ceHour := AL.put (storage, inst * 2 ^ 32 + row)
      (if 64 ≤ (s.ceHours storage inst row now).length then [] else s.ceHours storage inst row now) s.fsu.ceHour } }

/-- The unit that corrections wear out: a heap bank, or a row of the counter store. -/
def wornUnit : Nat × Nat := if storage = 3 then (3, inst) else (4, row)

theorem State.inUse_iff (kind phys : Nat) :
    s.inUse kind phys = true ↔ s.logicalOf kind phys ≠ none ∨ s.freeSpare kind phys = true := by
  simp only [State.inUse, Bool.or_eq_true, Option.isSome_iff_ne_none]

variable {s storage inst row} {now : Nat} (hn : s.env.now = now)
include hn

theorem State.ceWorn_counts (h : (s.ceHours storage inst row now).length < 64 ∨
      ¬ (s.logicalOf (wornUnit storage inst row).1 (wornUnit storage inst row).2 ≠ none ∨
        s.freeSpare (wornUnit storage inst row).1 (wornUnit storage inst row).2 = true)) :
    s.ceWorn storage inst row = s.ceHourNoted storage inst row now := by
  subst hn
  exact if_pos (h.imp_right fun unused => (Bool.not_eq_true' _).mpr (Bool.eq_false_iff.2 (mt (s.inUse_iff _ _).1 unused)))

theorem State.ceWorn_wears (h : 64 ≤ (s.ceHours storage inst row now).length)
    (used : s.logicalOf (wornUnit storage inst row).1 (wornUnit storage inst row).2 ≠ none ∨
      s.freeSpare (wornUnit storage inst row).1 (wornUnit storage inst row).2 = true) :
    s.ceWorn storage inst row =
      (s.ceHourNoted storage inst row now).decideRemount (wornUnit storage inst row).1 (wornUnit storage inst row).2 0x12 := by
  subst hn
  have serves := (s.inUse_iff _ _).2 used
  exact if_neg (not_or.2 ⟨Nat.not_lt.2 h, fun idle => Bool.eq_false_iff.1 ((Bool.not_eq_true' _).mp idle) serves⟩)

end

/-! ## Uncorrectable errors (Table 15.4) -/

section
variable {s : State} {inst row : Nat}

theorem State.uncorrectable_line {l : Nat} (h : AL.get? (row / 16, row % 16) s.dcache.lines = some l) :
    s.sramUncorrectable 1 inst row = ((s.sramCe 1 inst row).dcDrop fun x => x = l).dcRead l := by
  simp only [State.sramUncorrectable, h]

theorem State.uncorrectable_noLine (h : AL.get? (row / 16, row % 16) s.dcache.lines = none) :
    s.sramUncorrectable 1 inst row = s.sramCe 1 inst row := by
  simp only [State.sramUncorrectable, h]

/-- The task in a row of a cluster's storage, with its cluster. -/
def State.storedTask (s : State) (inst row : Nat) : Option (Nat × TaskRef) :=
  (s.logicalOf 2 inst).bind fun n => (s.entryTask (8 * n + row / 16) (row % 16)).map fun r => (n, r)

theorem State.uncorrectable_task {n : Nat} {r : TaskRef} (h : s.storedTask inst row = some (n, r)) :
    s.sramUncorrectable 2 inst row = (s.sramUe 2 inst row 2 []).loseTask n r := by
  rw [State.storedTask] at h
  simp only [State.sramUncorrectable, h]

theorem State.uncorrectable_noTask (h : s.storedTask inst row = none) :
    s.sramUncorrectable 2 inst row = s.sramCe 2 inst row := by
  rw [State.storedTask] at h
  simp only [State.sramUncorrectable, h]

theorem State.failUnit_used {kind phys : Nat} (h : s.logicalOf kind phys ≠ none ∨ s.freeSpare kind phys = true) :
    s.failUnit kind phys = s.decideRemount kind phys 0x13 :=
  if_pos ((s.inUse_iff kind phys).2 h)

theorem State.failUnit_unused {kind phys : Nat} (h : ¬ (s.logicalOf kind phys ≠ none ∨ s.freeSpare kind phys = true)) :
    s.failUnit kind phys = s :=
  if_neg (mt (s.inUse_iff kind phys).1 h)

section
variable {l : List Waiter}

theorem State.uncorrectable_waiter {x : Waiter} (h : (s.ctu.waiters.filter Waiter.cached).drop row = x :: l) :
    s.sramUncorrectable 6 inst row = s.sramUe 6 inst row 2 [x.ctx] := by
  simp only [State.sramUncorrectable, h]; rfl

theorem State.uncorrectable_noWaiter (h : (s.ctu.waiters.filter Waiter.cached).drop row = []) :
    s.sramUncorrectable 6 inst row = s.sramUe 6 inst row 2 ((s.ctu.waiters.filter Waiter.cached).map Waiter.ctx) := by
  simp only [State.sramUncorrectable, h]; rfl

end

theorem State.uncorrectable_context (h : s.defined row = true) :
    s.sramUncorrectable 7 inst row = s.sramUe 7 inst row 2 [row] := by
  simp only [State.sramUncorrectable, h, if_true]

theorem State.uncorrectable_noContext (h : s.defined row = false) : s.sramUncorrectable 7 inst row =
    s.sramUe 7 inst row 2 (s.definedList.filter fun c => (s.ctx c).insts ≠ []) := by
  simp only [State.sramUncorrectable, h, Bool.false_eq_true, if_false]

theorem State.uncorrectable_flow {x : (Nat × Nat) × Flow} {l : List ((Nat × Nat) × Flow)}
    (h : (s.gd.flows.filter fun p => !p.2.spilled).drop row = x :: l) :
    s.sramUncorrectable 8 inst row = s.sramUe 8 inst row 2 [x.1.1] := by
  simp only [State.sramUncorrectable, h]; rfl

theorem State.uncorrectable_noFlow (h : (s.gd.flows.filter fun p => !p.2.spilled).drop row = []) :
    s.sramUncorrectable 8 inst row = s.sramUe 8 inst row 2 ((s.gd.flows.filter fun p => !p.2.spilled).map fun p => p.1.1) := by
  simp only [State.sramUncorrectable, h]; rfl

theorem State.uncorrectable_slot (h : (s.carSlot row).st ≠ .free) :
    s.sramUncorrectable 9 inst row = s.sramUe 9 inst row 2 [(s.carSlot row).ctx] := by
  simp only [State.sramUncorrectable, h, if_false]

theorem State.uncorrectable_freeSlot (h : (s.carSlot row).st = .free) : s.sramUncorrectable 9 inst row =
    s.sramUe 9 inst row 2 ((s.car.slots.filter fun p => p.2.st ≠ .free).map fun p => p.2.ctx).eraseDups := by
  simp only [State.sramUncorrectable, h, if_true]

theorem State.uncorrectable_prediction {p : Pred} {l : List Pred} (h : s.plu.preds.drop row = p :: l) :
    s.sramUncorrectable 10 inst row = (s.sramCe 10 inst row).flushPreds fun x => x = p := by
  simp only [State.sramUncorrectable, h, List.head?_cons]

theorem State.uncorrectable_noPrediction (h : s.plu.preds.drop row = []) :
    s.sramUncorrectable 10 inst row = s.sramCe 10 inst row := by
  simp only [State.sramUncorrectable, h, List.head?_nil]

theorem State.uncorrectable_ring (h : 2 ^ 63 ≤ row) : s.sramUncorrectable 11 inst row =
    (s.sramUe 11 inst row 2 [row / 4096 % 4096]).ringRewind (row % 4096) (row / 4096 % 4096) :=
  if_pos h

section
variable (buffered : row < 2 ^ 63)
include buffered

theorem State.uncorrectable_message {m : Msg} {l : List Msg}
    (h : (AL.get s.rly.chans (row / 8)).credits.drop (row % 8) = m :: l) :
    s.sramUncorrectable 11 inst row = s.sramUe 11 inst row 2 [m.ctx] := by
  refine (if_neg (Nat.not_le.2 buffered)).trans ?_
  rw [h]; rfl

theorem State.uncorrectable_noMessage (h : (AL.get s.rly.chans (row / 8)).credits.drop (row % 8) = []) :
    s.sramUncorrectable 11 inst row =
      s.sramUe 11 inst row 2 (s.rly.chans.flatMap fun p => p.2.credits.map Msg.ctx).eraseDups := by
  refine (if_neg (Nat.not_le.2 buffered)).trans ?_
  rw [h]; rfl

theorem State.uncorrectable_program : s.sramUncorrectable 13 inst row = (s.sramUe 13 inst row 2 []).geFail inst 0 :=
  if_neg (Nat.not_le.2 buffered)

end

theorem State.uncorrectable_stream (h : 2 ^ 63 ≤ row) :
    s.sramUncorrectable 13 inst row = (s.sramUe 13 inst row 2 []).geTrap inst 2 :=
  if_pos h

end

/-! ## An error's row in the table of commands -/

section
variable {s : State} (hw : s.work = []) (on : s.gcs.state ≠ 0) {storage inst row t : Nat} (lo : 1 ≤ storage) (hi : storage ≤ 16)
include on lo hi

theorem leads_uncorrectable {v : State} (h : (s.at t).sramUncorrectable storage inst row = v) :
    Leads (.sramError storage inst row true t) s v :=
  leads_eq rfl ((State.sramError_uncorrectable (s := s.at t) on lo hi inst row).trans h)

include hw

theorem next_sramCe (other : ¬ (storage = 3 ∨ storage = 4)) :
    exec (.sramError storage inst row false t) s = .next ((s.at t).sramCe storage inst row) :=
  exec_next rfl ((State.sramError_correctable (s := s.at t) on lo hi inst row).trans (if_neg other))
    ((State.sramCe_env_work _ _ _ _).2.trans hw)

/-- What a correction leaves, where it is known what a command answers. -/
theorem sramCe_of_next (other : ¬ (storage = 3 ∨ storage = 4)) {v : State}
    (h : exec (.sramError storage inst row false t) s = .next v) : (s.at t).sramCe storage inst row = v := by
  rw [next_sramCe hw on lo hi other] at h
  injection h

end

/-! ## Worn stages (R339, R340) -/

section
variable (s : State) (x : Wear)

theorem State.noteMargin_eq : s.noteMargin x = { s with fsu := { s.fsu with
    worst := if x.margin < s.fsu.worst then x.margin else s.fsu.worst,
    stage := if x.margin < s.fsu.worst then x.stage else s.fsu.stage } } := by
  unfold State.noteMargin
  split <;> rfl

/-- A margin is noted once. -/
theorem State.noteMargin_twice : (s.noteMargin x).noteMargin x = s.noteMargin x := by
  refine if_neg ?_
  rw [State.noteMargin_worst]
  omega

/-- The margin of a worn unit, at code 63, is noted too. -/
def State.wearNoted : State :=
  let v := s.noteMargin x
  { v with fsu := { v.fsu with margins := AL.put (x.kind, x.inst) (x.margin63, x.stage) v.fsu.margins } }

variable {s x}

theorem State.wearDetect_notes (on : s.gcs.state ≠ 0) (h : s.up = false ∨ s.fsu.wearLimit ≤ x.margin) :
    s.wearDetect x = s.noteMargin x :=
  (if_neg on).trans (if_pos (h.imp_left fun down => by rw [down]; rfl))

section
variable (on : s.gcs.state ≠ 0) (up : s.up = true) (low : x.margin < s.fsu.wearLimit)
include on up low

theorem State.wearDetect_worn : s.wearDetect x = (s.noteMargin x).wearOrHold x :=
  (if_neg on).trans (if_neg (by simp [up, low]))

theorem State.wearDetect_holds (waits : s.roleRuns 2 = false) : s.wearDetect x =
    { s.noteMargin x with fsu := { (s.noteMargin x).fsu with heldWear := (s.noteMargin x).fsu.heldWear ++ [(x, false)] } } := by
  refine (State.wearDetect_worn on up low).trans (if_neg ?_)
  rw [State.noteMargin_eq]
  exact Bool.eq_false_iff.1 waits

theorem State.wearDetect_acts (runs : s.roleRuns 2 = true) : s.wearDetect x = (s.noteMargin x).wearAct x false := by
  refine (State.wearDetect_worn on up low).trans (if_pos ?_)
  rw [State.noteMargin_eq]
  exact runs

end

/-- The action that role 2 takes about a worn stage (R340): regroom, remount, keep or withdraw. -/
def State.wearAction (s : State) (x : Wear) : Nat :=
  if s.fsu.wearLimit ≤ x.margin63 then 1
  else if (s.spareFor x.kind x.inst).isSome || s.freeSpare x.kind x.inst then 2
  else if (s.wearNoted x).keeps x.kind x.inst 0x14 then 3
  else 4

/-- The action, once recorded. -/
def State.wearTake (s : State) (x : Wear) : Nat → State
  | 1 => s.push [.regroom x.kind x.inst x.stage]
  | 2 => s.decideRemount x.kind x.inst 0x14
  | 3 => s.keepUnit x.kind x.inst
  | _ => match s.logicalOf x.kind x.inst with
    | some l => s.startLeaving x.kind l x.inst 0x14
    | none => s

theorem State.wearAct_serving {l : Nat} (seq : x.kind ≠ 2 ∨ (s.seqr x.inst).valid = true)
    (serves : s.logicalOf x.kind x.inst = some l) (new : s.remounting x.kind x.inst = false) :
    s.wearAct x false = ((s.wearNoted x).wearRecord x (s.wearAction x)).wearTake x (s.wearAction x) := by
  unfold State.wearAct State.wearAction
  dsimp only
  rw [if_neg (by simpa [imp_iff_not_or] using seq), if_neg (by simp [serves])]
  simp only [new, Bool.false_eq_true, if_false, Bool.not_false, Bool.true_and, Bool.false_and, decide_eq_true_eq]
  rfl

theorem State.wearNoted_noteMargin (s : State) (x : Wear) : (s.noteMargin x).wearNoted x = s.wearNoted x := by
  unfold State.wearNoted
  rw [State.noteMargin_twice]

theorem State.wearAction_noteMargin (s : State) (x : Wear) : (s.noteMargin x).wearAction x = s.wearAction x := by
  unfold State.wearAction
  rw [State.wearNoted_noteMargin, State.noteMargin_eq]
  rfl

theorem State.wearDetect_serving (on : s.gcs.state ≠ 0) (up : s.up = true) (low : x.margin < s.fsu.wearLimit)
    (runs : s.roleRuns 2 = true) (new : s.remounting x.kind x.inst = false)
    (seq : x.kind ≠ 2 ∨ (s.seqr x.inst).valid = true) {l : Nat} (serves : s.logicalOf x.kind x.inst = some l) :
    s.wearDetect x = ((s.wearNoted x).wearRecord x (s.wearAction x)).wearTake x (s.wearAction x) := by
  rw [State.wearDetect_acts on up low runs, ← State.wearNoted_noteMargin s, ← State.wearAction_noteMargin s]
  rw [State.noteMargin_eq]
  exact State.wearAct_serving seq serves new

theorem State.wearAction_regrooms (h : s.fsu.wearLimit ≤ x.margin63) : s.wearAction x = 1 := if_pos h

section
variable (worn : x.margin63 < s.fsu.wearLimit)
include worn

theorem State.wearAction_remounts (spare : s.spareFor x.kind x.inst ≠ none ∨ s.freeSpare x.kind x.inst = true) :
    s.wearAction x = 2 :=
  (if_neg (Nat.not_le.2 worn)).trans (if_pos (by simpa [Option.isSome_iff_ne_none] using spare))

variable (last : ¬ (s.spareFor x.kind x.inst ≠ none ∨ s.freeSpare x.kind x.inst = true))
include last

theorem State.wearAction_last : s.wearAction x = if (s.wearNoted x).keeps x.kind x.inst 0x14 then 3 else 4 :=
  (if_neg (Nat.not_le.2 worn)).trans (if_neg (by simpa [Option.isSome_iff_ne_none] using last))

theorem State.wearAction_keeps (keeps : (s.wearNoted x).keeps x.kind x.inst 0x14 = true) : s.wearAction x = 3 :=
  (State.wearAction_last worn last).trans (if_pos keeps)

theorem State.wearAction_withdraws (loses : (s.wearNoted x).keeps x.kind x.inst 0x14 = false) : s.wearAction x = 4 :=
  (State.wearAction_last worn last).trans (if_neg (Bool.eq_false_iff.1 loses))

end
end

/-! ## What a record leaves: the units in service (R342) -/

/-- The retired, remapped and lost units. -/
def State.serving (s : State) : List (Nat × Nat) × List ((Nat × Nat) × Nat) × List (Nat × Nat) :=
  (s.fsu.retired, s.fsu.map, s.fsu.lostUnits)

theorem State.irq_serving (s : State) (i : Nat) : (s.irq i).serving = s.serving := by
  unfold State.irq
  refine ite_frame State.serving rfl ?_
  exact ite_frame State.serving rfl rfl

theorem State.healthNew_serving (s : State) (i : Nat) : (s.healthNew i).serving = s.serving := by
  unfold State.healthNew
  exact ite_frame State.serving rfl (State.irq_serving _ _)

theorem State.stageRaw_serving (s : State) (w : Nat) (l : List Word) : (s.stageRaw w l).serving = s.serving := by
  unfold State.stageRaw
  exact ite_frame State.serving rfl rfl

theorem State.stageErr_serving (s : State) (e : Err) (l : List Word) : (s.stageErr e l).serving = s.serving := by
  unfold State.stageErr
  refine ite_frame State.serving (State.stageRaw_serving _ _ _) (ite_frame State.serving rfl ?_)
  exact State.stageRaw_serving _ _ _

theorem State.errRing_serving (s : State) (l : List Word) : (s.errRing l).serving = s.serving := by
  have written (host : Bool) (a : Nat) : (s.wrWords host a l).serving = s.serving := by simp [State.serving]
  unfold State.errRing
  refine ite_frame State.serving rfl (ite_frame State.serving (State.healthNew_serving _ _) ?_)
  refine ite_frame State.serving ?_ (written _ _)
  unfold State.serving
  rw [State.ibi_fsu]
  exact (State.irq_serving _ _).trans (written _ _)

theorem State.err_serving (s : State) (e : Err) : (s.err e).serving = s.serving := by
  have staged (u : State) (l : List Word) : ((u.errRing l).stageErr e l).serving = u.serving :=
    (State.stageErr_serving _ _ _).trans (State.errRing_serving _ _)
  have raised (u : State) (l : List Word) : (if 2 ≤ e.cls then ((u.errRing l).stageErr e l).irq 0 else (u.errRing l).stageErr e l).serving
      = u.serving := ite_frame State.serving ((State.irq_serving _ _).trans (staged u l)) (staged u l)
  exact ite_frame State.serving (raised _ _) (raised _ _)

theorem State.logicalOf_congr {s v : State} (env : v.env = s.env) (csq : v.csq = s.csq) (fwc : v.fwc = s.fwc)
    (serving : v.serving = s.serving) (kind phys : Nat) : v.logicalOf kind phys = s.logicalOf kind phys := by
  obtain ⟨retired, map, lost⟩ : v.fsu.retired = s.fsu.retired ∧ v.fsu.map = s.fsu.map ∧ v.fsu.lostUnits = s.fsu.lostUnits := by
    simpa [State.serving] using serving
  simp only [State.logicalOf, State.globalPort, State.portOf, State.seqPos, State.seqr, State.core, State.isBase, State.lanesPer,
    env, csq, fwc, retired, map, lost]
  rfl

theorem State.logicalOf_err (s : State) (e : Err) (kind phys : Nat) : (s.err e).logicalOf kind phys = s.logicalOf kind phys :=
  State.logicalOf_congr (s.err_env e) (s.err_csq e) (s.err_fwc e) (s.err_serving e) kind phys

theorem State.logicalOf_wearRecord (s : State) (x : Wear) (action kind phys : Nat) :
    (s.wearRecord x action).logicalOf kind phys = s.logicalOf kind phys := by
  unfold State.wearRecord
  dsimp only
  generalize ({ unit := kindUnit x.kind, inst := s.kindInst x.kind x.inst, cls := 1, code := 0x14, a := x.stage, b := x.margin,
                c := action } : Err) = e
  exact s.logicalOf_err e kind phys

theorem State.logicalOf_wearNoted (s : State) (x : Wear) (kind phys : Nat) :
    (s.wearNoted x).logicalOf kind phys = s.logicalOf kind phys := by
  rw [State.wearNoted, State.noteMargin_eq]
  rfl

theorem State.wearTake_withdraws {s : State} {x : Wear} {l : Nat} (h : s.logicalOf x.kind x.inst = some l) :
    s.wearTake x 4 = s.startLeaving x.kind l x.inst 0x14 := by
  simp only [State.wearTake, h]

/-! ## Remounts decided before (R342, R343, Table 15.6) -/

section
variable {s : State} {kind phys cause : Nat}

theorem State.remountRow_takes (decided : (kind, phys, cause) ∈ s.fsu.remounts) (drained : s.drained kind phys = true)
    (up : s.up = true) (still : s.gcs.changing = false) (stays : (kind, phys) ∉ s.fsu.leaving)
    (may : s.roleRuns 2 = true ∨ ∃ new, AL.get? (kind, phys) s.fsu.chosen = some new ∧ s.freeSpare kind new = true) :
    s.remountRow kind phys cause = (s.dropRemount (kind, phys, cause)).remountNow kind phys cause := by
  have ready : (s.roleRuns 2 || ((AL.get? (kind, phys) s.fsu.chosen).any fun new => s.freeSpare kind new)) = true := by
    simpa [Option.any_eq_true] using may
  refine (if_neg (by simp [decided, up, still])).trans ((if_neg (by simp [stays])).trans (if_pos ?_))
  rw [drained, ready]
  rfl

variable {l : Nat} (serves : s.logicalOf kind phys = some l)
include serves

theorem State.remountNow_spare {new : Nat} (h : s.spareOf? kind phys = some new) :
    s.remountNow kind phys cause = s.toSpare kind l phys new cause := by
  simp only [State.remountNow, serves, h]

theorem State.remountNow_last (h : s.spareOf? kind phys = none) :
    s.remountNow kind phys cause = s.lastResort kind l phys cause := by
  simp only [State.remountNow, serves, h]

end

section
variable {s : State} (kind phys new cause : Nat)

theorem State.farrierNotes_now (h : s.roleRuns 2 = true) : s.farrierNotes kind phys new cause = s.noteRemount kind phys new cause :=
  if_pos h

theorem State.farrierNotes_later (h : s.roleRuns 2 = false) : s.farrierNotes kind phys new cause =
    { s with fsu := { s.fsu with unrecorded := s.fsu.unrecorded ++ [(kind, phys, new, cause)] } } :=
  if_neg (Bool.eq_false_iff.1 h)

end

/-! ## Pointer mismatches (R271) -/

section
variable {s : State} (on : s.gcs.state ≠ 0) (inst ctx : Nat)
include on

theorem State.ptrMismatch_channel : s.ptrMismatch 1 inst ctx =
    ((s.dropMsgs (16 * (inst % 256) + inst / 256 % 16) ctx false).ptrRecord 8 0 1 inst
      (AL.get s.rly.chans (16 * (inst % 256) + inst / 256 % 16)).wr (some ctx)).push [.faultQuiet ctx 0x08] :=
  if_neg on

theorem State.ptrMismatch_errorRing : s.ptrMismatch 6 inst ctx = s.errReset := if_neg on

theorem State.ptrMismatch_staging : s.ptrMismatch 8 inst ctx =
    (State.ptrRecord { s with fsu := { s.fsu with staging := [] } } 0x0A 0 8 0 s.fsu.stageWr none).stageLost :=
  if_neg on

end

/-- Settles O60: a correction by its row's last record, an error by the storage's line of Table 15.4, a mismatch by its queue, a worn
stage by the action that role 2 takes, and a remount by the spare that there is. -/
theorem unitFaults : Obligations.UnitFaults := by
  unfold Obligations.UnitFaults
  intro s inst row t hw on u err used
  refine ⟨fun storage lo hi => ?corrections, ?errors, ?mismatches, fun x => ?wear,
    fun kind cause decided drained up still stays may l serves => ?remounts⟩
  case corrections =>
    intro key row' total f e counted
    have correction := State.sramError_correctable (s := u) on lo hi inst row
    have count (v : State) (hv : u.sramCe storage inst row = v) : counted v := by
      obtain ⟨env, work⟩ := u.sramCe_env_work storage inst row
      rw [hv] at env work correction
      have now : v.env.now = u.env.now := congrArg Env.now env
      have idle : v.work = [] := work.trans hw
      refine ⟨fun other3 other4 => exec_next rfl (correction.trans (if_neg (not_or.2 ⟨other3, other4⟩))) idle, fun wears => ?_⟩
      have worn := correction.trans (if_pos wears)
      exact ⟨fun few => exec_next rfl (worn.trans (State.ceWorn_counts now few)) idle,
        fun many used => leads_eq rfl (worn.trans (State.ceWorn_wears now many used))⟩
    exact ⟨fun first => count _ (State.sramCe_first first), fun p old => ⟨fun late => count _ (State.sramCe_later old late),
      fun soon => count _ (State.sramCe_soon old soon)⟩⟩
  case errors =>
    intro ue corrected faults failed line task cached flows slots ch
    have ends {storage : Nat} {v : State} (h : u.sramUncorrectable storage inst row = v) (lo : 1 ≤ storage := by decide)
        (hi : storage ≤ 16 := by decide) : Leads (err storage) s v := leads_uncorrectable on lo hi h
    have answered {storage : Nat} {v : State} (h : exec (.sramError storage inst row false t) s = .next v)
        (lo : 1 ≤ storage := by decide) (hi : storage ≤ 16 := by decide) (other : ¬ (storage = 3 ∨ storage = 4) := by decide) :
        u.sramCe storage inst row = v :=
      sramCe_of_next hw on lo hi other h
    have corrects {storage : Nat} (h : u.sramUncorrectable storage inst row = u.sramCe storage inst row)
        (lo : 1 ≤ storage := by decide) (hi : storage ≤ 16 := by decide) (other : ¬ (storage = 3 ∨ storage = 4) := by decide) :
        corrected storage :=
      fun v hv => ends (h.trans (answered hv lo hi other)) lo hi
    refine ⟨fun h => ?noLine, fun l v h hv => ?line, fun h => ?noTask, fun n r h => ?task, ⟨fun h => ?bank, fun h => ?noBank⟩,
      ⟨fun h => ?counterRow, fun h => ?noRow⟩, ?table, ?program, fun x l h => ?waiter, fun h => ?noWaiter, fun h => ?context,
      fun h => ?noContext, fun x l h => ?flow, fun h => ?noFlow, fun h => ?slot, fun h => ?freeSlot, fun h => ?noPrediction,
      fun p l v h hv => ?prediction, fun h => ?ring, fun h m l hm => ?message, fun h hm => ?noMessage, fun h => ?stream,
      fun h => ?engine, ?endpoint, ?firmware, ?service⟩
    case noLine => exact corrects (State.uncorrectable_noLine h)
    case line =>
      rw [← answered hv]
      exact ends (State.uncorrectable_line h)
    case noTask => exact corrects (State.uncorrectable_noTask h)
    case task => exact ends (State.uncorrectable_task h)
    case bank => exact ends (State.failUnit_used h)
    case noBank => exact ends (State.failUnit_unused h)
    case counterRow => exact ends (State.failUnit_used h)
    case noRow => exact ends (State.failUnit_unused h)
    case table => exact corrects rfl
    case program => exact corrects rfl
    case waiter => exact ends (State.uncorrectable_waiter h)
    case noWaiter => exact ends (State.uncorrectable_noWaiter h)
    case context => exact ends (State.uncorrectable_context h)
    case noContext => exact ends (State.uncorrectable_noContext h)
    case flow => exact ends (State.uncorrectable_flow h)
    case noFlow => exact ends (State.uncorrectable_noFlow h)
    case slot => exact ends (State.uncorrectable_slot h)
    case freeSlot => exact ends (State.uncorrectable_freeSlot h)
    case noPrediction => exact corrects (State.uncorrectable_noPrediction h)
    case prediction =>
      rw [← answered hv]
      exact ends (State.uncorrectable_prediction h)
    case ring => exact ends (State.uncorrectable_ring h)
    case message => exact ends (State.uncorrectable_message h hm)
    case noMessage => exact ends (State.uncorrectable_noMessage h hm)
    case stream => exact ends (State.uncorrectable_stream h)
    case engine => exact ends (State.uncorrectable_program h)
    case endpoint => exact ends rfl
    case firmware => exact ends rfl
    case service => exact ends rfl
  case mismatches =>
    intro record
    exact ⟨fun ctx => leads_eq rfl (State.ptrMismatch_channel (s := u) on inst ctx),
      leads_eq rfl (State.ptrMismatch_errorRing (s := u) on inst row),
      leads_eq rfl (State.ptrMismatch_staging (s := u) on inst row)⟩
  case wear =>
    intro lower f unit noted acted
    have note : u.noteMargin x = { u with fsu := f } := u.noteMargin_eq x
    have recorded (a : Nat) : (u.wearNoted x).wearRecord x a = acted a := by
      rw [State.wearNoted, note]
      rfl
    refine ⟨fun h => ?_, fun up low waits => ?_, fun up low runs new seq l serves => ?_⟩
    · exact exec_next rfl ((State.wearDetect_notes (s := u) on h).trans note) hw
    · exact exec_next rfl ((State.wearDetect_holds (s := u) on up low waits).trans (by rw [note])) hw
    · have acts (a : Nat) (h : u.wearAction x = a) : u.wearDetect x = (acted a).wearTake x a := by
        rw [State.wearDetect_serving (s := u) on up low runs new seq serves, h, recorded]
      have withdraws : (acted 4).wearTake x 4 = (acted 4).startLeaving x.kind l x.inst 0x14 := by
        rw [← recorded]
        exact State.wearTake_withdraws (((State.logicalOf_wearRecord _ x 4 _ _).trans (u.logicalOf_wearNoted x _ _)).trans serves)
      have noted_eq : u.wearNoted x = noted := by
        rw [State.wearNoted, note]
      exact ⟨fun h => leads_eq rfl (acts 1 (State.wearAction_regrooms h)),
        fun worn spare => leads_eq rfl (acts 2 (State.wearAction_remounts worn spare)),
        fun worn last keeps => leads_eq rfl (acts 3 (State.wearAction_keeps worn last (noted_eq ▸ keeps))),
        fun worn last loses => leads_eq rfl ((acts 4 (State.wearAction_withdraws worn last (noted_eq ▸ loses))).trans withdraws)⟩
  case remounts =>
    have takes : u.remountRow kind inst cause = (u.dropRemount (kind, inst, cause)).remountNow kind inst cause :=
      State.remountRow_takes decided drained up still stays may
    refine ⟨fun new spare => ⟨fun runs => ?_, fun waits => ?_⟩, fun none => ?_⟩
    · exact leads_eq rfl (congrArg State.refillAll
        (takes.trans ((State.remountNow_spare serves spare).trans (State.farrierNotes_now kind inst new cause runs))))
    · exact leads_eq rfl (congrArg State.refillAll
        (takes.trans ((State.remountNow_spare serves spare).trans (State.farrierNotes_later kind inst new cause waits))))
    · exact leads_eq rfl (congrArg State.refillAll (takes.trans (State.remountNow_last serves none)))

end Sys2Proof.Machine

namespace Sys2Proof.Machine

/-! ## Every step keeps what its command's meaning keeps -/

/-- The dispatch is one meaning a command, and each keeps what every operation keeps. -/
theorem exec_keeps (i : Instr) {s o : State} (ho : exec i s = .next o) : Keeps s o :=
  have k := Keeps.refl s
  match i with
  | .nop .. => execNop_keeps k o ho | .graphLoad .. => execGraphLoad_keeps k o ho
  | .graphLaunch .. => execGraphLaunch_keeps k o ho | .signal .. => execSignal_keeps k o ho | .wait .. => execWait_keeps k o ho
  | .signalRemote .. => execSignalRemote_keeps k o ho | .peerWrite .. => execPeerWrite_keeps k o ho
  | .cancel .. => execCancel_keeps k o ho | .ctxCreate .. => execCtxCreate_keeps k o ho
  | .ctxDestroy .. => execCtxDestroy_keeps k o ho | .ctxSuspend .. => execCtxSuspend_keeps k o ho
  | .ctxResume .. => execCtxResume_keeps k o ho | .counterMap .. => execCounterMap_keeps k o ho
  | .tilePool .. => execTilePool_keeps k o ho | .geProgramLoad .. => execGeProgramLoad_keeps k o ho
  | .flowConfig .. => execFlowConfig_keeps k o ho | .carJoin .. => execCarJoin_keeps k o ho
  | .carLeave .. => execCarLeave_keeps k o ho | .carStep .. => execCarStep_keeps k o ho
  | .delayPost .. => execDelayPost_keeps k o ho | .query .. => execQuery_keeps k o ho
  | .statSnapshot .. => execStatSnapshot_keeps k o ho | .queueReset .. => execQueueReset_keeps k o ho
  | .debugSetCounter .. => execDebugSetCounter_keeps k o ho | .fwUpdate .. => execFwUpdate_keeps k o ho
  | .studbookRead .. => execStudbookRead_keeps k o ho | .healthAck .. => execHealthAck_keeps k o ho
  | .blockReset .. => execBlockReset_keeps k o ho | .cfePacketCheck .. => execCfePacketCheck_keeps k o ho
  | .fwTakeUp .. => execFwTakeUp_keeps k o ho | .fwBusyExpiry .. => execFwBusyExpiry_keeps k o ho
  | .dbTailWrite .. => execDbTailWrite_keeps k o ho | .dbCplHeadWrite .. => execDbCplHeadWrite_keeps k o ho
  | .queueEnable .. => execQueueEnable_keeps k o ho | .queueDisable .. => execQueueDisable_keeps k o ho
  | .queue0Reset .. => execQueue0Reset_keeps k o ho | .qattrWrite .. => execQattrWrite_keeps k o ho
  | .cfeSlotQueueWrite .. => execCfeSlotQueueWrite_keeps k o ho | .displace .. => execDisplace_keeps k o ho
  | .slotEnableWrite .. => execSlotEnableWrite_keeps k o ho | .slotGrant .. => execSlotGrant_keeps k o ho
  | .slotDisplace .. => execSlotDisplace_keeps k o ho | .slotIdleRelease .. => execSlotIdleRelease_keeps k o ho
  | .slotBlockedRelease .. => execSlotBlockedRelease_keeps k o ho | .waitTimeout .. => execWaitTimeout_keeps k o ho
  | .graphWatchdog .. => execGraphWatchdog_keeps k o ho | .gdPop .. => execGdPop_keeps k o ho
  | .specOffer .. => execSpecOffer_keeps k o ho | .spur .. => execSpur_keeps k o ho | .descFill .. => execDescFill_keeps k o ho
  | .coreDone .. => execCoreDone_keeps k o ho | .coreYield .. => execCoreYield_keeps k o ho
  | .coreSig .. => execCoreSig_keeps k o ho | .coreWait .. => execCoreWait_keeps k o ho
  | .coreProbe .. => execCoreProbe_keeps k o ho | .ccSignal .. => execCcSignal_keeps k o ho
  | .ccWait .. => execCcWait_keeps k o ho | .ccTake .. => execCcTake_keeps k o ho | .ccRead .. => execCcRead_keeps k o ho
  | .stageBeatRefused .. => execStageBeatRefused_keeps k o ho | .specAccessAttempt .. => execSpecAccessAttempt_keeps k o ho
  | .budgetExpiry .. => execBudgetExpiry_keeps k o ho | .tileStallTimeout .. => execTileStallTimeout_keeps k o ho
  | .portFault .. => execPortFault_keeps k o ho | .delayTick .. => execDelayTick_keeps k o ho
  | .delayTaskWake .. => execDelayTaskWake_keeps k o ho | .postedSignalWake .. => execPostedSignalWake_keeps k o ho
  | .postedLaunchWake .. => execPostedLaunchWake_keeps k o ho | .quantumWindowEnd .. => execQuantumWindowEnd_keeps k o ho
  | .suspendComplete .. => execSuspendComplete_keeps k o ho | .makeResident .. => execMakeResident_keeps k o ho
  | .geTaskStart .. => execGeTaskStart_keeps k o ho | .gePassEnd .. => execGePassEnd_keeps k o ho
  | .gateBudgetExpiry .. => execGateBudgetExpiry_keeps k o ho | .geNop .. => execGeNop_keeps k o ho
  | .li .. => execLi_keeps k o ho | .lih .. => execLih_keeps k o ho | .add .. => execAdd_keeps k o ho
  | .addi .. => execAddi_keeps k o ho | .sub .. => execSub_keeps k o ho | .and .. => execAnd_keeps k o ho
  | .or .. => execOr_keeps k o ho | .xor .. => execXor_keeps k o ho | .shl .. => execShl_keeps k o ho
  | .shr .. => execShr_keeps k o ho | .mul .. => execMul_keeps k o ho | .ctz .. => execCtz_keeps k o ho
  | .fadd .. => execFadd_keeps k o ho | .fsub .. => execFsub_keeps k o ho | .fmul .. => execFmul_keeps k o ho
  | .fdiv .. => execFdiv_keeps k o ho | .fsqrt .. => execFsqrt_keeps k o ho | .flt .. => execFlt_keeps k o ho
  | .fle .. => execFle_keeps k o ho | .fcvt .. => execFcvt_keeps k o ho | .icvt .. => execIcvt_keeps k o ho
  | .ld .. => execLd_keeps k o ho | .st .. => execSt_keeps k o ho | .bind .. => execBind_keeps k o ho
  | .beq .. => execBeq_keeps k o ho | .bne .. => execBne_keeps k o ho | .blt .. => execBlt_keeps k o ho
  | .bge .. => execBge_keeps k o ho | .bltu .. => execBltu_keeps k o ho | .jmp .. => execJmp_keeps k o ho
  | .run .. => execRun_keeps k o ho | .sum .. => execSum_keeps k o ho | .geSig .. => execGeSig_keeps k o ho
  | .geLaunch .. => execGeLaunch_keeps k o ho | .shape .. => execShape_keeps k o ho | .skip .. => execSkip_keeps k o ho
  | .endTask .. => execEndTask_keeps k o ho | .relaySend .. => execRelaySend_keeps k o ho
  | .relayDeliver .. => execRelayDeliver_keeps k o ho | .operandPortRead .. => execOperandPortRead_keeps k o ho
  | .trailSend .. => execTrailSend_keeps k o ho | .trailReceive .. => execTrailReceive_keeps k o ho
  | .trailAckReceive .. => execTrailAckReceive_keeps k o ho | .trailTimeout .. => execTrailTimeout_keeps k o ho
  | .linkReset .. => execLinkReset_keeps k o ho | .linkUnreachable .. => execLinkUnreachable_keeps k o ho
  | .evtEdge .. => execEvtEdge_keeps k o ho | .evtStuck .. => execEvtStuck_keeps k o ho
  | .stuckRearm .. => execStuckRearm_keeps k o ho | .evtActWrite .. => execEvtActWrite_keeps k o ho
  | .evtCountWrite .. => execEvtCountWrite_keeps k o ho | .gaitReq .. => execGaitReq_keeps k o ho
  | .gaitAck .. => execGaitAck_keeps k o ho | .gaitDone .. => execGaitDone_keeps k o ho
  | .tthGaitReq .. => execTthGaitReq_keeps k o ho | .powerOn .. => execPowerOn_keeps k o ho
  | .pwrFail .. => execPwrFail_keeps k o ho | .reserveDrain .. => execReserveDrain_keeps k o ho
  | .warmReset .. => execWarmReset_keeps k o ho | .coldReset .. => execColdReset_keeps k o ho
  | .firmwareRestart .. => execFirmwareRestart_keeps k o ho | .recover .. => execRecover_keeps k o ho
  | .startEnd .. => execStartEnd_keeps k o ho | .startWatchdog .. => execStartWatchdog_keeps k o ho
  | .enum .. => execEnum_keeps k o ho | .tetherNoAnswer .. => execTetherNoAnswer_keeps k o ho
  | .groom .. => execGroom_keeps k o ho | .fwCoreTrap .. => execFwCoreTrap_keeps k o ho
  | .fwWatchdog .. => execFwWatchdog_keeps k o ho | .fwRestartEnd .. => execFwRestartEnd_keeps k o ho
  | .ping .. => execPing_keeps k o ho | .policyRead .. => execPolicyRead_keeps k o ho
  | .policyWrite .. => execPolicyWrite_keeps k o ho | .setHerdGroup .. => execSetHerdGroup_keeps k o ho
  | .restartCore .. => execRestartCore_keeps k o ho | .entdaa .. => execEntdaa_keeps k o ho
  | .rstdaa .. => execRstdaa_keeps k o ho | .i3cCcc .. => execI3cCcc_keeps k o ho | .healthGet .. => execHealthGet_keeps k o ho
  | .mctpStudbookRead .. => execMctpStudbookRead_keeps k o ho | .mctpControl .. => execMctpControl_keeps k o ho
  | .ctuDbgRead .. => execCtuDbgRead_keeps k o ho | .ctuDbgSet .. => execCtuDbgSet_keeps k o ho
  | .ctuDbgHalt .. => execCtuDbgHalt_keeps k o ho | .ctuDbgResume .. => execCtuDbgResume_keeps k o ho
  | .flush .. => execFlush_keeps k o ho | .icacheInv .. => execIcacheInv_keeps k o ho
  | .statClear .. => execStatClear_keeps k o ho | .irqEnableWrite .. => execIrqEnableWrite_keeps k o ho
  | .irqStatusClear .. => execIrqStatusClear_keeps k o ho | .errRingEnable .. => execErrRingEnable_keeps k o ho
  | .errHeadWrite .. => execErrHeadWrite_keeps k o ho | .registerWrite .. => execRegisterWrite_keeps k o ho
  | .sramError .. => execSramError_keeps k o ho | .wearDetect .. => execWearDetect_keeps k o ho
  | .remount .. => execRemount_keeps k o ho | .studbookFlush .. => execStudbookFlush_keeps k o ho
  | .gaitRequestAnswer .. => execGaitRequestAnswer_keeps k o ho | .suspendDrainLimit .. => execSuspendDrainLimit_keeps k o ho
  | .ptrMismatch .. => execPtrMismatch_keeps k o ho | .evtLineFall .. => execEvtLineFall_keeps k o ho
  | .powerFall .. => execPowerFall_keeps k o ho | .pwrFailRelease .. => execPwrFailRelease_keeps k o ho
  | .ibiAcknowledge .. => execIbiAcknowledge_keeps k o ho

/-- The meaning of every command is a settled state, so none stops the block. -/
theorem exec_goesOn (i : Instr) (s : State) : Outcome.goesOn (exec i s) := by
  cases i <;> exact ⟨_, rfl⟩

/-- A step idles on an empty queue, and otherwise is the meaning of the front command. -/
theorem step_cases {s t : State} (h : step s = .next t) :
    s.pending = [] ∧ t = s ∨ ∃ c rest, s.pending = c :: rest ∧ exec c { s with pending := rest } = .next t := by
  unfold step at h
  cases hp : s.pending with
  | nil =>
    rw [hp] at h
    exact .inl ⟨rfl, (Host.Outcome.next.inj h).symm⟩
  | cons c rest =>
    rw [hp] at h
    exact .inr ⟨c, rest, rfl, h⟩

theorem step_goesOn (s : State) : Outcome.goesOn (step s) := by
  unfold step
  cases s.pending with
  | nil => exact ⟨s, rfl⟩
  | cons c rest => exact exec_goesOn c _

theorem Keeps.sound {z s : State} (k : Keeps z s) (h : z.sound) : s.sound := ⟨k.mem h.1, k.hostMem h.2⟩

/-- Settles O4: an idle step changes nothing, and the front command's meaning keeps the form of both memories. -/
theorem stepKeepsMemoryForm : Obligations.StepKeepsMemoryForm := by
  unfold Obligations.StepKeepsMemoryForm
  intro s t hs h
  obtain ⟨-, rfl⟩ | ⟨c, rest, -, hc⟩ := step_cases h
  · exact hs
  · exact (exec_keeps c hc).sound hs

/-- A run keeps the form of both memories. -/
theorem Run.sound {s t : State} (r : Run s t) (hs : s.sound) : t.sound := by
  induction r with
  | here => exact hs
  | step h _ ih => exact ih (stepKeepsMemoryForm _ _ hs h)

/-- Settles O6: every state on the way is sound, and every step of every state goes on. -/
theorem soundRunsAreSafe : Obligations.SoundRunsAreSafe := by
  unfold Obligations.SoundRunsAreSafe State.safe
  exact fun s hs t r => ⟨r.sound hs, step_goesOn t⟩

end Sys2Proof.Machine

namespace Sys2Proof.Machine

/-! ## An edge, and the fall, of an event line (R288, R290) -/

/-- What an accepted edge at `now` makes of its line, before its action is added (R288). -/
def EvtLine.accepted (x : EvtLine) (now : Nat) : EvtLine :=
  { x with level := true, held := true, lastEdge := some now, count := min (x.count + 1) (2 ^ 32 - 1) }

section
variable {s : State} {n : Nat}

theorem State.evtEdge_high (h : (s.line n).level = true) : s.evtEdge n = s := if_pos (.inr h)

theorem State.evtFall_lowers (hn : n < 8) : s.evtFall n = s.setLine n { s.line n with level := false, held := false } :=
  if_neg (Nat.not_le.2 hn)

section
variable (hn : n < 8) (low : (s.line n).level = false)
include hn low

/-- The edge of a line that does not take edges only raises it. -/
theorem State.evtEdge_deaf (h : ¬ (s.gcs.state ≠ 0 ∧ s.gcs.evtEn.getLsbD n = true ∧ s.gcs.evtStuck.getLsbD n = false)) :
    s.evtEdge n = s.setLine n { s.line n with level := true } := by
  refine (if_neg (by simp [hn, low])).trans (if_pos ?_)
  simpa [Decidable.imp_iff_not_or, or_assoc] using h

variable (live : s.gcs.state ≠ 0 ∧ s.gcs.evtEn.getLsbD n = true ∧ s.gcs.evtStuck.getLsbD n = false)
include live

/-- The edge of a line that takes edges is accepted, unless it falls within 50 ns of the last accepted one. -/
theorem State.evtEdge_live : s.evtEdge n =
    if (s.line n).lastEdge.any fun p => decide (s.env.now < p + 50) then
      s.setLine n { s.line n with level := true, held := true }
    else (s.setLine n (((s.line n).accepted s.env.now).addAction s.env.now)).push [.evtAct n] := by
  obtain ⟨on, enabled, free⟩ := live
  unfold State.evtEdge
  dsimp only
  rw [if_neg (by simp [hn, low]), if_neg (by rw [enabled, free]; simp [on])]
  cases (s.line n).lastEdge <;> rfl

/-- An edge that comes too early counts as held all the same (assumption 25). -/
theorem State.evtEdge_early (h : ∃ p, (s.line n).lastEdge = some p ∧ s.env.now < p + 50) :
    s.evtEdge n = s.setLine n { s.line n with level := true, held := true } :=
  (State.evtEdge_live hn low live).trans (if_pos (by simpa [Option.any_eq_true] using h))

theorem State.evtEdge_accepted (h : ¬ ∃ p, (s.line n).lastEdge = some p ∧ s.env.now < p + 50) :
    s.evtEdge n = (s.setLine n (((s.line n).accepted s.env.now).addAction s.env.now)).push [.evtAct n] :=
  (State.evtEdge_live hn low live).trans (if_neg (by simpa [Option.any_eq_true] using h))

end
end

/-! ## The actions that wait on a line (R289) -/

section
variable {x : EvtLine}

theorem EvtLine.addAction_none (h : bit x.act 63 = false) (now : Nat) : x.addAction now = x :=
  if_pos (by rw [h]; rfl)

variable (does : bit x.act 63 = true)
include does

theorem EvtLine.addAction_launch (h : bit x.act 62 = true) (now : Nat) :
    x.addAction now = if x.launches < 16 then { x with pend := x.pend ++ [(x.act, now, 1)] } else x :=
  (if_neg (by simp [does])).trans (if_pos h)

variable (signals : bit x.act 62 = false)
include signals

theorem EvtLine.addAction_first (h : ∀ p ∈ x.pend, p.1 ≠ x.act) (now : Nat) :
    x.addAction now = { x with pend := x.pend ++ [(x.act, now, 1)] } :=
  (if_neg (by simp [does])).trans ((if_neg (by simp [signals])).trans
    (if_neg (by simpa using fun e k hp => h (x.act, e, k) hp rfl)))

/-- A signal that waits already counts one event more; the others stay. -/
theorem EvtLine.addAction_merges {l r : List (Word × Nat × Nat)} {e k : Nat} (h : x.pend = l ++ (x.act, e, k) :: r)
    (alone : ∀ p ∈ l ++ r, p.1 ≠ x.act) (now : Nat) : x.addAction now = { x with pend := l ++ (x.act, e, k + 1) :: r } := by
  have others (m : List (Word × Nat × Nat)) (hm : ∀ p ∈ m, p.1 ≠ x.act) :
      (m.map fun p => if p.1 = x.act then (p.1, p.2.1, p.2.2 + 1) else p) = m :=
    (List.map_congr_left fun p hp => if_neg (hm p hp)).trans (List.map_id' m)
  have waits : (x.pend.any fun p => decide (p.1 = x.act)) = true := by simp [h]
  refine (if_neg (by simp [does])).trans ((if_neg (by simp [signals])).trans ((if_pos waits).trans ?_))
  rw [h, List.map_append, List.map_cons, others l fun p hp => alone p (List.mem_append_left _ hp),
    others r fun p hp => alone p (List.mem_append_right _ hp), if_pos rfl]

end

/-! ## An action that is performed, or discarded (R86, R289) -/

/-- A line's only action is taken from it and performed. -/
theorem State.evtAct_single {s : State} {n : Nat} {p : Word × Nat × Nat} (h : (s.line n).pend = [p]) :
    s.evtAct n = (s.setLine n { s.line n with pend := [] }).evtPerform p := by
  rw [State.evtAct, h]
  rfl

section
variable {s : State} {p : Word × Nat × Nat}

theorem State.evtPerform_unheard (h : s.defined (bits p.1 59 48) = false ∨ (s.ctx (bits p.1 59 48)).st = .faulted) :
    s.evtPerform p = s :=
  if_pos (by simpa using h)

variable (known : s.defined (bits p.1 59 48) = true) (unfaulted : (s.ctx (bits p.1 59 48)).st ≠ .faulted)
include known unfaulted

/-- An action of a defined context that has not faulted is its launch or its signal. -/
theorem State.evtPerform_heard : s.evtPerform p =
    if bit p.1 62 then
      ((AL.get? (bits p.1 15 0) (s.ctx (bits p.1 59 48)).graphs).map fun x =>
        if s.launchCheck (bits p.1 59 48) (bits p.1 15 0) true (x.seq * x.span % 2 ^ 32) 1 ≠ 0 then s
        else (s.launch (bits p.1 59 48) (bits p.1 15 0) (x.seq * x.span % 2 ^ 32) 1 { at_ := p.2.1 }).2).getD s
    else if s.idLimit (bits p.1 59 48) ≤ bits p.1 47 24 then s
    else s.push [.signal (bits p.1 59 48) (bits p.1 47 24) p.2.2 { code := 5, arg := 0 } none] := by
  unfold State.evtPerform
  dsimp only
  rw [if_neg (by simp [known, unfaulted])]
  cases AL.get? (bits p.1 15 0) (s.ctx (bits p.1 59 48)).graphs <;> rfl

theorem State.evtPerform_beyond (h : bit p.1 62 = false) (past : s.idLimit (bits p.1 59 48) ≤ bits p.1 47 24) :
    s.evtPerform p = s := by
  rw [State.evtPerform_heard known unfaulted, h, if_pos past]
  rfl

theorem State.evtPerform_signals (h : bit p.1 62 = false) (within : bits p.1 47 24 < s.idLimit (bits p.1 59 48)) :
    s.evtPerform p = s.push [.signal (bits p.1 59 48) (bits p.1 47 24) p.2.2 { code := 5, arg := 0 } none] := by
  rw [State.evtPerform_heard known unfaulted, h, if_neg (Nat.not_le.2 within)]
  rfl

theorem State.evtPerform_unloaded (h : bit p.1 62 = true)
    (none : AL.get? (bits p.1 15 0) (s.ctx (bits p.1 59 48)).graphs = none) : s.evtPerform p = s := by
  rw [State.evtPerform_heard known unfaulted, if_pos h, none]
  rfl

variable {x : Graph} (h : bit p.1 62 = true) (loaded : AL.get? (bits p.1 15 0) (s.ctx (bits p.1 59 48)).graphs = some x)
include h loaded

theorem State.evtPerform_launch_fails
    (bad : s.launchCheck (bits p.1 59 48) (bits p.1 15 0) true (x.seq * x.span % 2 ^ 32) 1 ≠ 0) : s.evtPerform p = s := by
  rw [State.evtPerform_heard known unfaulted, if_pos h, loaded]
  exact if_pos bad

theorem State.evtPerform_launches
    (good : s.launchCheck (bits p.1 59 48) (bits p.1 15 0) true (x.seq * x.span % 2 ^ 32) 1 = 0) :
    s.evtPerform p = (s.launch (bits p.1 59 48) (bits p.1 15 0) (x.seq * x.span % 2 ^ 32) 1 { at_ := p.2.1 }).2 := by
  rw [State.evtPerform_heard known unfaulted, if_pos h, loaded]
  exact if_neg (not_not.2 good)

end

/-- Settles O21: an edge by whether its line takes it, an action by whether its context and its launch do. -/
theorem eventLineEdges : Obligations.EventLineEdges := by
  unfold Obligations.EventLineEdges
  intro s n t hw hn s1 x live early y
  have accepts (low : x.level = false) (on : live) (late : ¬ early) := State.evtEdge_accepted (s := s1) hn low on late
  refine ⟨fun high => ?high, fun low deaf => ?deaf, fun low on soon => ?early, fun low on late => ?accepted,
    fun low on late changing => ?held, ?fall, fun z now => ?added, fun u a at' k only => ?performed⟩
  case high => exact exec_next rfl (State.evtEdge_high (s := s1) high) hw
  case deaf => exact exec_next rfl (State.evtEdge_deaf (s := s1) hn low deaf) hw
  case early => exact exec_next rfl (State.evtEdge_early (s := s1) hn low on soon) hw
  case accepted => exact leads_eq rfl (accepts low on late)
  case held => exact next_held (congrArg (fun u => Host.Outcome.next (settle u)) (accepts low on late)) hw changing
  case fall => exact exec_next rfl (State.evtFall_lowers (s := s1) hn) hw
  case added =>
    exact ⟨fun idle => EvtLine.addAction_none idle now, fun does launches => EvtLine.addAction_launch does launches now,
      fun does signals new => EvtLine.addAction_first does signals new now,
      fun l r e k waits alone does signals => EvtLine.addAction_merges does signals waits alone now⟩
  case performed =>
    intro c v d after
    have taken : after = d.evtPerform (a, at', k) := State.evtAct_single only
    refine ⟨fun h => ?_, fun known unfaulted => ⟨fun signals past => ?_, fun signals within => ?_, fun launches none => ?_,
      fun x launches loaded => ⟨fun bad => ?_, fun good => ?_⟩⟩⟩
    · exact taken.trans (State.evtPerform_unheard h)
    · exact taken.trans (State.evtPerform_beyond known unfaulted signals past)
    · exact taken.trans (State.evtPerform_signals known unfaulted signals within)
    · exact taken.trans (State.evtPerform_unloaded known unfaulted launches none)
    · exact taken.trans (State.evtPerform_launch_fails known unfaulted launches loaded bad)
    · exact taken.trans (State.evtPerform_launches (s := d) (p := (a, at', k)) known unfaulted launches loaded good)

/-! ## The registers of event lines (R289, R290) -/

theorem State.powered_on {s : State} (on : s.gcs.state ≠ 0) (f : State → State) : s.powered f = f s := if_neg on

section
variable {s : State} {n : Nat}

theorem State.evtCountWrite_counts (hn : n < 8) (v : Word) :
    s.evtCountWrite n v = s.setLine n { s.line n with count := v.toNat % 2 ^ 32 } :=
  if_neg (Nat.not_le.2 hn)

/-- The bits of an action register that are not reserved (Table 12.13). -/
theorem evtActMask_eq : evtActMask = 0xCFFFFFFFFF00FFFF#64 := by decide

theorem State.evtActWrite_disabled (hn : n < 8) (disabled : s.gcs.evtEn.getLsbD n = false) (v : Word) :
    s.evtActWrite n v = s.setLine n { s.line n with act := v &&& 0xCFFFFFFFFF00FFFF#64 } := by
  refine (if_neg (not_or.2 ⟨Nat.not_le.2 hn, Bool.eq_false_iff.1 disabled⟩)).trans ?_
  rw [State.updLine, evtActMask_eq]

theorem State.evtActWrite_enabled (enabled : s.gcs.evtEn.getLsbD n = true) (v : Word) : s.evtActWrite n v = s :=
  if_pos (.inr enabled)

/-- STUCK is not cleared while the line is high, whatever runs. -/
theorem State.stuckRearm_high (high : (s.line n).level = true) : s.stuckRearm n = s := by
  have kept : s.stuckClear n = s := if_pos high
  rw [State.stuckRearm, kept, ite_self]

theorem State.stuckRearm_low (hn : n < 8) (up : s.up = true) (runs : s.roleRuns 2 = true) (low : (s.line n).level = false) :
    s.stuckRearm n = { s with gcs := { s.gcs with evtStuck := s.gcs.evtStuck &&& ~~~(1#8 <<< n) } } :=
  (if_pos (by simp [up, runs, hn])).trans (if_neg (Bool.eq_false_iff.1 low))

/-- A stuck line is masked, and a free value is used for the unit of its record (assumption 13). -/
def State.maskLine (s : State) (n : Nat) : State :=
  { s with freeCount := s.freeCount + 1, gcs := { s.gcs with evtStuck := s.gcs.evtStuck ||| (1#8 <<< n) } }

/-- The EVT_STUCK record of a line held since `since` (Table 15.3). -/
def State.stuckRecord (s : State) (n since : Nat) : Err :=
  { unit := (Config.freeValue 8 s.freeCount).toNat, cls := 1, code := 0x0B, a := n, b := (s.line n).count, c := since }

theorem State.evtStuckLine_masks {e : Nat} (hn : n < 8) (last : (s.line n).lastEdge = some e) (held : (s.line n).held = true)
    (high : (s.line n).level = true) (limit : s.gcs.stuckMs ≠ 0) (unmasked : s.gcs.evtStuck.getLsbD n = false)
    (long : e + 1000000 * s.gcs.stuckMs < s.env.now) :
    s.evtStuckLine n = ((s.maskLine n).err (s.stuckRecord n e)).irq 4 := by
  unfold State.evtStuckLine
  dsimp only
  rw [last]
  dsimp only
  rw [if_neg (by rw [unmasked]; simp [hn, held, high, limit, long])]
  rfl

end

/-- Settles O22: a register write by whether its line is enabled or low; a line that is stuck by the record that it gives. -/
theorem eventLineRegisters : Obligations.EventLineRegisters := by
  unfold Obligations.EventLineRegisters
  intro s n t v hw hn on x s1
  refine ⟨fun disabled => ?action, fun enabled => ?kept, ?count, fun up runs low => ?rearmed, fun high => ?stays,
    fun e last held high limit unmasked long => ?stuck⟩
  case action => exact exec_next rfl ((State.powered_on on _).trans (State.evtActWrite_disabled hn disabled v)) hw
  case kept => exact exec_next rfl ((State.powered_on on _).trans (State.evtActWrite_enabled enabled v)) hw
  case count => exact exec_next rfl ((State.powered_on on _).trans (State.evtCountWrite_counts hn v)) hw
  case rearmed => exact exec_next rfl ((State.powered_on on _).trans (State.stuckRearm_low hn up runs low)) hw
  case stays => exact exec_next rfl ((State.powered_on on _).trans (State.stuckRearm_high high)) hw
  case stuck =>
    intro m r
    have idle : ((m.err r).irq 4).work = [] := by
      rw [State.irq_work, State.err_work m r (by simp [r])]
      exact hw
    exact exec_next rfl (State.evtStuckLine_masks (s := s1) hn last held high limit unmasked long) idle

end Sys2Proof.Machine

namespace Sys2Proof.Machine

/-! ## The addresses of the management target (R293, R310) -/

/-- The controller has run ENTDAA on the bus, whether or not the block took an address (assumption 27). -/
def State.daaRun (s : State) : State := { s with i3c := { s.i3c with ranDaa := true } }

/-- The target has taken the dynamic address `da` (R310). -/
def State.daTaken (s : State) (da : Nat) : State :=
  { s.daaRun with gcs := { s.gcs with herdDa := da }, i3c := { s.daaRun.i3c with daNoted := false } }

section
variable {s : State} {da : Nat}

theorem State.entdaa_off (h : s.gcs.state = 0) : s.entdaa da = s.daaRun := if_pos (.inl h)

theorem State.entdaa_on (on : s.gcs.state ≠ 0) (lo : 0 < da) (hi : da < 128) : s.entdaa da =
    if (s.daTaken da).up && (s.daTaken da).roleRuns 3 then (s.daTaken da).formHerd else s.daTaken da :=
  if_neg (by simp [on, lo.ne', hi])

/-- A herd address once formed stays (R310). -/
theorem State.formHerd_formed (h : s.gcs.herdValid = true) : s.formHerd = s := if_pos (.inr h)

/-- Role 3 forms the herd address of a dynamic address from 8 to 71 (R310). -/
theorem State.formHerd_forms (up : s.up = true) (new : s.gcs.herdValid = false) (lo : 0x08 ≤ s.gcs.herdDa)
    (hi : s.gcs.herdDa ≤ 0x47) : s.formHerd = { s with
      gcs := { s.gcs with
        herdValid := true, herdGroup := s.fwc.group, herdAddr := 64 * s.fwc.group + (s.gcs.herdDa - 8) }
      ctu := { s.ctu with trailEn := true } } := by
  have some_da : ¬ s.gcs.herdDa = 0 := by omega
  refine (if_neg (by simp [new, some_da])).trans ((if_pos ⟨lo, hi⟩).trans ?_)
  rw [up, Bool.or_true]

theorem State.on_of_up (up : s.up = true) : s.gcs.state ≠ 0 := fun off => by simp [State.up, off] at up

theorem State.entdaa_formed (on : s.gcs.state ≠ 0) (formed : s.gcs.herdValid = true) (lo : 0 < da) (hi : da < 128) :
    s.entdaa da = s.daTaken da := by
  have stays : (s.daTaken da).formHerd = s.daTaken da := State.formHerd_formed formed
  rw [State.entdaa_on on lo hi, stays, ite_self]

theorem State.entdaa_forms (up : s.up = true) (runs : s.roleRuns 3 = true) (new : s.gcs.herdValid = false) (lo : 0x08 ≤ da)
    (hi : da ≤ 0x47) : s.entdaa da = { s.daTaken da with
      gcs := { s.gcs with
        herdDa := da, herdValid := true, herdGroup := s.fwc.group, herdAddr := 64 * s.fwc.group + (da - 8) }
      ctu := { s.ctu with trailEn := true } } := by
  have serves : ((s.daTaken da).up && (s.daTaken da).roleRuns 3) = true := by
    rw [Bool.and_eq_true]
    exact ⟨up, runs⟩
  rw [State.entdaa_on (State.on_of_up up) (by omega) (by omega), if_pos serves]
  exact State.formHerd_forms (s := s.daTaken da) up new lo hi

/-! ## The common commands (R293) -/

theorem State.i3cCcc_events_off (on : s.gcs.state ≠ 0) {data : Nat} (h : data % 2 = 1) :
    s.i3cCcc 0x01 data = { s with i3c := { s.i3c with ibiEn := false } } :=
  (if_neg on).trans (if_pos (by simp [Nat.testBit_zero, h]))

end

/-- Settles O30: what ENTDAA leaves, by whether the block is on and the herd address formed, and each common command's arm. -/
theorem managementTarget : Obligations.ManagementTarget := by
  unfold Obligations.ManagementTarget
  intro s da data hw open'
  refine ⟨fun up runs new lo hi => ?forms, fun on formed lo hi => ?formed, fun off => ?off, ?cleared,
    fun on => ⟨?mwl, ?mrl, ?readMwl, ?readMrl, fun disec => ?quiet⟩, fun c => ?acknowledged⟩
  case forms => exact exec_next rfl (State.entdaa_forms up runs new lo hi) hw
  case formed => exact exec_next rfl (State.entdaa_formed on formed lo hi) hw
  case off => exact exec_next rfl (State.entdaa_off off) hw
  case cleared => exact exec_next rfl rfl hw
  case mwl => exact exec_next rfl (if_neg on) hw
  case mrl => exact exec_next rfl (if_neg on) hw
  case readMwl => exact exec_next rfl (if_neg on) hw
  case readMrl => exact exec_next rfl (if_neg on) hw
  case quiet => exact exec_next rfl (State.i3cCcc_events_off on disec) hw
  case acknowledged => exact exec_next rfl rfl hw

/-! ## The management endpoint (R326, R351) -/

section
variable {s : State} (serves : s.endpointUp = true)
include serves

theorem State.healthGet_answers : s.healthGet = s.answer 0x01 [s.healthReg, s.statusReg] := if_pos serves

/-- The records that were staged are written before any is answered (R349, R351). -/
theorem State.mctpStudbook_answers (first : Nat) : s.mctpStudbook first =
    s.flushOrdered.answer 0x02 ((s.flushOrdered.sbFrom first 15).flatMap fun r => r) :=
  if_pos serves

theorem State.mctpControl_setsEid (data : Nat) : s.mctpControl 0x01 data =
    ({ s with i3c := { s.i3c with eid := data % 256 } }).answer 0x201 [wd (data % 256)] :=
  if_neg (by simp [serves])

theorem State.mctpControl_getsEid (data : Nat) : s.mctpControl 0x02 data = s.answer 0x202 [wd s.i3c.eid] :=
  if_neg (by simp [serves])

end

/-- Settles O31: each message by the answer that the endpoint gives while it serves. -/
theorem managementEndpoint : Obligations.ManagementEndpoint := by
  unfold Obligations.ManagementEndpoint
  intro s first data hw serves answer
  exact ⟨exec_next rfl (State.healthGet_answers serves) hw, leads_eq rfl (State.mctpStudbook_answers serves first),
    exec_next rfl (State.mctpControl_setsEid serves data) hw, exec_next rfl (State.mctpControl_getsEid serves data) hw⟩

end Sys2Proof.Machine

namespace Sys2Proof.Machine

/-! ## The stud book's sectors, and the spares that are left (R346, Table 15.6) -/

/-- What retiring a sector changes: the retired units, the spares that serve, the lost units, and the counts of spares and sectors that
are left. -/
def State.sectorMap (s : State) : List (Nat × Nat) × List ((Nat × Nat) × Nat) × List (Nat × Nat) × Nat × Nat :=
  (s.fsu.retired, s.fsu.map, s.fsu.lostUnits, s.fsu.sbSpares, s.fsu.sectors)

theorem State.irq_sectorMap (s : State) (i : Nat) : (s.irq i).sectorMap = s.sectorMap := by
  unfold State.irq
  exact ite_frame State.sectorMap rfl (ite_frame State.sectorMap rfl rfl)

theorem State.ibi_sectorMap (s : State) (c : Nat) : (s.ibi c).sectorMap = s.sectorMap := by
  simp only [State.sectorMap, State.ibi_fsu]

theorem State.healthNew_sectorMap (s : State) (i : Nat) : (s.healthNew i).sectorMap = s.sectorMap := by
  unfold State.healthNew
  exact ite_frame State.sectorMap rfl (State.irq_sectorMap _ _)

theorem State.stageRaw_sectorMap (s : State) (w : Nat) (l : List Word) : (s.stageRaw w l).sectorMap = s.sectorMap := by
  unfold State.stageRaw
  exact ite_frame State.sectorMap rfl rfl

theorem State.stage_sectorMap (s : State) (type : Nat) (l : List Word) : (s.stage type l).sectorMap = s.sectorMap :=
  State.stageRaw_sectorMap _ _ _

theorem State.stageErr_sectorMap (s : State) (e : Err) (l : List Word) : (s.stageErr e l).sectorMap = s.sectorMap := by
  unfold State.stageErr
  refine ite_frame State.sectorMap (State.stageRaw_sectorMap _ _ _) (ite_frame State.sectorMap rfl ?_)
  exact State.stageRaw_sectorMap _ _ _

theorem State.errRing_sectorMap (s : State) (l : List Word) : (s.errRing l).sectorMap = s.sectorMap := by
  have written (host : Bool) (a : Nat) : (s.wrWords host a l).sectorMap = s.sectorMap := by simp [State.sectorMap]
  unfold State.errRing
  refine ite_frame State.sectorMap rfl (ite_frame State.sectorMap (State.healthNew_sectorMap _ _) ?_)
  refine ite_frame State.sectorMap ?_ (written _ _)
  exact (State.ibi_sectorMap _ _).trans ((State.irq_sectorMap _ _).trans (written _ _))

theorem State.err_sectorMap (s : State) (e : Err) : (s.err e).sectorMap = s.sectorMap := by
  have staged (u : State) (l : List Word) : ((u.errRing l).stageErr e l).sectorMap = u.sectorMap :=
    (State.stageErr_sectorMap _ _ _).trans (State.errRing_sectorMap _ _)
  have raised (u : State) (l : List Word) :
      (if 2 ≤ e.cls then ((u.errRing l).stageErr e l).irq 0 else (u.errRing l).stageErr e l).sectorMap = u.sectorMap :=
    ite_frame State.sectorMap ((State.irq_sectorMap _ _).trans (staged u l)) (staged u l)
  exact ite_frame State.sectorMap (raised _ _) (raised _ _)

theorem State.health_sectorMap (s : State) : s.health.sectorMap = s.sectorMap := by
  unfold State.health
  dsimp only
  repeat' first
    | with_reducible apply ite_frame
    | with_reducible refine (State.ibi_sectorMap _ _).trans ?_
    | with_reducible refine (State.stage_sectorMap _ _ _).trans ?_
    | with_reducible refine (State.healthNew_sectorMap _ _).trans ?_
  all_goals rfl

/-- Sector `j` is a spare that neither serves nor has been retired (Table 15.6 step 2). -/
def State.spareFree (s : State) (j : Nat) : Prop :=
  2032 ≤ j ∧ j < 2048 ∧ (8, j) ∉ s.fsu.retired ∧ ∀ m ∈ s.fsu.map, ¬ (m.1.1 = 8 ∧ m.2 = j)

/-- The lowest such spare. -/
def State.spareSector? (s : State) : Option Nat := (List.range' 2032 16).find? fun j =>
  !s.fsu.retired.contains (8, j) && !(s.fsu.map.any fun m => m.1.1 = 8 && m.2 = j)

section
variable {s : State}

theorem State.spareFree_iff {j : Nat} (lo : 2032 ≤ j) (hi : j < 2048) : s.spareFree j ↔
    (!s.fsu.retired.contains (8, j) && !(s.fsu.map.any fun m => m.1.1 = 8 && m.2 = j)) = true := by
  simp [State.spareFree, lo, hi]

theorem State.spareSector?_lowest {j : Nat} (h : s.spareFree j) (lowest : ∀ n < j, ¬ s.spareFree n) :
    s.spareSector? = some j := by
  have lo : 2032 ≤ j := h.1
  have hi : j < 2048 := h.2.1
  refine List.find?_range'_eq_some.2 ⟨(State.spareFree_iff lo hi).1 h, by simp [lo, hi], fun n ln nj => ?_⟩
  rw [Bool.not_eq_true', ← Bool.not_eq_true, ← State.spareFree_iff ln (nj.trans hi)]
  exact lowest n nj

theorem State.spareSector?_none (h : ∀ j, ¬ s.spareFree j) : s.spareSector? = none := by
  refine List.find?_range'_eq_none.2 fun j lo hi => ?_
  rw [Bool.not_eq_true', ← Bool.not_eq_true, ← State.spareFree_iff lo hi]
  exact h j

variable (i p : Nat)

/-- A spare takes a retired sector's place (R346). -/
theorem State.sbRetire_spared {j : Nat} (h : s.spareSector? = some j) : (s.sbRetire i p).sectorMap =
    (s.fsu.retired ++ [(8, p)], AL.put (8, i) j s.fsu.map, s.fsu.lostUnits, s.fsu.sbSpares - 1, s.fsu.sectors) := by
  rw [State.spareSector?, List.range'_eq_map_range] at h
  unfold State.sbRetire
  dsimp only
  rw [h, State.health_sectorMap, State.stage_sectorMap]
  rfl

/-- Without a spare the ring loses the sector (R346). -/
theorem State.sbRetire_unspared (h : s.spareSector? = none) : (s.sbRetire i p).sectorMap =
    (s.fsu.retired ++ [(8, p)], s.fsu.map, s.fsu.lostUnits ++ [(8, i)], s.fsu.sbSpares, s.fsu.sectors - 1) := by
  rw [State.spareSector?, List.range'_eq_map_range] at h
  unfold State.sbRetire
  dsimp only
  rw [h, State.health_sectorMap, State.stage_sectorMap]
  exact State.err_sectorMap _ _

theorem State.sbRetire_retired : (s.sbRetire i p).fsu.retired = s.fsu.retired ++ [(8, p)] := by
  cases h : s.spareSector? with
  | some j => exact congrArg Prod.fst (State.sbRetire_spared i p h)
  | none => exact congrArg Prod.fst (State.sbRetire_unspared i p h)

end

/-! ## Writing a record to the ring (R346) -/

section
variable {s : State} {k : Nat}

theorem State.sbSector_kept (h : s.fsu.lostUnits.contains (8, k / 64 % 2032) = false) : s.sbSector k = k / 64 % 2032 :=
  if_neg (Bool.eq_false_iff.1 h)

variable (next : s.sbSector s.flash.ringPos = k)
include next

/-- The next position lies in a sector that takes the write. -/
theorem State.sbReady_ready
    (h : s.env.defects.contains (8, s.physOf 8 k) = false ∨ s.fsu.retired.contains (8, s.physOf 8 k) = true) (n : Nat) : s.sbReady n = s := by
  cases n with
  | zero => rfl
  | succ n =>
    rw [State.sbReady, next]
    exact if_neg (by obtain h | h := h <;> rw [h] <;> simp)

/-- The sector of the next position has failed, and is retired first. -/
theorem State.sbReady_retires (bad : s.env.defects.contains (8, s.physOf 8 k) = true)
    (new : s.fsu.retired.contains (8, s.physOf 8 k) = false) (n : Nat) :
    s.sbReady (n + 1) = (s.sbRetire k (s.physOf 8 k)).sbReady n := by
  rw [State.sbReady, next]
  exact if_pos (by rw [bad, new]; rfl)

end

/-- Making the ring ready retires sectors and takes none back. -/
theorem State.sbReady_retired (n : Nat) (s : State) : ∃ l, (s.sbReady n).fsu.retired = s.fsu.retired ++ l := by
  induction n generalizing s with
  | zero => exact ⟨[], (List.append_nil _).symm⟩
  | succ n ih =>
    rw [State.sbReady]
    split
    · obtain ⟨l, hl⟩ := ih (s.sbRetire (s.sbSector s.flash.ringPos) (s.physOf 8 (s.sbSector s.flash.ringPos)))
      exact ⟨_, by rw [hl, State.sbRetire_retired, List.append_assoc]⟩
    · exact ⟨[], (List.append_nil _).symm⟩

/-- A record goes to the next position of a sector that takes the write; when the oldest sector goes is the model's reading
(assumption 34). -/
theorem State.sbWrite_ready {s : State} (kept : s.fsu.lostUnits.contains (8, s.flash.ringPos / 64 % 2032) = false)
    (h : s.sbReady 2048 = s) (x : List Word) : s.sbWrite x =
      { s with flash := { s.flash with
        ring := sbTrim s.fsu.sectors (s.flash.ring ++ [x]), ringPos := s.flash.ringPos + 1 } } := by
  unfold State.sbWrite
  dsimp only
  rw [h, State.sbSector_kept kept, if_pos rfl]

theorem State.sbWrite_congr {s v : State} (h : s.sbReady 2048 = v.sbReady 2048) (x : List Word) : s.sbWrite x = v.sbWrite x := by
  rw [State.sbWrite, h]
  rfl

/-! ## The reserve (R349, R350) -/

section
variable {s : State}

theorem State.flushReserve_fits (room : s.flash.reserve.length + s.fsu.staging.length ≤ 1024) (none : s.fsu.lostPend = 0) :
    s.flushReserve = { s with
      flash := { s.flash with reserve := s.flash.reserve ++ s.fsu.staging }, fsu := { s.fsu with staging := [] } } :=
  (if_pos room).trans (if_pos (.inl none))

theorem State.reserveDrain_due {p : Nat} (high : s.fsu.pfHighAt = some p) (up : s.up = true) (runs : s.roleRuns 2 = true)
    (long : p + 1000000000 ≤ s.env.now) : s.reserveDrain = s.emptyReserve := by
  rw [State.reserveDrain, high]
  exact if_pos (by simp [up, runs, long])

theorem State.flushRow_writes (on : s.gcs.state ≠ 0) (works : s.env.sfdpOk = true)
    (first : s.up = true ∨ s.flash.reserve = []) : s.flushRow = s.flushStudbook :=
  if_pos ⟨on, works, first⟩

/-- While the block boots, the staged records wait behind the reserve's. -/
theorem State.flushRow_waits (boots : s.gcs.state = 1) (before : s.flash.reserve ≠ []) : s.flushRow = s := by
  have down : s.up = false := by simp [State.up, boots]
  exact if_neg (by simp [down, before])

theorem State.pwrFailRelease_releases (h : s.fsu.pfAsserted = true) :
    s.pwrFailRelease = { s with fsu := { s.fsu with pfAsserted := false, pfHighAt := some s.env.now } } :=
  if_pos h

end

/-! ## Power, and its failure (R291, R297) -/

/-- The records that an assertion of `pwr_fail_n` flushes are announced (R291). -/
def State.pfAnnounced (s : State) : State := (State.healthNew { s with fsu := { s.fsu with flushed := true } } 19).ibi 4

/-- An assertion is counted and recorded, and what is staged reaches the reserve, before it is announced. -/
theorem State.pwrFail_asserts {s : State} (power : s.fsu.power = true) (new : s.fsu.pfAsserted = false) : s.pwrFail =
    (State.flushReserve (State.err
      { s with fsu := { s.fsu with powerFails := s.fsu.powerFails + 1, pfAsserted := true, pfHighAt := none } }
      { unit := 0x0A, cls := 1, code := 0x16, a := s.fsu.powerFails + 1,
        b := min 16 (s.fsu.staging.length + 1) })).pfAnnounced := by
  rw [State.pwrFail, if_neg (by simp [power, new])]
  dsimp only [State.pfAnnounced]

theorem State.powerOn_starts {s : State} (h : s.fsu.power = false) : s.powerOn =
    State.startSteps { s.powerFall with fsu := { s.powerFall.fsu with power := true, pfHighAt := some s.env.now } } 1 :=
  if_neg (Bool.eq_false_iff.1 h)

/-- Settles O24: power and its failure by their rows' equations; a record's write by whether the next sector takes it, and a retired
sector by whether a spare is left. -/
theorem powerAndStudbook : Obligations.PowerAndStudbook := by
  unfold Obligations.PowerAndStudbook
  intro s t s1 off lines i3c
  refine ⟨?falls, fun unpowered => ?rises, fun power new => ?fails, fun hw asserted => ?released,
    fun u room none => ?reserved, fun p high up runs long => ?drained, fun on works first => ?flushed,
    fun boots before => ?waits, fun u x => ?written⟩
  case falls => exact exec_next rfl rfl rfl
  case rises => exact leads_eq rfl (State.powerOn_starts (s := s1) unpowered)
  case fails =>
    obtain ⟨u, hu, acts⟩ : Leads (.pwrFail t) s _ := leads_eq rfl (State.pwrFail_asserts (s := s1) power new)
    refine ⟨u, hu, ?_⟩
    intro n a b
    change Acts b.pfAnnounced u
    exact acts
  case released => exact exec_next rfl (State.pwrFailRelease_releases (s := s1) asserted) hw
  case reserved => exact State.flushReserve_fits room none
  case drained => exact leads_eq rfl (State.reserveDrain_due (s := s1) high up runs long)
  case flushed => exact leads_eq rfl (State.flushRow_writes on works first)
  case waits => exact leads_eq rfl (State.flushRow_waits boots before)
  case written =>
    intro i kept
    refine ⟨fun ready => ?ready, fun bad new => ?retires⟩
    case ready => exact State.sbWrite_ready kept (State.sbReady_ready (State.sbSector_kept kept) ready 2048) x
    case retires =>
      intro v free k
      have retiring (n : Nat) : u.sbReady (n + 1) = v.sbReady n := State.sbReady_retires (State.sbSector_kept kept) bad new n
      have retired : v.fsu.retired = u.fsu.retired ++ [(8, u.physOf 8 i)] := State.sbRetire_retired i _
      refine ⟨?more, retired, fun j lowest below => ?spared, fun none => ?unspared, fun ready => ?again⟩
      case more =>
        obtain ⟨l, hl⟩ := State.sbReady_retired 2047 v
        refine ⟨l, Eq.trans (congrArg (fun w => w.fsu.retired) (retiring 2047)) ?_⟩
        rw [hl, retired, List.append_assoc, List.singleton_append]
      case spared =>
        have left := State.sbRetire_spared i (u.physOf 8 i) (State.spareSector?_lowest lowest below)
        simp only [State.sectorMap, Prod.mk.injEq] at left
        obtain ⟨-, map, -, spares, -⟩ := left
        exact ⟨map, spares⟩
      case unspared =>
        have left := State.sbRetire_unspared i (u.physOf 8 i) (State.spareSector?_none none)
        simp only [State.sectorMap, Prod.mk.injEq] at left
        obtain ⟨-, -, lost, -, sectors⟩ := left
        exact ⟨lost, sectors⟩
      case again =>
        have stays (n : Nat) : v.sbReady n = v := State.sbReady_ready rfl ready n
        exact State.sbWrite_congr ((retiring 2047).trans ((stays 2047).trans (stays 2048).symm)) x

end Sys2Proof.Machine

namespace Sys2Proof.Machine

/-! ## The step and the block at reset (R3, R287, R309) -/

/-- Settles O1: the step by whether a command waits. -/
theorem stepTakesFrontCommand : Obligations.StepTakesFrontCommand := by
  unfold Obligations.StepTakesFrontCommand
  refine ⟨fun c r s => rfl, fun s idle => ?_⟩
  rw [step, idle]

/-- Settles O2: every meaning is a settled state. -/
theorem everyCommandGoesOn : Obligations.EveryCommandGoesOn := by
  unfold Obligations.EveryCommandGoesOn
  exact exec_goesOn

/-- Both memories are empty at reset, and so in canonical form. -/
theorem State.resetOn_sound (d : Device) : (State.resetOn d).sound := ⟨rfl, rfl⟩

theorem State.queue_resetOn (d : Device) (q : Nat) : (State.resetOn d).queue q = {} := rfl

theorem State.ctx_resetOn (d : Device) (c : Nat) : (State.resetOn d).ctx c = {} := rfl

theorem State.phys?_resetOn (d : Device) (c v : Nat) : (State.resetOn d).phys? c v = none := rfl

/-- Settles O3: the Reset columns' values stand in `State.resetOn`; no queue, context or physical counter is listed there. -/
theorem resetIsSound : Obligations.ResetIsSound := by
  unfold Obligations.ResetIsSound
  intro d s
  refine ⟨State.resetOn_sound d, rfl, rfl, rfl, rfl, rfl, rfl, rfl, rfl, rfl, rfl, rfl, rfl, rfl, rfl, rfl, rfl, rfl, rfl,
    fun q => ?_, fun c => ?_, State.phys?_resetOn d⟩
  · rw [State.queue_resetOn]
  · rw [State.ctx_resetOn]

theorem Keeps.after {z s : State} (k : Keeps z s) : z.after s := ⟨k.dev, k.now, k.otp⟩

/-- Settles O5: an idle step changes nothing; the front command's meaning keeps the device and the rest of the queue, and lowers
neither the timebase nor the rollback floor. -/
theorem stepKeepsFloorTimeAndQueue : Obligations.StepKeepsFloorTimeAndQueue := by
  unfold Obligations.StepKeepsFloorTimeAndQueue
  intro s t h
  obtain ⟨idle, rfl⟩ | ⟨c, rest, waits, hc⟩ := step_cases h
  · exact ⟨(Keeps.refl t).after, by rw [idle]; rfl⟩
  · have k := exec_keeps c hc
    exact ⟨k.after, by rw [waits]; exact k.pending⟩

end Sys2Proof.Machine

namespace Sys2Proof.Machine

/-! ## What a completion leaves of the block's health (R54, R345) -/

theorem foldl_fsu {α : Type} {f : State → α → State} (h : ∀ s x, (f s x).fsu = s.fsu) (l : List α) (s : State) :
    (l.foldl f s).fsu = s.fsu :=
  List.foldlRecOn (motive := fun (v : State) => v.fsu = s.fsu) l f rfl fun v hv x _ => (h v x).trans hv

@[simp] theorem State.updQueue_fsu (s : State) (q : Nat) (f : Queue → Queue) : (s.updQueue q f).fsu = s.fsu := rfl

@[simp] theorem State.updCmd_fsu (s : State) (q n : Nat) (f : Cmd → Cmd) : (s.updCmd q n f).fsu = s.fsu := by
  unfold State.updCmd
  split <;> rfl

@[simp] theorem State.setPhase_fsu (s : State) (q n : Nat) (p : Phase) : (s.setPhase q n p).fsu = s.fsu := s.updCmd_fsu q n _

@[simp] theorem State.slotState_fsu (s : State) (q : Nat) (st : SlotState) : (s.slotState q st).fsu = s.fsu := by
  unfold State.slotState
  split <;> rfl

@[simp] theorem State.refresh_fsu (s : State) (q : Nat) : (s.refresh q).fsu = s.fsu := by
  unfold State.refresh
  dsimp only
  repeat' split
  all_goals simp

@[simp] theorem State.refreshFor_fsu (s : State) (q : Nat) (w : List Word) : (s.refreshFor q w).fsu = s.fsu :=
  ite_frame State.fsu (foldl_fsu State.refresh_fsu _ _) (s.refresh_fsu q)

@[simp] theorem State.stepOver_fsu (s : State) (q n : Nat) (w : List Word) : (s.stepOver q n w).fsu = s.fsu := by
  unfold State.stepOver
  dsimp only
  repeat' split
  all_goals rfl

@[simp] theorem State.progOver_fsu (s : State) (q n : Nat) : (s.progOver q n).fsu = s.fsu :=
  ite_frame State.fsu rfl rfl

@[simp] theorem State.queueMsix_fsu (s : State) (q : Nat) : (s.queueMsix q).fsu = s.fsu :=
  ite_frame State.fsu rfl rfl

@[simp] theorem State.putRecord_fsu (s : State) (q : Nat) (ws : List Word) : (s.putRecord q ws).fsu = s.fsu :=
  s.wrWords_fsu _ _ _

@[simp] theorem State.flushHeld_fsu (s : State) (q : Nat) : (s.flushHeld q).fsu = s.fsu := by
  unfold State.flushHeld
  dsimp only
  repeat' split
  all_goals simp

@[simp] theorem State.cancelCheck_fsu (s : State) (q n : Nat) (hit : Bool) : (s.cancelCheck q n hit).fsu = s.fsu := by
  refine foldl_fsu (f := State.cancelTold n q hit) (fun v p => ?_) _ _
  unfold State.cancelTold
  dsimp only
  repeat' split
  all_goals simp

@[simp] theorem State.completeNow_fsu (s : State) (q n : Nat) (st : Status) (detail : Nat) :
    (s.completeNow q n st detail).fsu = s.fsu := by
  unfold State.completeNow
  simp only [State.dueCounters_eq]
  repeat' split
  all_goals simp

/-- A completion reports nothing to the health registers. -/
@[simp] theorem State.complete_fsu (s : State) (q n : Nat) (st : Status) (detail : Nat) : (s.complete q n st detail).fsu = s.fsu := by
  unfold State.complete
  repeat' split
  all_goals simp

/-- Field [20:16] of a word is its bits 16 to 20 (Table 15.9). -/
theorem getLsbD_bits_new (w : Word) {i : Nat} (h : i < 5) : (BitVec.ofNat 5 (bits w 20 16)).getLsbD i = bit w (16 + i) := by
  rw [BitVec.getLsbD_ofNat, bits, Nat.testBit_mod_two_pow, Nat.testBit_shiftRight]
  simp [h, bit]

/-- Settles O42: the command, taken up, changes the NEW bits and completes, and a completion leaves the health registers. -/
theorem healthAckClearsNew : Obligations.HealthAckClearsNew := by
  unfold Obligations.HealthAckClearsNew
  intro s q n w taken r
  have kept : r.fsu = s.fsu := s.setPhase_fsu q n .running
  refine ⟨{ r with fsu := { r.fsu with newBits := r.fsu.newBits &&& ~~~(BitVec.ofNat 5 (bits (wordAt w 1) 20 16)) } },
    leads_fwCmd taken rfl rfl, rfl, fun i hi => ?bits, ?state, ?replace⟩
  case bits =>
    simp only [BitVec.getLsbD_and, BitVec.getLsbD_not, hi, decide_true, Bool.true_and, getLsbD_bits_new _ hi, kept]
  case state => rw [State.refresh_fsu, State.complete_fsu, kept]
  case replace => rw [State.refresh_fsu, State.complete_fsu, kept]

end Sys2Proof.Machine

namespace Sys2Proof.Machine

/-! ## The tack store read back (R305) -/

/-- What is written is in force: its SEQ is above that of the copy before it. -/
theorem State.tack_setTack (s : State) (x : Tack) : (s.setTack x).tack = { x with seq := s.tack.seq + 1 } := by
  unfold State.setTack State.tack State.tack?
  dsimp only
  generalize s.flash = f
  obtain ⟨first, second, imgA, imgB, otp, ring, ringPos, reserve⟩ := f
  rcases first with _ | a <;> rcases second with _ | b
  case some.some =>
    by_cases h : b.seq ≤ a.seq
    · simp [h, Nat.not_lt.2 h]
    · simp [h, Nat.lt_of_not_le h]
  all_goals simp

theorem State.tack_congr {s v : State} (h : v.flash = s.flash) : v.tack = s.tack := by
  rw [State.tack, State.tack?, h]
  rfl

@[simp] theorem State.tack_stage (s : State) (type : Nat) (l : List Word) : (s.stage type l).tack = s.tack :=
  State.tack_congr (s.stage_flash type l)

/-! ## Restarts of the firmware cores (R322, R323) -/

/-- The crashes within 600 s, with one of core `k` (R323). -/
def State.crashesWith (s : State) (k : Nat) : List (Nat × Nat) :=
  (s.fwc.crashes.filter fun p => decide (s.env.now < p.2 + 600000000000)) ++ [(k, s.env.now)]

/-- A crash of core `k` is counted and has its FW_CRASH record. -/
def State.crashNoted (s : State) (k cause mcause : Nat) : State :=
  State.err { s with fwc := { s.fwc with crashes := s.crashesWith k } }
    { unit := 9, inst := k, cls := 1, code := 0x10, a := k, b := cause, c := mcause }

/-- Core `k` restarts, which freezes the mapping (Table 14.3). -/
def State.restarting (s : State) (k : Nat) : State :=
  State.pet { s with fwc := { s.fwc with
    cores := AL.put k 2 s.fwc.cores, frozen := true, restarts := AL.upd s.fwc.restarts k fun n => sat 255 (n + 1) } } k

@[simp] theorem State.crashNoted_fwc (s : State) (k cause mcause : Nat) :
    (s.crashNoted k cause mcause).fwc = { s.fwc with crashes := s.crashesWith k } :=
  State.err_fwc _ _

section
variable {s : State} {k : Nat}

theorem State.fwRestart_matches (h : s.fwc.sramOk = true) : s.fwRestart k = s.restarting k := if_pos h

theorem State.fwRestart_mismatch (h : s.fwc.sramOk = false) : s.fwRestart k = (s.restarting k).resetNow false 7 0 :=
  if_neg (Bool.eq_false_iff.1 h)

section
variable {cause mcause : Nat} (alive : s.fwAlive = true) (runs : AL.get s.fwc.cores k = 1 ∨ AL.get s.fwc.cores k = 2)
  (late : cause = 2 → AL.get s.fwc.petAt k + 50000000 ≤ s.env.now)
include alive runs late

theorem State.fwCrash_eq : s.fwCrash k cause mcause =
    if 3 ≤ ((s.crashesWith k).filter fun p => p.1 = k).length then (s.crashNoted k cause mcause).fwThird k
    else (s.crashNoted k cause mcause).fwRestart k := by
  refine if_neg ?_
  rintro (dead | ⟨not1, not2⟩ | ⟨watchdog, early⟩)
  · simp [alive] at dead
  · exact runs.elim not1 not2
  · exact absurd (late watchdog) (Nat.not_le.2 early)

theorem State.fwCrash_third (h : 3 ≤ ((s.crashesWith k).filter fun p => p.1 = k).length) :
    s.fwCrash k cause mcause = (s.crashNoted k cause mcause).fwThird k := by
  rw [State.fwCrash_eq alive runs late, if_pos h]

theorem State.fwCrash_restarts (h : ((s.crashesWith k).filter fun p => p.1 = k).length < 3) :
    s.fwCrash k cause mcause = (s.crashNoted k cause mcause).fwRestart k := by
  rw [State.fwCrash_eq alive runs late, if_neg (Nat.not_le.2 h)]

end
end

theorem leads_fwCoreTrap {s v : State} {k t : Nat} {mcause : Word} (h : (s.at t).fwCrash k 1 mcause.toNat = v) :
    Leads (.fwCoreTrap k mcause t) s v := leads_eq rfl h

theorem leads_fwWatchdog {s v : State} {k t : Nat} (h : (s.at t).fwCrash k 2 0 = v) : Leads (.fwWatchdog k t) s v :=
  leads_eq rfl h

/-! ### The end of a restart (Table 14.3) -/

/-- The running core `k` is served from now on. -/
def State.coreRuns (s : State) (k : Nat) : State :=
  State.pet { s with fwc := { s.fwc with cores := AL.put k 1 s.fwc.cores } } k

/-- The generation marks advance where role 1 is among a core's roles (R140). -/
def State.marksAdvanced (s : State) (k : Nat) : State := if (s.rolesOf k).contains 1 then s.advanceMarks else s

/-- The mapping thaws once no core restarts. -/
def State.thawed (s : State) : State :=
  if s.fwc.frozen = false ∨ (s.fwc.cores.any fun p => p.2 = 2) = true then s else { s with fwc := { s.fwc with frozen := false } }

/-- Advancing the marks leaves what is under way in the firmware complex. -/
theorem State.marksAdvanced_fwc (s : State) (k : Nat) : (s.marksAdvanced k).fwc.upd = s.fwc.upd ∧
    (s.marksAdvanced k).fwc.pendingRestart = s.fwc.pendingRestart ∧ (s.marksAdvanced k).fwc.frozen = s.fwc.frozen := by
  unfold State.marksAdvanced
  split <;> exact ⟨rfl, rfl, rfl⟩

theorem State.restartsOver_plain {s : State} (upd : s.fwc.upd = none) (pending : s.fwc.pendingRestart = false) :
    s.restartsOver = s.thawed.rolesBack.displace := by
  have record : s.restartRecord = s := if_neg (by simp [pending])
  unfold State.restartsOver
  dsimp only
  rw [upd]
  dsimp only
  rw [record]
  exact congrArg (fun v : State => v.rolesBack.displace) (if_congr (by simp) rfl rfl)

theorem State.fwRestartEnd_plain {s : State} {k : Nat} (alive : s.fwAlive = true) (restarts : AL.get s.fwc.cores k = 2)
    (upd : s.fwc.upd = none) (pending : s.fwc.pendingRestart = false) :
    s.fwRestartEnd k = ((s.coreRuns k).marksAdvanced k).thawed.rolesBack.displace := by
  have marks : (if ((s.coreRuns k).rolesOf k).contains 1 && !s.fwc.pendingRestart && s.fwc.upd.isNone then (s.coreRuns k).advanceMarks
      else s.coreRuns k) = (s.coreRuns k).marksAdvanced k := by
    rw [State.marksAdvanced, pending, upd]
    simp
  have ends : s.fwRestartEnd k = ((s.coreRuns k).marksAdvanced k).restartsOver := by
    unfold State.fwRestartEnd
    rw [if_neg (by simp [restarts, alive]), upd]
    exact congrArg State.restartsOver marks
  obtain ⟨updKept, pendingKept, -⟩ := (s.coreRuns k).marksAdvanced_fwc k
  rw [ends, State.restartsOver_plain (updKept.trans upd) (pendingKept.trans pending)]

/-! ### The firmware-only restart (R304) -/

theorem foldl_pet_eq (l : List Nat) (s : State) :
    ∃ served, l.foldl State.pet s = { s with fwc := { s.fwc with petAt := served } } := by
  induction l generalizing s with
  | nil => exact ⟨s.fwc.petAt, rfl⟩
  | cons k r ih =>
    obtain ⟨served, h⟩ := ih (s.pet k)
    exact ⟨served, h⟩

theorem State.firmwareRestart_restarts {s : State} (up : s.up = true) (ok : s.fwc.sramOk = true) :
    let p := (s.fwc.cores.map Prod.fst).foldl State.pet s
    s.firmwareRestart = { p with
      gcs := { s.gcs with kind := 4, step := 4 }
      fwc := { p.fwc with
        pendingRestart := true, frozen := true, cores := s.fwc.cores.map fun (p : Nat × Nat) => (p.1, if p.2 = 1 then 2 else p.2) } } := by
  obtain ⟨served, eq⟩ := foldl_pet_eq (s.fwc.cores.map Prod.fst) s
  unfold State.firmwareRestart
  rw [if_neg (by simp [up]), if_neg (by simp [ok]), eq]

/-- Settles O28: a crash by its count within 600 s and by whether the retained SRAM matches, the end of a restart, and the
firmware-only restart. -/
theorem firmwareCoreRestarts : Obligations.FirmwareCoreRestarts := by
  unfold Obligations.FirmwareCoreRestarts
  intro s k t mcause alive s1 recent crashed restarting runs late does
  have trapNow : (1 : Nat) = 2 → AL.get s1.fwc.petAt k + 50000000 ≤ s1.env.now := fun no => absurd no (by decide)
  have awake : s1.fwAlive = true := alive
  refine ⟨fun run few ok => ⟨?trap, fun due => ?watchdog⟩, fun run few bad => ?warm,
    fun run third => ⟨?trap3, fun due => ?watchdog3⟩,
    fun two upd pending => ?ends, fun hw up ok => ?firmware⟩
  case trap =>
    exact leads_fwCoreTrap ((State.fwCrash_restarts awake run trapNow few).trans
      (State.fwRestart_matches (by rw [State.crashNoted_fwc]; exact ok)))
  case watchdog =>
    exact leads_fwWatchdog ((State.fwCrash_restarts awake run (fun _ => due) few).trans
      (State.fwRestart_matches (by rw [State.crashNoted_fwc]; exact ok)))
  case warm =>
    exact leads_fwCoreTrap ((State.fwCrash_restarts awake run trapNow few).trans
      (State.fwRestart_mismatch (by rw [State.crashNoted_fwc]; exact bad)))
  case trap3 => exact leads_fwCoreTrap (State.fwCrash_third awake run trapNow third)
  case watchdog3 => exact leads_fwWatchdog (State.fwCrash_third awake run (fun _ => due) third)
  case ends =>
    intro a b c
    obtain ⟨-, -, frozen⟩ : _ ∧ _ ∧ b.fwc.frozen = s.fwc.frozen := a.marksAdvanced_fwc k
    have thaws : c = b.thawed := by
      rw [State.thawed, frozen]
    have ended : s1.fwRestartEnd k = b.thawed.rolesBack.displace := State.fwRestartEnd_plain awake two upd pending
    rw [thaws, ← ended]
    exact leads_of rfl
  case firmware =>
    intro p f
    obtain ⟨served, eq⟩ : ∃ served, p = { s1 with fwc := { s1.fwc with petAt := served } } := foldl_pet_eq _ s1
    exact exec_next rfl (State.firmwareRestart_restarts (s := s1) up ok) (by rw [eq]; exact hw)

end Sys2Proof.Machine

namespace Sys2Proof.Machine

/-! ## The mailbox (R328, R329, Table 14.7) -/

/-- Operation `op` with its argument waits in the mailbox (R328). -/
def State.mboxAsked (s : State) (op arg : Nat) : State :=
  { s with fwc := { s.fwc with mboxBusy := true, mboxOp := some { op := op, arg := arg } } }

/-- `FWC_MBOX_DATA` holds `v`. -/
def State.mboxHolds (s : State) (v : Word) : State := { s with fwc := { s.fwc with mboxData := v } }

/-- Operation `op` has written the tack store, which its CONFIG record `l` tells (Table 14.7). -/
def State.mboxStored (s : State) (op arg : Nat) (x : Tack) (l : List Word) : State :=
  (((s.mboxAsked op arg).setTack x).stage 0x07 l).mboxDone 0

section
variable (s : State) (op arg : Nat) (x : Tack) (l : List Word)

theorem State.mboxStored_work : (s.mboxStored op arg x l).work = s.work := State.stage_work _ _ _

theorem State.tack_mboxStored : (s.mboxStored op arg x l).tack = { x with seq := s.tack.seq + 1 } :=
  (State.tack_stage _ _ _).trans (State.tack_setTack _ _)

theorem State.mboxStored_herdAddr : (s.mboxStored op arg x l).gcs.herdAddr = s.gcs.herdAddr := by
  rw [State.mboxStored, State.mboxDone, State.stage_gcs]
  rfl

end

theorem State.restarting_counted (s : State) (k : Nat) :
    AL.get (s.restarting k).fwc.restarts k = min (AL.get s.fwc.restarts k + 1) 255 := by
  have counted : AL.get (s.restarting k).fwc.restarts k = sat 255 (AL.get s.fwc.restarts k + 1) :=
    AL.get_upd_self s.fwc.restarts k fun n => sat 255 (n + 1)
  rw [counted, sat, Nat.min_comm]

theorem State.restarting_cores (s : State) (k : Nat) : AL.get (s.restarting k).fwc.cores k = 2 := AL.get_put_self k 2 _

theorem onUnits_on {s : State} (on : s.unitsOn = true) (f : State → State) : s.onUnits f = f s := if_pos on

section
variable {s : State} (alive : s.fwAlive = true)
include alive

/-- Role 3 serves an operation that has been asked for. -/
theorem State.mboxAsked_served (runs : s.roleRuns 3 = true) (op arg : Nat) :
    ¬ ((!(s.mboxAsked op arg).fwAlive) = true ∨ (!(s.mboxAsked op arg).roleRuns 3) = true) := by
  simp only [not_or, Bool.not_eq_true', Bool.not_eq_false]
  exact ⟨alive, runs⟩

variable (idle : s.fwc.mboxBusy = false)
include idle

theorem State.mboxWrite_idle (v : Word) : s.mboxWrite v = s.mboxHolds v := if_neg (by simp [alive, idle])

theorem State.mboxCmd_idle {op : Nat} (h : op ≠ 0) (arg : Nat) : s.mboxCmd op arg = (s.mboxAsked op arg).mboxServe :=
  if_neg (by simp [alive, idle, h])

variable (runs : s.roleRuns 3 = true)
include runs

theorem State.mboxCmd_ping (arg : Nat) :
    s.mboxCmd 1 arg = if arg = 0 then (s.mboxHolds s.imageVer).mboxDone 0 else s.mboxDone 2 :=
  (State.mboxCmd_idle alive idle (by decide) arg).trans (if_neg (State.mboxAsked_served alive runs 1 arg))

theorem State.mboxCmd_policyRead (arg : Nat) :
    s.mboxCmd 2 arg = if arg < 480 then (s.mboxHolds (AL.get s.tack.policy arg)).mboxDone 0 else s.mboxDone 2 :=
  (State.mboxCmd_idle alive idle (by decide) arg).trans (if_neg (State.mboxAsked_served alive runs 2 arg))

theorem State.mboxCmd_policyWrite (arg : Nat) : s.mboxCmd 3 arg = if arg < 480 then
      s.mboxStored 3 arg { s.tack with policy := AL.put arg s.fwc.mboxData s.tack.policy } [4, s.fwc.mboxData, 0, 0]
    else s.mboxDone 2 :=
  (State.mboxCmd_idle alive idle (by decide) arg).trans (if_neg (State.mboxAsked_served alive runs 3 arg))

theorem State.mboxCmd_setHerdGroup (arg : Nat) : s.mboxCmd 4 arg = if arg = 0 ∧ s.fwc.mboxData.toNat < 16 then
      s.mboxStored 4 arg { s.tack with group := s.fwc.mboxData.toNat } [3, s.fwc.mboxData, 0, 0]
    else s.mboxDone 2 :=
  (State.mboxCmd_idle alive idle (by decide) arg).trans (if_neg (State.mboxAsked_served alive runs 4 arg))

/-- A running core is restarted; where it is role 3's own, the mailbox stays busy. -/
theorem State.mboxCmd_restartCore {k : Nat} (core : AL.get s.fwc.cores k = 1) (ok : s.fwc.sramOk = true) :
    let v := (s.mboxDone 0).restarting k
    s.mboxCmd 5 k = if v.roleRuns 3 then v else { v with fwc := { v.fwc with mboxBusy := true, mboxOp := some {} } } := by
  intro v
  have restarts : ((s.mboxAsked 5 k).mboxDone 0).fwRestart k = v := State.fwRestart_matches ok
  refine (State.mboxCmd_idle alive idle (by decide) k).trans ((if_neg (State.mboxAsked_served alive runs 5 k)).trans ?_)
  refine (if_pos core).trans ?_
  rw [restarts]

theorem State.mboxCmd_restartCore_none {k : Nat} (core : AL.get s.fwc.cores k ≠ 1) : s.mboxCmd 5 k = s.mboxDone 2 :=
  (State.mboxCmd_idle alive idle (by decide) k).trans ((if_neg (State.mboxAsked_served alive runs 5 k)).trans (if_neg core))

/-- Data written first is what the operation finds. -/
theorem State.mboxCmd_policyWrite_data (arg : Nat) (v : Word) : (s.mboxWrite v).mboxCmd 3 arg = if arg < 480 then
      (s.mboxHolds v).mboxStored 3 arg { s.tack with policy := AL.put arg v s.tack.policy } [4, v, 0, 0]
    else (s.mboxHolds v).mboxDone 2 := by
  rw [State.mboxWrite_idle alive idle]
  exact State.mboxCmd_policyWrite (s := s.mboxHolds v) alive idle runs arg

theorem State.mboxCmd_setHerdGroup_data (arg : Nat) (v : Word) : (s.mboxWrite v).mboxCmd 4 arg = if arg = 0 ∧ v.toNat < 16 then
      (s.mboxHolds v).mboxStored 4 arg { s.tack with group := v.toNat } [3, v, 0, 0]
    else (s.mboxHolds v).mboxDone 2 := by
  rw [State.mboxWrite_idle alive idle]
  exact State.mboxCmd_setHerdGroup (s := s.mboxHolds v) alive idle runs arg

end

/-- Settles O29: each operation by whether its argument and its data are in range, served by role 3 at once. -/
theorem mailboxOperations : Obligations.MailboxOperations := by
  unfold Obligations.MailboxOperations
  intro s arg t v hw on runs idle s1 done data
  refine ⟨?ping, ?read, fun low => ?write, fun high => ?writeHigh, fun zero small => ?group, fun bad => ?groupBad,
    fun core ok => ?restart, fun core => ?restartNone⟩
  case ping =>
    exact exec_next rfl ((onUnits_on on _).trans (State.mboxCmd_ping on idle runs arg)) (by split <;> exact hw)
  case read =>
    exact exec_next rfl ((onUnits_on on _).trans (State.mboxCmd_policyRead on idle runs arg)) (by split <;> exact hw)
  case write =>
    have stores := (State.mboxCmd_policyWrite_data on idle runs arg v).trans (if_pos low)
    refine ⟨_, exec_next rfl ((onUnits_on on _).trans stores) ((State.mboxStored_work _ _ _ _ _).trans hw), ?_, rfl, rfl,
      fun j hj => ?_⟩
    · rw [State.tack_mboxStored]
      exact AL.get_put_self arg v _
    · rw [State.tack_mboxStored]
      exact AL.get_put_ne hj v _
  case writeHigh =>
    have refused := (State.mboxCmd_policyWrite_data on idle runs arg v).trans (if_neg (Nat.not_lt.2 high))
    exact exec_next rfl ((onUnits_on on _).trans refused) hw
  case group =>
    have stores := (State.mboxCmd_setHerdGroup_data on idle runs arg v).trans (if_pos ⟨zero, small⟩)
    refine ⟨_, exec_next rfl ((onUnits_on on _).trans stores) ((State.mboxStored_work _ _ _ _ _).trans hw), ?_, rfl, ?_⟩
    · rw [State.tack_mboxStored]
    · exact State.mboxStored_herdAddr _ _ _ _ _
  case groupBad =>
    have refused := (State.mboxCmd_setHerdGroup_data on idle runs arg v).trans (if_neg (by omega))
    exact exec_next rfl ((onUnits_on on _).trans refused) hw
  case restart =>
    have restarts := State.mboxCmd_restartCore (s := s1) on idle runs core ok
    refine ⟨_, exec_next rfl ((onUnits_on (s := s1) on _).trans restarts) (by split <;> exact hw), ?_⟩
    have restarted := (s1.mboxDone 0).restarting_cores arg
    have counted := (s1.mboxDone 0).restarting_counted arg
    split <;> exact ⟨restarted, rfl, rfl, counted⟩
  case restartNone =>
    exact exec_next rfl ((onUnits_on (s := s1) on _).trans (State.mboxCmd_restartCore_none (s := s1) on idle runs core)) hw

end Sys2Proof.Machine

namespace Sys2Proof.Machine

/-! ## Positions by row (R300, Table 13.5) -/

theorem foldl_frame {α β : Type} (g : State → β) {f : State → α → State} (h : ∀ s x, g (f s x) = g s)
    (l : List α) (s : State) : g (l.foldl f s) = g s :=
  List.foldlRecOn (motive := fun (v : State) => g v = g s) l f rfl fun v hv x _ => (h v x).trans hv

theorem homePos_inj {m n : Nat} (h : homePos m = homePos n) : m = n := by
  unfold homePos at h
  omega

/-- Ten positions a row: its active places come first. -/
theorem homePos_row {d : Device} {r i : Nat} (hr : r < d.rows) (hi : i < d.rowLen) : homePos (r * d.rowLen + i) = r * 10 + i := by
  unfold homePos
  cases d <;> simp only [Device.rows, Device.rowLen, Device.pick] at hr hi ⊢ <;> omega

/-- A row's spare stands behind its active places. -/
theorem State.rowSpare_row {s : State} {r : Nat} (hr : r < s.env.dev.rows) :
    s.rowSpare (homePos (r * s.env.dev.rowLen)) = r * 10 + s.env.dev.rowLen := by
  unfold State.rowSpare homePos
  cases h : s.env.dev <;> rw [h] at hr <;> simp only [Device.rows, Device.rowLen, Device.pick] at hr ⊢ <;> omega

theorem rowLen_lt (d : Device) : d.rowLen < 10 := by cases d <;> decide

/-! ## Assigning a position (R300, Table 13.18) -/

/-- Position `p` has a role and, where it serves one, a cluster. -/
def State.postedAs (s : State) (p role n : Nat) : Prop :=
  (s.seqr p).valid = true ∧ (s.seqr p).role = role ∧ (role = 0 → (s.seqr p).cluster = n) ∧ AL.get s.tth.roles p = role

/-- What the mapping holds of a position. -/
def State.posting (s : State) (p : Nat) : Seqr × Nat := (s.seqr p, AL.get s.tth.roles p)

theorem State.postedAs_congr {s v : State} {p role n : Nat} (h : v.posting p = s.posting p) (posted : s.postedAs p role n) :
    v.postedAs p role n := by
  obtain ⟨seqr, roles⟩ := Prod.mk.inj h
  rw [State.postedAs, seqr, roles]
  exact posted

/-- What tells whether a position has failed: neither roles nor mapping are in it. -/
def State.tether (s : State) : Env × Flash × Fsu × List Nat := (s.env, s.flash, s.fsu, s.tth.noAnswer)

theorem State.posFailed_congr {s v : State} (h : v.tether = s.tether) : v.posFailed = s.posFailed := by
  simp only [State.tether, Prod.mk.injEq] at h
  obtain ⟨env, flash, fsu, noAnswer⟩ := h
  funext p
  simp only [State.posFailed, State.tack_congr flash, State.remounting, State.unreached, env, fsu, noAnswer]

section
variable (s : State) (p role n : Nat)

theorem State.tether_assign : (s.assign p role n).tether = s.tether := rfl

theorem State.posting_assign_ne {k : Nat} (h : k ≠ p) : (s.assign p role n).posting k = s.posting k :=
  Prod.ext (AL.get_put_ne h _ _) (AL.get_put_ne h _ _)

theorem State.postedAs_assign : (s.assign p role n).postedAs p role n := by
  have seqr : (s.assign p role n).seqr p =
      { s.seqr (homePos n) with valid := true, role := role, cluster := if role = 0 then n else 0 } := AL.get_put_self _ _ _
  rw [State.postedAs, seqr]
  exact ⟨rfl, rfl, fun h => if_pos h, AL.get_put_self _ _ _⟩

/-- The active place of cluster `n` serves it unless it has failed. -/
def State.assignHome (s : State) (n : Nat) : State := s.assign (homePos n) (if s.posFailed (homePos n) then 2 else 0) n

end

theorem State.tether_assignHomes (l : List Nat) (s : State) : (l.foldl State.assignHome s).tether = s.tether :=
  foldl_frame State.tether (f := State.assignHome) (fun v n => v.tether_assign _ _ n) l s

theorem State.posting_assignHomes {l : List Nat} {p : Nat} (h : ∀ n ∈ l, p ≠ homePos n) (s : State) :
    (l.foldl State.assignHome s).posting p = s.posting p :=
  List.foldlRecOn (motive := fun (v : State) => v.posting p = s.posting p) l _ rfl
    fun v hv n hn => (v.posting_assign_ne _ _ _ (h n hn)).trans hv

theorem State.postedAs_assignHomes {l : List Nat} {n : Nat} (hn : n ∈ l) (s : State) :
    (l.foldl State.assignHome s).postedAs (homePos n) (if s.posFailed (homePos n) then 2 else 0) n := by
  induction l generalizing s with
  | nil => cases hn
  | cons m r ih =>
    rw [List.foldl_cons]
    by_cases later : n ∈ r
    · have same : (s.assignHome m).posFailed = s.posFailed := State.posFailed_congr rfl
      rw [← same]
      exact ih later _
    · obtain rfl : n = m := (List.mem_cons.1 hn).resolve_right later
      refine State.postedAs_congr (State.posting_assignHomes (fun k hk e => ?_) _) (s.postedAs_assign _ _ _)
      exact later (homePos_inj e ▸ hk)

/-! ## Assigning a row (R300) -/

/-- The clusters of row `r`. -/
def State.rowClusters (s : State) (r : Nat) : List Nat := (List.range s.env.dev.rowLen).map fun i => r * s.env.dev.rowLen + i

/-- The row's spare, once its active places have roles: it serves the lowest cluster without a sequencer. -/
def State.assignSpare (s : State) (spare : Nat) : Option Nat → State
  | some n => s.assign spare (if s.posFailed spare then 2 else 0) n
  | none =>
    let s2 := s.setSeqr spare { s.seqr spare with valid := true, role := if s.posFailed spare then 2 else 1 }
    { s2 with tth := { s2.tth with roles := AL.put spare (if s.posFailed spare then 2 else 1) s2.tth.roles } }

section
variable (s : State) (spare : Nat)

theorem State.tether_assignSpare (o : Option Nat) : (s.assignSpare spare o).tether = s.tether := by cases o <;> rfl

theorem State.posting_assignSpare_ne {p : Nat} (h : p ≠ spare) (o : Option Nat) :
    (s.assignSpare spare o).posting p = s.posting p := by
  cases o with
  | some n => exact s.posting_assign_ne _ _ _ h
  | none => exact Prod.ext (AL.get_put_ne h _ _) (AL.get_put_ne h _ _)

theorem State.postedAs_assignSpare_some (n : Nat) :
    (s.assignSpare spare (some n)).postedAs spare (if s.posFailed spare then 2 else 0) n :=
  s.postedAs_assign _ _ _

theorem State.postedAs_assignSpare_none :
    (s.assignSpare spare none).postedAs spare (if s.posFailed spare then 2 else 1) 0 := by
  have seqr : (s.assignSpare spare none).seqr spare =
      { s.seqr spare with valid := true, role := if s.posFailed spare then 2 else 1 } := AL.get_put_self _ _ _
  rw [State.postedAs, seqr]
  refine ⟨rfl, rfl, fun h => ?_, AL.get_put_self _ _ _⟩
  split at h <;> cases h

theorem State.assignRow_eq (r : Nat) : s.assignRow r = ((s.rowClusters r).foldl State.assignHome s).assignSpare
    (s.rowSpare (homePos (r * s.env.dev.rowLen))) ((s.rowClusters r).find? fun n => s.posFailed (homePos n)) := by
  have kept : ((s.rowClusters r).foldl State.assignHome s).tether = s.tether := State.tether_assignHomes _ s
  rw [← State.posFailed_congr kept]
  have same : ((s.rowClusters r).foldl State.assignHome s).rowSpare = s.rowSpare := by
    funext p
    have env : ((s.rowClusters r).foldl State.assignHome s).env = s.env := congrArg Prod.fst kept
    rw [State.rowSpare, env]
    rfl
  rw [← same]
  unfold State.assignRow
  dsimp only
  split
  case h_1 n found =>
    have first : ((s.rowClusters r).find? fun n => ((s.rowClusters r).foldl State.assignHome s).posFailed (homePos n)) = some n := found
    rw [first]
    rfl
  case h_2 found =>
    have none : ((s.rowClusters r).find? fun n => ((s.rowClusters r).foldl State.assignHome s).posFailed (homePos n)) = none := found
    rw [none]
    rfl

theorem State.tether_assignRow (r : Nat) : (s.assignRow r).tether = s.tether := by
  rw [State.assignRow_eq, State.tether_assignSpare, State.tether_assignHomes]

end

section
variable {s : State} {r : Nat} (hr : r < s.env.dev.rows)
include hr

theorem State.rowClusters_place {n : Nat} (hn : n ∈ s.rowClusters r) : ∃ i < s.env.dev.rowLen, homePos n = r * 10 + i := by
  obtain ⟨i, hi, rfl⟩ := List.mem_map.1 hn
  exact ⟨i, List.mem_range.1 hi, homePos_row hr (List.mem_range.1 hi)⟩

/-- A row's positions are its own. -/
theorem State.posting_assignRow {p : Nat} (h : p / 10 ≠ r) : (s.assignRow r).posting p = s.posting p := by
  have len := rowLen_lt s.env.dev
  rw [State.assignRow_eq, State.rowSpare_row hr, State.posting_assignSpare_ne _ _ (by omega)]
  refine State.posting_assignHomes (fun n hn e => ?_) s
  obtain ⟨i, hi, at_⟩ := State.rowClusters_place hr hn
  omega

theorem State.assignRow_home {n : Nat} (hn : n ∈ s.rowClusters r) :
    (s.assignRow r).postedAs (homePos n) (if s.posFailed (homePos n) then 2 else 0) n := by
  have apart : homePos n ≠ r * 10 + s.env.dev.rowLen := by
    obtain ⟨i, hi, at_⟩ := State.rowClusters_place hr hn
    omega
  rw [State.assignRow_eq, State.rowSpare_row hr]
  exact State.postedAs_congr (State.posting_assignSpare_ne _ _ apart _) (State.postedAs_assignHomes hn s)

end

section
variable {s : State} {r : Nat}

theorem State.assignRow_spare_serves {n : Nat} (h : ((s.rowClusters r).find? fun n => s.posFailed (homePos n)) = some n) :
    (s.assignRow r).postedAs (s.rowSpare (homePos (r * s.env.dev.rowLen)))
      (if s.posFailed (s.rowSpare (homePos (r * s.env.dev.rowLen))) then 2 else 0) n := by
  rw [State.assignRow_eq, h, ← State.posFailed_congr (State.tether_assignHomes (s.rowClusters r) s)]
  exact State.postedAs_assignSpare_some _ _ n

theorem State.assignRow_spare_idle (h : ((s.rowClusters r).find? fun n => s.posFailed (homePos n)) = none) :
    (s.assignRow r).postedAs (s.rowSpare (homePos (r * s.env.dev.rowLen)))
      (if s.posFailed (s.rowSpare (homePos (r * s.env.dev.rowLen))) then 2 else 1) 0 := by
  rw [State.assignRow_eq, h, ← State.posFailed_congr (State.tether_assignHomes (s.rowClusters r) s)]
  exact State.postedAs_assignSpare_none _ _

end

/-! ## Enumeration (R299, R300) -/

theorem State.tether_assignRows (l : List Nat) (s : State) : (l.foldl State.assignRow s).tether = s.tether :=
  foldl_frame State.tether State.tether_assignRow l s

/-- What the assignment of its own row gives a position holds when every row is assigned. -/
theorem State.enumerate_posted {s : State} {r p role n : Nat} (hr : r < s.env.dev.rows) (own : p / 10 = r)
    (h : ∀ v : State, v.tether = s.tether → (v.assignRow r).postedAs p role n) : s.enumerate.postedAs p role n := by
  suffices rows : ((List.range s.env.dev.rows).foldl State.assignRow s).postedAs p role n from rows
  obtain ⟨before, behind, split⟩ := List.append_of_mem (List.mem_range.2 hr)
  have once : r ∉ behind := by
    have nodup := List.nodup_range (n := s.env.dev.rows)
    rw [split] at nodup
    exact (List.nodup_cons.1 (List.nodup_append.1 nodup).2.1).1
  rw [split, List.foldl_append, List.foldl_cons]
  refine List.foldlRecOn (motive := fun (v : State) => v.tether = s.tether ∧ v.postedAs p role n) behind State.assignRow ?_ ?_ |>.2
  · exact ⟨(State.tether_assignRow _ _).trans (State.tether_assignRows _ _), h _ (State.tether_assignRows _ _)⟩
  · rintro v ⟨kept, posted⟩ k hk
    have dev : v.env = s.env := congrArg Prod.fst kept
    have low : k < v.env.dev.rows := by
      rw [dev]
      exact List.mem_range.1 (split ▸ by simp [hk])
    have other : p / 10 ≠ k := fun e => once (own.symm.trans e ▸ hk)
    exact ⟨(v.tether_assignRow k).trans kept, State.postedAs_congr (State.posting_assignRow low other) posted⟩

/-- The clusters that the enumeration finds newly lost (R334). -/
def State.newlyLost (s : State) : List Nat :=
  (s.absentBy s.posFailed).filter fun n => !(s.absentBy fun p => s.tack.repair.contains (2, p)).contains n

/-- What enumeration leaves: its roles, and the records of lost clusters and of the remounts that grooming asked for. -/
def State.enumNoted (s : State) : State :=
  let told := s.newlyLost.foldl (fun (v : State) n => v.noSpareLeft 2 (homePos n)) s.enumerate
  (told.fsu.remounts.filter fun p => p.1 = 2).foldl State.noteSeq told

theorem State.enumEnd_eq (s : State) :
    s.enumEnd = if s.enumNoted.presentList = [] then s.enumNoted.push [.startFail] else s.enumNoted := by
  by_cases lost : s.enumNoted.presentList = []
  · exact (if_pos (decide_eq_true lost)).trans (if_pos lost).symm
  · exact (if_neg (mt of_decide_eq_true lost)).trans (if_neg lost).symm

/-- What the enumeration's records leave. -/
def State.mapping (s : State) : Csq × Tth := (s.csq, s.tth)

section
variable (s : State)

theorem State.mapping_noSpareLeft (kind phys : Nat) : (s.noSpareLeft kind phys).mapping = s.mapping :=
  Prod.ext (s.err_csq _) (s.err_tth _)

theorem State.mapping_noteRemount (kind phys new cause : Nat) : (s.noteRemount kind phys new cause).mapping = s.mapping := by
  simp [State.mapping, State.noteRemount]

theorem State.mapping_farrierNotes (kind phys new cause : Nat) : (s.farrierNotes kind phys new cause).mapping = s.mapping :=
  ite_frame State.mapping (s.mapping_noteRemount kind phys new cause) rfl

theorem State.mapping_noteSeq (p : Nat × Nat × Nat) : (s.noteSeq p).mapping = s.mapping :=
  ite_frame State.mapping rfl ((s.dropRemount p).mapping_farrierNotes _ _ _ _)

theorem State.mapping_enumEnd : s.enumEnd.mapping = s.enumerate.mapping := by
  have noted : s.enumNoted.mapping = s.enumerate.mapping :=
    (foldl_frame State.mapping State.mapping_noteSeq _ _).trans
      (foldl_frame State.mapping (fun v n => v.mapping_noSpareLeft 2 (homePos n)) _ _)
  rw [State.enumEnd_eq]
  exact ite_frame State.mapping noted noted

end

theorem State.enumEnd_posted {s : State} {p role n : Nat} (h : s.enumerate.postedAs p role n) : s.enumEnd.postedAs p role n := by
  obtain ⟨csq, tth⟩ := Prod.mk.inj s.mapping_enumEnd
  have posting : s.enumEnd.posting p = s.enumerate.posting p := by
    rw [State.posting, State.seqr, csq, tth]
    rfl
  exact State.postedAs_congr posting h

section
variable {s : State} {r : Nat} (hr : r < s.env.dev.rows)
include hr

theorem State.enumEnd_home {i : Nat} (hi : i < s.env.dev.rowLen) :
    s.enumEnd.postedAs (homePos (r * s.env.dev.rowLen + i))
      (if s.posFailed (homePos (r * s.env.dev.rowLen + i)) then 2 else 0) (r * s.env.dev.rowLen + i) := by
  have place := homePos_row hr hi
  have len := rowLen_lt s.env.dev
  refine State.enumEnd_posted (State.enumerate_posted hr (by omega) fun v same => ?_)
  have env : v.env = s.env := congrArg Prod.fst same
  rw [← env, ← State.posFailed_congr same]
  refine State.assignRow_home (env ▸ hr) (List.mem_map.2 ⟨i, ?_, rfl⟩)
  rw [List.mem_range, env]
  exact hi

/-- The role of a row's spare, by the row's lowest cluster without a sequencer. -/
def State.spareRole (s : State) (spare : Nat) : Option Nat → Nat
  | some _ => if s.posFailed spare then 2 else 0
  | none => if s.posFailed spare then 2 else 1

theorem State.enumEnd_spare : s.enumEnd.postedAs (s.rowSpare (homePos (r * s.env.dev.rowLen)))
    (s.spareRole (s.rowSpare (homePos (r * s.env.dev.rowLen))) ((s.rowClusters r).find? fun n => s.posFailed (homePos n)))
    (((s.rowClusters r).find? fun n => s.posFailed (homePos n)).getD 0) := by
  have place := State.rowSpare_row hr
  have len := rowLen_lt s.env.dev
  refine State.enumEnd_posted (State.enumerate_posted hr (by omega) fun v same => ?_)
  have env : v.env = s.env := congrArg Prod.fst same
  have spare : v.rowSpare = s.rowSpare := by
    funext p
    rw [State.rowSpare, env]
    rfl
  have clusters : v.rowClusters r = s.rowClusters r := by rw [State.rowClusters, env]; rfl
  have role (p : Nat) (o : Option Nat) : s.spareRole p o = v.spareRole p o := by
    cases o <;> simp only [State.spareRole, State.posFailed_congr same]
  rw [role, ← env, ← spare, ← State.posFailed_congr same, ← clusters]
  cases first : (v.rowClusters r).find? fun n => v.posFailed (homePos n) with
  | none => exact State.assignRow_spare_idle first
  | some n => exact State.assignRow_spare_serves first

/-- An active place serves its cluster (R300). -/
theorem State.enumEnd_home_works {i : Nat} (hi : i < s.env.dev.rowLen)
    (h : s.posFailed (homePos (r * s.env.dev.rowLen + i)) = false) :
    s.enumEnd.postedAs (homePos (r * s.env.dev.rowLen + i)) 0 (r * s.env.dev.rowLen + i) := by
  have posted := State.enumEnd_home hr hi
  rw [if_neg (Bool.eq_false_iff.1 h)] at posted
  exact posted

/-- A failed active place is RETIRED. -/
theorem State.enumEnd_home_failed {i : Nat} (hi : i < s.env.dev.rowLen)
    (h : s.posFailed (homePos (r * s.env.dev.rowLen + i)) = true) :
    s.enumEnd.postedAs (homePos (r * s.env.dev.rowLen + i)) 2 (r * s.env.dev.rowLen + i) := by
  have posted := State.enumEnd_home hr hi
  rw [if_pos h] at posted
  exact posted

/-- A failed spare is RETIRED. -/
theorem State.enumEnd_spare_failed (h : s.posFailed (s.rowSpare (homePos (r * s.env.dev.rowLen))) = true) :
    ∃ n, s.enumEnd.postedAs (s.rowSpare (homePos (r * s.env.dev.rowLen))) 2 n := by
  have posted := State.enumEnd_spare hr
  have role (o : Option Nat) : s.spareRole (s.rowSpare (homePos (r * s.env.dev.rowLen))) o = 2 := by
    cases o <;> exact if_pos h
  rw [role] at posted
  exact ⟨_, posted⟩

section
variable (works : s.posFailed (s.rowSpare (homePos (r * s.env.dev.rowLen))) = false)
include works

/-- Where no cluster of the row lacks a sequencer, its spare is SPARE. -/
theorem State.enumEnd_spare_idle (h : ((s.rowClusters r).find? fun n => s.posFailed (homePos n)) = none) :
    s.enumEnd.postedAs (s.rowSpare (homePos (r * s.env.dev.rowLen))) 1 0 := by
  have posted := State.enumEnd_spare hr
  rw [h, State.spareRole, if_neg (Bool.eq_false_iff.1 works)] at posted
  exact posted

/-- The spare serves the row's lowest cluster that lacks a sequencer. -/
theorem State.enumEnd_spare_serves {n : Nat} (h : ((s.rowClusters r).find? fun n => s.posFailed (homePos n)) = some n) :
    s.enumEnd.postedAs (s.rowSpare (homePos (r * s.env.dev.rowLen))) 0 n := by
  have posted := State.enumEnd_spare hr
  rw [h, State.spareRole, if_neg (Bool.eq_false_iff.1 works)] at posted
  exact posted

end
end

theorem State.enumEnd_enumReq (s : State) : s.enumEnd.tth.enumReq = false := by
  have tth : s.enumEnd.tth = s.enumerate.tth := congrArg Prod.snd s.mapping_enumEnd
  rw [tth]
  rfl

/-- A position with role 0 serves its cluster. -/
theorem State.postedAs.serves {s : State} {p n : Nat} (h : s.postedAs p 0 n) :
    (s.seqr p).valid = true ∧ (s.seqr p).role = 0 ∧ (s.seqr p).cluster = n ∧ AL.get s.tth.roles p = 0 := by
  obtain ⟨valid, role, cluster, map⟩ := h
  exact ⟨valid, role, cluster rfl, map⟩

theorem State.postedAs.holds {s : State} {p role n : Nat} (h : s.postedAs p role n) :
    (s.seqr p).valid = true ∧ (s.seqr p).role = role ∧ AL.get s.tth.roles p = role := by
  obtain ⟨valid, role, -, map⟩ := h
  exact ⟨valid, role, map⟩

/-! ## Enumeration's rows (R299) -/

theorem State.unitsOn_boots {s : State} (h : s.gcs.state = 1) : s.unitsOn = true := by simp [State.unitsOn, h]

theorem State.enumRow_ends {s : State} (boots : s.gcs.state = 1) (sent : s.tth.enumReq = true) :
    s.onUnits State.enumRow = s.enumEnd :=
  (onUnits_on (State.unitsOn_boots boots) _).trans (if_pos ⟨boots, sent⟩)

theorem State.enumRow_sends {s : State} (boots : s.gcs.state = 1) (new : s.tth.enumReq = false) (kind : s.gcs.kind ≠ 3)
    (step : s.gcs.step = 7) (groomed : s.tth.groomReq = false) : s.onUnits State.enumRow =
      State.setStep { s with tth := { s.tth with enumReq := true, enumAt := s.env.now } } 8 :=
  (onUnits_on (State.unitsOn_boots boots) _).trans
    ((if_neg (by simp [new])).trans (if_pos ⟨boots, kind, step, by simp [groomed]⟩))

theorem State.enumRow_idle {s : State} (h : s.gcs.state ≠ 1 ∨
    s.tth.enumReq = false ∧ (s.gcs.kind = 3 ∨ s.gcs.step ≠ 7 ∨ s.tth.groomReq = true)) : s.onUnits State.enumRow = s := by
  have idle : s.enumRow = s := by
    refine (if_neg ?_).trans (if_neg ?_)
    · rintro ⟨boots, sent⟩
      simp [boots, sent] at h
    · rintro ⟨boots, kind, step, groomed⟩
      simp [boots, kind, step] at h
      simp [h] at groomed
  unfold State.onUnits
  split
  · exact idle
  · rfl

theorem State.noAnswer_fails {s : State} {p : Nat} (boots : s.gcs.state = 1) (sent : s.tth.enumReq = true)
    (late : s.tth.enumAt + 20000 ≤ s.env.now) (hp : p < s.env.dev.positions) (new : p ∉ s.tth.noAnswer) :
    s.noAnswer p = { s with tth := { s.tth with noAnswer := s.tth.noAnswer ++ [p] } } :=
  if_pos ⟨boots, sent, late, hp, by simpa using new⟩

theorem State.noAnswer_idle {s : State} (h : s.gcs.state ≠ 1 ∨ s.tth.enumReq = false ∨ s.env.now < s.tth.enumAt + 20000) (p : Nat) :
    s.noAnswer p = s := by
  refine if_neg ?_
  rintro ⟨boots, sent, late, -⟩
  simp [boots, sent, Nat.not_lt.2 late] at h

/-- A worn sequencer that its row's spare replaces is recorded with that spare (R302). -/
theorem State.noteSeq_replaced {s : State} {p : Nat × Nat × Nat} {n : Nat} (runs : s.roleRuns 2 = true)
    (home : s.rowSpare p.2.1 ≠ p.2.1)
    (h : (s.csq.seqrs.find? fun x => x.2.valid && decide (x.2.role = 0) && decide (homePos x.2.cluster = p.2.1)).map Prod.fst = some n) :
    s.noteSeq p = (s.dropRemount p).noteRemount 2 p.2.1 n p.2.2 := by
  simp only [State.noteSeq, home, if_false, h, Option.getD_some]
  exact State.farrierNotes_now _ _ _ _ runs

/-! ## Grooming (R302, R303) -/

/-- The training values of a grooming that no stage fails. -/
def State.groomTraining (s : State) (temp : Int) : Training := { gait := s.gcs.gait, temp := temp, first := s.freeCount }

/-- A grooming that no stage fails. -/
def State.groomed (s : State) (temp : Int) : State :=
  let v : State := { s with
    env := { s.env with temp := temp }
    freeCount := s.freeCount + 3 * s.env.dev.stages
    tth := { s.tth with
      safeCodes := false, groomValid := true, groomGait := s.gcs.gait, groomTemp := temp, groomReq := false,
      train := some (s.groomTraining temp), groomFailed := 0, groomTrained := sat 0xFFFF s.env.dev.stages } }
  v.setTack { v.tack with training := some (s.groomTraining temp) }

section
variable {s : State} {temp : Int}

theorem State.groom_idle (due : s.groomDue = false) (h : s.roleRuns 2 = false ∨ s.up = false ∧ s.tth.groomReq = false) :
    s.groom temp [] = { s with env := { s.env with temp := temp } } := by
  have later : ¬ ((s.up || s.tth.groomReq) && s.roleRuns 2) = true := by
    obtain stopped | ⟨down, none⟩ := h
    · simp [stopped]
    · simp [down, none]
  refine if_pos ⟨?_, ?_⟩
  · rw [Bool.not_eq_true']
    exact due
  · rw [Bool.not_eq_true', ← Bool.not_eq_true]
    exact later

theorem State.groom_now (h : s.groomDue = true ∨ (s.up = true ∨ s.tth.groomReq = true) ∧ s.roleRuns 2 = true)
    (none : s.fsu.remounts = []) (stores : s.groomDue = true → s.storesMissing = false) : s.groom temp [] = s.groomed temp := by
  have asked : ¬ ((!s.groomDue) = true ∧ (!((s.up || s.tth.groomReq) && s.roleRuns 2)) = true) := by
    rintro ⟨notDue, notAsked⟩
    rcases h with due | ⟨on, runs⟩
    · simp [due] at notDue
    · have asks : ((s.up || s.tth.groomReq) && s.roleRuns 2) = true := by simpa [runs] using on
      simp [asks] at notAsked
  have still : (s.groomed temp).remountAll = s.groomed temp := by
    have remounts : (s.groomed temp).fsu.remounts = [] := none
    rw [State.remountAll, remounts]
    rfl
  refine (if_neg asked).trans ?_
  by_cases due : s.groomDue = true
  · refine (if_pos due).trans ?_
    change (s.groomed temp).remountAll.failsIf (s.groomed temp).remountAll.storesMissing = s.groomed temp
    have usable : (s.groomed temp).storesMissing = false := stores due
    rw [still, usable]
    rfl
  · exact if_neg due

end

/-- Settles O27: enumeration by its presentations, each row's positions by which of them have failed, and grooming by whether one is
due. -/
theorem tetherAndGrooming : Obligations.TetherAndGrooming := by
  unfold Obligations.TetherAndGrooming
  intro s
  refine ⟨fun boots new kind step groomed => leads_eq rfl (State.enumRow_sends boots new kind step groomed),
    fun boots sent => leads_eq rfl (State.enumRow_ends boots sent), fun idle => leads_eq rfl (State.enumRow_idle idle),
    fun boots sent late p hp new => leads_eq rfl (State.noAnswer_fails boots sent late hp new),
    fun idle p => leads_eq rfl (State.noAnswer_idle idle p), ?roles, ?grooming⟩
  case roles =>
    intro d e bad lost gone told noted replaced
    refine ⟨fun p n runs ⟨home, found⟩ => State.noteSeq_replaced runs home found, s.enumEnd_eq, ?_⟩
    intro serves is
    refine ⟨?places, ?spares, ?ended⟩
    case places =>
      intro r i hr hi n
      exact ⟨fun works => (State.enumEnd_home_works hr hi works).serves, fun failed => (State.enumEnd_home_failed hr hi failed).holds⟩
    case spares =>
      intro r hr row spare
      refine ⟨fun failed => ?_, fun works idle => (State.enumEnd_spare_idle hr works idle).holds,
        fun n works first => (State.enumEnd_spare_serves hr works first).serves⟩
      obtain ⟨n, posted⟩ := State.enumEnd_spare_failed hr failed
      exact posted.holds
    case ended => exact s.enumEnd_enumReq
  case grooming =>
    intro temp m
    refine ⟨fun due h => leads_eq rfl (State.groom_idle due h), fun h hw none stores => ?_⟩
    have done : s.groom temp [] = s.groomed temp := State.groom_now h none stores
    have trains : (s.groomed temp).tack.training = some (s.groomTraining temp) := by
      rw [State.groomed, State.tack_setTack]
    have count : (s.groomed temp).tth.groomTrained = min s.env.dev.stages 0xFFFF := by
      change sat 0xFFFF s.env.dev.stages = _
      rw [sat, Nat.min_comm]
    exact ⟨s.groomed temp, exec_next rfl done hw, rfl, rfl, rfl, rfl, rfl, rfl, count, rfl, rfl, trains, rfl, rfl, none⟩

end Sys2Proof.Machine

namespace Sys2Proof.Machine

/-! ## Steps 1 to 6 of a start (R298, Tables 13.4, 13.6) -/

/-- Steps 1 and 2: the block boots, and asks for an address where the bus has run ENTDAA (R310). -/
def State.startBegun (s : State) (kind : Nat) : State :=
  State.hotJoin { s with gcs := { s.gcs with state := 1, kind := kind, step := 1 }, fsu := { s.fsu with nextSeq := s.nextSbSeq } }

/-- Step 3 begins: the tack store is read, and its loss has a CONFIG record (R305). -/
def State.startRead (s : State) (kind : Nat) : State :=
  (if (s.startBegun kind).tack? = none then (s.startBegun kind).stage 0x07 [1, 0, 0, 0] else s.startBegun kind).setStep 3

/-- The policy's reset choice is in force, and the start is counted (R295, R306). -/
def State.startCounted (s : State) (kind : Nat) : State :=
  let v := s.startRead kind
  let k := v.tack
  State.setTack { v with fwc := { v.fwc with resetCold := bit (AL.get k.policy 479) 0 } }
    (if decide (kind = 3) then { k with warm := (k.warm + 1) % 2 ^ 32 } else { k with cold := (k.cold + 1) % 2 ^ 32 })

/-- Steps 4 to 6 with an accepted image, on a device with `n` firmware cores: they run, the start watchdog is armed, and a cold start
applies the repair map. -/
def State.startArmed (s : State) (warm : Bool) (n : Nat) : State :=
  let v := if warm then s else { s.startCores with fwc := { s.startCores.fwc with group := s.startCores.tack.group } }
  let served := (List.range n).foldl State.pet v
  let armed := State.setStep { served with fwc := { served.fwc with watchdog := some served.env.now } } 6
  if warm then armed else armed.applyRepair

/-- Step 7 begins, or the start fails at step 6. -/
def State.startGrooms (s : State) : State := if s.storesMissing then s.push [.startFail] else s.groomStart

theorem State.fwDrop_flash (s : State) (k : Nat) : (s.fwDrop k).flash = s.flash := by
  unfold State.fwDrop
  split <;> rfl

theorem State.retireFwCore_flash (s : State) (k : Nat) : (s.retireFwCore k).flash = s.flash := by
  refine ite_frame State.flash rfl ?_
  split
  · rfl
  · exact ite_frame State.flash rfl (s.fwDrop_flash k)

/-- The firmware cores start without a write to the tack store. -/
theorem State.startCores_tack (s : State) : s.startCores.tack = s.tack := by
  have kept := foldl_frame State.flash (f := fun s (p : Nat × Nat) => s.retireFwCore p.2) fun v p => v.retireFwCore_flash p.2
  refine State.tack_congr ?_
  unfold State.startCores
  dsimp only
  rw [kept]

section
variable {s : State} {kind : Nat}

theorem State.startSteps_unreadable (h : s.env.sfdpOk = false) : s.startSteps kind = (s.startBegun kind).safeMode :=
  if_pos (by rw [h]; rfl)

theorem State.startSteps_eq (h : s.env.sfdpOk = true) : s.startSteps kind =
    match (s.startCounted kind).bootImage (decide (kind = 3)) 7 with
    | (false, v) => v
    | (true, v) => (v.startArmed (decide (kind = 3)) s.env.dev.fwCores).startGrooms := by
  have read : State.setStep (match (s.startBegun kind).tack? with
      | some _ => s.startBegun kind
      | none => (s.startBegun kind).stage 0x07 [1, 0, 0, 0]) 3 = s.startRead kind := by
    unfold State.startRead
    cases (s.startBegun kind).tack? <;> rfl
  unfold State.startSteps
  dsimp only
  rw [if_neg (by simp [h])]
  unfold State.startCounted
  rw [← read]
  unfold State.startArmed
  simp only [State.startCores_tack]
  rfl

theorem State.startSteps_refused (h : s.env.sfdpOk = true) {v : State}
    (boot : (s.startCounted kind).bootImage (decide (kind = 3)) 7 = (false, v)) : s.startSteps kind = v := by
  rw [State.startSteps_eq h, boot]

theorem State.startSteps_accepted (h : s.env.sfdpOk = true) {v : State}
    (boot : (s.startCounted kind).bootImage (decide (kind = 3)) 7 = (true, v)) :
    s.startSteps kind = (v.startArmed (decide (kind = 3)) s.env.dev.fwCores).startGrooms := by
  rw [State.startSteps_eq h, boot]

end

section
variable {s : State}

theorem State.startGrooms_fails (h : s.storesMissing = true) : s.startGrooms = s.push [.startFail] := if_pos h

theorem State.startGrooms_kept (h : s.storesMissing = false) (warm : s.gcs.kind = 3) (kept : s.groomKept = true) : s.startGrooms = s :=
  (if_neg (Bool.eq_false_iff.1 h)).trans (if_pos ⟨warm, kept⟩)

theorem State.startGrooms_due (h : s.storesMissing = false) (due : s.gcs.kind ≠ 3 ∨ s.groomKept = false) :
    s.startGrooms = { s with gcs := { s.gcs with step := 7 }, tth := { s.tth with groomReq := true } } := by
  refine (if_neg (Bool.eq_false_iff.1 h)).trans (if_neg ?_)
  rintro ⟨warm, kept⟩
  simp [warm, kept] at due

/-! ## The choice of an image (R306, R308) -/

theorem Tack.choose_preferred {k : Tack} (h : k.fails k.prefB < 3) : k.choose = some k.prefB := if_pos h

theorem Tack.choose_other {k : Tack} (h : 3 ≤ k.fails k.prefB) (other : k.fails (!k.prefB) < 3) : k.choose = some (!k.prefB) :=
  (if_neg (Nat.not_lt.2 h)).trans (if_pos other)

theorem Tack.choose_none {k : Tack} (h : 3 ≤ k.fails k.prefB) (other : 3 ≤ k.fails (!k.prefB)) : k.choose = none :=
  (if_neg (Nat.not_lt.2 h)).trans (if_neg (Nat.not_lt.2 other))

/-- The attempt on image `b` is counted (R306). -/
def State.imageTried (s : State) (b : Bool) : State := s.setTack (s.tack.setFails b (s.tack.fails b + 1))

/-- A warm start finds the image that the retained digest is of, and takes it as it is (R306). -/
def State.imageSame (s : State) (warm : Bool) (b : Bool) : Prop :=
  warm = true ∧ (s.imageTried b).fwc.digest = some (s.imageSlot b).digest ∧ (s.imageTried b).fwc.sramOk = true

section
variable {warm : Bool} (n : Nat)

theorem State.bootImage_none (h : s.tack.choose = none) : s.bootImage warm (n + 1) = (false, s.safeMode) := by
  rw [State.bootImage, h]

variable {b : Bool} (h : s.tack.choose = some b)
include h

theorem State.bootImage_same (same : s.imageSame warm b) : s.bootImage warm (n + 1) = (true, (s.imageTried b).noteImage b) := by
  obtain ⟨isWarm, digest, ok⟩ := same
  rw [State.bootImage, h]
  rw [State.imageTried, State.setTack_fwc] at digest ok
  exact if_pos (by simp [isWarm, digest, ok])

section
variable (other : ¬ s.imageSame warm b)
include other

omit h in
theorem State.imageTried_other : ¬ (warm && decide ((s.imageTried b).fwc.digest = some (s.imageSlot b).digest) &&
    (s.imageTried b).fwc.sramOk) = true := by
  intro same
  simp only [Bool.and_eq_true, decide_eq_true_eq] at same
  obtain ⟨⟨isWarm, digest⟩, ok⟩ := same
  exact other ⟨isWarm, digest, ok⟩

theorem State.bootImage_passes (passes : (s.imageTried b).imageFail? (s.imageSlot b) = none) : s.bootImage warm (n + 1) =
    (true, State.noteImage { s.imageTried b with
      fwc := { (s.imageTried b).fwc with digest := some (s.imageSlot b).digest, sramOk := true } } b) := by
  rw [State.bootImage, h]
  refine (if_neg (State.imageTried_other other)).trans ?_
  change (match (s.imageTried b).imageFail? (s.imageSlot b) with | none => _ | some _ => _) = _
  rw [passes]
  rfl

/-- An image that fails a check counts as failed three times, and the choice is made again. -/
theorem State.bootImage_fails {k : Nat} (fails : (s.imageTried b).imageFail? (s.imageSlot b) = some k) : s.bootImage warm (n + 1) =
    (((s.imageTried b).imageBad b k (s.imageSlot b)).setTack ((s.imageTried b).tack.setFails b 3)).bootImage warm n := by
  rw [State.bootImage, h]
  refine (if_neg (State.imageTried_other other)).trans ?_
  change (match (s.imageTried b).imageFail? (s.imageSlot b) with | none => _ | some _ => _) = _
  rw [fails]
  rfl

end
end

/-! ## The repair map (R334, Table 13.4 step 6) -/

theorem State.repairUnit_spare {p : Nat × Nat} (new : Bool) (h : s.logicalOf p.1 p.2 = none) :
    s.repairUnit new p = if s.freeSpare p.1 p.2 then s.retireSpare p.1 p.2 else s := by
  simp only [State.repairUnit, h]

section
variable {p : Nat × Nat} {l : Nat} (new : Bool) (h : s.logicalOf p.1 p.2 = some l)
include h

theorem State.repairUnit_moves {k : Nat} (spare : s.spareFor p.1 p.2 = some k) :
    let v := ((s.moveUnit p.1 l p.2 k).useSpare p.1).markRetired p.1 p.2
    s.repairUnit new p = { v with fsu := { v.fsu with remounted := true } } := by
  simp only [State.repairUnit, h, spare]

theorem State.repairUnit_loses (spare : s.spareFor p.1 p.2 = none) :
    let v := (s.loseUnit p.1 l p.2).markRetired p.1 p.2
    s.repairUnit new p = if new then v.noSpareLeft p.1 p.2 else v := by
  simp only [State.repairUnit, h, spare]

end

/-- The units that the repair map retires at step 6. -/
def State.repaired (s : State) : State := (s.tack.repair.filter fun p => p.1 ≠ 2 && p.1 ≠ 6).foldl (State.repairUnit false) s

theorem State.applyRepair_eq (s : State) : s.applyRepair = s.findings.foldl (State.repairUnit true) s.repaired.mergeFindings := rfl

theorem State.applyRepair_sound (h : s.findings = []) : s.applyRepair = s.repaired.mergeFindings := by
  rw [State.applyRepair_eq, h]
  rfl

end

end Sys2Proof.Machine

namespace Sys2Proof.Machine

/-! ## What reports leave of a start (R307, R344) -/

/-- What records and interrupts leave: `GCS_STATUS`, REPLACE, the remounts and worn stages that wait, the images and the reserve. -/
def State.reported (s : State) : (Nat × Nat × Bool) × (List (Nat × Nat × Nat) × List (Wear × Bool)) ×
    Image × Image × List (List Word) :=
  ((s.gcs.state, s.gcs.step, s.fsu.replace), (s.fsu.remounts, s.fsu.heldWear), s.flash.imgA, s.flash.imgB, s.flash.reserve)

section
variable (s : State)

theorem State.reported_irq (i : Nat) : (s.irq i).reported = s.reported := by
  unfold State.irq
  exact ite_frame State.reported rfl (ite_frame State.reported rfl rfl)

theorem State.reported_ibi (c : Nat) : (s.ibi c).reported = s.reported := by
  simp only [State.reported, State.ibi_gcs, State.ibi_fsu, State.ibi_flash]

theorem State.reported_healthNew (i : Nat) : (s.healthNew i).reported = s.reported :=
  ite_frame State.reported rfl (State.reported_irq _ _)

theorem State.reported_stageRaw (w : Nat) (l : List Word) : (s.stageRaw w l).reported = s.reported :=
  ite_frame State.reported rfl rfl

theorem State.reported_stage (type : Nat) (l : List Word) : (s.stage type l).reported = s.reported := s.reported_stageRaw _ l

theorem State.reported_stageErr (e : Err) (l : List Word) : (s.stageErr e l).reported = s.reported :=
  ite_frame State.reported (State.reported_stageRaw _ _ _)
    (ite_frame State.reported rfl (State.reported_stageRaw _ _ _))

theorem State.reported_errRing (l : List Word) : (s.errRing l).reported = s.reported := by
  have written (host : Bool) (a : Nat) : (s.wrWords host a l).reported = s.reported := by simp [State.reported]
  refine ite_frame State.reported rfl (ite_frame State.reported (State.reported_healthNew _ _) ?_)
  refine ite_frame State.reported ?_ (written _ _)
  exact (State.reported_ibi _ _).trans ((State.reported_irq _ _).trans (written _ _))

theorem State.reported_err (e : Err) : (s.err e).reported = s.reported := by
  have staged (u : State) (l : List Word) : ((u.errRing l).stageErr e l).reported = u.reported :=
    (State.reported_stageErr _ _ _).trans (State.reported_errRing _ _)
  have raised (u : State) (l : List Word) :
      (if 2 ≤ e.cls then ((u.errRing l).stageErr e l).irq 0 else (u.errRing l).stageErr e l).reported = u.reported :=
    ite_frame State.reported ((State.reported_irq _ _).trans (staged u l)) (staged u l)
  exact ite_frame State.reported (raised _ _) (raised _ _)

theorem State.reported_ibiRelease : s.ibiRelease.reported = s.reported := by
  simp only [State.reported, State.ibiRelease_gcs, State.ibiRelease_fsu, State.ibiRelease_flash]

theorem State.reported_setTack (x : Tack) : (s.setTack x).reported = s.reported := by
  unfold State.setTack State.reported
  dsimp only
  congr 3
  · exact (apply_ite Flash.imgA _ _ _).trans (ite_self _)
  · congr 1
    · exact (apply_ite Flash.imgB _ _ _).trans (ite_self _)
    · exact (apply_ite Flash.reserve _ _ _).trans (ite_self _)

/-- The health registers brought up to date, before anything is announced (R344). -/
def State.healthSet (force : Bool) : State := { s with
  fsu := { s.fsu with
    state := s.healthState, exhausted := s.exhaustedBits
    replace := s.fsu.replace || force || decide (s.healthState = 2) || decide (s.healthState = 3) }
  gcs := if s.gcs.state = 2 ∧ s.healthState = 2 then { s.gcs with state := 3 } else s.gcs }

theorem State.reported_health (force : Bool) : (s.health force).reported = (s.healthSet force).reported := by
  unfold State.health
  dsimp only
  repeat' first
    | with_reducible apply ite_frame
    | with_reducible refine (State.reported_ibi _ _).trans ?_
    | with_reducible refine (State.reported_stage _ _ _).trans ?_
    | with_reducible refine (State.reported_healthNew _ _).trans ?_
  all_goals rfl

end

/-! ## Safe mode (R311) -/

theorem State.safeMode_reported (s : State) : s.safeMode.gcs.state = 4 ∧ s.safeMode.fsu.replace = true := by
  let v : State := { s with gcs := { s.gcs with state := 4 } }
  have told : s.safeMode.reported = (v.healthSet false).reported :=
    (State.reported_ibi _ _).trans ((State.reported_ibi _ _).trans (v.reported_health false))
  have worst : v.healthState = 3 := if_pos rfl
  simp only [State.reported, State.healthSet, worst, Prod.mk.injEq] at told
  obtain ⟨⟨state, _, replace⟩, _⟩ := told
  exact ⟨state.trans (by simp [v]), replace.trans (by simp)⟩

/-! ## What the announcements of a start leave (R307, R344) -/

/-- How far a start has come: whether the block runs, its step, the start watchdog, and whether the mapping is frozen. -/
def State.standing (s : State) : (Bool × Nat) × Option Nat × Bool := ((s.up, s.gcs.step), s.fwc.watchdog, s.fwc.frozen)

/-- What a start hands on: the waiting remounts and worn stages, the flash, the units with their work, and the cores. -/
def State.handed (s : State) : (List (Nat × Nat × Nat) × List (Wear × Bool)) × (Image × Image × List (List Word)) ×
    (Cfe × Gd × Ctu × Car × Rly) × List Work × List (Nat × Nat) :=
  ((s.fsu.remounts, s.fsu.heldWear), (s.flash.imgA, s.flash.imgB, s.flash.reserve), (s.cfe, s.gd, s.ctu, s.car, s.rly),
    s.work, s.fwc.cores)

/-- What the end of a start has set up and its announcements leave. -/
def State.announced (s : State) : ((Bool × Nat) × Option Nat × Bool) ×
    (List (Nat × Nat × Nat) × List (Wear × Bool)) × (Image × Image × List (List Word)) ×
    (Cfe × Gd × Ctu × Car × Rly) × List Work × List (Nat × Nat) :=
  (s.standing, s.handed)

/-- What a record does not reach. -/
def State.beyondReports (s : State) : Cfe × Gd × Ctu × Car × Rly × List Work × Fwc :=
  (s.cfe, s.gd, s.ctu, s.car, s.rly, s.work, s.fwc)

theorem State.announced_congr {s v : State} (reported : v.reported = s.reported) (beyond : v.beyondReports = s.beyondReports) :
    v.announced = s.announced := by
  simp only [State.reported, State.beyondReports, Prod.mk.injEq] at reported beyond
  obtain ⟨⟨state, step, -⟩, ⟨remounts, heldWear⟩, imgA, imgB, reserve⟩ := reported
  obtain ⟨cfe, gd, ctu, car, rly, work, fwc⟩ := beyond
  simp only [State.announced, State.standing, State.handed, State.up, state, step, remounts, heldWear, imgA, imgB, reserve,
    cfe, gd, ctu, car, rly, work, fwc]

section
variable (s : State)

theorem State.announced_irq (i : Nat) : (s.irq i).announced = s.announced :=
  State.announced_congr (s.reported_irq i) (by simp [State.beyondReports])

theorem State.announced_ibi (c : Nat) : (s.ibi c).announced = s.announced :=
  State.announced_congr (s.reported_ibi c) (by simp [State.beyondReports])

theorem State.announced_ibiRelease : s.ibiRelease.announced = s.announced :=
  State.announced_congr s.reported_ibiRelease (by simp [State.beyondReports])

theorem State.announced_stage (type : Nat) (l : List Word) : (s.stage type l).announced = s.announced :=
  State.announced_congr (s.reported_stage type l) (by simp [State.beyondReports])

theorem State.announced_setTack (x : Tack) : (s.setTack x).announced = s.announced :=
  State.announced_congr (s.reported_setTack x) (by simp [State.beyondReports])

theorem State.announced_err (e : Err) (h : e.cls ≠ 3) : (s.err e).announced = s.announced :=
  State.announced_congr (s.reported_err e) (by simp [State.beyondReports, s.err_work e h])

theorem State.announced_healthSet (force : Bool) : (s.healthSet force).announced = s.announced := by
  by_cases worse : s.gcs.state = 2 ∧ s.healthState = 2
  · simp [State.announced, State.standing, State.handed, State.healthSet, State.up, worse]
  · simp [State.announced, State.standing, State.handed, State.healthSet, State.up, worse]

theorem State.announced_health (force : Bool) : (s.health force).announced = s.announced :=
  (State.announced_congr (s.reported_health force) (by simp [State.beyondReports, State.healthSet])).trans (s.announced_healthSet force)

theorem State.announced_noteRemount (kind phys new cause : Nat) : (s.noteRemount kind phys new cause).announced = s.announced :=
  (State.announced_health _ _).trans ((State.announced_stage _ _ _).trans (s.announced_setTack _))

theorem State.announced_raiseFloor : s.raiseFloor.announced = s.announced := by
  unfold State.raiseFloor
  dsimp only
  split <;> rfl

theorem State.announced_sbRetire (i p : Nat) : (s.sbRetire i p).announced = s.announced := by
  unfold State.sbRetire
  dsimp only
  refine (State.announced_health _ _).trans ((State.announced_stage _ _ _).trans ((State.announced_setTack _ _).trans ?_))
  split
  · rfl
  · exact State.announced_err _ _ (by simp)

theorem State.announced_sbWrite (x : List Word) : (s.sbWrite x).announced = s.announced :=
  s.sbReady_frame State.announced State.announced_sbRetire 2048

theorem State.announced_emptyReserve :
    s.emptyReserve.announced = State.announced { s with flash := { s.flash with reserve := [] } } :=
  foldl_frame State.announced State.announced_sbWrite _ _

/-- The remounts made while role 2 restarted, recorded (R343). -/
def State.remountsNoted : State :=
  s.fsu.unrecorded.foldl (fun (s : State) (p : Nat × Nat × Nat × Nat) => s.noteRemount p.1 p.2.1 p.2.2.1 p.2.2.2)
    { s with fsu := { s.fsu with unrecorded := [] } }

theorem State.announced_remountsNoted : s.remountsNoted.announced = s.announced :=
  foldl_frame State.announced (fun v _ => v.announced_noteRemount _ _ _ _) _ _

/-- The worn stages that wait for role 2, taken up (Table 14.4). -/
def State.wearTakenUp : State :=
  s.fsu.heldWear.foldl (fun (s : State) (x : Wear × Bool) => s.wearAct x.1 x.2) { s with fsu := { s.fsu with heldWear := [] } }

theorem State.wearTakenUp_none (h : s.fsu.heldWear = []) : s.wearTakenUp = s := by
  rw [State.wearTakenUp, h, List.foldl_nil, ← h]

theorem State.wearResume_eq :
    s.wearResume = (s.remountsNoted.fsu.remounts.foldl State.chooseSpare s.remountsNoted).wearTakenUp := rfl

theorem State.waits_congr {v : State} (h : v.announced = s.announced) (remounts : s.fsu.remounts = []) (worn : s.fsu.heldWear = []) :
    v.fsu.remounts = [] ∧ v.fsu.heldWear = [] := by
  have waits : (v.fsu.remounts, v.fsu.heldWear) = (s.fsu.remounts, s.fsu.heldWear) := congrArg (fun x => x.2.1) h
  rwa [remounts, worn, Prod.mk.injEq] at waits

/-- With no remount and no worn stage that waits, role 2 only records the remounts that were made while it restarted. -/
theorem State.announced_wearResume (remounts : s.fsu.remounts = []) (worn : s.fsu.heldWear = []) :
    s.wearResume.announced = s.announced := by
  obtain ⟨remounts, worn⟩ := s.waits_congr s.announced_remountsNoted remounts worn
  rw [s.wearResume_eq, remounts, List.foldl_nil, State.wearTakenUp_none _ worn]
  exact s.announced_remountsNoted

end

end Sys2Proof.Machine

namespace Sys2Proof.Machine

/-! ## Step 10 clears the queues (R297) -/

theorem mem_of_get? {κ α : Type} [DecidableEq κ] {k : κ} {x : α} {m : List (κ × α)} (h : AL.get? k m = some x) : (k, x) ∈ m := by
  obtain ⟨a, b, split, -⟩ := AL.get?_split h
  simp [split]

section
variable (s : State) (q : Nat)

/-- Taking a slot back leaves a disabled queue disabled. -/
theorem State.release_disabled {n : Nat} (h : (s.queue q).st = .disabled) : ((s.release n .disabled).queue q).st = .disabled := by
  refine ite_frame (fun v : State => (v.queue q).st) ?_ h
  by_cases holder : q = (s.slot n).queue
  · rw [holder, State.updQueue, State.queue_setQueue_self]
  · rw [State.updQueue, State.queue_setQueue_ne _ holder]
    exact h

theorem State.unslot_self (st : QState) : ((s.unslot q st).queue q).st = st := by
  rw [State.unslot, State.updQueue, State.queue_setQueue_self]

theorem State.unslot_disabled {p : Nat} (h : (s.queue p).st = .disabled) : ((s.unslot q .disabled).queue p).st = .disabled := by
  by_cases same : p = q
  · rw [same, State.unslot_self]
  · rw [State.unslot, State.updQueue, State.queue_setQueue_ne _ same]
    split
    · exact ite_frame (fun v : State => (v.queue p).st) (by rw [State.queue_slotState, h]) (s.release_disabled p h)
    · exact h

/-- Queues are kept in the command front end. -/
theorem State.unslot_beyond (st : QState) : ∃ c, s.unslot q st = { s with cfe := c } := by
  unfold State.unslot
  dsimp only
  split
  · split
    · unfold State.slotState
      split <;> exact ⟨_, rfl⟩
    · unfold State.release
      dsimp only
      split <;> exact ⟨_, rfl⟩
  · exact ⟨_, rfl⟩

theorem State.unslots_disabled {l : List (Nat × Queue)} (h : (s.queue q).st = .disabled ∨ q ∈ l.map Prod.fst) :
    ((l.foldl (fun (s : State) (p : Nat × Queue) => s.unslot p.1 .disabled) s).queue q).st = .disabled := by
  induction l generalizing s with
  | nil => exact h.resolve_right (by simp)
  | cons p r ih =>
    refine ih _ ?_
    rw [List.map_cons, List.mem_cons] at h
    obtain off | rfl | later := h
    · exact .inl (s.unslot_disabled _ off)
    · exact .inl (s.unslot_self _ _)
    · exact .inr later

theorem State.clearQueues_disabled : (s.clearQueues.queue q).st = .disabled := by
  refine s.unslots_disabled q ?_
  by_cases off : (s.queue q).st = .disabled
  · exact .inl off
  · refine .inr (List.mem_map.2 ⟨(q, s.queue q), List.mem_filter.2 ⟨?_, decide_eq_true off⟩, rfl⟩)
    cases held : AL.get? q s.cfe.queues with
    | none => exact absurd (by rw [State.queue, AL.get, held]; rfl) off
    | some x =>
      rw [State.queue, AL.get, held]
      exact mem_of_get? held

end

/-! ## Steps 9 and 10 of a start -/

/-- What step 10 takes over: the queues, the waiting remounts and worn stages, the images, the work and the cores. -/
def State.brought (s : State) : Cfe × (List (Nat × Nat × Nat) × List (Wear × Bool)) × (Image × Image) × List Work ×
    List (Nat × Nat) :=
  (s.cfe, (s.fsu.remounts, s.fsu.heldWear), (s.flash.imgA, s.flash.imgB), s.work, s.fwc.cores)

section
variable (s : State)

theorem State.brought_congr {v : State} (h : v.announced = s.announced) : v.brought = s.brought := by
  simp only [State.announced, State.handed, Prod.mk.injEq] at h
  obtain ⟨-, ⟨remounts, worn⟩, ⟨imgA, imgB, -⟩, ⟨cfe, -⟩, work, cores⟩ := h
  rw [State.brought, remounts, worn, imgA, imgB, cfe, work, cores]
  rfl

theorem State.cfe_congr {v : State} (h : v.brought = s.brought) : v.cfe = s.cfe := congrArg Prod.fst h

theorem State.brought_formHerd : s.formHerd.brought = s.brought :=
  ite_frame State.brought rfl (ite_frame State.brought rfl (ite_frame State.brought rfl
    (State.brought_congr { s with i3c := { s.i3c with daNoted := true } } (State.announced_stage _ _ _))))

theorem State.brought_clearQueues : s.clearQueues.brought.2 = s.brought.2 :=
  foldl_frame (fun v : State => v.brought.2) (fun v p => by
    obtain ⟨c, cleared⟩ := v.unslot_beyond p.1 .disabled
    rw [cleared]
    rfl) _ _

theorem State.brought_advanceMarks : s.advanceMarks.brought = s.brought :=
  State.brought_congr s (s.announced_setTack { s.tack with markBase := (s.tack.markBase + 256) % 2 ^ 16 })

theorem State.brought_policy {g : State → Word → State} (h : ∀ s v, (g s v).brought = s.brought) (i : Nat) :
    (s.policy i g).brought = s.brought := by
  unfold State.policy
  split
  · exact h _ _
  · rfl

/-- The register values of the policy, loaded. -/
def State.policyHeld : State :=
  ((((((((((s.policy 0 State.setSpillBase).policy 1 State.setQuantum).policy 2 State.setBudgetMax).policy 3 State.setGdCtl).policy 4
    State.setSpecCtl).policy 5 State.setRlySpill).policy 6 State.setRlyLevel).policy 7
    fun s v => s.geList.foldl (fun s g => s.setTrapEn g v) s).policy 8
    fun s v => { s with gcs := { s.gcs with stuckMs := bits v 15 0 } }).policy 9
    fun s v => { s with fsu := { s.fsu with wearLimit := bits v 7 0 } }).policy 479
    fun s v => { s with fwc := { s.fwc with resetCold := bit v 0 } }

/-- Every Gating Engine in service, enabled. -/
def State.enginesOn : State := s.geList.foldl (fun s g => s.setGe g { s.ge g with en := true }) s

/-- The enable bits of the units, set. -/
def State.enabled : State := { s with
  gd := { s.gd with run := true }
  ctu := { s.ctu with run := true, trailEn := s.gcs.herdValid }
  car := { s.car with en := true }
  rly := { s.rly with en := true } }

theorem State.loadPolicy_eq : s.loadPolicy = s.policyHeld.enginesOn.enabled := by
  unfold State.loadPolicy State.enabled State.enginesOn State.policyHeld
  with_reducible rfl

theorem State.brought_policyHeld : s.policyHeld.brought = s.brought := by
  have traps (s : State) (v : Word) : (s.geList.foldl (fun s g => s.setTrapEn g v) s).brought = s.brought :=
    foldl_frame State.brought (f := fun s g => s.setTrapEn g v) (fun _ _ => rfl) _ _
  unfold State.policyHeld
  iterate 3 rw [State.brought_policy]
  rw [State.brought_policy _ traps]
  iterate 7 rw [State.brought_policy]
  all_goals exact fun _ _ => rfl

theorem State.brought_enginesOn : s.enginesOn.brought = s.brought :=
  foldl_frame State.brought (f := fun s g => s.setGe g { s.ge g with en := true }) (fun _ _ => rfl) _ _

theorem State.brought_enabled : s.enabled.brought = s.brought := rfl

theorem State.brought_loadPolicy : s.loadPolicy.brought = s.brought := by
  rw [State.loadPolicy_eq, State.brought_enabled, State.brought_enginesOn, State.brought_policyHeld]

end

end Sys2Proof.Machine

namespace Sys2Proof.Machine

/-! ## A start that is ready (R307) -/

/-- The state at the end of a start's step 10, in which the reserve is to be moved into the ring. -/
def State.startLoaded (s : State) : State := s.formHerd.clearQueues.advanceMarks.loadPolicy

/-- The block runs: the attempt no longer counts as failed, and the start watchdog is disarmed (R306, R307). -/
def State.startedUp (s : State) : State :=
  let u := s.setTack (s.tack.ended s.gcs.image)
  { u with
    gcs := { u.gcs with state := if u.fsu.lostUnits ≠ [] ∨ u.fsu.kept ≠ [] then 3 else 2, step := 11 }
    fwc := { u.fwc with watchdog := none, frozen := u.fwc.cores.any fun p => p.2 = 2, handover := false } }

/-- Health, and the BOOT record of a start's end. -/
def State.startTold (s : State) : State :=
  let u := s.health
  u.stage 0x02 [u.statusReg, u.imageVer, u.spareMap, u.groomReg]

/-- The start's end interrupts, role 2 goes on where it runs, a degraded block interrupts, and the floor rises (R307, R309, R344). -/
def State.startReleased (s : State) : State :=
  let u := if s.roleRuns 2 then (s.irq 3).wearResume else s.irq 3
  (if u.gcs.state = 3 then u.ibi 2 else u).raiseFloor.ibiRelease

section
variable (s : State)

/-- The state in which a start's last steps begin: an enumeration still under way ends first. -/
def State.enumDone : State := if s.tth.enumReq then s.enumEnd else s

theorem State.startEnd_eq (ready : s.startReady = true) : s.startEnd =
    if s.enumDone.startFails then s.enumDone.startFailed
    else s.enumDone.startLoaded.emptyReserve.startedUp.startTold.startReleased := by
  have done : (if s.startReady && s.tth.enumReq then s.enumEnd else s) = s.enumDone := by
    rw [ready, Bool.true_and]
    rfl
  unfold State.startEnd State.startReleased State.startTold State.startedUp State.startLoaded
  rw [done, ready]
  refine (if_neg (by decide)).trans ?_
  with_reducible rfl

/-! ## What the end of a start hands on -/

/-- The mapping is frozen while a core restarts (Table 14.3). -/
def State.coreRestarts : Bool := s.fwc.cores.any fun p => decide (p.2 = 2)

theorem State.standing_startedUp : s.startedUp.standing = ((true, 11), none, s.coreRestarts) := by
  have runs : s.startedUp.up = true := by
    unfold State.startedUp State.up
    dsimp only
    split <;> decide
  have cores : s.startedUp.fwc.frozen = s.coreRestarts := by
    rw [State.coreRestarts, ← s.setTack_fwc (s.tack.ended s.gcs.image)]
    rfl
  rw [State.standing, runs, cores]
  rfl

theorem State.handed_startedUp : s.startedUp.handed = s.handed :=
  congrArg Prod.snd (s.announced_setTack (s.tack.ended s.gcs.image))

theorem State.announced_startTold : s.startTold.announced = s.announced :=
  (State.announced_stage _ _ _).trans (s.announced_health false)

theorem State.announced_startReleased (remounts : s.fsu.remounts = []) (worn : s.fsu.heldWear = []) :
    s.startReleased.announced = s.announced := by
  obtain ⟨remounts, worn⟩ := s.waits_congr (s.announced_irq 3) remounts worn
  unfold State.startReleased
  dsimp only
  refine (State.announced_ibiRelease _).trans ((State.announced_raiseFloor _).trans ?_)
  have resumed : State.announced (if s.roleRuns 2 then (s.irq 3).wearResume else s.irq 3) = s.announced :=
    ite_frame State.announced (((s.irq 3).announced_wearResume remounts worn).trans (s.announced_irq 3)) (s.announced_irq 3)
  exact ite_frame State.announced ((State.announced_ibi _ _).trans resumed) resumed

theorem State.brought_startLoaded : s.startLoaded.brought.2 = s.brought.2 := by
  rw [State.startLoaded, State.brought_loadPolicy, State.brought_advanceMarks, State.brought_clearQueues, State.brought_formHerd]

theorem State.startLoaded_queue (q : Nat) : (s.startLoaded.queue q).st = .disabled := by
  have loaded : s.startLoaded.brought = s.formHerd.clearQueues.brought := by
    rw [State.startLoaded, State.brought_loadPolicy, State.brought_advanceMarks]
  have front : s.startLoaded.cfe = s.formHerd.clearQueues.cfe := State.cfe_congr _ loaded
  rw [State.queue, front]
  exact s.formHerd.clearQueues_disabled q

theorem State.startLoaded_enabled : s.startLoaded.gd.run = true ∧ s.startLoaded.ctu.run = true ∧ s.startLoaded.car.en = true ∧
    s.startLoaded.rly.en = true := by
  rw [State.startLoaded, State.loadPolicy_eq]
  exact ⟨rfl, rfl, rfl, rfl⟩

/-! ## What an enumeration under way leaves (R299) -/

/-- What enumeration neither takes up nor changes. -/
def State.untethered (s : State) : List (Wear × Bool) × (Image × Image) × List Work :=
  (s.fsu.heldWear, (s.flash.imgA, s.flash.imgB), s.work)

theorem State.untethered_congr {v : State} (h : v.announced = s.announced) : v.untethered = s.untethered := by
  simp only [State.announced, State.handed, Prod.mk.injEq] at h
  obtain ⟨-, ⟨-, worn⟩, ⟨imgA, imgB, -⟩, -, work, -⟩ := h
  rw [State.untethered, worn, imgA, imgB, work]
  rfl

theorem State.untethered_assignRow (r : Nat) : (s.assignRow r).untethered = s.untethered := by
  rw [State.assignRow_eq]
  generalize (s.rowClusters r).find? _ = left
  refine Eq.trans (b := State.untethered ((s.rowClusters r).foldl State.assignHome s)) ?_
    (foldl_frame State.untethered (f := State.assignHome) (fun _ _ => rfl) _ _)
  cases left <;> rfl

theorem State.untethered_enumerate : s.enumerate.untethered = s.untethered :=
  foldl_frame State.untethered State.untethered_assignRow _ s

theorem State.untethered_farrierNotes (kind phys new cause : Nat) :
    (s.farrierNotes kind phys new cause).untethered = s.untethered :=
  ite_frame State.untethered (State.untethered_congr s (s.announced_noteRemount kind phys new cause)) rfl

theorem State.untethered_noteSeq (p : Nat × Nat × Nat) : (s.noteSeq p).untethered = s.untethered :=
  ite_frame State.untethered (State.untethered_congr (s.dropRemount p) (State.announced_setTack _ _))
    ((s.dropRemount p).untethered_farrierNotes _ _ _ _)

theorem State.untethered_enumNoted : s.enumNoted.untethered = s.untethered := by
  have lost (v : State) (n : Nat) : (v.noSpareLeft 2 (homePos n)).untethered = v.untethered :=
    State.untethered_congr v (State.announced_err _ _ (by simp))
  exact (foldl_frame State.untethered State.untethered_noteSeq _ _).trans
    ((foldl_frame State.untethered lost _ _).trans s.untethered_enumerate)

/-- A start that goes on after its enumeration has a sequencer. -/
theorem State.enumEnd_noted (starts : s.enumEnd.startFails = false) : s.enumEnd = s.enumNoted := by
  by_cases none : s.enumNoted.presentList = []
  · have fails : s.enumEnd.startFails = true := by
      rw [State.enumEnd_eq, if_pos none, State.startFails]
      simp [show (s.enumNoted.push [.startFail]).presentList = s.enumNoted.presentList from rfl, none]
    exact absurd (fails.symm.trans starts) (by decide)
  · rw [State.enumEnd_eq, if_neg none]

theorem State.untethered_enumDone (starts : s.enumDone.startFails = false) : s.enumDone.untethered = s.untethered := by
  unfold State.enumDone at starts ⊢
  by_cases asked : s.tth.enumReq = true
  · rw [if_pos asked] at starts ⊢
    rw [s.enumEnd_noted starts, s.untethered_enumNoted]
  · rw [if_neg asked]

end

end Sys2Proof.Machine

namespace Sys2Proof.Machine

/-! ## The end of a start (R298, R307) -/

theorem State.standing_congr {s v : State} (h : v.announced = s.announced) : v.standing = s.standing := congrArg Prod.fst h

theorem State.handed_congr {s v : State} (h : v.announced = s.announced) : v.handed = s.handed := congrArg Prod.snd h

theorem State.up_iff (s : State) : s.up = true ↔ s.gcs.state = 2 ∨ s.gcs.state = 3 := by simp [State.up]

/-- The units of the scheduler. -/
def State.units (s : State) : Cfe × Gd × Ctu × Car × Rly := (s.cfe, s.gd, s.ctu, s.car, s.rly)

theorem State.handed_emptied (s : State) : s.emptyReserve.startedUp.handed =
    ((s.fsu.remounts, s.fsu.heldWear), (s.flash.imgA, s.flash.imgB, []), s.units, s.work, s.fwc.cores) :=
  (State.handed_startedUp _).trans (State.handed_congr s.announced_emptyReserve)

theorem State.announced_released {s : State} (remounts : s.fsu.remounts = []) (worn : s.fsu.heldWear = []) :
    s.startTold.startReleased.announced = s.announced := by
  obtain ⟨remounts, worn⟩ := s.waits_congr s.announced_startTold remounts worn
  exact (State.announced_startReleased _ remounts worn).trans s.announced_startTold

/-- The block is READY or DEGRADED at step 11, with the enable bits set and every queue disabled; the start's watchdog is off, the
mapping is frozen only for a core of `m` that restarts, and of the flash the reserve is empty (R307, R349). -/
def State.readyFrom (m u : State) : Prop :=
  (u.gcs.state = 2 ∨ u.gcs.state = 3) ∧ u.gcs.step = 11 ∧
    u.gd.run = true ∧ u.ctu.run = true ∧ u.car.en = true ∧ u.rly.en = true ∧ u.fwc.watchdog = none ∧
    u.fwc.frozen = m.coreRestarts ∧ (∀ q, (u.queue q).st = .disabled) ∧ u.flash.reserve = [] ∧
    u.flash.imgA = m.flash.imgA ∧ u.flash.imgB = m.flash.imgB

theorem State.queue_cfe {s v : State} (h : v.cfe = s.cfe) (q : Nat) : v.queue q = s.queue q := by rw [State.queue, State.queue, h]

theorem State.readyFrom_of {m u : State} (standing : u.standing = ((true, 11), none, m.coreRestarts))
    (handed : u.handed = (([], []), (m.flash.imgA, m.flash.imgB, []), m.startLoaded.units, m.work, m.fwc.cores)) :
    m.readyFrom u := by
  simp only [State.standing, State.handed, State.units, Prod.mk.injEq] at standing handed
  obtain ⟨⟨up, step⟩, watchdog, frozen⟩ := standing
  obtain ⟨-, ⟨imgA, imgB, reserve⟩, ⟨cfe, gd, ctu, car, rly⟩, -, -⟩ := handed
  have enabled := m.startLoaded_enabled
  rw [← gd, ← ctu, ← car, ← rly] at enabled
  obtain ⟨gd, ctu, car, rly⟩ := enabled
  have queues (q : Nat) : (u.queue q).st = .disabled := by
    rw [State.queue_cfe cfe, m.startLoaded_queue]
  exact ⟨u.up_iff.1 up, step, gd, ctu, car, rly, watchdog, frozen, queues, reserve, imgA, imgB⟩

/-- Steps 9 to 11 of a start. -/
def State.startTail (s : State) : State := s.startLoaded.emptyReserve.startedUp.startTold.startReleased

section
variable {m : State} (remounts : m.fsu.remounts = []) (worn : m.fsu.heldWear = [])

theorem State.handed_ready : m.startLoaded.emptyReserve.startedUp.handed =
    ((m.fsu.remounts, m.fsu.heldWear), (m.flash.imgA, m.flash.imgB, []), m.startLoaded.units, m.work, m.fwc.cores) := by
  have loaded := m.brought_startLoaded
  simp only [State.brought, Prod.mk.injEq] at loaded
  obtain ⟨⟨remounts, worn⟩, ⟨imgA, imgB⟩, work, cores⟩ := loaded
  rw [State.handed_emptied, remounts, worn, imgA, imgB, work, cores]

include remounts worn

theorem State.announced_startTail : m.startTail.announced = m.startLoaded.emptyReserve.startedUp.announced := by
  have ready := m.handed_ready
  rw [remounts, worn, State.handed, Prod.mk.injEq, Prod.mk.injEq] at ready
  obtain ⟨⟨remounts, worn⟩, -⟩ := ready
  exact State.announced_released remounts worn

theorem State.standing_startTail : m.startTail.standing = ((true, 11), none, m.coreRestarts) := by
  have emptied := (State.handed_startedUp _).symm.trans m.handed_ready
  simp only [State.handed, Prod.mk.injEq] at emptied
  obtain ⟨-, -, -, -, cores⟩ := emptied
  rw [State.standing_congr (State.announced_startTail remounts worn), State.standing_startedUp, State.coreRestarts, cores,
    State.coreRestarts]

theorem State.handed_startTail : m.startTail.handed =
    (([], []), (m.flash.imgA, m.flash.imgB, []), m.startLoaded.units, m.work, m.fwc.cores) := by
  rw [State.handed_congr (State.announced_startTail remounts worn), State.handed_ready, remounts, worn]

theorem State.readyFrom_startTail : m.readyFrom m.startTail :=
  State.readyFrom_of (State.standing_startTail remounts worn) (State.handed_startTail remounts worn)

theorem State.startTail_work : m.startTail.work = m.work := by
  have handed := State.handed_startTail remounts worn
  simp only [State.handed, Prod.mk.injEq] at handed
  obtain ⟨-, -, -, work, -⟩ := handed
  exact work

end

section
variable {s : State} {t : Nat} (idle : s.work = []) (worn : s.fsu.heldWear = []) (ready : s.startReady = true)
include ready

theorem startEnd_fails (fails : (s.at t).enumDone.startFails = true) : ∃ u, exec (.startEnd t) s = .next u ∧
    Acts (s.at t).enumDone.startFailed u := by
  have ends : (s.at t).startEnd = (s.at t).enumDone.startFailed := by
    rw [State.startEnd_eq (s.at t) ready, if_pos fails]
  exact leads_eq rfl ends

include idle worn

theorem startEnd_starts (starts : (s.at t).enumDone.startFails = false) (remounts : (s.at t).enumDone.fsu.remounts = []) :
    exec (.startEnd t) s = .next (s.at t).enumDone.startTail ∧ (s.at t).enumDone.readyFrom (s.at t).enumDone.startTail ∧
      (s.at t).enumDone.flash.imgA = s.flash.imgA ∧ (s.at t).enumDone.flash.imgB = s.flash.imgB := by
  have kept := (s.at t).untethered_enumDone starts
  simp only [State.untethered, Prod.mk.injEq] at kept
  obtain ⟨quiet, ⟨imgA, imgB⟩, work⟩ := kept
  replace quiet : (s.at t).enumDone.fsu.heldWear = [] := quiet.trans worn
  have ends : (s.at t).startEnd = (s.at t).enumDone.startTail := by
    rw [State.startEnd_eq (s.at t) ready, if_neg (Bool.eq_false_iff.1 starts)]
    rfl
  have still : (s.at t).enumDone.startTail.work = [] := (State.startTail_work remounts quiet).trans (work.trans idle)
  exact ⟨exec_next rfl ends still, State.readyFrom_startTail remounts quiet, imgA, imgB⟩

end

/-- Settles O26: the end of a start is followed through its announcements, its steps and the choice of its image clause by clause. -/
theorem startEndsReady : Obligations.StartEndsReady := by
  unfold Obligations.StartEndsReady
  refine ⟨fun s t idle worn ready => ⟨fun starts remounts => ?_, startEnd_fails ready⟩, fun s kind => ?_, fun s warm n => ?_⟩
  · obtain ⟨ends, ⟨state, step, gd, ctu, car, rly, watchdog, frozen, queues, reserve, imgA, imgB⟩, sameA, sameB⟩ :=
      startEnd_starts idle worn ready starts remounts
    exact ⟨_, ends, state, step, gd, ctu, car, rly, watchdog, frozen, queues, reserve, imgA.trans sameA, imgB.trans sameB⟩
  · refine ⟨State.startSteps_unreadable, fun readable v => ⟨State.startSteps_refused readable, fun boot => ?_⟩⟩
    intro cores pet armed d
    have same : v.startArmed (decide (kind = 3)) s.env.dev.fwCores = d := rfl
    rw [State.startSteps_accepted readable boot, same]
    clear_value d
    exact ⟨State.startGrooms_fails, State.startGrooms_kept, State.startGrooms_due⟩
  · refine ⟨State.bootImage_none n, fun b choice =>
      ⟨State.bootImage_same n choice, State.bootImage_passes n choice, fun other k => ?_⟩,
      fun k => ⟨Tack.choose_preferred, Tack.choose_other, Tack.choose_none⟩, ⟨rfl, s.safeMode_reported⟩,
      fun new p => ⟨State.repairUnit_spare new, fun l unit =>
        ⟨fun k => State.repairUnit_moves new unit, State.repairUnit_loses new unit⟩⟩,
      State.applyRepair_sound, State.applyRepair_eq s⟩
    exact State.bootImage_fails n choice other

end Sys2Proof.Machine
